-- ==== Sys2Proof/Word.lean ====
section
/-! DEFINITION. The word types of the machine (R4, R12, R26) and their plainest arithmetic. -/

namespace Sys2Proof

/-- One byte of memory. -/
abbrev Byte := BitVec 8

/-- One window register, one instruction word (R12, R34). -/
abbrev Word := BitVec 32

/-- A pair value or a generic address (R12). -/
abbrev DWord := BitVec 64

/-- A quad value (R12). -/
abbrev QWord := BitVec 128

/-- A window register name w0 to w127 (R36). -/
abbrev Reg := BitVec 7

/-- The pair value with `lo` in the even register and `hi` in the odd one (R12). -/
def Word.pair (lo hi : Word) : DWord := hi ++ lo

/-- The low word of a pair (R12). -/
def DWord.lo (x : DWord) : Word := x.truncate 32

/-- The high word of a pair (R12). -/
def DWord.hi (x : DWord) : Word := (x >>> 32).truncate 32

/-- A truth value as a register result 0 or 1. -/
def Word.ofBool (b : Bool) : Word := if b then 1 else 0

end Sys2Proof
end

