-- ==== Sys2Proof/Config.lean ====
section
/-! DEFINITION. What an implementation fixes and the manual leaves open: constants with no body, so
that a statement about them holds whatever they are; and the figures of R3 and R163. -/

namespace Sys2Proof

/-- PHYSREV[15:0], the silicon stepping (R16): the manual gives 0x0001 for the first only. UNVERIFIED (log entry 6). -/
opaque Config.stepping : BitVec 16

/-- Whether a CLOCK count passes in the n-th arithmetic cycle after READY: the ratio and phase of
the two clocks are not specified (R19). UNVERIFIED (log entry 5). -/
opaque Config.clockCounts : Nat → Bool

/-- Steps of 5 mV between the calibrated floor and nominal voltage of a domain (R333). UNVERIFIED (log entry 18). -/
opaque Config.nominalSteps : Nat → Nat → Nat

/-- The calibrated floor of a die's supply voltage in mV, above which every step adds 5 mV (R326, R333). UNVERIFIED (log entry 18). -/
opaque Config.floorMilliVolts : Nat → BitVec 16

/-- The base die whose stack holds a part of a die's memory: each carries the parts of two (R3, R332). UNVERIFIED (log entry 6). -/
opaque Config.baseDie : Nat → Nat

/-- Miss entries of a core's L1, less one: how many there are is not stated (R142). UNVERIFIED (log entry 6). -/
opaque Config.missEntries : Nat

/-- Cycles of a scheduler's rebuild that starts in the n-th cycle, of which R330 gives only the bound. UNVERIFIED (log entry 18). -/
opaque Config.rebuildCycles : Nat → Nat

/-- Live threads of the other member launches of a group in a cycle, by tag and number of the group (R304). UNVERIFIED (log entry 27). -/
opaque Config.groupLive : Nat → Nat → Nat → Nat

/-- Arrivals that the other members of a group have sent by a cycle for a phase of a pod barrier: tag and number of the group, barrier,
phase, cycle (R304). UNVERIFIED (log entry 27). -/
opaque Config.groupArrived : Nat → Nat → Nat → Nat → Nat → Nat

/-- Whether an access in the n-th cycle that finds a TLB entry differing from the changed table still uses
the old translation: not specified until INVALVA reads 0 (R178). UNVERIFIED (log entry 7). -/
opaque Config.oldTranslation : Nat → Bool

/-- The VA field of the n-th fault record where it is of kind 6, or of a debug stop at BKPT: not stated (R278). DESIGN CHOICE (log entry 19). -/
opaque Config.recordVa : Nat → Nat

/-- The launch id field of the n-th trace record where it is of kind 5: a rollback is of several launches (R326, R331). DESIGN CHOICE (log entry 19). -/
opaque Config.rollbackName : Nat → Nat

/-- Dies of the package, cores of a die, cores of a quad (R3, R179). -/
def Config.dies : Nat := 24
def Config.coresPerDie : Nat := 52
def Config.coresPerQuad : Nat := 4

/-- The carve menu of R163, in KiB. -/
def Config.carves : List Nat := [0, 16, 32, 48, 64, 96, 128, 160, 192, 224, 256]

/-- HBM of one die in bytes: 18 GB, each stack split between two dies (R3, R6). -/
def Config.hbmPerDie : Nat := 18000000000

end Sys2Proof
end

