-- ==== Sys2Proof/Syntax.lean ====
section
/-! DEFINITION. The names the part uses for its agents, and the ONE inductive of its steps: every
row of spec/opcode_table.json is a constructor of `Instr`. The first field `sp` of an instruction
word is its switch-point bit S (R34, R39). A step that is no instruction word names the agent or
the request it is about, and carries what the host writes where the host starts it. -/

namespace Sys2Proof

/-- A core of the package: die 0 to 23, core number 0 to 51 within the die (R3, R16). -/
structure CoreId where
  die  : Nat
  core : Nat
  deriving DecidableEq, Repr

/-- A thread, named as every record names it: launch id, linear team index, linear thread index (R324). -/
structure ThreadId where
  launch : Nat
  team   : Nat
  lin    : Nat
  deriving DecidableEq, Repr

/-- A crew: launch id, linear team index, crew index within the team (R118). -/
structure CrewId where
  launch : Nat
  team   : Nat
  crew   : Nat
  deriving DecidableEq, Repr

/-- Why a fetched word does not issue: the checks of R59 that are no check of the instruction's own. -/
inductive FetchFault where
  /-- Step 1: the pc has fallen through to the segment's length (R34, R345 cause 1). -/
  | codebound
  /-- Steps 3 to 5: an ILLEGAL word with its reason of R61, 1 to 6. -/
  | illegal (reason : Nat)
  deriving DecidableEq, Repr

/-- A stored bit that a single fault can corrupt (R327, R328). -/
inductive FaultLoc where
  /-- One bit of the device memory, addressed by physical byte address. -/
  | memory (pa : Nat) (bit : Nat)
  /-- One bit of a thread's register, by backing index. -/
  | register (t : ThreadId) (idx : Nat) (bit : Nat)
  /-- One bit of a team's scratch. -/
  | scratch (launch team : Nat) (off : Nat) (bit : Nat)
  /-- One bit of a resident code word. -/
  | code (k : CoreId) (entry : Nat) (off : Nat) (bit : Nat)
  /-- One bit of a thread's candidate buffer. -/
  | candidate (t : ThreadId) (off : Nat) (bit : Nat)
  /-- One bit of an entry of a core's Eyelet table. -/
  | eyelet (k : CoreId) (entry : Nat) (bit : Nat)
  /-- One bit of a quad's crew tables. -/
  | crewTable (die quad : Nat) (bit : Nat)
  /-- One bit of a byte held in a line of a core's L1. -/
  | l1 (k : CoreId) (line off : Nat) (bit : Nat)
  /-- One bit of a byte held in a line of a die's L2. -/
  | l2 (die : Nat) (line off : Nat) (bit : Nat)
  /-- One bit of the tag of a line of a die's L2. -/
  | l2tag (die : Nat) (line : Nat) (bit : Nat)
  deriving DecidableEq, Repr

/-- The management and VF registers whose write has no behaviour of its own (R334 and the register
tables of R126, R173, R275, R277, R282, R289, R300, R302, R304, R309, R325). -/
inductive HostReg where
  | dlsize | burnlog | podcfg
  | trbase | trlog | trctl | trhead
  | share (vf : Nat)
  | ptroot (vf : Nat)
  | qbase (vf q : Nat) | qlogsize (vf q : Nat)
  | fqbase (vf : Nat) | fqlog (vf : Nat)
  | savebase (vf : Nat) | savestride (vf : Nat) | saveslots (vf : Nat)
  | dbgctl (vf : Nat)
  | watchVa (vf i : Nat) | watchLen (vf i : Nat) | watchKinds (vf i : Nat)
  | eyebuf (vf : Nat)
  | lgroup (vf q : Nat)
  | replica (vf i : Nat)
  | lcount (vf : Nat) | migepoch (vf : Nat)
  /-- A semaphore of the block, written by a master with any value (R306). -/
  | sem (m i : Nat)
  deriving DecidableEq, Repr

/-- The part's steps, one constructor for each row of the opcode table. -/
inductive Instr where
  -- INT (opcode map of 03_encoding.md)
  /-- ADD (R65): Adds two registers mod 2^32. -/
  | add (sp : Bool) (d : Reg) (a : Reg) (b : Reg)
  /-- SUB (R65): Subtracts b from a mod 2^32. -/
  | sub (sp : Bool) (d : Reg) (a : Reg) (b : Reg)
  /-- MULLO (R65): Low 32 bits of the product. -/
  | mullo (sp : Bool) (d : Reg) (a : Reg) (b : Reg)
  /-- MULHI.s32 (R65): High 32 bits of the signed product. -/
  | mulhiS32 (sp : Bool) (d : Reg) (a : Reg) (b : Reg)
  /-- MULHI.n32 (R65): High 32 bits of the natural product. -/
  | mulhiN32 (sp : Bool) (d : Reg) (a : Reg) (b : Reg)
  /-- MULW.s32 (R65): 64-bit signed product into a pair. -/
  | mulwS32 (sp : Bool) (d : Reg) (a : Reg) (b : Reg)
  /-- MULW.n32 (R65): 64-bit natural product into a pair. -/
  | mulwN32 (sp : Bool) (d : Reg) (a : Reg) (b : Reg)
  /-- MAD (R65): d plus a times b mod 2^32. -/
  | mad (sp : Bool) (d : Reg) (a : Reg) (b : Reg)
  /-- DIV.s32 (R66): Signed division with defined divide-by-zero and overflow results and flags. -/
  | divS32 (sp : Bool) (d : Reg) (a : Reg) (b : Reg)
  /-- DIV.n32 (R66): Natural division with defined divide-by-zero result. -/
  | divN32 (sp : Bool) (d : Reg) (a : Reg) (b : Reg)
  /-- REM.s32 (R66): Signed remainder. -/
  | remS32 (sp : Bool) (d : Reg) (a : Reg) (b : Reg)
  /-- REM.n32 (R66): Natural remainder. -/
  | remN32 (sp : Bool) (d : Reg) (a : Reg) (b : Reg)
  /-- AND (R65): Bitwise and. -/
  | and (sp : Bool) (d : Reg) (a : Reg) (b : Reg)
  /-- OR (R65): Bitwise or. -/
  | or (sp : Bool) (d : Reg) (a : Reg) (b : Reg)
  /-- XOR (R65): Bitwise exclusive or. -/
  | xor (sp : Bool) (d : Reg) (a : Reg) (b : Reg)
  /-- ANDN (R65): a and not b. -/
  | andn (sp : Bool) (d : Reg) (a : Reg) (b : Reg)
  /-- ORN (R65): a or not b. -/
  | orn (sp : Bool) (d : Reg) (a : Reg) (b : Reg)
  /-- SHL (R65): Shift left by b mod 32. -/
  | shl (sp : Bool) (d : Reg) (a : Reg) (b : Reg)
  /-- SHR (R65): Logical shift right. -/
  | shr (sp : Bool) (d : Reg) (a : Reg) (b : Reg)
  /-- SAR (R65): Arithmetic shift right. -/
  | sar (sp : Bool) (d : Reg) (a : Reg) (b : Reg)
  /-- ROTL (R65): Rotate left. -/
  | rotl (sp : Bool) (d : Reg) (a : Reg) (b : Reg)
  /-- ROTR (R65): Rotate right. -/
  | rotr (sp : Bool) (d : Reg) (a : Reg) (b : Reg)
  /-- MIN.s32 (R65): Signed minimum. -/
  | minS32 (sp : Bool) (d : Reg) (a : Reg) (b : Reg)
  /-- MIN.n32 (R65): Natural minimum. -/
  | minN32 (sp : Bool) (d : Reg) (a : Reg) (b : Reg)
  /-- MAX.s32 (R65): Signed maximum. -/
  | maxS32 (sp : Bool) (d : Reg) (a : Reg) (b : Reg)
  /-- MAX.n32 (R65): Natural maximum. -/
  | maxN32 (sp : Bool) (d : Reg) (a : Reg) (b : Reg)
  /-- SAD (R65): Adds absolute difference to d. -/
  | sad (sp : Bool) (d : Reg) (a : Reg) (b : Reg)
  /-- SEL (R65): Selects a or b by the condition in d. -/
  | sel (sp : Bool) (d : Reg) (a : Reg) (b : Reg)
  /-- SETEQ (R65): 1 if equal. -/
  | seteq (sp : Bool) (d : Reg) (a : Reg) (b : Reg)
  /-- SETNE (R65): 1 if not equal. -/
  | setne (sp : Bool) (d : Reg) (a : Reg) (b : Reg)
  /-- SETLT.s32 (R65): 1 if signed less. -/
  | setltS32 (sp : Bool) (d : Reg) (a : Reg) (b : Reg)
  /-- SETLT.n32 (R65): 1 if natural less. -/
  | setltN32 (sp : Bool) (d : Reg) (a : Reg) (b : Reg)
  /-- SETLE.s32 (R65): 1 if signed less or equal. -/
  | setleS32 (sp : Bool) (d : Reg) (a : Reg) (b : Reg)
  /-- SETLE.n32 (R65): 1 if natural less or equal. -/
  | setleN32 (sp : Bool) (d : Reg) (a : Reg) (b : Reg)
  /-- CLZ (R65): Counts leading zeros. -/
  | clz (sp : Bool) (d : Reg) (a : Reg)
  /-- POPC (R65): Counts one bits. -/
  | popc (sp : Bool) (d : Reg) (a : Reg)
  /-- BREV (R65): Reverses bits. -/
  | brev (sp : Bool) (d : Reg) (a : Reg)
  /-- BFX.s32 (R67): Extracts a sign-extended bit field. -/
  | bfxS32 (sp : Bool) (d : Reg) (a : Reg) (b : Reg)
  /-- BFX.n32 (R67): Extracts a zero-extended bit field. -/
  | bfxN32 (sp : Bool) (d : Reg) (a : Reg) (b : Reg)
  /-- BFI (R67): Inserts a bit field into d. -/
  | bfi (sp : Bool) (d : Reg) (a : Reg) (b : Reg)
  /-- ADD64 (R65): 64-bit add of pairs. -/
  | add64 (sp : Bool) (d : Reg) (a : Reg) (b : Reg)
  /-- SUB64 (R65): 64-bit subtract of pairs. -/
  | sub64 (sp : Bool) (d : Reg) (a : Reg) (b : Reg)
  /-- SHL64 (R65): 64-bit shift left. -/
  | shl64 (sp : Bool) (d : Reg) (a : Reg) (b : Reg)
  /-- SHR64 (R65): 64-bit logical shift right. -/
  | shr64 (sp : Bool) (d : Reg) (a : Reg) (b : Reg)
  /-- SAR64 (R65): 64-bit arithmetic shift right. -/
  | sar64 (sp : Bool) (d : Reg) (a : Reg) (b : Reg)
  /-- SETEQ64 (R65): 1 if pairs equal. -/
  | seteq64 (sp : Bool) (d : Reg) (a : Reg) (b : Reg)
  /-- SETLT64.s (R65): 1 if signed 64-bit less. -/
  | setlt64S (sp : Bool) (d : Reg) (a : Reg) (b : Reg)
  /-- SETLT64.n (R65): 1 if natural 64-bit less. -/
  | setlt64N (sp : Bool) (d : Reg) (a : Reg) (b : Reg)
  /-- MAD64.n32 (R65): Adds natural 64-bit product to the pair d. -/
  | mad64N32 (sp : Bool) (d : Reg) (a : Reg) (b : Reg)
  /-- MAD64.s32 (R65): Adds signed 64-bit product to the pair d. -/
  | mad64S32 (sp : Bool) (d : Reg) (a : Reg) (b : Reg)
  /-- MOV (R65): Copies a register. -/
  | mov (sp : Bool) (d : Reg) (a : Reg)
  /-- MOV64 (R65): Copies a pair. -/
  | mov64 (sp : Bool) (d : Reg) (a : Reg)
  -- INTI (opcode map of 03_encoding.md)
  /-- ADDI (R68): Adds a sign-extended immediate. -/
  | addi (sp : Bool) (d : Reg) (a : Reg) (imm : BitVec 10)
  /-- ANDI (R68): And with a sign-extended immediate. -/
  | andi (sp : Bool) (d : Reg) (a : Reg) (imm : BitVec 10)
  /-- ORI (R68): Or with a sign-extended immediate. -/
  | ori (sp : Bool) (d : Reg) (a : Reg) (imm : BitVec 10)
  /-- XORI (R68): Exclusive or with a sign-extended immediate. -/
  | xori (sp : Bool) (d : Reg) (a : Reg) (imm : BitVec 10)
  /-- SHLI (R68): Shift left by an immediate count. -/
  | shli (sp : Bool) (d : Reg) (a : Reg) (imm : BitVec 5)
  /-- SHRI (R68): Logical shift right by an immediate. -/
  | shri (sp : Bool) (d : Reg) (a : Reg) (imm : BitVec 5)
  /-- SARI (R68): Arithmetic shift right by an immediate. -/
  | sari (sp : Bool) (d : Reg) (a : Reg) (imm : BitVec 5)
  /-- SETLTI.s32 (R68): 1 if signed less than the immediate. -/
  | setltiS32 (sp : Bool) (d : Reg) (a : Reg) (imm : BitVec 10)
  -- FLT (opcode map of 03_encoding.md)
  /-- FADD (R85): f32 add, correctly rounded. -/
  | fadd (sp : Bool) (d : Reg) (a : Reg) (b : Reg)
  /-- FSUB (R85): f32 subtract. -/
  | fsub (sp : Bool) (d : Reg) (a : Reg) (b : Reg)
  /-- FMUL (R85): f32 multiply. -/
  | fmul (sp : Bool) (d : Reg) (a : Reg) (b : Reg)
  /-- FMA (R85): f32 fused multiply-add into d. -/
  | fma (sp : Bool) (d : Reg) (a : Reg) (b : Reg)
  /-- FMIN (R87): f32 minimumNumber. -/
  | fmin (sp : Bool) (d : Reg) (a : Reg) (b : Reg)
  /-- FMAX (R87): f32 maximumNumber. -/
  | fmax (sp : Bool) (d : Reg) (a : Reg) (b : Reg)
  /-- FDIV (R85): f32 divide. -/
  | fdiv (sp : Bool) (d : Reg) (a : Reg) (b : Reg)
  /-- FSQRT (R86): f32 square root. -/
  | fsqrt (sp : Bool) (d : Reg) (a : Reg)
  /-- FRCP (R86): f32 reciprocal. -/
  | frcp (sp : Bool) (d : Reg) (a : Reg)
  /-- FRSQ (R86): f32 reciprocal square root. -/
  | frsq (sp : Bool) (d : Reg) (a : Reg)
  /-- FEXP2 (R86): f32 power of two. -/
  | fexp2 (sp : Bool) (d : Reg) (a : Reg)
  /-- FLOG2 (R86): f32 base-2 logarithm. -/
  | flog2 (sp : Bool) (d : Reg) (a : Reg)
  /-- FABS (R85): f32 absolute value. -/
  | fabs (sp : Bool) (d : Reg) (a : Reg)
  /-- FNEG (R85): f32 negation. -/
  | fneg (sp : Bool) (d : Reg) (a : Reg)
  /-- FRINT (R85): Rounds f32 to an integral value. -/
  | frint (sp : Bool) (d : Reg) (a : Reg)
  /-- FCLASS (R88): Classifies an f32 value. -/
  | fclass (sp : Bool) (d : Reg) (a : Reg)
  /-- FSETEQ (R89): f32 equality compare. -/
  | fseteq (sp : Bool) (d : Reg) (a : Reg) (b : Reg)
  /-- FSETLT (R89): f32 less-than compare. -/
  | fsetlt (sp : Bool) (d : Reg) (a : Reg) (b : Reg)
  /-- FSETLE (R89): f32 less-or-equal compare. -/
  | fsetle (sp : Bool) (d : Reg) (a : Reg) (b : Reg)
  /-- FSETUN (R89): 1 if either f32 is NaN. -/
  | fsetun (sp : Bool) (d : Reg) (a : Reg) (b : Reg)
  /-- DADD (R90): f64 add. -/
  | dadd (sp : Bool) (d : Reg) (a : Reg) (b : Reg)
  /-- DSUB (R90): f64 subtract. -/
  | dsub (sp : Bool) (d : Reg) (a : Reg) (b : Reg)
  /-- DMUL (R90): f64 multiply. -/
  | dmul (sp : Bool) (d : Reg) (a : Reg) (b : Reg)
  /-- DFMA (R90): f64 fused multiply-add. -/
  | dfma (sp : Bool) (d : Reg) (a : Reg) (b : Reg)
  /-- DMIN (R87): f64 minimumNumber. -/
  | dmin (sp : Bool) (d : Reg) (a : Reg) (b : Reg)
  /-- DMAX (R87): f64 maximumNumber. -/
  | dmax (sp : Bool) (d : Reg) (a : Reg) (b : Reg)
  /-- DDIV (R90): f64 divide. -/
  | ddiv (sp : Bool) (d : Reg) (a : Reg) (b : Reg)
  /-- DSQRT (R90): f64 square root. -/
  | dsqrt (sp : Bool) (d : Reg) (a : Reg)
  /-- DRINT (R90): Rounds f64 to an integral value. -/
  | drint (sp : Bool) (d : Reg) (a : Reg)
  /-- DSETEQ (R89): f64 equality compare. -/
  | dseteq (sp : Bool) (d : Reg) (a : Reg) (b : Reg)
  /-- DSETLT (R89): f64 less-than compare. -/
  | dsetlt (sp : Bool) (d : Reg) (a : Reg) (b : Reg)
  /-- DSETLE (R89): f64 less-or-equal compare. -/
  | dsetle (sp : Bool) (d : Reg) (a : Reg) (b : Reg)
  /-- HADD2 (R91): Packed f16 add. -/
  | hadd2 (sp : Bool) (d : Reg) (a : Reg) (b : Reg)
  /-- HMUL2 (R91): Packed f16 multiply. -/
  | hmul2 (sp : Bool) (d : Reg) (a : Reg) (b : Reg)
  /-- HFMA2 (R91): Packed f16 fused multiply-add. -/
  | hfma2 (sp : Bool) (d : Reg) (a : Reg) (b : Reg)
  /-- BADD2 (R91): Packed bf16 add. -/
  | badd2 (sp : Bool) (d : Reg) (a : Reg) (b : Reg)
  /-- BMUL2 (R91): Packed bf16 multiply. -/
  | bmul2 (sp : Bool) (d : Reg) (a : Reg) (b : Reg)
  /-- BFMA2 (R91): Packed bf16 fused multiply-add. -/
  | bfma2 (sp : Bool) (d : Reg) (a : Reg) (b : Reg)
  -- CVT (opcode map of 03_encoding.md)
  /-- CVT.f32.s32 (R92): s32 to f32. -/
  | cvtF32S32 (sp : Bool) (d : Reg) (a : Reg)
  /-- CVT.f32.n32 (R92): n32 to f32. -/
  | cvtF32N32 (sp : Bool) (d : Reg) (a : Reg)
  /-- CVT.s32.f32 (R93): f32 to s32 with saturation. -/
  | cvtS32F32 (sp : Bool) (d : Reg) (a : Reg)
  /-- CVT.n32.f32 (R93): f32 to n32 with saturation. -/
  | cvtN32F32 (sp : Bool) (d : Reg) (a : Reg)
  /-- CVT.f64.f32 (R92): f32 to f64, exact. -/
  | cvtF64F32 (sp : Bool) (d : Reg) (a : Reg)
  /-- CVT.f32.f64 (R92): f64 to f32, rounded. -/
  | cvtF32F64 (sp : Bool) (d : Reg) (a : Reg)
  /-- CVT.f64.s32 (R92): s32 to f64. -/
  | cvtF64S32 (sp : Bool) (d : Reg) (a : Reg)
  /-- CVT.s32.f64 (R93): f64 to s32. -/
  | cvtS32F64 (sp : Bool) (d : Reg) (a : Reg)
  /-- CVT.f64.s64 (R92): s64 to f64. -/
  | cvtF64S64 (sp : Bool) (d : Reg) (a : Reg)
  /-- CVT.s64.f64 (R93): f64 to s64. -/
  | cvtS64F64 (sp : Bool) (d : Reg) (a : Reg)
  /-- CVT.f64.n64 (R92): n64 to f64. -/
  | cvtF64N64 (sp : Bool) (d : Reg) (a : Reg)
  /-- CVT.n64.f64 (R93): f64 to n64. -/
  | cvtN64F64 (sp : Bool) (d : Reg) (a : Reg)
  /-- PACK.f16 (R94): Packs two f32 into two f16. -/
  | packF16 (sp : Bool) (d : Reg) (a : Reg) (b : Reg)
  /-- PACK.bf16 (R94): Packs two f32 into two bf16. -/
  | packBf16 (sp : Bool) (d : Reg) (a : Reg) (b : Reg)
  /-- UNPK.f16 (R94): Unpacks two f16 into an f32 pair. -/
  | unpkF16 (sp : Bool) (d : Reg) (a : Reg)
  /-- UNPK.bf16 (R94): Unpacks two bf16 into an f32 pair. -/
  | unpkBf16 (sp : Bool) (d : Reg) (a : Reg)
  /-- SEXT8 (R95): Sign-extends the low byte. -/
  | sext8 (sp : Bool) (d : Reg) (a : Reg)
  /-- SEXT16 (R95): Sign-extends the low half-word. -/
  | sext16 (sp : Bool) (d : Reg) (a : Reg)
  /-- QNT.n8 (R96): Quantises f32 to an N8 element under a block exponent. -/
  | qntN8 (sp : Bool) (d : Reg) (a : Reg) (b : Reg)
  /-- DQNT.n8 (R96): Dequantises an N8 element to f32. -/
  | dqntN8 (sp : Bool) (d : Reg) (a : Reg) (b : Reg)
  -- UIMM (opcode map of 03_encoding.md)
  /-- LDS (R69): Loads a sign-extended 18-bit constant. -/
  | lds (sp : Bool) (d : Reg) (imm : BitVec 18)
  /-- LDH (R69): Loads an immediate shifted left by 14. -/
  | ldh (sp : Bool) (d : Reg) (imm : BitVec 18)
  /-- ORL (R69): Ors a zero-extended immediate into d. -/
  | orl (sp : Bool) (d : Reg) (imm : BitVec 18)
  /-- ADDPC (R69): Forms a code address relative to PC. -/
  | addpc (sp : Bool) (d : Reg) (imm : BitVec 18)
  -- BR (opcode map of 03_encoding.md)
  /-- BEQZ (R70): Branches if the register is zero. -/
  | beqz (sp : Bool) (a : Reg) (off : BitVec 17)
  /-- BNEZ (R70): Branches if non-zero. -/
  | bnez (sp : Bool) (a : Reg) (off : BitVec 17)
  /-- BLTZ (R70): Branches if negative. -/
  | bltz (sp : Bool) (a : Reg) (off : BitVec 17)
  /-- BGEZ (R70): Branches if non-negative. -/
  | bgez (sp : Bool) (a : Reg) (off : BitVec 17)
  /-- BGTZ (R70): Branches if positive. -/
  | bgtz (sp : Bool) (a : Reg) (off : BitVec 17)
  /-- BLEZ (R70): Branches if not positive. -/
  | blez (sp : Bool) (a : Reg) (off : BitVec 17)
  /-- BRA (R70): Branches always within the segment. -/
  | bra (sp : Bool) (off : BitVec 17)
  -- J (opcode map of 03_encoding.md)
  /-- JMP (R71): Jumps within the segment. -/
  | jmp (sp : Bool) (off : BitVec 25)
  /-- CALL (R71): Calls within the segment, writing LK. -/
  | call (sp : Bool) (off : BitVec 25)
  -- LD (opcode map of 03_encoding.md)
  /-- LD8.s (R78): Loads a sign-extended byte. -/
  | ld8S (sp : Bool) (pol : BitVec 2) (d : Reg) (a : Reg) (off : BitVec 8)
  /-- LD8.n (R78): Loads a zero-extended byte. -/
  | ld8N (sp : Bool) (pol : BitVec 2) (d : Reg) (a : Reg) (off : BitVec 8)
  /-- LD16.s (R78): Loads a sign-extended half-word. -/
  | ld16S (sp : Bool) (pol : BitVec 2) (d : Reg) (a : Reg) (off : BitVec 8)
  /-- LD16.n (R78): Loads a zero-extended half-word. -/
  | ld16N (sp : Bool) (pol : BitVec 2) (d : Reg) (a : Reg) (off : BitVec 8)
  /-- LD32 (R78): Loads a word. -/
  | ld32 (sp : Bool) (pol : BitVec 2) (d : Reg) (a : Reg) (off : BitVec 8)
  /-- LD64 (R78): Loads a pair. -/
  | ld64 (sp : Bool) (pol : BitVec 2) (d : Reg) (a : Reg) (off : BitVec 8)
  /-- LD128 (R78): Loads a quad. -/
  | ld128 (sp : Bool) (pol : BitVec 2) (d : Reg) (a : Reg) (off : BitVec 8)
  -- ST (opcode map of 03_encoding.md)
  /-- ST8 (R79): Stores a byte. -/
  | st8 (sp : Bool) (pol : BitVec 2) (d : Reg) (a : Reg) (off : BitVec 8)
  /-- ST16 (R79): Stores a half-word. -/
  | st16 (sp : Bool) (pol : BitVec 2) (d : Reg) (a : Reg) (off : BitVec 8)
  /-- ST32 (R79): Stores a word. -/
  | st32 (sp : Bool) (pol : BitVec 2) (d : Reg) (a : Reg) (off : BitVec 8)
  /-- ST64 (R79): Stores a pair. -/
  | st64 (sp : Bool) (pol : BitVec 2) (d : Reg) (a : Reg) (off : BitVec 8)
  /-- ST128 (R79): Stores a quad. -/
  | st128 (sp : Bool) (pol : BitVec 2) (d : Reg) (a : Reg) (off : BitVec 8)
  -- ATOM (opcode map of 03_encoding.md)
  /-- AADD.scope (R186): Atomic add at the scope's place. -/
  | aadd (sp : Bool) (sc : BitVec 2) (d : Reg) (a : Reg) (b : Reg)
  /-- AADD64.scope (R186): Atomic 64-bit add. -/
  | aadd64 (sp : Bool) (sc : BitVec 2) (d : Reg) (a : Reg) (b : Reg)
  /-- AMIN.s32.scope (R186): Atomic signed minimum. -/
  | aminS32 (sp : Bool) (sc : BitVec 2) (d : Reg) (a : Reg) (b : Reg)
  /-- AMIN.n32.scope (R186): Atomic natural minimum. -/
  | aminN32 (sp : Bool) (sc : BitVec 2) (d : Reg) (a : Reg) (b : Reg)
  /-- AMAX.s32.scope (R186): Atomic signed maximum. -/
  | amaxS32 (sp : Bool) (sc : BitVec 2) (d : Reg) (a : Reg) (b : Reg)
  /-- AMAX.n32.scope (R186): Atomic natural maximum. -/
  | amaxN32 (sp : Bool) (sc : BitVec 2) (d : Reg) (a : Reg) (b : Reg)
  /-- AAND.scope (R186): Atomic and. -/
  | aand (sp : Bool) (sc : BitVec 2) (d : Reg) (a : Reg) (b : Reg)
  /-- AOR.scope (R186): Atomic or. -/
  | aor (sp : Bool) (sc : BitVec 2) (d : Reg) (a : Reg) (b : Reg)
  /-- AXOR.scope (R186): Atomic exclusive or. -/
  | axor (sp : Bool) (sc : BitVec 2) (d : Reg) (a : Reg) (b : Reg)
  /-- AXCHG.scope (R186): Atomic exchange. -/
  | axchg (sp : Bool) (sc : BitVec 2) (d : Reg) (a : Reg) (b : Reg)
  /-- AXCHG64.scope (R186): Atomic 64-bit exchange. -/
  | axchg64 (sp : Bool) (sc : BitVec 2) (d : Reg) (a : Reg) (b : Reg)
  /-- ACAS.scope (R186): Atomic compare and swap. -/
  | acas (sp : Bool) (sc : BitVec 2) (d : Reg) (a : Reg) (b : Reg)
  /-- ACAS64.scope (R186): Atomic 64-bit compare and swap. -/
  | acas64 (sp : Bool) (sc : BitVec 2) (d : Reg) (a : Reg) (b : Reg)
  /-- AFADD.scope (R186): Atomic f32 add, RNE. -/
  | afadd (sp : Bool) (sc : BitVec 2) (d : Reg) (a : Reg) (b : Reg)
  /-- AFADD64.scope (R186): Atomic f64 add, RNE. -/
  | afadd64 (sp : Bool) (sc : BitVec 2) (d : Reg) (a : Reg) (b : Reg)
  /-- AINCW.scope (R186): Atomic increment with wrap bound. -/
  | aincw (sp : Bool) (sc : BitVec 2) (d : Reg) (a : Reg) (b : Reg)
  -- SYNC (opcode map of 03_encoding.md)
  /-- FENCE.kind.scope (R188): Orders the thread's own accesses at a scope, holding until done. -/
  | fence (sp : Bool) (kind : BitVec 2) (sc : BitVec 3)
  /-- LDSC (R189): Sequentially consistent load at the home slice. -/
  | ldsc (sp : Bool) (d : Reg) (a : Reg)
  /-- STSC (R189): Sequentially consistent store. -/
  | stsc (sp : Bool) (a : Reg) (b : Reg)
  /-- CASSC (R189): Sequentially consistent compare and swap. -/
  | cassc (sp : Bool) (d : Reg) (a : Reg) (b : Reg)
  /-- WAITC.EQ (R190): Waits until the word equals b. -/
  | waitcEq (sp : Bool) (d : Reg) (a : Reg) (b : Reg)
  /-- WAITC.NE (R190): Waits until the word differs from b. -/
  | waitcNe (sp : Bool) (d : Reg) (a : Reg) (b : Reg)
  /-- WAITC.GE.s32 (R190): Waits until signed word at least b. -/
  | waitcGeS32 (sp : Bool) (d : Reg) (a : Reg) (b : Reg)
  /-- WAITC.GE.n32 (R190): Waits until natural word at least b. -/
  | waitcGeN32 (sp : Bool) (d : Reg) (a : Reg) (b : Reg)
  /-- WAITC.LT.s32 (R190): Waits until signed word below b. -/
  | waitcLtS32 (sp : Bool) (d : Reg) (a : Reg) (b : Reg)
  /-- WAITC.LT.n32 (R190): Waits until natural word below b. -/
  | waitcLtN32 (sp : Bool) (d : Reg) (a : Reg) (b : Reg)
  /-- REDTO.ADD (R194): Atomic add and delivery of the old value to a peer team. -/
  | redtoAdd (sp : Bool) (d : Reg) (a : Reg) (b : Reg)
  /-- REDTO.FADD (R194): Atomic f32 add with delivery to a peer. -/
  | redtoFadd (sp : Bool) (d : Reg) (a : Reg) (b : Reg)
  /-- REDTO.MIN.s32 (R194): Atomic signed minimum with delivery. -/
  | redtoMinS32 (sp : Bool) (d : Reg) (a : Reg) (b : Reg)
  /-- REDTO.MAX.s32 (R194): Atomic signed maximum with delivery. -/
  | redtoMaxS32 (sp : Bool) (d : Reg) (a : Reg) (b : Reg)
  /-- REDTO.OR (R194): Atomic or with delivery. -/
  | redtoOr (sp : Bool) (d : Reg) (a : Reg) (b : Reg)
  /-- BAR.scope (R196): Arrives at a barrier and waits for the phase. -/
  | bar (sp : Bool) (a : Reg) (sc : BitVec 3)
  /-- BARA.scope (R196): Arrives at a barrier and goes on. -/
  | bara (sp : Bool) (a : Reg) (sc : BitVec 3)
  /-- BARW.scope (R196): Waits for the phase of the last arrival. -/
  | barw (sp : Bool) (a : Reg) (sc : BitVec 3)
  /-- BARINIT.scope (R196): Sets a barrier's expected count. -/
  | barinit (sp : Bool) (d : Reg) (a : Reg) (sc : BitVec 3)
  -- PAR (opcode map of 03_encoding.md)
  /-- MEET (R147): Writes the meeting register. -/
  | meet (sp : Bool) (a : Reg)
  /-- MEETQ (R147): Reads the meeting register. -/
  | meetq (sp : Bool) (d : Reg)
  /-- CSHFL (R148): Crew shuffle from an indexed rank. -/
  | cshfl (sp : Bool) (d : Reg) (a : Reg) (b : Reg)
  /-- CSHFLX (R148): Crew shuffle by rank xor. -/
  | cshflx (sp : Bool) (d : Reg) (a : Reg) (b : Reg)
  /-- CUP (R148): Crew shift from a lower rank. -/
  | cup (sp : Bool) (d : Reg) (a : Reg) (b : Reg)
  /-- CDN (R148): Crew shift from a higher rank. -/
  | cdn (sp : Bool) (d : Reg) (a : Reg) (b : Reg)
  /-- CBCAST (R148): Crew broadcast from a rank. -/
  | cbcast (sp : Bool) (d : Reg) (a : Reg) (b : Reg)
  /-- CVANY (R149): Crew vote any. -/
  | cvany (sp : Bool) (d : Reg) (a : Reg)
  /-- CVALL (R149): Crew vote all. -/
  | cvall (sp : Bool) (d : Reg) (a : Reg)
  /-- CBALLOT (R149): Crew ballot word. -/
  | cballot (sp : Bool) (d : Reg) (a : Reg)
  /-- CRADD (R150): Crew integer sum. -/
  | cradd (sp : Bool) (d : Reg) (a : Reg)
  /-- CRFADD (R151): Crew f32 sum over a fixed tree. -/
  | crfadd (sp : Bool) (d : Reg) (a : Reg)
  /-- CRMIN.s32 (R150): Crew signed minimum. -/
  | crminS32 (sp : Bool) (d : Reg) (a : Reg)
  /-- CRMAX.s32 (R150): Crew signed maximum. -/
  | crmaxS32 (sp : Bool) (d : Reg) (a : Reg)
  /-- CSCAN (R150): Crew inclusive integer scan. -/
  | cscan (sp : Bool) (d : Reg) (a : Reg)
  /-- CSCANF (R151): Crew inclusive f32 scan over the tree. -/
  | cscanf (sp : Bool) (d : Reg) (a : Reg)
  /-- SLD32 (R153): Loads a scratch word. -/
  | sld32 (sp : Bool) (d : Reg) (a : Reg)
  /-- SST32 (R153): Stores a scratch word. -/
  | sst32 (sp : Bool) (d : Reg) (a : Reg)
  /-- SLD64 (R153): Loads a scratch pair. -/
  | sld64 (sp : Bool) (d : Reg) (a : Reg)
  /-- SST64 (R153): Stores a scratch pair. -/
  | sst64 (sp : Bool) (d : Reg) (a : Reg)
  /-- QLD32 (R154): Loads a word from a quad peer's scratch. -/
  | qld32 (sp : Bool) (d : Reg) (a : Reg)
  /-- QST32 (R154): Stores a word to a quad peer's scratch. -/
  | qst32 (sp : Bool) (d : Reg) (a : Reg)
  /-- LEASE (R155): Declares the crew's lease. -/
  | lease (sp : Bool) (a : Reg)
  /-- LEASEM (R155): Makes the crew's lease measured. -/
  | leasem (sp : Bool) (a : Reg)
  /-- WORK (R156): Takes the next iteration piece. -/
  | work (sp : Bool) (d : Reg)
  /-- STEAL (R156): Steals half of another team's range. -/
  | steal (sp : Bool) (d : Reg)
  /-- EXIT (R157): Ends the thread once its queue is empty. -/
  | exit (sp : Bool)
  -- ENG (opcode map of 03_encoding.md)
  /-- COPY (R216): Streamer copy of a tensor box between global memory and scratch. -/
  | copy (sp : Bool) (d : Reg) (a : Reg) (b : Reg)
  /-- COPYM (R218): Streamer load of a box into several teams of the quad team. -/
  | copym (sp : Bool) (d : Reg) (a : Reg) (b : Reg)
  /-- RECFL (R214): Invalidates a record in every record cache. -/
  | recfl (sp : Bool) (d : Reg) (a : Reg)
  /-- TASK (R264): Issues a graver tile task. -/
  | task (sp : Bool) (d : Reg) (a : Reg)
  /-- DPROG (R262): Installs a drain program. -/
  | dprog (sp : Bool) (d : Reg) (a : Reg) (b : Reg)
  /-- DJOB (R220): Hands a job card to the Skiver. -/
  | djob (sp : Bool) (d : Reg) (a : Reg)
  /-- OVLD (R111): Requests a segment to be resident. -/
  | ovld (sp : Bool) (d : Reg) (a : Reg)
  /-- OVTOK (R111): Loads a segment and takes an explicit token. -/
  | ovtok (sp : Bool) (d : Reg) (a : Reg)
  /-- OVREL (R111): Releases an explicit token. -/
  | ovrel (sp : Bool) (a : Reg)
  /-- OVQ (R111): Reports a segment's residency. -/
  | ovq (sp : Bool) (d : Reg) (a : Reg)
  /-- SMAP (R200): Maps scratch onto global lines as a stash. -/
  | smap (sp : Bool) (d : Reg) (a : Reg) (b : Reg)
  /-- SUNMAP (R200): Ends a stash mapping after write-back. -/
  | sunmap (sp : Bool) (d : Reg) (a : Reg)
  -- STY (opcode map of 03_encoding.md)
  /-- CLOAD (R230): Loads a candidate from a code bank into the slot. -/
  | cload (sp : Bool) (d : Reg) (a : Reg) (b : Reg)
  /-- CRUN (R231): Runs the slot's candidate on a stylus pipeline under fuel. -/
  | crun (sp : Bool) (d : Reg) (a : Reg) (b : Reg)
  /-- SINIT (R233): Resets the slot signature. -/
  | sinit (sp : Bool)
  /-- SFOLD (R233): Folds a value and status into the signature. -/
  | sfold (sp : Bool) (a : Reg) (b : Reg)
  /-- SGET (R233): Returns the signature pair. -/
  | sget (sp : Bool) (d : Reg)
  /-- PROOF (R236): Offers a signature and index to the proof table. -/
  | proof (sp : Bool) (d : Reg) (a : Reg) (b : Reg)
  /-- PROOFQ (R239): Looks up a signature in the proof table. -/
  | proofq (sp : Bool) (d : Reg) (a : Reg)
  -- SYS (opcode map of 03_encoding.md)
  /-- NOP (R75): Does nothing. -/
  | nop (sp : Bool)
  /-- RDS (R74): Reads a special register. -/
  | rds (sp : Bool) (d : Reg) (b : BitVec 7)
  /-- WRS (R74): Writes a special register. -/
  | wrs (sp : Bool) (a : Reg) (b : BitVec 7)
  /-- WIN (R73): Sets the window base. -/
  | win (sp : Bool) (a : Reg)
  /-- JR (R72): Jumps to a full code address. -/
  | jr (sp : Bool) (a : Reg)
  /-- CALLX (R72): Calls a full code address. -/
  | callx (sp : Bool) (a : Reg)
  /-- RET (R72): Returns to LK. -/
  | ret (sp : Bool)
  /-- TRAP (R274): Raises a user trap. -/
  | trap (sp : Bool) (b : BitVec 7)
  /-- TRET (R274): Returns from a trap handler. -/
  | tret (sp : Bool)
  /-- BKPT (R274): Breakpoint: debug stop or trap. -/
  | bkpt (sp : Bool)
  /-- LAUNCH (R291): Appends a packet to a launch queue. -/
  | launch (sp : Bool) (d : Reg) (a : Reg) (b : Reg)
  /-- LDU (R117): Deprecated unaligned 64-bit load. -/
  | ldu (sp : Bool) (d : Reg) (a : Reg)
  /-- OCALL (R117): Deprecated call to offset 0 of a segment. -/
  | ocall (sp : Bool) (b : Reg)
  -- HINT (opcode map of 03_encoding.md)
  /-- PREF (R81): L2 prefetch of a line. -/
  | pref (sp : Bool) (a : Reg)
  /-- RESERVED_HINT (R56): HINT F 1 to 31 executes as NOP with fields ignored. -/
  | reservedHint (sp : Bool) (f : BitVec 5) (d : Reg) (a : Reg) (b : Reg)
  -- steps of the part that are no instruction word (opcode_table.json; 95_what_each_step_holds.md)
  /-- ILLEGAL_WORD_FETCH (R59): A fetched word fails judgement and the bundle's threads park faulting. -/
  | illegalWordFetch (f : FetchFault)
  /-- REFORM_BOUNDARY (R121): Every 4 cycles each quarter chooses and forms its bundle. -/
  | reformBoundary (die : Nat)
  /-- LONG_LATENCY_REPLY (R22): A reply arrives for a pending result entry. -/
  | longLatencyReply (req : Nat)
  /-- SWITCH_POINT_LEAVE (R24): A parked thread's queue empties, results land in order, and it leaves the switch point. -/
  | switchPointLeave (t : ThreadId)
  /-- CREWDIV_DETECT (R125): Detection of a crew that cannot progress faults its waiting members with CREWDIV. -/
  | crewdivDetect (c : CrewId)
  /-- TRAP_TAKEN (R271): The crew takes a deferred trap for its group once all members are stopped and replies have arrived. -/
  | trapTaken (c : CrewId)
  /-- LAUNCH_KILL (R273): A launch is killed once a permit is free, stopping its threads and completing its report. -/
  | launchKill (l : Nat)
  /-- PERMIT_BACKOFF_EXPIRY (R276): A thread's permit back-off ends and it reissues its word. -/
  | permitBackoffExpiry (t : ThreadId)
  /-- LACER_LOAD_DECISION (R105): The Lacer decides frames for the oldest queued load request, evicting as needed. -/
  | lacerLoadDecision (k : CoreId)
  /-- SEGMENT_LOAD_COMPLETE (R105): A segment load completes and settling threads resume. -/
  | segmentLoadComplete (k : CoreId) (entry : Nat)
  /-- OVFULL_TIMEOUT (R106): After 65,536 cycles without progress the settling threads take OVFULL. -/
  | ovfullTimeout (k : CoreId)
  /-- PACKET_SERVE (R128): The front end takes a packet, checks it and accepts or refuses the launch. -/
  | packetServe (vf : Nat) (q : Nat)
  /-- TEAM_PLACEMENT (R133): A pending team is placed on an admitting core, with carve change and pins. -/
  | teamPlacement (l : Nat)
  /-- LAUNCH_END (R143): The retired-team count reaches the grid size; records, write-back, lists, signal and chain follow. -/
  | launchEnd (l : Nat)
  /-- ACTIVATION_DECISION (R138): The activation controller recomputes the active set. -/
  | activationDecision (k : CoreId)
  /-- DUE_COUNT_EXPIRY (R138): An eligible crew's count reaches 16,384 and it becomes due. -/
  | dueCountExpiry (c : CrewId)
  /-- LEASE_WINDOW_EXPIRY (R140): A measured window reaches 65,536 cycles and the lease shrinks. -/
  | leaseWindowExpiry (c : CrewId)
  /-- L1_WRITEBACK_TIMER (R168): Dirty L1 bytes are written back within 16,384 cycles of their store. -/
  | l1WritebackTimer (k : CoreId) (line : Nat)
  /-- PAGE_WALK_COMPLETE (R178): A translation walk ends, setting A or D or writing one fault record. -/
  | pageWalkComplete (walk : Nat)
  /-- FAULT_RECORD_WRITE (R280): A waiting fault record is written once its queue has room. -/
  | faultRecordWrite (vf : Nat)
  /-- ATOMIC_PERFORM (R186): An atomic request is performed at its place of performance. -/
  | atomicPerform (req : Nat)
  /-- SC_ACCESS_PERFORM (R299): A home slice performs an SC access in stamp order once published clocks allow. -/
  | scAccessPerform (req : Nat)
  /-- SC_CLOCK_PUBLISH (R299): Each core publishes its SC clock every 256 CLOCK counts. -/
  | scClockPublish (k : CoreId)
  /-- MONITOR_REREAD (R191): A write to a watched word causes a new WAITC read. -/
  | monitorReread (t : ThreadId)
  /-- WAITC_POLL_TIMER (R191): A WAITC without monitor, or on a HOST word, rereads every 1,024 cycles. -/
  | waitcPollTimer (t : ThreadId)
  /-- REDTO_DELIVERY (R194): The old value is written to the target scratch and an arrival counted. -/
  | redtoDelivery (req : Nat)
  /-- BARRIER_ARRIVAL (R196): An arrival message reaches the barrier's keeper and may complete the phase. -/
  | barrierArrival (arr : Nat)
  /-- WORK_PIECE_SERVE (R136): A distributor serves WORK or STEAL requests in order. -/
  | workPieceServe (req : Nat)
  /-- ENGINE_OP_BEGIN (R209): An engine operation begins once overlapping earlier operations retire. -/
  | engineOpBegin (op : Nat)
  /-- ENGINE_RETIRE (R203): An engine operation retires, frees its entries and releases stalled accesses. -/
  | engineRetire (op : Nat)
  /-- SKIVER_JOB_STOP (R222): A Skiver job stops and writes its result length and code. -/
  | skiverJobStop (op : Nat)
  /-- COBBLER_DISPATCH (R257): The Cobbler places a queued tile task on a graver. -/
  | cobblerDispatch (op : Nat)
  /-- ESLOT_TIMEOUT (R258): An opening task waits 65,536 cycles without a free slot and ends with ESLOT. -/
  | eslotTimeout (op : Nat)
  /-- ADD_ON_STORE_PERFORM (R263): A tile add-on-store is applied indivisibly at its place. -/
  | addOnStorePerform (op : Nat)
  /-- TICKET_TILE_APPLY (R315): The ticket unit applies held add-on-store tiles in team order. -/
  | ticketTileApply (l : Nat)
  /-- CANDIDATE_STOP (R231): A running candidate stops and its pair result is ready. -/
  | candidateStop (t : ThreadId)
  /-- PROOF_PERFORM (R236): A PROOF is performed indivisibly on its bucket. -/
  | proofPerform (req : Nat)
  /-- PROOFQ_PERFORM (R239): A PROOFQ lookup is performed at the home slice. -/
  | proofqPerform (req : Nat)
  /-- WRITE_APPLY (R296): A die applies a tagged write or notice once causally ready. -/
  | writeApply (msg : Nat)
  /-- REMOTE_REQUEST_SERVE (R297): A serving die performs a request once its clock covers the horizon. -/
  | remoteRequestServe (req : Nat)
  /-- REMOTE_LINE_SEND_TIMER (R294): Dirty bytes of a remote line are sent home within 65,536 cycles. -/
  | remoteLineSendTimer (die : Nat) (line : Nat)
  /-- AUTO_SWAP_OUT (R281): A team stopped on a page fault for 1 ms may be swapped out. -/
  | autoSwapOut (l : Nat) (team : Nat)
  /-- LATE_REPLY_WRITE (R287): A reply after a save is written into the image entry. -/
  | lateReplyWrite (req : Nat)
  /-- TEAM_RESTORE (R288): A saved quad team is placed again and restored. -/
  | teamRestore (l : Nat) (quad : Nat)
  /-- MIGRATION_QUIESCED (R309): MIGCTL reaches 2 and MIGTIME is latched. -/
  | migrationQuiesced (vf : Nat)
  /-- INTERVAL_CLOSE (R331): A checkpoint interval closes and its held signals are written. -/
  | intervalClose (vf : Nat)
  /-- UNCORRECTABLE_CONSUMED (R331): Consumption of poisoned data rolls back or kills the context. -/
  | uncorrectableConsumed (vf : Nat)
  /-- TIMING_REPLAY (R329): A shadow latch catches a late transition and the cycle is replayed at half clock. -/
  | timingReplay (k : CoreId) (quarter : Nat)
  /-- SCHEDULER_REBUILD (R330): A non-one-hot scheduler state drains the quad and rebuilds. -/
  | schedulerRebuild (die : Nat) (quad : Nat)
  /-- VOLTAGE_EVALUATION (R333): Each domain's error rate is evaluated per 1,000,000 CLOCK counts. -/
  | voltageEvaluation (die : Nat) (dom : Nat)
  /-- THROTTLE_START (R336): A power or thermal limit lowers a die's clock. -/
  | throttleStart (die : Nat)
  /-- THROTTLE_END (R336): The cause clears and the clock returns. -/
  | throttleEnd (die : Nat)
  /-- TRACE_CAPTURE_STOP (R325): Capture stops 1,000,000 CLOCK counts after the last throttle end. -/
  | traceCaptureStop
  /-- POWER_ON (R335): Power-on runs calibration and starts memory initialisation. -/
  | powerOn (failing : Option Nat)
  /-- MEMORY_INIT_COMPLETE (R335): Memory initialisation ends and READY is set. -/
  | memoryInitComplete
  /-- QUEUE_TAIL (R126): A host write of a queue's TAIL makes packets visible. -/
  | queueTail (vf : Nat) (q : Nat) (v : Word)
  /-- RESUME (R279): The host settles a pending fault record with retry or fail. -/
  | resume (vf : Nat) (v : DWord)
  /-- FQHEAD (R280): A host write of FQHEAD frees room for waiting records. -/
  | fqhead (vf : Nat) (v : Word)
  /-- INVALVA (R178): Removes a VF's translations covering an address, or all of them. -/
  | invalva (vf : Nat) (va : DWord)
  /-- PREEMPT (R282): Pre-empts every resident team of a launch. -/
  | preempt (vf : Nat) (l : DWord)
  /-- RESTOREL (R288): Lets a launch's pre-empted teams be placed again. -/
  | restorel (vf : Nat) (l : DWord)
  /-- EYELET_SPILL (R289): EYECMD spills an Eyelet entry to memory. -/
  | eyeletSpill (vf : Nat) (k : CoreId) (entry : Nat)
  /-- EYELET_FILL (R289): EYECMD fills an Eyelet entry from memory. -/
  | eyeletFill (vf : Nat) (k : CoreId) (entry : Nat)
  /-- MIGCTL (R309): Starts a live migration by stopping the VF's queues and pre-empting its teams. -/
  | migctl (vf : Nat) (v : Word)
  /-- VTIME (R310): Sets the VF's clock offset on the target. -/
  | vtime (vf : Nat) (v : DWord)
  /-- SEM_ACQUIRE (R306): A master writes its value to take a free semaphore. -/
  | semAcquire (m : Nat) (i : Nat)
  /-- SEM_RELEASE (R306): A master writes 0 to free a semaphore it holds. -/
  | semRelease (m : Nat) (i : Nat)
  /-- FRAME_QUOTA (R100): Sets a VF's frame quota on a core, refused if the sum would pass 64. -/
  | frameQuota (vf : Nat) (k : CoreId) (n : Nat)
  /-- DIEMASK (R311): Sets the dies a VF may use, refused on wrong count. -/
  | diemask (vf : Nat) (v : Word)
  /-- VF_CREATE (R307): Creates a VF with its contract bits. -/
  | vfCreate (vf : Nat) (f0 : Word) (f1 : Word)
  /-- VF_DESTROY (R309): Destroys a VF. -/
  | vfDestroy (vf : Nat)
  /-- REGISTER_WRITE (R334): A write to a management or VF register without behaviour of its own. -/
  | registerWrite (r : HostReg) (v : DWord)
  /-- MASTER_MEMORY_WRITE (R331): A master writes the VF's device memory through its host port. -/
  | masterMemoryWrite (m : Nat) (vf : Nat) (va : Nat) (bs : List Byte)
  /-- SINGLE_FAULT (R327): A single fault corrupts a stored bit, to be corrected or poisoned when next read. -/
  | singleFault (loc : FaultLoc)
  /-- INVALVA_REMOVAL_COMPLETE (R178): The removal started by an INVALVA write completes and INVALVA reads 0. -/
  | invalvaRemovalComplete (vf : Nat)
  /-- SAVE_COMPLETE (R283): A quad team's save finishes writing its images and gives up its cores, and PREEMPT reads done. -/
  | saveComplete (l : Nat) (quad : Nat)
  deriving DecidableEq, Repr

end Sys2Proof
end

