-- ==== Sys2Proof/Machine/State.lean ====
section
/-! DEFINITION. The state of one Z24 package as plain data: every thread, crew, team, launch, core,
die and VF with all the spec gives them; the requests, messages and records in flight; the device
memory; and the model's own bookkeeping (`cur`, `others`, `issueQ`, `agenda`, `nextId`). A core or
die that no list names stands as `Core.fresh` or `Die.fresh` gives it. -/

namespace Sys2Proof.Machine

/-- Bytes by address, addresses strictly rising, no byte 0 listed: an unlisted address reads 0
(R335 for the device memory, R165 for scratch). -/
abbrev Memory := List Host.Cell

/-- The canonical form of a memory: addresses strictly rise and no entry holds the value 0 that an
unlisted address reads as. DESIGN CHOICE (log entry 2). -/
def Memory.wf : Memory → Bool
  | [] => true
  | [c] => c.2 != 0
  | c :: c' :: m => c.2 != 0 && decide (c.1 < c'.1) && Memory.wf (c' :: m)

/-! ## Threads -/

/-- The state of one pending-result entry (R285). -/
inductive QState where
  /-- 0: the reply has not arrived. -/
  | awaiting
  /-- 1: the reply is held and lands at the next switch point. -/
  | held
  /-- 2: the request is sent again after a restore. -/
  | reissue
  deriving DecidableEq, Repr

/-- One entry of the pending-result queue (R22, R285): the backing indices `base` to
`base + width - 1` fixed at issue (R14), and the value once held. `req` names the request. -/
structure QEntry where
  req   : Nat
  base  : Nat
  width : Nat
  st    : QState
  val   : List Word
  deriving DecidableEq, Repr

/-- What a thread is doing (R120, R142, R269, R285). -/
inductive Phase where
  /-- A rank beyond the team's thread count (R18). -/
  | neverStarted
  /-- Free to issue once its crew is active. -/
  | ready
  /-- Parked at a switch point (R24). -/
  | switchParked
  /-- Held at its meeting register (R123). -/
  | held
  /-- Arrived at a convergent crew instruction that cannot yet execute (R124). -/
  | waiting
  /-- Blocked at BAR or BARW: scope code, barrier id, and the phase it waits to see end (`none`
  until its own arrival has been counted). -/
  | barrier (scope id : Nat) (noted : Option Nat)
  /-- Blocked at WAITC (R190). -/
  | monitor
  /-- Settling into the segment of its pc (R105). -/
  | settling
  /-- Stalled at its word while a translation walk for the address named runs (R77, R142, R178). -/
  | walking (va : Nat)
  /-- Parked for a page fault under the fault record named (R279). -/
  | pageParked (rid : Nat)
  /-- Faulted, with its trap registers set (R269). -/
  | faulted
  /-- Debug-stopped under the record named (R275). -/
  | debugStopped (rid : Nat)
  /-- Stalled at its word, unissued, under a stall reason of R142 (3, 5, 9, 14 or 15). -/
  | stalled (reason : Nat)
  /-- Backing off from a trap permit until the cycle named (R276). -/
  | backoff (wake : Nat)
  /-- Ended by EXIT (R157). -/
  | exited
  deriving DecidableEq, Repr

/-- A translated global access: physical address (host memory from 2^52 on), effective policy (R80),
the replica dies of a REPL page (R300), its VF, launch and team, whether the launch is checked and
under DET (R313, R314), whether the page is replicated (a set may have no replica, R301), and whether the writer counters
count it (R240, R318). -/
structure GAddr where
  pa    : Nat
  cache : Nat
  reps  : List Nat
  vf    : Nat
  launch : Nat
  team  : Nat
  checked : Bool
  det   : Bool
  repl  : Bool
  counted : Bool
  deriving DecidableEq, Repr

/-- What a thread blocked at WAITC watches (R190, R191): a global word, or (`none`) a scratch or
cluster word of team `team` at `off`. -/
structure Watch where
  op      : Nat
  glob    : Option GAddr
  team    : Nat
  off     : Nat
  cmp     : Word
  dst     : Nat
  monitor : Bool
  reread  : Bool
  polled  : Nat
  deriving DecidableEq, Repr

/-- One thread (R11): its registers and everything of it that pre-emption saves (R285). -/
structure Thread where
  id       : ThreadId
  pc       : Word
  meet     : Word
  lk       : Word
  /-- The register allocation, backing indices 0 to REGALLOC - 1 (R12). -/
  regs     : List Word
  winbase  : Nat
  queue    : List QEntry
  fpmode   : BitVec 2
  fpflags  : BitVec 5
  intflags : BitVec 2
  clockLatch : Word
  /-- TLK and TMEET, the hidden registers of a taken trap (R271). -/
  tlk      : Word
  tmeet    : Word
  inHandler : Bool
  /-- Released at its pc under R123. -/
  released : Bool
  /-- It stood released at TRAPPC when it trapped (R274). -/
  relTrap  : Bool
  trapcode : Word
  trappc   : Word
  trapinfo : Word
  trapmask : Word
  trapaddr : DWord
  /-- The resume address of R267, put into LK at entry. -/
  resume   : Word
  /-- The detection of R125 or R158 that faulted it, 0 for none (R270). -/
  divNo    : Nat
  phase    : Phase
  watch    : Option Watch
  /-- The phase noted at its last arrival on a barrier: scope code, id, owner, phase (R195, R196). -/
  arrivals : List (Nat × Nat × Nat × Nat)
  /-- The owner of the barrier it is blocked at, a die's number at die scope (R195). -/
  barOwner : Nat
  /-- One more than the cycle in which it last parked, was held, blocked, faulted or ended, and so left its bundle (R122); 0 before. -/
  since    : Nat
  /-- The CLOCK count in which it was parked for a page fault (R281), and the address of the access it is parked for. -/
  parkClock : Nat
  parkVa    : Nat
  /-- The back-off of its next permit retry in cycles (R276). -/
  backoffLen : Nat
  /-- The addresses of the accesses of its word that a RESUME has let past the watch check of step 2 (R275, R279, R290). -/
  debugPass : List Nat
  deriving DecidableEq, Repr

/-! ## Crews, candidates, teams -/

/-- One crew (R118, R137 to R142). -/
structure Crew where
  id       : CrewId
  quarter  : Nat
  /-- Its crew slot on the core, in the order of residency (R202). -/
  slot     : Nat
  lease    : Nat
  measured : Bool
  /-- Cycles of the current window and the distinct lines touched in it (R140). -/
  window   : Nat
  lines    : List Nat
  active   : Bool
  /-- Order of its last activation (R138). -/
  actStamp : Nat
  dueActivated : Bool
  /-- Eligible-inactive cycles, whether it was eligible in the last cycle, and the order in which it became due. -/
  eligible : Nat
  seenEligible : Bool
  due      : Bool
  dueStamp : Nat
  /-- Its lease grew while it was active since the last decision (R138 step 1). -/
  grower   : Bool
  /-- STALL0 to STALL15. -/
  stall    : List Nat
  /-- Its victim tags while its team is saved, oldest first (R140). -/
  tags     : List Nat
  deriving DecidableEq, Repr

/-- A running candidate (R231). -/
structure CandRun where
  req  : Nat
  regs : List Word
  pc   : Nat
  fuel : Nat
  used : Nat
  deriving DecidableEq, Repr

/-- A CLOAD or CRUN that has issued and not begun or not completed (R230 to R232): a CLOAD's request, bank address,
index, the bytes read so far and the record it is stalled on (0 where it waits for a permit); a CRUN's request,
inputs, fuel and the indices of its result. -/
inductive CandOp where
  | load (req a c : Nat) (got : List Byte) (rid : Option Nat)
  | run (req : Nat) (inputs : List Word) (fuel : Nat)
  deriving DecidableEq, Repr

/-- One candidate slot (R224). -/
structure CandSlot where
  owner   : ThreadId
  buffer  : List Word
  n       : Nat
  h       : Word
  l       : Word
  sandbox : List Byte
  run     : Option CandRun
  /-- CLOADs and CRUNs not yet begun or completed, in issue order (R232). -/
  ops     : List CandOp
  /-- Stylus pipelines that its CRUNs hold, and one more than the cycle from which a restored one waits for them, or 0 (R226, R242). -/
  pipes   : Nat
  wait    : Nat
  deriving DecidableEq, Repr

/-- One stash mapping of a team (R172, R200): scratch offset, length, global address; the lines
filled (scratch offset of the line, and its translated address) and the dirty scratch offsets. -/
structure StashMap where
  off    : Nat
  len    : Nat
  va     : Nat
  filled : List (Nat × GAddr)
  dirty  : List Nat
  deriving DecidableEq, Repr

/-- One open chain of the gravers (R256): format and M of its opening task, the tile exponent E
(unset is `none`), the SAT bit, the accumulator row by row (64-bit integers for N8, raw bits
otherwise), and the graver and slot that hold it. -/
structure Chain where
  launch : Nat
  team   : Nat
  id     : Nat
  fmt    : Nat
  m      : Nat
  e      : Option Int
  sat    : Bool
  acc    : List Int
  graver : CoreId
  slot   : Nat
  deriving DecidableEq, Repr

/-- Where a team stands (R132, R143, R283, R288). -/
inductive TeamState where
  | pending
  /-- Placed; its pin loads are not all resident (R108). -/
  | pinning
  | resident
  /-- Being saved (R283). -/
  | saving
  /-- Saved and off its core. -/
  | swapped
  | retired
  deriving DecidableEq, Repr

/-- One team (R118). -/
structure Team where
  launch  : Nat
  idx     : Nat
  st      : TeamState
  core    : CoreId
  scratch : Memory
  stash   : List StashMap
  /-- Explicit tokens: segment id and count (R102). -/
  tokens  : List (Nat × Nat)
  /-- The range of a STREAM launch (R135). -/
  next    : Nat
  stop    : Nat
  swaps   : Nat
  exitTime : Nat
  /-- The stall sums at its exit (R130). -/
  stalls  : List Nat
  /-- The image slot of a saved team, whether RESTOREL or an own swap allows its return, and
  whether the part swapped it on its own (R281, R282, R288). -/
  image   : Option Nat
  allowed : Bool
  auto    : Bool
  /-- What REDTO deliveries have written to its scratch since it left its core, oldest first: offset and word (R194, R199). -/
  late    : List (Nat × Word)
  deriving DecidableEq, Repr

/-! ## Launches -/

/-- A launch packet (R127). -/
structure Packet where
  flags    : Word
  object   : Nat
  entry    : Nat
  nbv      : Nat
  qsize    : Nat
  regs     : Nat
  carve    : Nat
  lease    : Nat
  producer : Nat
  ntid     : Nat × Nat × Nat
  nteam    : Nat × Nat × Nat
  consts   : Nat
  sigAddr  : Nat
  sigVal   : Nat
  repAddr  : Nat
  repLen   : Nat
  iters    : Nat
  kt       : Nat
  p        : Nat
  chain    : Nat
  proof    : Nat
  proofB   : Nat
  deriving DecidableEq, Repr

/-- The image selected for a launch (R114): the object's base, revision and id, the segment
directory (offset and length), the code address of the launch's entry and of its trap entry. -/
structure Image where
  base  : Nat
  rev   : Nat
  coid  : Nat
  segs  : List (Nat × Nat)
  entry : Word
  trap  : Option Word
  deriving DecidableEq, Repr

/-- A writer counter of R318. -/
structure Writer where
  line    : Nat
  count   : Nat
  first   : Nat
  second  : Option Nat
  read    : Bool
  foreign : Bool
  deriving DecidableEq, Repr

/-- A tile of an add-on-store: whether its elements are f64, and the address and addend bits of each
element, in the drain's order (R263). -/
structure Tile where
  team  : Nat
  f64   : Bool
  elems : List (GAddr × Nat)
  deriving DecidableEq, Repr

/-- A launch (R126 to R143). -/
structure Launch where
  id       : Nat
  vf       : Nat
  q        : Nat
  packet   : Packet
  image    : Image
  consts   : List Word
  /-- The launch's order of starting (R132). -/
  order    : Nat
  start    : Option Nat
  retired  : Nat
  /-- The launch-wide counter of a WORK launch (R135). -/
  workNext : Nat
  /-- `some d` once a kill with detail d has been decided, with the core it arose at (R273). -/
  kill     : Option (Nat × CoreId)
  /-- The kill has taken its permit and stopped the threads. -/
  killed   : Bool
  /-- Where the front end stands with it: 0 its constants are not read, 1 running, from 2 on the steps of its end (R143);
  the writes of that step still to make; the record the front end waits on. -/
  stage    : Nat
  out      : List (Nat × List Byte)
  wait     : Option Nat
  /-- Exit records written (R130). -/
  written  : Nat
  endTime  : Nat
  /-- Byte tags of the ticket unit: physical byte and team (R314). -/
  tags     : List (Nat × Nat)
  /-- Tiles held by the ticket unit, in arrival order (R315). -/
  held     : List Tile
  writers  : List Writer
  /-- The lines written while the table was full, whose number is the header's overflow (R318). -/
  uncounted : List Nat
  /-- Violation entries: bucket, team, thread (R317, R321). -/
  violations : List (Nat × Nat × Nat)
  /-- The launch wrote host memory or a pod window, or a master wrote beneath it (R331). -/
  unrollable : Bool
  /-- The group of several packages it is a member of: the tag, and which of the tag's launches it is (R304). -/
  group    : Option (Nat × Nat)
  deriving DecidableEq, Repr

/-! ## Cores -/

/-- One byte of a cached line: offset in the line, value, dirty (R167). A listed byte is valid. -/
structure CByte where
  off   : Nat
  val   : Byte
  dirty : Bool
  deriving DecidableEq, Repr

/-- A line of the L1 (R167): line number PA / 128, the address of its line, way, last use, the crew that
last touched it, the cycle of its oldest dirty store, its valid bytes. -/
structure L1Line where
  line  : Nat
  g     : GAddr
  way   : Nat
  used  : Nat
  crew  : CrewId
  dirtied : Nat
  bytes : List CByte
  deriving DecidableEq, Repr

/-- State of a resident segment table entry (R99). -/
inductive SegState where
  | absent | loading | resident
  deriving DecidableEq, Repr

/-- An entry of the resident segment table (R99), with the words it holds: `pins` are the launches that pin it, in number the table's
field; `va` and `len` are the virtual address and the length of the segment a load reads, whatever becomes of the launch it began for;
`frec` is the fault record its load is stalled on, `owner` the thread that a record of its load names, which `named` says is
so for good (R107). -/
structure SegEntry where
  st     : SegState
  vf     : Nat
  coid   : Nat
  seg    : Nat
  frames : List Nat
  pins   : List Nat
  stamp  : Nat
  words  : List Word
  launch : Nat
  va     : Nat
  len    : Nat
  owner  : ThreadId
  named  : Bool
  frec   : Option Nat
  deriving DecidableEq, Repr

/-- A load request waiting in the Lacer's queue (R105, R111): who asked, and since when nothing
has changed for it (R106). `req` is the OVLD or OVTOK request, 0 for a settle request; with 0, `token` says that the request is that of a
restored team for an explicit token it holds (R109). -/
structure LacerReq where
  launch : Nat
  team   : Nat
  vf     : Nat
  coid   : Nat
  seg    : Nat
  thread : ThreadId
  req    : Nat
  token  : Bool
  since  : Nat
  deriving DecidableEq, Repr

/-- An OVLD or OVTOK waiting for a load under way (R111). -/
structure LacerWait where
  req    : Nat
  launch : Nat
  team   : Nat
  vf     : Nat
  coid   : Nat
  seg    : Nat
  token  : Bool
  detail : Nat
  deriving DecidableEq, Repr

/-- A Crosshatch entry (R207). -/
structure Hatch where
  launch : Nat
  team   : Nat
  lo     : Nat
  hi     : Nat
  write  : Bool
  op     : Nat
  deriving DecidableEq, Repr

/-- An entry of the record cache (R213). -/
structure RecEntry where
  vf     : Nat
  handle : Nat
  bytes  : List Byte
  used   : Nat
  deriving DecidableEq, Repr

/-- A translation held in a TLB (R178): first virtual byte, size, and the leaf. -/
structure TlbEntry where
  vf    : Nat
  va    : Nat
  size  : Nat
  pa    : Nat
  r     : Bool
  w     : Bool
  x     : Bool
  cache : Nat
  repl  : Bool
  replset : Nat
  host  : Bool
  d     : Bool
  deriving DecidableEq, Repr

/-- A weight slot of a graver (R251): the key of eleven values, and its last use. -/
structure WeightSlot where
  key  : List Nat
  used : Nat
  deriving DecidableEq, Repr

/-- A quarter's bundle (R121, R141): its team, pc and threads, and those it was last formed of. -/
structure Bundle where
  launch : Nat
  team   : Nat
  pc     : Word
  members : List ThreadId
  formed : List ThreadId
  deriving DecidableEq, Repr

/-- One core. -/
structure Core where
  id       : CoreId
  carve    : Nat
  l1       : List L1Line
  /-- Victim tags, oldest first: line and crew (R140). -/
  victims  : List (Nat × CrewId)
  segs     : List SegEntry
  lacerQ   : List LacerReq
  lacerW   : List LacerWait
  hatch    : List Hatch
  /-- Trap permits taken, of 4 (R276). -/
  permits  : Nat
  /-- The Lamport clock of R136. -/
  lamport  : Nat
  /-- The SC clock L of R299 and the last value published. -/
  scClock  : Nat
  scPublished : Nat
  recs     : List RecEntry
  tlb      : List TlbEntry
  weights  : List WeightSlot
  /-- The generation of the core's ranges (R251). -/
  gen      : Nat
  /-- The bundles of quarters 0 to 3. -/
  bundles  : List (Option Bundle)
  /-- An event of R138 has occurred since the last activation decision. -/
  deciding : Bool
  /-- Quarters that have replayed a cycle, with the last such cycle (R329). -/
  replays  : List (Nat × Nat)
  /-- Threads that were ready at the last reform boundary and in no bundle formed there (R142). -/
  lost     : List ThreadId
  /-- The scratch words reached in this cycle: quarter, team, word number; and the extra cycles that each quarter still takes for the
  bank conflicts of an issued instruction (R165). -/
  bankWords : List (Nat × Nat × Nat)
  bankBusy : List Nat
  deriving DecidableEq, Repr

/-- A core as it stands at READY (R201). DESIGN CHOICE (log entry 1). -/
def Core.fresh (k : CoreId) : Core :=
  { id := k, carve := 0, l1 := [], victims := [], segs := [], lacerQ := [], lacerW := [],
    hatch := [], permits := 0, lamport := 0, scClock := 0, scPublished := 0, recs := [], tlb := [],
    weights := [], gen := 0, bundles := [none, none, none, none], deciding := false, replays := [],
    lost := [], bankWords := [], bankBusy := [0, 0, 0, 0] }

/-! ## Dies -/

/-- A line of a die's L2 (R170, R294): line number, slice, set, way, last use, the bytes held of a
remote line (a home line's bytes are the device memory's), the cycle of its oldest dirty store. -/
structure L2Line where
  line  : Nat
  g     : GAddr
  slice : Nat
  set   : Nat
  way   : Nat
  used  : Nat
  dirtied : Nat
  bytes : List CByte
  deriving DecidableEq, Repr

/-- A voltage domain (R333): steps of 5 mV above the floor, corrected errors and replays in the
current evaluation, evaluations at 32 or less, evaluations above 64 at nominal voltage, evaluations made. -/
structure VDomain where
  steps : Nat
  errs  : Nat
  good  : Nat
  bad   : Nat
  evals : Nat
  deriving DecidableEq, Repr

/-- One die. -/
structure Die where
  id     : Nat
  l2     : List L2Line
  tlb    : List TlbEntry
  /-- The vector clock V_d and the horizon H_d (R295, R297). -/
  v      : List Nat
  h      : List Nat
  /-- The distributor's Lamport clock (R136). -/
  lamport : Nat
  throttled : Bool
  /-- Steps of 100 MHz taken off the arithmetic clock (R336). -/
  slow   : Nat
  /-- Quads whose scheduler is being rebuilt, each with the cycle in which its crews go on (R330). -/
  rebuilding : List (Nat × Nat)
  doms   : List VDomain
  deriving DecidableEq, Repr

/-- A die at READY. DESIGN CHOICE (log entry 1). -/
def Die.fresh (d : Nat) : Die :=
  { id := d, l2 := [], tlb := [], v := List.replicate 24 0, h := List.replicate 24 0, lamport := 0,
    throttled := false, slow := 0, rebuilding := [], doms := List.replicate 14 ⟨0, 0, 0, 0, 0⟩ }

/-! ## VFs -/

/-- A launch queue (R126), and where its service stands: the launch (or chain) it waits for, the
chained packet to take next, the front-end fault record it waits for, since when its head waits. -/
structure Queue where
  base    : Nat
  logsize : Nat
  head    : Word
  tail    : Word
  busy    : Option Nat
  chain   : Option Nat
  wait    : Option Nat
  /-- What the front end has read for the packet in service, by address (R347). -/
  memo    : List (Nat × List Byte)
  /-- The address of the access that a settled record or a full record queue has failed, and its detail. -/
  fail    : Option (Nat × Nat)
  /-- The writes of a refusal still to make, in order; the signal's is the last (R128). -/
  out     : List (Nat × List Byte)
  since   : Nat
  lgroup  : DWord
  deriving DecidableEq, Repr

/-- A queue at reset. -/
def Queue.fresh : Queue :=
  { base := 0, logsize := 0, head := 0, tail := 0, busy := none, chain := none, wait := none,
    memo := [], fail := none, out := [], since := 0, lgroup := 0 }

/-- A watchpoint (R275). -/
structure WatchPoint where
  va    : Nat
  len   : Nat
  kinds : Nat
  deriving DecidableEq, Repr

/-- One VF: its contract, its register space, its part of the front end. -/
structure Vf where
  id       : Nat
  feature0 : Word
  feature1 : Word
  diemask  : Word
  share    : Nat
  /-- Packets taken in the current round (R131). -/
  taken    : Nat
  /-- Frame quotas by core; an unlisted core has quota 0 (R100). -/
  quotas   : List (CoreId × Nat)
  ptroot   : Nat
  queues   : List Queue
  fqbase   : Nat
  fqlog    : Nat
  fqhead   : Word
  fqtail   : Word
  /-- The VF's record count (R278). -/
  seqNo    : Nat
  savebase : Nat
  savestride : Nat
  saveslots  : Nat
  /-- PREEMPT reads 0, 1 or 2 (R282). -/
  preempt  : Nat
  dbgctl   : Word
  watches  : List WatchPoint
  eyecmd   : Nat
  eyebuf   : Nat
  /-- The EYECMD in progress: whether it fills, its core, its entry (R289). -/
  eyeBusy  : Option (Bool × CoreId × Nat)
  /-- The replica-set table, 256 entries (R300). -/
  replicas : List (Nat × Word)
  migctl   : Nat
  lcount   : Nat
  migepoch : Word
  vclkoff  : DWord
  migtime  : DWord
  /-- An INVALVA write in progress, with the address written (R178). -/
  invalva  : Option Nat
  /-- Launches it has had accepted on this package, and whether a saved team of it has been placed here (R310). -/
  accepted : Nat
  restored : Bool
  /-- Launches served from its queues by group tag (R304). -/
  groups   : List (Nat × Nat)
  /-- Saved launches that have come with the VF and been allowed again (R309). -/
  adopted  : List Nat
  deriving DecidableEq, Repr

/-! ## Records, requests, messages -/

/-- A pending fault record (R276 to R280). `rid` is the model's own name; `seq` its sequence once
written; `permit` whether `core` holds a permit for it; `done` once written. -/
structure FRec where
  rid    : Nat
  vf     : Nat
  va     : Nat
  launch : Nat
  team   : Nat
  thread : Nat
  kind   : Nat
  level  : Nat
  time   : Nat
  core   : Option CoreId
  seq    : Option Nat
  /-- For a debug stop: the code and the TRAPINFO of the trap that outcome 1 raises (R275). For a BARSPILL whose barrier is not yet
  in place: its scope plus 8 times its id, and its owner (R289). -/
  stop   : Nat × Nat
  deriving DecidableEq, Repr

/-- A translation walk under way (R178): its die, VF and the virtual address of the miss that started it,
that thread and its core, the record kind of its access, whether it sets D (R177), the cycle it started in (R278). -/
structure Walk where
  id      : Nat
  die     : Nat
  vf      : Nat
  va      : Nat
  starter : ThreadId
  core    : CoreId
  kind    : Nat
  setD    : Bool
  cycle   : Nat
  deriving DecidableEq, Repr

/-- The sixteen atomic operations of R50; REDTO uses five of them (R193). -/
inductive AtomOp where
  | add | add64 | minS | minN | maxS | maxN | and | or | xor | xchg | xchg64 | cas | cas64
  | fadd | fadd64 | incw
  deriving DecidableEq, Repr

/-- Where an access is performed (R179, R187): a physical address, or a team's scratch. -/
inductive Place where
  | glob (g : GAddr)
  | scr (team : Nat) (off : Nat)
  deriving DecidableEq, Repr

/-- A request that has issued and awaits its performance (R22, R186, R287). -/
inductive ReqKind where
  /-- A load of n bytes whose missing bytes come from another die (R297), which holds them at `src`;
  the bytes got at issue, by offset. -/
  | load (g : GAddr) (src n : Nat) (signed : Bool) (got : List (Nat × Byte))
  /-- An LDU of 8 bytes at `ea`, with its own code address: the addresses of its two aligned halves, with the bytes got (R117). -/
  | ldu (ea : Nat) (pc : Word) (g1 g2 : GAddr) (got : List (Nat × Byte))
  /-- An LDU that a restore begins again at its first step (R290): the addresses of its accesses that a record has stopped, the last
  first, which are let past the watch check from then on; that record while it is pending, else 0; and the code, TRAPINFO and TRAPADDR
  of the trap in which it ends where the record has been failed. -/
  | lduAgain (ea : Nat) (pc : Word) (pass : List Nat) (rid : Nat) (fail : Option (Nat × Nat × Nat))
  | atomic (op : AtomOp) (scope : Nat) (l1 : Bool) (at_ : Place) (b c : DWord)
  /-- REDTO: the operation, its operand, and the target's offset, QRANK and barrier id (R193). -/
  | redto (op : AtomOp) (at_ : Place) (b : Word) (off rank bar : Nat)
  /-- LDSC (1), STSC (2) or CASSC (3) with its stamp (R189, R299). -/
  | sc (f : Nat) (g : GAddr) (b c : Word) (stamp : Nat)
  | work
  /-- STEAL with the core's clock value and its cycle of arrival (R136). -/
  | steal (lamport : Nat) (cycle : Nat)
  /-- PROOF or PROOFQ on its bucket: physical and virtual address, signature, index (R236, R239). -/
  | proof (query : Bool) (g : GAddr) (va : Nat) (h l c : Word)
  /-- The fill from home of a remote line's copy that a write performed at its die has brought in (R294). -/
  | fill (g : GAddr)
  /-- LAUNCH whose copy is stalled on a record: queue, packet address, the packet once read (R291). -/
  | launch (q : Word) (a : Nat) (got : Option (List Byte)) (rid : Nat)
  /-- An engine operation, CLOAD, CRUN or overlay word: its status comes from the unit's own state. -/
  | unit
  deriving DecidableEq, Repr

/-- A request in flight, with the thread it is of, the core it left, the horizon it carries (R297)
and, where it is a numbered write, its tag (R295; `[]` where it is none). -/
structure Request where
  id   : Nat
  t    : ThreadId
  core : CoreId
  vf   : Nat
  hor  : List Nat
  tag  : List Nat
  kind : ReqKind
  deriving DecidableEq, Repr

/-- A reply on its way to its pending-result entry (R22); `acq` where an acquire at package scope follows it
(LDSC and CASSC, R189); `lamport` the distributor's clock that the reply of a STEAL brings, 0 with any other (R136). -/
structure Reply where
  req : Nat
  t   : ThreadId
  val : List Word
  acq : Bool
  lamport : Nat
  deriving DecidableEq, Repr

/-- A tagged write or notice on the Welt mesh (R295): its tag (src, W), its destination, its line's
address and its bytes by offset in the line; `toHome` while it travels to the home slice; `bad` are the offsets of those bytes that are
poisoned (R328). -/
structure WeltMsg where
  id     : Nat
  src    : Nat
  tag    : List Nat
  dst    : Nat
  g      : GAddr
  bytes  : List (Nat × Byte)
  toHome : Bool
  notice : Bool
  bad    : List Nat
  deriving DecidableEq, Repr

/-- An arrival on its way to its barrier's keeper (R195, R196); `t` is `none` for REDTO's (R194); `clock` what the die of the arriving
thread knows of every die's writes (R198, R297). -/
structure Arrival where
  id     : Nat
  launch : Nat
  scope  : Nat
  owner  : Nat
  bar    : Nat
  t      : Option ThreadId
  clock  : List Nat
  deriving DecidableEq, Repr

/-- A barrier in use (R195, R199). `owner` is the team (core), quad team (quad), die (die) or 0;
`e` is `none` while E has its default; `core` keeps a core or quad barrier in the entry `entry` of its Eyelet table; `clock` is the
maximum of the clocks its arrivals have brought (R198). -/
structure Barrier where
  vf      : Nat
  launch  : Nat
  scope   : Nat
  owner   : Nat
  id      : Nat
  e       : Option Nat
  c       : Nat
  phase   : Nat
  core    : CoreId
  entry   : Nat
  spilled : Bool
  clock   : List Nat
  deriving DecidableEq, Repr

/-- A REDTO delivery on its way to the target team's scratch (R194), with the thread that issued the REDTO. -/
structure Delivery where
  id     : Nat
  src    : ThreadId
  launch : Nat
  team   : Nat
  off    : Nat
  val    : Word
  bar    : Nat
  deriving DecidableEq, Repr

/-! ## Engines -/

/-- A tile-task record (R254). -/
structure TaskRec where
  kind : Nat
  flags : Nat
  afmt : Nat
  aplanes : Nat
  bfmt : Nat
  chain : Nat
  slot : Nat
  aoff : Nat
  m : Nat
  apitch : Nat
  ascale : Nat
  boff : Nat
  bpitch : Nat
  bplanes : Nat
  bscale : Nat
  dest : Nat
  dpitch : Nat
  voff : Nat
  roff : Nat
  deriving DecidableEq, Repr

/-- A drain program (R259): 16 constants and 8 steps. -/
structure DrainProg where
  consts : List Word
  steps  : List (BitVec 16)
  deriving DecidableEq, Repr

/-- A Skiver job as its card stood at issue (R220). -/
structure JobCard where
  card : Nat
  src  : Nat
  srcLen : Nat
  cap  : Nat
  dst  : Nat
  dict : Nat
  dictLen : Nat
  deriving DecidableEq, Repr

/-- Where the Skiver stands in a stream (R221): the next stream byte, the bytes written, the token it is in (0 none,
1 a literal, 2 a copy, 3 a copy without its distance, 4 a copy with the low byte of its distance), the bytes of the
token still to write, its distance. -/
structure SkiverAt where
  i    : Nat
  p    : Nat
  tok  : Nat
  rem  : Nat
  dist : Nat
  deriving DecidableEq, Repr

/-- What an engine operation does (R203). -/
inductive EngKind where
  /-- COPY or COPYM: the handle, the operand block, the record once looked up, and from its beginning on the mask of the peers it skips
  (R212 to R218). -/
  | copy (multi : Bool) (handle : Nat) (block : List Word) (record : Option (List Byte)) (skipped : Option Nat)
  | recfl (handle : Nat)
  /-- DPROG: the program's scratch offset, its slot, the program once checked (R262). -/
  | dprog (a slot : Nat) (prog : Option DrainProg)
  | task (r : TaskRec) (prog : Option DrainProg) (opens : Bool)
  /-- DJOB: the card, the place reached, and once it stops the result length and code (R220 to R222). -/
  | djob (j : JobCard) (at_ : SkiverAt) (result : Option (Nat × Nat))
  deriving DecidableEq, Repr

/-- Where an engine operation stands. -/
inductive EngState where
  /-- Waiting for earlier overlapping operations, or in the Cobbler's queue (R209, R257). -/
  | queued
  | running
  /-- Stalled in place on a fault record (R217); 0 while it waits for a permit (R276). -/
  | stalled (rid : Nat)
  /-- Abandoned by a save; it runs again from its beginning after the restore (R283). -/
  | reissue
  /-- A drain whose add-on-store is to be performed (R263). -/
  | addst
  /-- Finished; it retires with the status held. -/
  | done
  deriving DecidableEq, Repr

/-- An engine operation not yet retired (R203, R207). `no` is its issue number; `pos` the element
or byte reached; `since` is 0, or one more than the cycle from which a ready opening task has found no accumulator slot free (R258). -/
structure EngineOp where
  no     : Nat
  req    : Nat
  t      : ThreadId
  core   : CoreId
  vf     : Nat
  kind   : EngKind
  st     : EngState
  pos    : Nat
  status : Word
  tile   : Option Tile
  since  : Nat
  deriving DecidableEq, Repr

/-- A quad team's drain program table (R261, R262). -/
structure DrainTable where
  launch : Nat
  quad   : Nat
  progs  : List (Nat × DrainProg)
  deriving DecidableEq, Repr

/-! ## Live migration -/

/-- What a package holds of a saved launch that has come to it with its VF, beyond the images of its teams: the spec gives it no place in
memory or registers (R309). `nextId` is above every name in it. -/
structure Carried where
  launch   : Launch
  teams    : List Team
  threads  : List Thread
  crews    : List Crew
  slots    : List CandSlot
  chains   : List Chain
  drains   : List DrainTable
  engines  : List EngineOp
  requests : List Request
  records  : List FRec
  nextId   : Nat
  deriving DecidableEq, Repr

/-! ## Reliability -/

/-- A checkpoint interval of a VF (R331): its units (queue, HEAD before it, launches), whether it
still takes units, the log of old lines newest first, the lines written once that was full, the held signal writes in order (queue,
launch, address, value). -/
structure Interval where
  vf     : Nat
  units  : List (Nat × Word × List Nat)
  taking : Bool
  log    : List (Nat × List Byte)
  unlogged : List Nat
  signals : List (Nat × Nat × Nat × Nat)
  /-- While it closes: the record the front end waits on for the first of the held signals (R347). -/
  wait   : Option Nat
  /-- The places found uncorrectable that brought about the rollback this interval reruns. -/
  bad    : List FaultLoc
  deriving DecidableEq, Repr

/-- The management registers and status of the package (R302, R306, R325, R334). -/
structure Mgmt where
  powered   : Bool
  ready     : Bool
  calfail   : Bool
  memInit   : Bool
  predFail  : Bool
  failing   : Nat
  dlsize    : Nat
  burnlog   : Nat
  podcfg    : Word
  trbase    : Nat
  trlog     : Nat
  trctl     : Word
  trtail    : Word
  trdrop    : Word
  trhead    : Word
  capturing : Bool
  /-- CLOCK of the last throttle end (R325). -/
  throttleEnd : Nat
  sems      : List Nat
  /-- Which master lost the last semaphore tie, `none` before the first after READY; and the value that the last completed write of each
  master has returned (R306). -/
  semLoser  : Option Nat
  semAnswer : List Nat
  /-- Writes of device memory by the masters that wait to be made, oldest first: master, VF, virtual address, bytes (R297, R331). -/
  writes    : List (Nat × Nat × Nat × List Byte)
  /-- Interrupt vectors raised to both masters, oldest first (R305). -/
  interrupts : List Nat
  /-- Launches accepted by any VF (R334: DLSIZE is refused after the first). -/
  launched  : Bool
  deriving DecidableEq, Repr

/-! ## Events -/

/-- What may take place beside the words that threads issue: the part's own steps and the acts of the host masters, one for each event
row of the opcode table but ILLEGAL_WORD_FETCH, which is a thread's turn. An agenda holds them. -/
inductive Event where
  /-- REFORM_BOUNDARY (R121): Every 4 cycles each quarter chooses and forms its bundle. -/
  | reformBoundary (die : Nat)
  /-- LONG_LATENCY_REPLY (R22): A reply arrives for a pending result entry. -/
  | longLatencyReply (req : Nat)
  /-- SWITCH_POINT_LEAVE (R24): A parked thread's queue empties, results land in order, and it leaves the switch point. -/
  | switchPointLeave (t : ThreadId)
  /-- CREWDIV_DETECT (R125): Detection of a crew that cannot progress faults its waiting members with CREWDIV. -/
  | crewdivDetect (c : CrewId)
  /-- TRAP_TAKEN (R271): The crew takes a deferred trap for its group once all members are stopped and replies have arrived. -/
  | trapTaken (c : CrewId)
  /-- LAUNCH_KILL (R273): A launch is killed once a permit is free, stopping its threads and completing its report. -/
  | launchKill (l : Nat)
  /-- PERMIT_BACKOFF_EXPIRY (R276): A thread's permit back-off ends and it reissues its word. -/
  | permitBackoffExpiry (t : ThreadId)
  /-- LACER_LOAD_DECISION (R105): The Lacer decides frames for the oldest queued load request, evicting as needed. -/
  | lacerLoadDecision (k : CoreId)
  /-- SEGMENT_LOAD_COMPLETE (R105): A segment load completes and settling threads resume. -/
  | segmentLoadComplete (k : CoreId) (entry : Nat)
  /-- OVFULL_TIMEOUT (R106): After 65,536 cycles without progress the settling threads take OVFULL. -/
  | ovfullTimeout (k : CoreId)
  /-- PACKET_SERVE (R128): The front end takes a packet, checks it and accepts or refuses the launch. -/
  | packetServe (vf : Nat) (q : Nat)
  /-- TEAM_PLACEMENT (R133): A pending team is placed on an admitting core, with carve change and pins. -/
  | teamPlacement (l : Nat)
  /-- LAUNCH_END (R143): The retired-team count reaches the grid size; records, write-back, lists, signal and chain follow. -/
  | launchEnd (l : Nat)
  /-- ACTIVATION_DECISION (R138): The activation controller recomputes the active set. -/
  | activationDecision (k : CoreId)
  /-- DUE_COUNT_EXPIRY (R138): An eligible crew's count reaches 16,384 and it becomes due. -/
  | dueCountExpiry (c : CrewId)
  /-- LEASE_WINDOW_EXPIRY (R140): A measured window reaches 65,536 cycles and the lease shrinks. -/
  | leaseWindowExpiry (c : CrewId)
  /-- L1_WRITEBACK_TIMER (R168): Dirty L1 bytes are written back within 16,384 cycles of their store. -/
  | l1WritebackTimer (k : CoreId) (line : Nat)
  /-- PAGE_WALK_COMPLETE (R178): A translation walk ends, setting A or D or writing one fault record. -/
  | pageWalkComplete (walk : Nat)
  /-- FAULT_RECORD_WRITE (R280): A waiting fault record is written once its queue has room. -/
  | faultRecordWrite (vf : Nat)
  /-- ATOMIC_PERFORM (R186): An atomic request is performed at its place of performance. -/
  | atomicPerform (req : Nat)
  /-- SC_ACCESS_PERFORM (R299): A home slice performs an SC access in stamp order once published clocks allow. -/
  | scAccessPerform (req : Nat)
  /-- SC_CLOCK_PUBLISH (R299): Each core publishes its SC clock every 256 CLOCK counts. -/
  | scClockPublish (k : CoreId)
  /-- MONITOR_REREAD (R191): A write to a watched word causes a new WAITC read. -/
  | monitorReread (t : ThreadId)
  /-- WAITC_POLL_TIMER (R191): A WAITC without monitor, or on a HOST word, rereads every 1,024 cycles. -/
  | waitcPollTimer (t : ThreadId)
  /-- REDTO_DELIVERY (R194): The old value is written to the target scratch and an arrival counted. -/
  | redtoDelivery (req : Nat)
  /-- BARRIER_ARRIVAL (R196): An arrival message reaches the barrier's keeper and may complete the phase. -/
  | barrierArrival (arr : Nat)
  /-- WORK_PIECE_SERVE (R136): A distributor serves WORK or STEAL requests in order. -/
  | workPieceServe (req : Nat)
  /-- ENGINE_OP_BEGIN (R209): An engine operation begins once overlapping earlier operations retire. -/
  | engineOpBegin (op : Nat)
  /-- ENGINE_RETIRE (R203): An engine operation retires, frees its entries and releases stalled accesses. -/
  | engineRetire (op : Nat)
  /-- SKIVER_JOB_STOP (R222): A Skiver job stops and writes its result length and code. -/
  | skiverJobStop (op : Nat)
  /-- COBBLER_DISPATCH (R257): The Cobbler places a queued tile task on a graver. -/
  | cobblerDispatch (op : Nat)
  /-- ESLOT_TIMEOUT (R258): An opening task waits 65,536 cycles without a free slot and ends with ESLOT. -/
  | eslotTimeout (op : Nat)
  /-- ADD_ON_STORE_PERFORM (R263): A tile add-on-store is applied indivisibly at its place. -/
  | addOnStorePerform (op : Nat)
  /-- TICKET_TILE_APPLY (R315): The ticket unit applies held add-on-store tiles in team order. -/
  | ticketTileApply (l : Nat)
  /-- CANDIDATE_STOP (R231): A running candidate stops and its pair result is ready. -/
  | candidateStop (t : ThreadId)
  /-- PROOF_PERFORM (R236): A PROOF is performed indivisibly on its bucket. -/
  | proofPerform (req : Nat)
  /-- PROOFQ_PERFORM (R239): A PROOFQ lookup is performed at the home slice. -/
  | proofqPerform (req : Nat)
  /-- WRITE_APPLY (R296): A die applies a tagged write or notice once causally ready. -/
  | writeApply (msg : Nat)
  /-- REMOTE_REQUEST_SERVE (R297): A serving die performs a request once its clock covers the horizon. -/
  | remoteRequestServe (req : Nat)
  /-- REMOTE_LINE_SEND_TIMER (R294): Dirty bytes of a remote line are sent home within 65,536 cycles. -/
  | remoteLineSendTimer (die : Nat) (line : Nat)
  /-- AUTO_SWAP_OUT (R281): A team stopped on a page fault for 1 ms may be swapped out. -/
  | autoSwapOut (l : Nat) (team : Nat)
  /-- LATE_REPLY_WRITE (R287): A reply after a save is written into the image entry. -/
  | lateReplyWrite (req : Nat)
  /-- TEAM_RESTORE (R288): A saved quad team is placed again and restored. -/
  | teamRestore (l : Nat) (quad : Nat)
  /-- MIGRATION_QUIESCED (R309): MIGCTL reaches 2 and MIGTIME is latched. -/
  | migrationQuiesced (vf : Nat)
  /-- INTERVAL_CLOSE (R331): A checkpoint interval closes and its held signals are written. -/
  | intervalClose (vf : Nat)
  /-- UNCORRECTABLE_CONSUMED (R331): Consumption of poisoned data rolls back or kills the context. -/
  | uncorrectableConsumed (vf : Nat)
  /-- TIMING_REPLAY (R329): A shadow latch catches a late transition and the cycle is replayed at half clock. -/
  | timingReplay (k : CoreId) (quarter : Nat)
  /-- SCHEDULER_REBUILD (R330): A non-one-hot scheduler state drains the quad and rebuilds. -/
  | schedulerRebuild (die : Nat) (quad : Nat)
  /-- VOLTAGE_EVALUATION (R333): Each domain's error rate is evaluated per 1,000,000 CLOCK counts. -/
  | voltageEvaluation (die : Nat) (dom : Nat)
  /-- THROTTLE_START (R336): A power or thermal limit lowers a die's clock. -/
  | throttleStart (die : Nat)
  /-- THROTTLE_END (R336): The cause clears and the clock returns. -/
  | throttleEnd (die : Nat)
  /-- TRACE_CAPTURE_STOP (R325): Capture stops 1,000,000 CLOCK counts after the last throttle end. -/
  | traceCaptureStop
  /-- POWER_ON (R335): Power-on runs calibration and starts memory initialisation. -/
  | powerOn (failing : Option Nat)
  /-- MEMORY_INIT_COMPLETE (R335): Memory initialisation ends and READY is set. -/
  | memoryInitComplete
  /-- QUEUE_TAIL (R126): A host write of a queue's TAIL makes packets visible. -/
  | queueTail (vf : Nat) (q : Nat) (v : Word)
  /-- RESUME (R279): The host settles a pending fault record with retry or fail. -/
  | resume (vf : Nat) (v : DWord)
  /-- FQHEAD (R280): A host write of FQHEAD frees room for waiting records. -/
  | fqhead (vf : Nat) (v : Word)
  /-- INVALVA (R178): Removes a VF's translations covering an address, or all of them. -/
  | invalva (vf : Nat) (va : DWord)
  /-- PREEMPT (R282): Pre-empts every resident team of a launch. -/
  | preempt (vf : Nat) (l : DWord)
  /-- RESTOREL (R288): Lets a launch's pre-empted teams be placed again. -/
  | restorel (vf : Nat) (l : DWord)
  /-- EYELET_SPILL (R289): EYECMD spills an Eyelet entry to memory. -/
  | eyeletSpill (vf : Nat) (k : CoreId) (entry : Nat)
  /-- EYELET_FILL (R289): EYECMD fills an Eyelet entry from memory. -/
  | eyeletFill (vf : Nat) (k : CoreId) (entry : Nat)
  /-- MIGCTL (R309): Starts a live migration by stopping the VF's queues and pre-empting its teams. -/
  | migctl (vf : Nat) (v : Word)
  /-- VTIME (R310): Sets the VF's clock offset on the target. -/
  | vtime (vf : Nat) (v : DWord)
  /-- SEM_ACQUIRE (R306): A master writes its value to take a free semaphore. -/
  | semAcquire (m : Nat) (i : Nat)
  /-- SEM_RELEASE (R306): A master writes 0 to free a semaphore it holds. -/
  | semRelease (m : Nat) (i : Nat)
  /-- FRAME_QUOTA (R100): Sets a VF's frame quota on a core, refused if the sum would pass 64. -/
  | frameQuota (vf : Nat) (k : CoreId) (n : Nat)
  /-- DIEMASK (R311): Sets the dies a VF may use, refused on wrong count. -/
  | diemask (vf : Nat) (v : Word)
  /-- VF_CREATE (R307): Creates a VF with its contract bits. -/
  | vfCreate (vf : Nat) (f0 : Word) (f1 : Word)
  /-- VF_DESTROY (R309): Destroys a VF. -/
  | vfDestroy (vf : Nat)
  /-- REGISTER_WRITE (R334): A write to a management or VF register without behaviour of its own. -/
  | registerWrite (r : HostReg) (v : DWord)
  /-- MASTER_MEMORY_WRITE (R331): A master writes the VF's device memory through its host port. -/
  | masterMemoryWrite (m : Nat) (vf : Nat) (va : Nat) (bs : List Byte)
  /-- SINGLE_FAULT (R327): A single fault corrupts a stored bit, to be corrected or poisoned when next read. -/
  | singleFault (loc : FaultLoc)
  /-- INVALVA_REMOVAL_COMPLETE (R178): The removal started by an INVALVA write completes and INVALVA reads 0. -/
  | invalvaRemovalComplete (vf : Nat)
  /-- SAVE_COMPLETE (R283): A quad team's save finishes writing its images and gives up its cores, and PREEMPT reads done. -/
  | saveComplete (l : Nat) (quad : Nat)
  deriving DecidableEq, Repr

/-- Why the machine stops. No state that a run from `State.reset` reaches raises it. -/
inductive Fault where
  /-- Raised by `step` for a thread that is to issue and whose launch the state does not hold: no rule of the spec speaks
  of such a state. Safe: the machine stops where the hardware cannot be. -/
  | noLaunch
  deriving DecidableEq, Repr

/-- Why an instruction has no meaning. -/
inductive Refusal where
  /-- Raised only by an arm of `exec` that has no meaning yet, with the row's mnemonic. Safe: the
  machine stops. No arm of this model raises it. -/
  | notModelled (mnemonic : String)
  deriving DecidableEq, Repr

/-- The state of the package. DESIGN CHOICE (log entry 31). -/
structure State where
  /-- The thread in turn: the one whose instruction `exec` runs. -/
  cur      : Thread
  /-- Every other thread of every launch not yet ended. -/
  others   : List Thread
  crews    : List Crew
  teams    : List Team
  launches : List Launch
  slots    : List CandSlot
  cores    : List Core
  dies     : List Die
  vfs      : List Vf
  /-- Device memory by physical address; host memory from 2^52 on; pod-window bytes by their
  region 0x2 address (R171, R302, R305). -/
  mem      : Memory
  requests : List Request
  replies  : List Reply
  engines  : List EngineOp
  chains   : List Chain
  drains   : List DrainTable
  barriers : List Barrier
  arrivals : List Arrival
  deliveries : List Delivery
  records  : List FRec
  walks    : List Walk
  welt     : List WeltMsg
  intervals : List Interval
  /-- Stored places with one flipped bit, and places found uncorrectable (R328). -/
  flips    : List FaultLoc
  poison   : List FaultLoc
  /-- VFs whose context has consumed a poisoned place, with the core of the access (die 24 where it is of none) and that place,
  awaiting R331. -/
  consumed : List (Nat × CoreId × FaultLoc)
  mgmt     : Mgmt
  /-- The die cycle count from READY (R121) and the 64-bit CLOCK (R19). -/
  cycle    : Nat
  clock    : DWord
  /-- The model's own: threads still to issue in this cycle, and those that have run a word in it; host actions and chosen internal
  steps to come; the next fresh name. -/
  issueQ   : List ThreadId
  ran      : List ThreadId
  agenda   : List Event
  nextId   : Nat
  deriving DecidableEq, Repr

/-- A thread with the start values of R11, at entry address `pc` with allocation `a`. DESIGN CHOICE (log entry 1). -/
def Thread.start (id : ThreadId) (pc : Word) (a : Nat) : Thread :=
  { id := id, pc := pc, meet := 2, lk := 0, regs := List.replicate a 0, winbase := 0, queue := [],
    fpmode := 0, fpflags := 0, intflags := 0, clockLatch := 0, tlk := 0, tmeet := 0,
    inHandler := false, released := false, relTrap := false, trapcode := 0, trappc := 0,
    trapinfo := 0, trapmask := 0, trapaddr := 0, resume := 0, divNo := 0, phase := .ready,
    watch := none, arrivals := [], barOwner := 0, since := 0, parkClock := 0, parkVa := 0, backoffLen := 64,
    debugPass := [] }

/-- The management registers before power-on (R302, R325, R334; semaphores free). DESIGN CHOICE (log entry 1). -/
def Mgmt.reset : Mgmt :=
  { powered := false, ready := false, calfail := false, memInit := false, predFail := false,
    failing := 0, dlsize := 0, burnlog := 256, podcfg := 0, trbase := 0, trlog := 0, trctl := 0,
    trtail := 0, trdrop := 0, trhead := 0, capturing := false, throttleEnd := 0,
    sems := List.replicate 32 0, semLoser := none, semAnswer := [0, 0], writes := [], interrupts := [], launched := false }

/-- The package right after reset: before power-on (R335), with no VF created, no launch, no
thread that has started, memory with nothing listed, and the registers at their reset values. DESIGN CHOICE (log entry 1). -/
def State.reset : State :=
  { cur := { Thread.start ⟨0, 0, 0⟩ 0 32 with phase := .neverStarted }, others := [], crews := [],
    teams := [], launches := [], slots := [], cores := [], dies := [], vfs := [], mem := [],
    requests := [], replies := [], engines := [], chains := [], drains := [], barriers := [],
    arrivals := [], deliveries := [], records := [], walks := [], welt := [], intervals := [],
    flips := [], poison := [], consumed := [], mgmt := Mgmt.reset, cycle := 0, clock := 0,
    issueQ := [], ran := [], agenda := [], nextId := 1 }

end Sys2Proof.Machine
end

