-- ==== Sys2Proof/Machine/Ops.lean ====
section
/-! DEFINITION. The named operations every meaning is written over: finding and changing an agent,
reading and writing registers, the meeting hold, moving the pc, issuing a word, parking, raising a
trap, TAKING a deferred trap, returning from one, and the pending-result queue. -/

namespace Sys2Proof.Machine

/-- What a meaning answers. -/
abbrev Out := Host.Outcome State Fault Refusal

/-! ## Finding and changing agents -/

/-- Replaces every entry of `l` that `p` picks by `a`, or adds `a` at the end where none is. -/
def upsert {α : Type} (p : α → Bool) (a : α) (l : List α) : List α :=
  if l.any p then l.map (fun x => if p x then a else x) else l ++ [a]

/-- Core `k` (a core no list names is fresh). -/
def State.core (s : State) (k : CoreId) : Core := (s.cores.find? (fun c => c.id == k)).getD (Core.fresh k)

/-- Puts core `c` in place. -/
def State.setCore (s : State) (c : Core) : State :=
  { s with cores := upsert (fun x => x.id == c.id) c s.cores }

/-- Die `d` (a die no list names is fresh). -/
def State.die (s : State) (d : Nat) : Die := (s.dies.find? (fun x => x.id == d)).getD (Die.fresh d)

/-- Puts die `d` in place. -/
def State.setDie (s : State) (d : Die) : State :=
  { s with dies := upsert (fun x => x.id == d.id) d s.dies }

/-- VF `v`, where it has been created. -/
def State.vf? (s : State) (v : Nat) : Option Vf := s.vfs.find? (fun x => x.id == v)

/-- Puts VF `v` in place where it exists. -/
def State.setVf (s : State) (v : Vf) : State :=
  { s with vfs := s.vfs.map (fun x => if x.id == v.id then v else x) }

/-- The launch named. -/
def State.launch? (s : State) (l : Nat) : Option Launch := s.launches.find? (fun x => x.id == l)

/-- Puts a launch in place where it exists. -/
def State.setLaunch (s : State) (l : Launch) : State :=
  { s with launches := s.launches.map (fun x => if x.id == l.id then l else x) }

/-- The team named. -/
def State.team? (s : State) (l t : Nat) : Option Team :=
  s.teams.find? (fun x => x.launch == l && x.idx == t)

/-- Puts a team in place where it exists. -/
def State.setTeam (s : State) (t : Team) : State :=
  { s with teams := s.teams.map (fun x => if x.launch == t.launch && x.idx == t.idx then t else x) }

/-- The crew named. -/
def State.crew? (s : State) (c : CrewId) : Option Crew := s.crews.find? (fun x => x.id == c)

/-- Puts a crew in place where it exists. -/
def State.setCrew (s : State) (c : Crew) : State :=
  { s with crews := s.crews.map (fun x => if x.id == c.id then c else x) }

/-- The thread named: the one in turn or one of the others. -/
def State.thread? (s : State) (t : ThreadId) : Option Thread :=
  if s.cur.id == t then some s.cur else s.others.find? (fun x => x.id == t)

/-- Changes every thread by `f`. -/
def State.mapThreads (s : State) (f : Thread → Thread) : State :=
  { s with cur := f s.cur, others := s.others.map f }

/-- Changes the thread named by `f`. -/
def State.modThread (s : State) (t : ThreadId) (f : Thread → Thread) : State :=
  s.mapThreads (fun x => if x.id == t then f x else x)

/-- Every thread of the state. -/
def State.threads (s : State) : List Thread := s.cur :: s.others

/-- Changes the thread in turn. -/
def State.setCur (s : State) (t : Thread) : State := { s with cur := t }

/-- A launch packet of zeros: what a thread of no launch would read. -/
def Packet.zero : Packet :=
  { flags := 0, object := 0, entry := 0, nbv := 0, qsize := 0, regs := 0, carve := 0, lease := 0,
    producer := 0, ntid := (0, 0, 0), nteam := (0, 0, 0), consts := 0, sigAddr := 0, sigVal := 0,
    repAddr := 0, repLen := 0, iters := 0, kt := 0, p := 0, chain := 0, proof := 0, proofB := 0 }

/-- The packet of a launch. -/
def State.packet (s : State) (l : Nat) : Packet :=
  ((s.launch? l).map (fun x => x.packet)).getD Packet.zero

/-- The VF of a launch: bits [63:58] of its id (R129). -/
def launchVf (l : Nat) : Nat := l / 2 ^ 58

/-- The core a team occupies (R118). -/
def State.coreOf (s : State) (l t : Nat) : CoreId :=
  ((s.team? l t).map (fun x => x.core)).getD ⟨0, 0⟩

/-- The core of the thread in turn. -/
def State.curCore (s : State) : CoreId := s.coreOf s.cur.id.launch s.cur.id.team

/-- The quarter of a thread's crew. -/
def State.quarterOf (s : State) (t : ThreadId) : Nat :=
  ((s.crews.find? (fun x => x.id == (⟨t.launch, t.team, t.lin / 32⟩ : CrewId))).map (fun c => c.quarter)).getD 0

/-- The packet of the thread in turn. -/
def State.pk (s : State) : Packet := s.packet s.cur.id.launch

/-- The crew a thread belongs to (R18). -/
def crewOf (t : ThreadId) : CrewId := ⟨t.launch, t.team, t.lin / 32⟩

/-- A thread's rank in its crew (R18). -/
def rankOf (t : ThreadId) : Nat := t.lin % 32

/-- The VF's time: (CLOCK + VCLKOFF) mod 2^64 (R310). -/
def State.vfTime (s : State) (v : Nat) : DWord :=
  s.clock + ((s.vf? v).map (fun x => x.vclkoff)).getD 0

/-- Flag bits of a packet (R17). -/
def Packet.dist (p : Packet) : Nat := (p.flags.extractLsb' 0 2).toNat
def Packet.resident (p : Packet) : Bool := p.flags.getLsbD 2
def Packet.stylus (p : Packet) : Bool := p.flags.getLsbD 3
def Packet.det (p : Packet) : Bool := p.flags.getLsbD 4
def Packet.checkord (p : Packet) : Bool := p.flags.getLsbD 5
def Packet.impress (p : Packet) : Bool := p.flags.getLsbD 6
def Packet.verify (p : Packet) : Bool := p.flags.getLsbD 7
def Packet.prio (p : Packet) : Nat := (p.flags.extractLsb' 8 3).toNat

/-- DET or CHECKORD: the launch's accesses are performed at home (R313). -/
def Packet.checked (p : Packet) : Bool := p.det || p.checkord

/-- Threads of a team, and its crews (R118). -/
def Packet.threads (p : Packet) : Nat := p.ntid.1 * p.ntid.2.1 * p.ntid.2.2
def Packet.crews (p : Packet) : Nat := (p.threads + 31) / 32

/-- Teams of the grid. -/
def Packet.grid (p : Packet) : Nat := p.nteam.1 * p.nteam.2.1 * p.nteam.2.2

/-- CARVE in bytes. -/
def Packet.carveBytes (p : Packet) : Nat := p.carve * 1024

/-- L1 lines of a core: L = (320 − carve) × 8 (R137). -/
def carveLines (carve : Nat) : Nat := (320 - carve) * 8

/-! ## Registers -/

/-- The backing index of a window register (R12). -/
def Thread.idx (t : Thread) (r : Reg) : Nat := t.winbase + r.toNat

/-- The k-th register from `r` (R12). -/
def Thread.wAt (t : Thread) (r : Reg) (k : Nat) : Word := t.regs.getD (t.idx r + k) 0

/-- One 32-bit register (shape r). -/
def Thread.w (t : Thread) (r : Reg) : Word := t.wAt r 0

/-- A pair, low word in the named register (shape p). -/
def Thread.p (t : Thread) (r : Reg) : DWord := Word.pair (t.wAt r 0) (t.wAt r 1)

/-- `n` registers from `r` on. -/
def Thread.words (t : Thread) (r : Reg) (n : Nat) : List Word := (List.range n).map (t.wAt r)

/-- Writes consecutive backing indices. -/
def putWords (regs : List Word) (i : Nat) : List Word → List Word
  | [] => regs
  | v :: vs => putWords (regs.set i v) (i + 1) vs

/-- Writes registers from `r` on. -/
def Thread.put (t : Thread) (r : Reg) (vs : List Word) : Thread :=
  { t with regs := putWords t.regs (t.idx r) vs }

/-- The two words of a pair, low first. -/
def pairWords (x : DWord) : List Word := [DWord.lo x, DWord.hi x]

/-! ## Phases and sets of threads -/

/-- A live thread: it has started and has not ended. -/
def Thread.live (t : Thread) : Bool := t.phase != .exited && t.phase != .neverStarted

/-- Blocked under R120 and R123: barrier, monitor, page-fault, settle and faulting states. -/
def Phase.blocked : Phase → Bool
  | .barrier _ _ _ => true
  | .monitor => true
  | .pageParked _ => true
  | .settling => true
  | .faulted => true
  | _ => false

/-- Stopped under R269. -/
def Phase.stopped : Phase → Bool
  | .faulted => true
  | .exited => true
  | .held => true
  | .waiting => true
  | .barrier _ _ _ => true
  | .monitor => true
  | .settling => true
  | .pageParked _ => true
  | .debugStopped _ => true
  | .neverStarted => true
  | _ => false

/-- Counted as blocked at a meeting: a member that has faulted in a detection of R158 is not, so that the held members stay held
(R123, R158). -/
def Thread.meetBlocked (t : Thread) : Bool :=
  t.phase.blocked && !(t.phase == .faulted && t.trapcode == 0x11 && t.trapinfo.getLsbD 5)

/-- The threads of a crew, in rank order (R118). -/
def State.crewThreads (s : State) (c : CrewId) : List Thread :=
  (List.range 32).filterMap (fun r => s.thread? ⟨c.launch, c.team, 32 * c.crew + r⟩)

/-- The live members of a crew, in rank order. -/
def State.liveMembers (s : State) (c : CrewId) : List Thread :=
  (s.crewThreads c).filter Thread.live

/-- The members a convergent word or a detection counts for thread `t`: its group where `t` is in a
handler, else every live member (R124, R272). -/
def State.countedFor (s : State) (t : Thread) : List Thread :=
  (s.liveMembers (crewOf t.id)).filter (fun m => !t.inHandler || m.inHandler)

/-- Puts a thread into a phase in which it does not issue: it leaves its bundle (R122). -/
def Thread.enter (t : Thread) (ph : Phase) (now : Nat) : Thread := { t with phase := ph, since := now + 1 }

/-- Releases the held threads of a crew whose meeting set is complete: every live member with that
MEET value is held there or blocked (R123). -/
def State.meetRelease (s : State) (c : CrewId) : State :=
  let ms := s.liveMembers c
  let free (t : Thread) : Bool :=
    crewOf t.id == c && t.phase == .held &&
      ms.all (fun m => m.meet != t.meet || m.phase == .held || m.meetBlocked)
  s.mapThreads (fun t => if free t then { t with phase := .ready, released := true } else t)

/-- Parks the thread in turn in a phase that counts as blocked, and looks at its crew's meetings. -/
def State.blockCur (s : State) (ph : Phase) : State :=
  (s.setCur (s.cur.enter ph s.cycle)).meetRelease (crewOf s.cur.id)

/-- Parks the thread in turn in any other phase. -/
def State.parkCur (s : State) (ph : Phase) : State := s.setCur (s.cur.enter ph s.cycle)

/-- Every thread stalled at its word under reason `r` tries its word again. -/
def State.wake (s : State) (r : Nat) : State :=
  s.mapThreads (fun t => if t.phase == .stalled r then { t with phase := .ready } else t)

/-- The threads that wait for a walk of a die to a page, or in any phase `p` picks, try their words again. -/
def State.wakeWalks (s : State) (p : ThreadId → Nat → Bool) : State :=
  s.mapThreads (fun t => match t.phase with
    | .walking va => if p t.id va then { t with phase := .ready } else t
    | _ => t)

/-- Something has been performed: threads stalled at their words, and those that wait to arrive on a barrier, try
again. -/
def State.stir (s : State) : State := ((s.wake 15).wake 3).wake 13

/-! ## Code addresses -/

/-- The segment id and the byte offset of a code address (R98). -/
def segOf (pc : Word) : Nat := (pc >>> 16).toNat
def offOf (pc : Word) : Nat := (pc &&& 0xFFFF).toNat

/-- The code address of an offset in a segment. -/
def codeAddr (seg off : Nat) : Word := BitVec.ofNat 32 (seg * 65536 + off)

/-- The length of a segment of an image, where the image has it (R114). -/
def Image.segLen (i : Image) (seg : Nat) : Option Nat := (i.segs[seg]?).map (fun x => x.2)

/-- The length of a segment of a launch's image. -/
def State.segLen (s : State) (l seg : Nat) : Option Nat :=
  (s.launch? l).bind (fun x => x.image.segLen seg)

/-- The length of the segment the thread in turn stands in. -/
def State.curLen (s : State) : Nat := (s.segLen s.cur.id.launch (segOf s.cur.pc)).getD 0

/-- Whether a code address lies inside its segment and is word aligned: any other value of MEET
equals no pc (R147). -/
def State.inCode (s : State) (l : Nat) (pc : Word) : Bool :=
  offOf pc % 4 == 0 && decide (offOf pc < (s.segLen l (segOf pc)).getD 0)

/-- Moves a thread's pc: a released thread stays released only while its pc keeps that value, and a
thread whose pc equals its MEET is held unless released there (R123, R147). -/
def Thread.goto (t : Thread) (pc : Word) (inCode : Bool) : Thread :=
  let rel := t.released && pc == t.pc
  { t with pc := pc, released := rel, debugPass := [],
           phase := if pc == t.meet && inCode && !rel then .held else .ready }

/-- Moves the pc of the thread in turn, and looks at its crew's meetings where it is held there. -/
def State.goto (s : State) (pc : Word) : State :=
  let s' := s.setCur (s.cur.goto pc (s.inCode s.cur.id.launch pc))
  if s'.cur.phase == .held then (s'.setCur (s'.cur.enter .held s.cycle)).meetRelease (crewOf s.cur.id) else s'

/-! ## The resident segment table -/

/-- An entry that a lookup of a key matches: its state is not ABSENT (R99). -/
def SegEntry.is (e : SegEntry) (vf coid seg : Nat) : Bool :=
  e.st != .absent && e.vf == vf && e.coid == coid && e.seg == seg

/-- The entry of a key. -/
def Core.segEntry (c : Core) (vf coid seg : Nat) : Option SegEntry := c.segs.find? (fun e => e.is vf coid seg)

/-- The code object id of a launch's image. -/
def State.coidOf (s : State) (l : Nat) : Nat := ((s.launch? l).map (fun x => x.image.coid)).getD 0

/-- Changes the entry of a key. -/
def State.modSeg (s : State) (k : CoreId) (vf coid seg : Nat) (f : SegEntry → SegEntry) : State :=
  let c := s.core k
  s.setCore { c with segs := c.segs.map (fun e => if e.is vf coid seg then f e else e) }

/-- The head of the Lacer's queue is looked at again from now on (R106). -/
def State.lacerStir (s : State) (k : CoreId) (vf : Nat) : State :=
  let c := s.core k
  s.setCore { c with lacerQ := c.lacerQ.map (fun r => if r.vf == vf then { r with since := s.cycle } else r) }

/-- Threads of a launch enter a segment from another: the entry's stamp is set, and the tokens they leave behind may serve the head
of the Lacer's queue (R103, R106). -/
def State.enterSeg (s : State) (k : CoreId) (l seg : Nat) : State :=
  (s.lacerStir k (launchVf l)).modSeg k (launchVf l) (s.coidOf l) seg (fun e => { e with stamp := s.cycle })

/-! ## Kills and traps -/

/-- Decides to kill a launch with a detail, arising at a core (R273); the first decision stands. -/
def State.killLaunch (s : State) (l detail : Nat) (k : CoreId) : State :=
  match s.launch? l with
  | some x => if x.kill.isSome then s else s.setLaunch { x with kill := some (detail, k) }
  | none => s

/-- A thread that traps becomes faulted with its trap registers set (R267, R269). -/
def Thread.trap (t : Thread) (code info : Nat) (addr : DWord) (trappc resume : Word) (now : Nat) : Thread :=
  { t with trapcode := BitVec.ofNat 32 code, trappc := trappc, trapinfo := BitVec.ofNat 32 info,
           trapaddr := addr, resume := resume, relTrap := t.released, divNo := 0, phase := .faulted,
           since := now + 1, watch := none, debugPass := [] }

/-- A trap of any thread. A group member that raises one in its handler kills the launch with
detail 0x100 + code (R272). -/
def State.trapThread (s : State) (id : ThreadId) (code info : Nat) (addr : DWord) (trappc resume : Word) : State :=
  match s.thread? id with
  | none => s
  | some t =>
    if t.inHandler then
      ((s.modThread id (fun x => x.enter .faulted s.cycle)).killLaunch id.launch (0x100 + code)
        (s.coreOf id.launch id.team)).meetRelease (crewOf id)
    else (s.modThread id (fun x => x.trap code info addr trappc resume s.cycle)).meetRelease (crewOf id)

/-- A trap of the thread in turn that resumes at its word. -/
def State.raise (s : State) (code info : Nat) (addr : DWord) : State :=
  s.trapThread s.cur.id code info addr s.cur.pc s.cur.pc

/-- Advances the pc of the thread in turn past its word (R34). Past offset 0xFFFC there is no pc:
the thread falls through at once with CODEBOUND cause 1 (R345). DEDUCED (log entry 10). -/
def State.advance (s : State) : State :=
  if offOf s.cur.pc = 0xFFFC then s.raise 0x04 1 65536 else s.goto (s.cur.pc + 4)

/-- Advances the pc of any thread past its word. -/
def State.advanceThread (s : State) (id : ThreadId) : State :=
  match s.thread? id with
  | none => s
  | some t =>
    if offOf t.pc = 0xFFFC then s.trapThread id 0x04 1 65536 t.pc t.pc
    else (s.modThread id (fun t => t.goto (t.pc + 4) (s.inCode id.launch (t.pc + 4)))).meetRelease
      (crewOf id)

/-- The group of the crew's next trap: the faulted members that share the lowest rank's TRAPCODE and
TRAPPC, or its CREWDIV detection (R270). -/
def trapGroup (ms : List Thread) : List Thread :=
  match ms.find? (fun t => t.phase == .faulted) with
  | none => []
  | some r => ms.filter (fun t => t.phase == .faulted &&
      (if r.trapcode == 0x11 then t.trapcode == 0x11 && t.divNo == r.divNo
       else t.trapcode == r.trapcode && t.trappc == r.trappc))

/-- TRAPMASK of a group (R270). -/
def rankMask (ms : List Thread) : Word :=
  ms.foldl (fun m t => m ||| (1 <<< rankOf t.id)) 0

/-- Lands the results a thread holds, oldest first (R22, R24). -/
def landAll (regs : List Word) : List QEntry → List Word
  | [] => regs
  | e :: es => landAll (putWords regs e.base e.val) es

/-- Entry into the handler of one group member (R271): the queue lands, TLK and TMEET save LK and
MEET, LK takes the resume address, MEET its start value, PC the trap entry. -/
def Thread.enterHandler (t : Thread) (mask entry : Word) : Thread :=
  { t with regs := landAll t.regs t.queue, queue := [], tlk := t.lk, tmeet := t.meet, lk := t.resume,
           meet := 2, pc := entry, released := false, inHandler := true, trapmask := mask,
           phase := .ready }

/-- Whether a crew takes its trap now: no trap of it is being handled, every live member is stopped,
one is faulted, and every reply a group member awaits has arrived (R269, R271, R272). -/
def State.trapReady (s : State) (c : CrewId) : Bool :=
  let ms := s.liveMembers c
  !(ms.any (fun t => t.inHandler)) && ms.all (fun t => t.phase.stopped) &&
    ms.any (fun t => t.phase == .faulted) &&
    (trapGroup ms).all (fun t => t.queue.all (fun e => e.st == .held))

/-- TAKING A DEFERRED TRAP (R269 to R273): the group enters the image's trap entry; an image with
none kills the launch with the code. -/
def State.takeTrap (s : State) (c : CrewId) : State :=
  let g := trapGroup (s.liveMembers c)
  match g with
  | [] => s
  | r :: _ =>
    match (s.launch? c.launch).bind (fun l => l.image.trap) with
    | none => s.killLaunch c.launch r.trapcode.toNat (s.coreOf c.launch c.team)
    | some entry =>
      let s' := s.mapThreads (fun t => if g.any (fun m => m.id == t.id) then t.enterHandler (rankMask g) entry else t)
      if g.all (fun m => segOf m.pc == segOf entry) then s' else s'.enterSeg (s.coreOf c.launch c.team) c.launch (segOf entry)

/-! ## Single faults -/

/-- The home numbers of memory outside the package's dies: a pod window's package, the hosts. -/
def podHome : Nat := 24
def hostHome : Nat := 25

/-- The home of a memory name: a die, another package, or a host (R171, R302, R305). -/
def homeOf (key : Nat) : Nat :=
  let r := key / 2 ^ 48
  if 16 ≤ r then hostHome
  else if r = 0 then key / 2 ^ 43 % 32
  else if r = 1 then key % 2 ^ 48 / 4096 % 24
  else podHome

/-- The die and the voltage domain of a stored place (R333): the quad of its core; the rest of its die for memory. -/
def State.faultDomain (s : State) : FaultLoc → Nat × Nat
  | .memory pa _ => (homeOf pa, 13)
  | .register t _ _ => ((s.coreOf t.launch t.team).die, (s.coreOf t.launch t.team).core / 4)
  | .scratch l t _ _ => ((s.coreOf l t).die, (s.coreOf l t).core / 4)
  | .code k _ _ _ => (k.die, k.core / 4)
  | .candidate t _ _ => ((s.coreOf t.launch t.team).die, (s.coreOf t.launch t.team).core / 4)
  | .eyelet k _ _ => (k.die, k.core / 4)
  | .crewTable d q _ => (d, q)
  | .l1 k _ _ _ => (k.die, k.core / 4)
  | .l2 d _ _ _ => (d, 13)
  | .l2tag d _ _ => (d, 13)

/-- Counts a corrected error or a replay in a domain (R333). -/
def State.countErr (s : State) (d dom : Nat) : State :=
  let x := s.die d
  s.setDie { x with doms := x.doms.modify dom (fun v => { v with errs := v.errs + 1 }) }

/-- A VF's context notes that it has consumed uncorrectable data at a place, by an access of core `k`; the first note stands (R331). -/
def State.consume (s : State) (vf : Nat) (k : CoreId) (f : FaultLoc) : State :=
  if s.consumed.any (fun c => c.1 == vf) then s else { s with consumed := s.consumed ++ [(vf, k, f)] }

/-- A VF's context reads, by an access of core `k` (die 24 where it is of none), the stored places that `p` picks: single faults there
are corrected in place and counted, a poisoned place is consumed (R328, R333). DEDUCED (log entry 26). -/
def State.useStored (s : State) (vf : Nat) (k : CoreId) (p : FaultLoc → Bool) : State :=
  if s.flips.isEmpty && s.poison.isEmpty then s else
  let hit := s.flips.filter p
  let s := hit.foldl (fun s f => s.countErr (s.faultDomain f).1 (s.faultDomain f).2)
    { s with flips := s.flips.filter (fun f => !p f) }
  match s.poison.find? p with
  | none => s
  | some f => s.consume vf k f

/-- New values in the stored places that `p` picks: nothing is wrong with them any more. -/
def State.renewStored (s : State) (p : FaultLoc → Bool) : State :=
  { s with flips := s.flips.filter (fun f => !p f), poison := s.poison.filter (fun f => !p f) }

/-! ## Issuing a word -/

/-- An operand field for the test of R13: its code (0 D, 1 A, 2 B), its base name, the registers it
covers, whether the word reads them. -/
structure Opnd where
  field : Nat
  name  : Reg
  width : Nat
  read  : Bool
  deriving DecidableEq, Repr

/-- Operands by field: D written, D read, D read as `rd` says, A, B. -/
def opD (r : Reg) (n : Nat := 1) : Opnd := ⟨0, r, n, false⟩
def opR (r : Reg) (n : Nat := 1) : Opnd := ⟨0, r, n, true⟩
def opX (rd : Bool) (r : Reg) (n : Nat := 1) : Opnd := ⟨0, r, n, rd⟩
def opA (r : Reg) (n : Nat := 1) : Opnd := ⟨1, r, n, true⟩
def opB (r : Reg) (n : Nat := 1) : Opnd := ⟨2, r, n, true⟩

/-- A register an operand covers lies beyond the allocation (R13). -/
def Thread.beyond (t : Thread) (o : Opnd) : Bool := decide (t.regs.length < t.idx o.name + o.width)

/-- Whether a word parks before it issues: S = 1, or a long-latency word that finds 16 entries, with
results pending (R24). -/
def Thread.mustPark (t : Thread) (sp long : Bool) : Bool :=
  !t.queue.isEmpty && (sp || (long && decide (16 ≤ t.queue.length)))

/-- The places of registers of a thread. -/
def inRegs (t : ThreadId) (base width : Nat) : FaultLoc → Bool
  | .register u i _ => u == t && decide (base ≤ i ∧ i < base + width)
  | _ => false

/-- The issuing word reads its source registers (R328) and, where it is of fixed latency, renews its destination. -/
def State.useRegs (s : State) (long : Bool) (ops : List Opnd) : State :=
  let t := s.cur
  let s := s.useStored (launchVf t.id.launch) s.curCore (fun f => ops.any (fun o => o.read && inRegs t.id (t.idx o.name) o.width f))
  if long then s else s.renewStored (fun f => ops.any (fun o => !o.read && inRegs t.id (t.idx o.name) o.width f))

/-- The word's own effect, unless one of its registers holds uncorrectable data: that is consumed, and the context is dealt with under
R331 before anything else of it happens (R328). -/
def State.unlessPoisoned (s : State) (long : Bool) (ops : List Opnd) (k : State → State) : State :=
  if s.flips.isEmpty && s.poison.isEmpty then k s
  else if (s.useRegs long ops).consumed.length = s.consumed.length then k (s.useRegs long ops) else s.useRegs long ops

/-- Issuing a word (R24, steps 6 and 7 of R59): the park of a switch point; then REGBOUND on the first
failing operand; then the word's own effect `k`. -/
def issue (sp long : Bool) (ops : List Opnd) (s : State) (k : State → State) : Out :=
  if s.cur.mustPark sp long then .next (s.parkCur .switchParked)
  else match ops.find? s.cur.beyond with
    | some o => .next (s.raise 0x03 (o.name.toNat + 256 * o.field) 0)
    | none => .next (s.unlessPoisoned long ops k)

/-- A fixed-latency word that only writes registers from `d` on. -/
def State.result (s : State) (d : Reg) (vs : List Word) : State := (s.setCur (s.cur.put d vs)).advance

/-! ## The pending-result queue -/

/-- A fresh name of the model's own. -/
def State.fresh (s : State) : State := { s with nextId := s.nextId + 1 }

/-- Issues a long-latency word: one entry, its backing indices fixed now (R14, R22). The entry is named
by `nextId` as it stood. -/
def State.enqueue (s : State) (d : Reg) (width : Nat) : State :=
  let t := s.cur
  State.setCur { s with nextId := s.nextId + 1 }
    { t with queue := t.queue ++ [QEntry.mk s.nextId (t.idx d) width QState.awaiting []] }

/-- Sends a reply on its way (R22). -/
def State.reply (s : State) (req : Nat) (t : ThreadId) (val : List Word) : State :=
  { s with replies := s.replies ++ [⟨req, t, val, false, 0⟩] }

/-- A reply reaches its entry: the value is held until the next switch point (R22). -/
def Thread.hold (t : Thread) (req : Nat) (val : List Word) : Thread :=
  { t with queue := t.queue.map (fun e => if e.req == req then { e with st := .held, val := val } else e) }

/-- Whether every entry of a thread's queue holds its reply. -/
def Thread.repliesIn (t : Thread) : Bool := t.queue.all (fun e => e.st == .held)

/-- Leaving a switch point: the results land in issue order and the thread goes on at its word (R24). -/
def Thread.leaveSwitch (t : Thread) : Thread :=
  { t with regs := landAll t.regs t.queue, queue := [], phase := .ready }

/-! ## Convergent words -/

/-- Whether a request is an access of its thread: the pieces of a launch, the fill of a copy, a LAUNCH's copy and a unit's work are
none. -/
def ReqKind.isAccess : ReqKind → Bool
  | .work => false
  | .steal _ _ => false
  | .fill _ => false
  | .launch _ _ _ _ => false
  | .unit => false
  | _ => true

/-- A thread's earlier accesses have all been performed. -/
def State.performed (s : State) (t : ThreadId) : Bool := !(s.requests.any (fun r => r.t == t && r.kind.isAccess))

/-- A thread has a bundle load that a restore has begun again and that has not passed its checks: it issues nothing before (R290). DESIGN
CHOICE (log entry 25). -/
def State.restarting (s : State) (t : ThreadId) : Bool :=
  s.requests.any (fun r => r.t == t && (match r.kind with
    | .lduAgain _ _ _ _ _ => true
    | _ => false))

/-- Whether a convergent word that the thread in turn stands at can execute: every other member counted
waits at the same address (R124), and every member's earlier accesses, which it orders before what follows, have been performed
(R145). -/
def State.converged (s : State) : Bool :=
  (s.countedFor s.cur).all (fun m => (m.id == s.cur.id || (m.phase == .waiting && m.pc == s.cur.pc)) && s.performed m.id)

/-- Executes a convergent word once for every member counted: `f` gives a member's new state from its
own, the pc moves past the word (R124, R146). -/
def State.convergeAll (s : State) (f : Thread → Thread) : State :=
  let ms := s.countedFor s.cur
  let pc := s.cur.pc
  let inC := s.inCode s.cur.id.launch (pc + 4)
  let s' := s.mapThreads (fun t =>
    if ms.any (fun m => m.id == t.id) then
      let t' := (f t).goto (pc + 4) inC
      { t' with since := if t'.phase == .held then s.cycle + 1 else 0 }
    else t)
  if offOf pc = 0xFFFC then
    ms.foldl (fun s m => s.trapThread m.id 0x04 1 65536 pc pc) (s.mapThreads (fun t =>
      if ms.any (fun m => m.id == t.id) then f t else t))
  else s'.meetRelease (crewOf s.cur.id)

/-- A convergent word: it executes where every counted member stands at it, else the thread waits. -/
def State.converge (s : State) (k : State → State) : State :=
  if s.converged then k s else s.blockCur .waiting

end Sys2Proof.Machine
end

