-- ==== Sys2Proof/Machine/Operands.lean ====
section
/-! DEFINITION. The operand forms: immediates (R36), branch targets (R36, R70), effective addresses and
the apertures of a generic address (R76), code addresses of a transfer (R72), byte lists. -/

namespace Sys2Proof.Machine

/-- imm10 sign-extended (R36). -/
def sext10 (i : BitVec 10) : Word := i.signExtend 32

/-- imm18 sign-extended (R36). -/
def sext18 (i : BitVec 18) : Word := i.signExtend 32

/-- imm18 zero-extended (R36). -/
def zext18 (i : BitVec 18) : Word := i.zeroExtend 32

/-- The byte offset a branch or jump aims at: unbounded, never carrying into the segment id (R36). -/
def branchTarget (pc : Word) (off : Int) : Int := (offOf pc : Int) + off * 4

/-- ea of LD and ST: the pair plus sext(off8) × n mod 2^64 (R76). -/
def effAddr (a : DWord) (off : BitVec 8) (n : Nat) : DWord := a + BitVec.ofInt 64 (off.toInt * n)

/-- What a generic address names (R76). -/
inductive Ap where
  | glob (va : Nat)
  | scr (off : Nat)
  | clu (rank : Nat) (off : Nat)
  | bad
  deriving DecidableEq, Repr

/-- The aperture of an n-byte access under a packet (R76). -/
def aperture (p : Packet) (ea : DWord) (n : Nat) : Ap :=
  let a := ea.toNat
  let off := a % 2 ^ 32
  if a < 2 ^ 48 then .glob a
  else if a / 2 ^ 32 = 0x10000000 then (if off + n ≤ p.carveBytes then .scr off else .bad)
  else if a / 2 ^ 36 = 0x2000000 then
    let r := a / 2 ^ 32 % 16
    if r < p.qsize && decide (off + n ≤ p.carveBytes) then .clu r off else .bad
  else .bad

/-- The generic address of a scratch offset (R153). -/
def scratchAddr (off : Word) : DWord := 0x1000000000000000 + off.zeroExtend 64

/-- The n low bytes of a number, least significant first (R4). -/
def bytesOf : Nat → Nat → List Byte
  | 0, _ => []
  | n + 1, x => BitVec.ofNat 8 x :: bytesOf n (x / 256)

/-- The number bytes stand for, least significant first (R4). -/
def natOf : List Byte → Nat
  | [] => 0
  | b :: bs => b.toNat + 256 * natOf bs

/-- A number as 32-bit words, least significant first. -/
def wordsOf : Nat → Nat → List Word
  | 0, _ => []
  | n + 1, x => BitVec.ofNat 32 x :: wordsOf n (x / 2 ^ 32)

/-- The number words stand for, least significant first. -/
def natOfWords : List Word → Nat
  | [] => 0
  | w :: ws => w.toNat + 2 ^ 32 * natOfWords ws

/-- The result words of an n-byte load: one word for 1, 2 and 4 bytes, sign- or zero-extended; n/4 words
otherwise (R78). -/
def loadWords (n : Nat) (sgn : Bool) (bs : List Byte) : List Word :=
  let x := natOf bs
  if n ≤ 4 then [if sgn && decide (2 ^ (8 * n - 1) ≤ x) then BitVec.ofInt 32 ((x : Int) - 2 ^ (8 * n)) else BitVec.ofNat 32 x]
  else wordsOf (n / 4) x

/-- Why an indirect transfer's target fails R72, with the cause of R345; none where it passes. -/
def State.badTarget (s : State) (tgt : Word) : Option Nat :=
  if tgt.extractLsb' 0 2 ≠ 0 then some 3
  else match s.segLen s.cur.id.launch (segOf tgt) with
    | none => some 4
    | some n => if n ≤ offOf tgt then some 5 else none

/-- Whether the return address of a call at this pc would lie outside the segment (R71, R72). -/
def State.noReturn (s : State) : Bool := decide (offOf s.cur.pc + 4 = s.curLen)

end Sys2Proof.Machine
end

