-- ==== Sys2Proof/Machine/Mem.lean ====
section
/-! DEFINITION. Bytes of memory: the canonical list, the physical address map (R171, R302), what a write
performed at a home slice does besides the bytes (monitors R191, ticket tags R314, writer counters R318,
the checkpoint log R331), and the scratch of a team. -/

namespace Sys2Proof.Machine

/-! ## The canonical list -/

/-- Reads one byte; an unlisted address reads 0. DESIGN CHOICE (log entry 2). -/
def Memory.get : Memory → Nat → Byte
  | [], _ => 0
  | c :: m, a => if c.1 = a then c.2 else Memory.get m a

/-- Lists a byte that is not 0, in its place. -/
def Memory.enter : Memory → Nat → Byte → Memory
  | [], a, v => [(a, v)]
  | c :: m, a, v => if a < c.1 then (a, v) :: c :: m else if a = c.1 then (a, v) :: m else c :: Memory.enter m a v

/-- Writes one byte, keeping the canonical form. -/
def Memory.put (m : Memory) (a : Nat) (v : Byte) : Memory :=
  if v = 0 then m.filter (fun c => c.1 != a) else m.enter a v

/-- Reads n bytes upward. -/
def Memory.getN (m : Memory) (a n : Nat) : List Byte := (List.range n).map (fun k => m.get (a + k))

/-- Writes bytes upward. -/
def Memory.putN (m : Memory) (a : Nat) : List Byte → Memory
  | [] => m
  | b :: bs => Memory.putN (m.put a b) (a + 1) bs

/-- Writes bytes at offsets from `a`. -/
def Memory.putAt (m : Memory) (a : Nat) : List (Nat × Byte) → Memory
  | [] => m
  | b :: bs => Memory.putAt (m.put (a + b.1) b.2) a bs

/-! ## The physical address map -/

/-- An access to a memory name that is of no launch. -/
def GAddr.bare (pa : Nat) : GAddr := ⟨pa, 0, [], 64, 0, 0, false, false, false, false⟩


/-- S, the die-local size, and IL, the interleaved size, in bytes (R171, R332, R334). -/
def State.dlBytes (s : State) : Nat := s.mgmt.dlsize * 2 ^ 30
def State.ilBytes (s : State) : Nat :=
  let cmin := Config.hbmPerDie - (s.mgmt.burnlog + 1) / 2 * 2 ^ 20
  24 * ((cmin - s.dlBytes) / 4096) * 4096

/-- The package number and the pod size of PODCFG (R302): one package is modelled. DESIGN CHOICE (log entry 27). -/
def State.package (s : State) : Nat := (s.mgmt.podcfg.extractLsb' 0 6).toNat
def State.podSize (s : State) : Nat := (s.mgmt.podcfg.extractLsb' 16 6).toNat + 1

/-- The name memory goes by in the model: a host page's addresses stand from 2^52 on (R305), and a window
naming the package itself is its interleaved region (R302). -/
def State.memKey (s : State) (host : Bool) (pa : Nat) : Nat :=
  if host then 2 ^ 52 + pa % 2 ^ 48
  else if pa / 2 ^ 48 = 2 ∧ pa / 2 ^ 42 % 64 = s.package then 2 ^ 48 + pa % 2 ^ 42 else pa

/-- Whether a physical address names memory (R171, R302). -/
def State.validPa (s : State) (pa : Nat) : Bool :=
  let r := pa / 2 ^ 48
  if r = 0 then decide (pa / 2 ^ 43 < 24 ∧ pa % 2 ^ 43 < s.dlBytes)
  else if r = 1 then decide (pa % 2 ^ 48 < s.ilBytes)
  else if r = 2 then decide (pa / 2 ^ 42 % 64 < s.podSize ∧ pa % 2 ^ 42 < s.ilBytes)
  else false

/-- The line number of a memory name. -/
def lineOf (key : Nat) : Nat := key / 128

/-- The address of the copy of a REPL page on die d: the same die-local offset (R300). -/
def replKey (key d : Nat) : Nat := d * 2 ^ 43 + key % 2 ^ 43

/-- The slice and the set of a line in an L2 (R170). -/
def sliceOf (line : Nat) : Nat := Nat.xor (line % 32) (line / 2 ^ 15 % 32)
def setOf (line : Nat) : Nat := line / 32 % 1024

/-! ## Reads of stored places -/

/-- A byte of a line lies among n bytes from a memory name on. -/
def inBytes (key n line off : Nat) : Bool := decide (key ≤ line * 128 + off ∧ line * 128 + off < key + n)

/-- A read by a VF's context, for an access of core `k`, of memory bytes as L2 and HBM hold them: in the home die's L2, or in a copy
that the die of `k` holds (R328). -/
def State.consumeAt (s : State) (vf : Nat) (k : CoreId) (key n : Nat) : State :=
  s.useStored vf k (fun f => match f with
    | .memory pa _ => decide (key ≤ pa ∧ pa < key + n)
    | .l2 d line off _ => (d == homeOf key || d == k.die) && inBytes key n line off
    | .l2tag d line _ => (d == homeOf key || d == k.die) && line == lineOf key
    | _ => false)

/-- A read of bytes that a core's L1 serves (R328). -/
def State.consumeL1 (s : State) (vf : Nat) (k : CoreId) (key n : Nat) : State :=
  s.useStored vf k (fun f => match f with
    | .l1 k' line off _ => k' == k && inBytes key n line off
    | _ => false)

/-! ## What a write at a home slice does -/

/-- Two byte ranges overlap. -/
def overlaps (a n b m : Nat) : Bool := decide (0 < n ∧ 0 < m ∧ a < b + m ∧ b < a + n)

/-- The monitors of a global word: a write that overlaps it causes a new read (R191). -/
def Thread.watchWrite (key n : Nat) (t : Thread) : Thread :=
  match t.watch with
  | some w => match w.glob with
    | some g => if w.monitor && overlaps key n g.pa 4 then { t with watch := some { w with reread := true } } else t
    | none => t
  | none => t

/-- The launch a counter of R318 for this line belongs to. -/
def State.counterOwner (s : State) (line : Nat) : Option Nat :=
  (s.launches.find? (fun l => l.writers.any (fun w => w.line == line && !w.foreign))).map (fun l => l.id)

/-- Counters in use in the slice of a line at its home die. -/
def State.countersAt (s : State) (line : Nat) : Nat :=
  (s.launches.map (fun l => (l.writers.filter (fun w => !w.foreign && sliceOf w.line == sliceOf line &&
    homeOf (w.line * 128) == homeOf (line * 128))).length)).foldl (· + ·) 0

/-- A counter after a write by a team (R318). -/
def Writer.noteWrite (w : Writer) (t : Nat) : Writer :=
  if w.first == t || w.second == some t then w
  else match w.second with
    | none => { w with count := 2, second := some t }
    | some _ => { w with count := 3 }

/-- Counts a write of a checked launch at a home slice; a line of another launch's, once listed as such, gets no counter, and a line
written while the slice had none left is noted (R318). -/
def State.countWrite (s : State) (g : GAddr) : State :=
  if !g.counted || decide (24 ≤ homeOf g.pa) then s else
  match s.launch? g.launch with
  | none => s
  | some l =>
    let line := lineOf g.pa
    match s.counterOwner line with
    | some o =>
      if o == l.id then
        s.setLaunch { l with writers := l.writers.map (fun w => if w.line == line then w.noteWrite g.team else w) }
      else if l.writers.any (fun w => w.line == line) then s
      else s.setLaunch { l with writers := l.writers ++ [⟨line, 0, 0xFFFFFFFF, none, false, true⟩] }
    | none =>
      if l.uncounted.contains line || l.writers.any (fun w => w.line == line) then s
      else if 4096 ≤ s.countersAt line then s.setLaunch { l with uncounted := l.uncounted ++ [line] }
      else s.setLaunch { l with writers := l.writers ++ [⟨line, 1, g.team, none, false, false⟩] }

/-- Counts a read of a checked launch at a home slice (R318). -/
def State.countRead (s : State) (g : GAddr) : State :=
  if !g.counted || decide (24 ≤ homeOf g.pa) then s else
  match s.launch? g.launch with
  | none => s
  | some l =>
    let line := lineOf g.pa
    match s.counterOwner line with
    | some o =>
      if o == l.id then
        s.setLaunch { l with writers := l.writers.map (fun w =>
          if w.line == line && (decide (2 ≤ w.count) || w.first != g.team) then { w with read := true } else w) }
      else if l.writers.any (fun w => w.line == line) then s
      else s.setLaunch { l with writers := l.writers ++ [⟨line, 0, 0xFFFFFFFF, none, false, true⟩] }
    | none => s

/-- The bytes of a write that pass the ticket unit, with the new tags (R314). -/
def Launch.ticket (l : Launch) (key team : Nat) (bs : List (Nat × Byte)) : Launch × List (Nat × Byte) :=
  let ok := bs.filter (fun b => !(l.tags.any (fun x => x.1 == key + b.1 && decide (team < x.2))))
  ({ l with tags := l.tags.filter (fun x => !(ok.any (fun b => key + b.1 == x.1))) ++
              ok.map (fun b => (key + b.1, team)) }, ok)

/-- Passes a write of a DET launch through the ticket unit (R314). -/
def State.ticketFilter (s : State) (g : GAddr) (bs : List (Nat × Byte)) : State × List (Nat × Byte) :=
  if !g.det then (s, bs) else
  match s.launch? g.launch with
  | none => (s, bs)
  | some l => let r := l.ticket g.pa g.team bs; (s.setLaunch r.1, r.2)

/-- A launch becomes unrollbackable (R331). -/
def State.markUnroll (s : State) (l : Nat) : State :=
  match s.launch? l with
  | none => s
  | some x => s.setLaunch { x with unrollable := true }

/-- Lines the log of a base die holds: that of the shares of its two dies (R331, R332). -/
def State.logRoom (s : State) : Nat := 2 * ((s.mgmt.burnlog + 1) / 2 * 2 ^ 20) / 128

/-- Lines in the log of the base die of a line's home. -/
def State.logUsed (s : State) (key : Nat) : Nat :=
  ((s.intervals.map (fun v => (v.log.filter (fun e =>
    Config.baseDie (homeOf (e.1 * 128)) == Config.baseDie (homeOf key))).length)).foldl (· + ·) 0)

/-- Before a launch writes a line: its old value is logged once in the launch's open interval; a log that is full makes every launch
unrollbackable, and the line is only noted; a write of host memory or a pod window makes the launch so that makes it (R331). -/
def State.logWrite (s : State) (l key : Nat) : State :=
  let line := lineOf key
  let mine (v : Interval) : Bool := v.units.any (fun u => u.2.2.contains l)
  if !(s.intervals.any mine) then s
  else if 24 ≤ homeOf key then s.markUnroll l
  else if s.intervals.any (fun v => mine v && (v.log.any (fun e => e.1 == line) || v.unlogged.contains line)) then s
  else if s.logRoom ≤ s.logUsed key then { s with
    launches := s.launches.map (fun x => { x with unrollable := true })
    intervals := s.intervals.map (fun v => if mine v then { v with unlogged := line :: v.unlogged } else v) }
  else { s with intervals := s.intervals.map (fun v =>
    if mine v then { v with log := (line, s.mem.getN (line * 128) 128) :: v.log } else v) }

/-- Writes bytes (by offset from the address) that have passed the ticket unit into memory, with all that follows from it at the home
slice: the checkpoint log, the monitors; a poisoned place that is written is sound again. -/
def State.storeAt (s : State) (g : GAddr) (bs : List (Nat × Byte)) : State :=
  match bs with
  | [] => s
  | _ =>
    let s := s.logWrite g.launch g.pa
    let s := State.renewStored { s with mem := s.mem.putAt g.pa bs } (fun f => match f with
      | .memory pa _ => bs.any (fun b => g.pa + b.1 == pa)
      | .l2 d line off _ => d == homeOf g.pa && bs.any (fun b => g.pa + b.1 == line * 128 + off)
      | _ => false)
    bs.foldl (fun s b => s.mapThreads (Thread.watchWrite (g.pa + b.1) 1)) s

/-! ## Scratch -/

/-- A watched scratch word is read again when its bank is written (R191). -/
def Thread.watchScratch (launch team off n : Nat) (t : Thread) : Thread :=
  match t.watch with
  | some w =>
    if w.glob.isNone && t.id.launch == launch && w.team == team &&
        (List.range ((n + 3) / 4)).any (fun k => (off / 4 + k) % 32 == w.off / 4 % 32)
    then { t with watch := some { w with reread := true } } else t
  | none => t

/-- A read of scratch bytes of a team, by an access of core `k`. -/
def State.consumeScratch (s : State) (k : CoreId) (launch team off n : Nat) : State :=
  s.useStored (launchVf launch) k (fun f => match f with
    | .scratch l t o _ => l == launch && t == team && decide (off ≤ o ∧ o < off + n)
    | _ => false)

/-- The thread in turn reaches n scratch bytes of a team in this issue cycle (R165). -/
def State.bankAccess (s : State) (team off n : Nat) : State :=
  let c := s.core s.curCore
  let q := s.quarterOf s.cur.id
  s.setCore { c with bankWords := c.bankWords ++ (List.range ((off % 4 + n + 3) / 4)).map (fun i => (q, team, off / 4 + i)) }

/-- The bytes of a team's scratch (R165). -/
def State.scratchBytes (s : State) (launch team off n : Nat) : List Byte :=
  match s.team? launch team with
  | some t => t.scratch.getN off n
  | none => List.replicate n 0

/-! ## Latched weights -/

/-- N and the bytes of a row or a column of a tile, by format code (R245): 16 a plane in N8. -/
def tileN (f : Nat) : Nat := if f = 0 then 128 else if f ≤ 2 then 32 else if f = 3 then 16 else 8
def rowBytes (f planes : Nat) : Nat := if f = 0 then 16 * planes else 128

/-- The number of a core of the package. -/
def coreNum (k : CoreId) : Nat := k.die * 52 + k.core

/-- Whether a weight slot latches a range of a core that n scratch bytes of a team of the core touch (R251): B's columns, and B's
scales in N8. -/
def latchedIn (key : List Nat) (core launch team off n : Nat) : Bool :=
  match key with
  | [k, b, sc, pitch, f, planes, _, _, _, l, t] =>
    k == core && l == launch && t == team &&
      (overlaps off n b ((tileN f - 1) * pitch + rowBytes f planes) || (f == 0 && overlaps off n sc (4 * tileN f)))
  | _ => false

/-- The generation of a core's ranges advances (R251). -/
def State.nextGen (s : State) (k : CoreId) : State :=
  let c := s.core k
  s.setCore { c with gen := c.gen + 1 }

/-- A write of scratch bytes that are latched in a weight slot advances the generation of their core (R251). -/
def State.noteLatched (s : State) (launch team off n : Nat) : State :=
  let k := s.coreOf launch team
  if s.cores.any (fun c => c.weights.any (fun w => latchedIn w.key (coreNum k) launch team off n))
  then s.nextGen k else s

/-- Writes bytes of a team's scratch. -/
def State.putScratch (s : State) (launch team off : Nat) (bs : List Byte) : State :=
  match s.team? launch team with
  | some t => (((s.setTeam { t with scratch := t.scratch.putN off bs }).mapThreads
      (Thread.watchScratch launch team off bs.length)).renewStored (fun f => match f with
        | .scratch l t' o _ => l == launch && t' == team && decide (off ≤ o ∧ o < off + bs.length)
        | _ => false)).noteLatched launch team off bs.length
  | none => s

/-- The team of a quad rank (R118). -/
def quadPeer (p : Packet) (team rank : Nat) : Nat := team / p.qsize * p.qsize + rank

/-- Whether the Crosshatch of the owning team's core stalls a thread access to scratch: it overlaps a write
entry, or it writes and overlaps a read entry (R208). -/
def State.hatched (s : State) (launch team off n : Nat) (write : Bool) : Bool :=
  (s.core (s.coreOf launch team)).hatch.any (fun h => h.launch == launch && h.team == team &&
    overlaps off n h.lo (h.hi - h.lo) && (h.write || write))

end Sys2Proof.Machine
end

