-- ==== Sys2Proof/Machine/Translate.lean ====
section
/-! DEFINITION. Translation: the walk of the page tables (R173 to R177), the TLBs (R178), the checks of a
thread's access at steps 2 to 5 of R77 and steps 2 to 6 of R185, watchpoints (R275) and permits (R276). -/

namespace Sys2Proof.Machine

/-! ## Page-table entries -/

/-- A bit and a field of an entry (R174). -/
def pteBit (e k : Nat) : Bool := e / 2 ^ k % 2 == 1
def ptePa (e : Nat) : Nat := e / 2 ^ 12 % 2 ^ 40 * 4096
def pteCache (e : Nat) : Nat := e / 2 ^ 6 % 4
def pteReplset (e : Nat) : Nat := e / 2 ^ 52 % 256

/-- The entry stored at a physical address. -/
def State.pte (s : State) (a : Nat) : Nat := natOf (s.mem.getN (s.memKey false a) 8)

/-- A table address names memory of region 0x0 or 0x1 (R175). -/
def State.tableOk (s : State) (a : Nat) : Bool := s.validPa a && decide (a / 2 ^ 48 < 2)

/-- The bytes a leaf maps at a level (R173). -/
def leafSize (level : Nat) : Nat := 4096 * 512 ^ level

/-- The replica-set entry of a VF: home and replica dies (R300). -/
def Vf.replSet (v : Vf) (i : Nat) : Nat × List Nat :=
  let w : Nat := (((v.replicas.find? (fun r => r.1 == i)).map Prod.snd).getD (0xFFFFFFFF : Word)).toNat
  (w % 256, [w / 2 ^ 8 % 256, w / 2 ^ 16 % 256, w / 2 ^ 24].filter (fun d => d != 255))

/-- Whether a replica-set entry is valid: all its dies exist and are distinct (R300). -/
def replSetOk (r : Nat × List Nat) : Bool :=
  (r.1 :: r.2).all (fun d => decide (d < 24)) && decide ((r.1 :: r.2).Nodup)

/-- Whether a leaf is valid at its level (R175, R300, R305, R308). -/
def leafOk (v : Vf) (level e : Nat) : Bool :=
  let pa := ptePa e
  let f (k : Nat) : Bool := v.feature0.getLsbD k
  decide (level < 3) && decide (pa % leafSize level = 0) && !(level == 2 && pteBit e 2) &&
  (!pteBit e 11 || (f 7 && decide (pa / 2 ^ 48 = 0))) &&
  (pteBit e 11 || pa / 2 ^ 48 != 2 || f 6) &&
  (!pteBit e 8 || (f 5 && decide (pa / 2 ^ 48 = 0) && replSetOk (v.replSet (pteReplset e)) &&
    decide (pa / 2 ^ 43 = (v.replSet (pteReplset e)).1)))

/-- What a walk finds: a leaf (first virtual byte, size and first physical byte of its page, the entry, and
the addresses of the entries whose A and D it sets), or a page fault at a level. -/
inductive Found where
  | leaf (va size pa e : Nat) (ptes : List Nat)
  | fault (level : Nat)
  deriving DecidableEq, Repr

/-- The group of 16 entries around index i of a table forms one page (R176). -/
def State.groupOk (s : State) (t i level : Nat) : Bool :=
  let first := i / 16 * 16
  let e0 := s.pte (t + 8 * first)
  (List.range 16).all (fun k =>
    let e := s.pte (t + 8 * (first + k))
    pteBit e 0 && pteBit e 1 && pteBit e 2 && e / 8 % 512 == e0 / 8 % 512 && e / 2 ^ 52 == e0 / 2 ^ 52 &&
      ptePa e == ptePa e0 + k * leafSize level) &&
  decide (ptePa e0 % (16 * leafSize level) = 0)

/-- The walk from a table at a level (R173 to R176). -/
def State.walkFrom (s : State) (v : Vf) (va : Nat) : Nat → Nat → Found
  | level, t =>
    let i := va / leafSize level % 512
    let a := t + 8 * i
    let e := s.pte a
    if !pteBit e 0 || e / 2 ^ 60 != 0 then .fault level
    else if pteBit e 1 then
      if !leafOk v level e then .fault level
      else if pteBit e 2 && s.groupOk t i level then
        let first := i / 16 * 16
        .leaf (va / (16 * leafSize level) * (16 * leafSize level)) (16 * leafSize level)
          (ptePa (s.pte (t + 8 * first))) e ((List.range 16).map (fun k => t + 8 * (first + k)))
      else .leaf (va / leafSize level * leafSize level) (leafSize level) (ptePa e) e [a]
    else match level with
      | 0 => .fault 0
      | l + 1 => if s.tableOk (ptePa e) then s.walkFrom v va l (ptePa e) else .fault (l + 1)

/-- The walk of a VF's tables for a virtual address (R173, R175). -/
def State.walk (s : State) (v : Vf) (va : Nat) : Found :=
  if s.tableOk v.ptroot then s.walkFrom v va 3 v.ptroot else .fault 3

/-- The entries that a walk reads, by physical address; those of a group lie in the line of one of them (R173, R176). -/
def State.walkPath (s : State) (va : Nat) : Nat → Nat → List Nat
  | level, t =>
    let a := t + 8 * (va / leafSize level % 512)
    let e := s.pte a
    a :: (if !pteBit e 0 || pteBit e 1 then [] else match level with
      | 0 => []
      | l + 1 => if s.tableOk (ptePa e) then s.walkPath va l (ptePa e) else [])

/-- The home dies of the entries that a walk reads. -/
def State.walkHomes (s : State) (v : Vf) (va : Nat) : List Nat :=
  if s.tableOk v.ptroot then (s.walkPath va 3 v.ptroot).map (fun a => homeOf (s.memKey false a)) else []

/-- The TLB entry of a leaf. -/
def leafEntry (vf va size pa e : Nat) : TlbEntry :=
  { vf := vf, va := va, size := size, pa := pa, r := pteBit e 3, w := pteBit e 4, x := pteBit e 5,
    cache := pteCache e, repl := pteBit e 8, replset := pteReplset e, host := pteBit e 11, d := pteBit e 10 }

/-! ## The TLBs -/

def TlbEntry.covers (e : TlbEntry) (vf va : Nat) : Bool := e.vf == vf && decide (e.va ≤ va ∧ va < e.va + e.size)

/-- The translation a core or its die holds (R178). -/
def State.tlbHeld (s : State) (k : CoreId) (vf va : Nat) : Option TlbEntry :=
  match (s.core k).tlb.find? (fun e => e.covers vf va) with
  | some e => some e
  | none => (s.die k.die).tlb.find? (fun e => e.covers vf va)

/-- Whether an entry agrees with the table as it stands (D apart). -/
def State.fresh? (s : State) (v : Vf) (e : TlbEntry) : Bool :=
  match s.walk v e.va with
  | .leaf va size pa pte _ => { leafEntry v.id va size pa pte with d := e.d } == e
  | .fault _ => false

/-- The translation an access uses: the one held; where the table has changed under it, the old one or, once
it has left the TLBs, none (R178). -/
def State.tlbFind (s : State) (k : CoreId) (v : Vf) (va : Nat) : Option TlbEntry :=
  match s.tlbHeld k v.id va with
  | none => none
  | some e => if s.fresh? v e then some e else if Config.oldTranslation s.cycle then some e else none

/-- Adds a translation to a TLB of the given size, oldest out first. DESIGN CHOICE (log entry 29). -/
def addTlb (size : Nat) (e : TlbEntry) (l : List TlbEntry) : List TlbEntry :=
  (e :: l.filter (fun x => !(x.vf == e.vf && x.va == e.va && x.size == e.size))).take size

/-- Fills the TLBs of a core and of its die (R178). -/
def State.fillTlb (s : State) (k : CoreId) (e : TlbEntry) : State :=
  let c := s.core k
  let s := s.setCore { c with tlb := addTlb 64 e c.tlb }
  let d := s.die k.die
  s.setDie { d with tlb := addTlb 16384 e d.tlb }

/-- The effective policy of a page under a cap (R80, R174, R303): that of a host page and of a pod window is at most L2. No L2 of the
model holds a host line. DEDUCED (log entry 12). -/
def effPolicy (s : State) (e : TlbEntry) (pa cap : Nat) : Nat :=
  if e.host then min (min e.cache cap) 1
  else if homeOf (s.memKey false pa) = podHome then min (min e.cache cap) 1
  else min e.cache cap

/-- Whether a virtual address lies in a launch's proof region, whose lines the writer counters leave out (R234, R240). -/
def Packet.inProof (p : Packet) (va : Nat) : Bool := p.proof != 0 && decide (p.proof ≤ va ∧ va < p.proof + 24 * 2 ^ p.proofB * 128)

/-- The translated access. -/
def State.gaddr (s : State) (v : Vf) (l team : Nat) (e : TlbEntry) (va cap : Nat) : GAddr :=
  let pa := e.pa + (va - e.va)
  let p := s.packet l
  { pa := s.memKey e.host pa, cache := effPolicy s e pa cap, reps := if e.repl then (v.replSet e.replset).2 else [],
    vf := v.id, launch := l, team := team, checked := p.checked, det := p.det, repl := e.repl,
    counted := p.checked && !p.inProof va }

/-! ## Permits and records -/

/-- The pending record a miss joins: of the same die, VF and virtual page (R178). -/
def State.pendingRec (s : State) (die vf va : Nat) : Option FRec :=
  s.records.find? (fun r => decide (r.kind ≤ 4) && r.vf == vf && r.va / 4096 == va / 4096 &&
    (r.core.map (fun k => k.die)) == some die)

/-- A thread that finds no permit backs off and reissues its word: 64 cycles, doubling to 4,096 (R276). -/
def Thread.backOff (t : Thread) (now : Nat) : Thread :=
  { (t.enter (.backoff (now + t.backoffLen)) now) with backoffLen := min (2 * t.backoffLen) 4096 }

/-- Takes a permit of a core. -/
def State.takePermit (s : State) (k : CoreId) : State :=
  let c := s.core k
  s.setCore { c with permits := c.permits + 1 }

/-- Frees a permit of a core. -/
def State.freePermit (s : State) (k : CoreId) : State :=
  let c := s.core k
  s.setCore { c with permits := c.permits - 1 }

def State.permitFree (s : State) (k : CoreId) : Bool := decide ((s.core k).permits < 4)

/-- Adds a fault record, named `nextId`; its sequence number comes when it is written (R278). -/
def State.addRecord (s : State) (vf va : Nat) (t : ThreadId) (kind level : Nat) (k : CoreId) : State :=
  { s with
    nextId := s.nextId + 1
    records := s.records ++ [{ rid := s.nextId, vf := vf, va := va, launch := t.launch, team := t.team, thread := t.lin,
                               kind := kind, level := level, time := (s.vfTime vf).toNat / 16 % 2 ^ 32, core := some k,
                               seq := none, stop := (0, 0) }] }

/-! ## A thread's global access -/

/-- The watchpoint an access overlaps (R275): kind bit 0 for loads, 1 for stores and atomics. -/
def Vf.watched (v : Vf) (va n : Nat) (write : Bool) : Option Nat :=
  (List.range 4).find? (fun i =>
    match v.watches[i]? with
    | some w => w.len != 0 && overlaps va n w.va w.len && (w.kinds / (if write then 2 else 1) % 2 == 1)
    | none => false)

/-- What the checks of a global access answer: go on with the translated address, or the state in which the
thread has trapped, parked, stalled or backed off. -/
inductive Checked where
  | ok (g : GAddr)
  | stop (s : State)

/-- A debug stop of the thread in turn, with its record; without a permit it backs off (R275, R276). -/
def State.debugStop (s : State) (vf va code info : Nat) : State :=
  if s.permitFree s.curCore then
    let r := s.nextId
    let s := (s.takePermit s.curCore).addRecord vf va s.cur.id 5 15 s.curCore
    let s := { s with records := s.records.map (fun (x : FRec) => if x.rid == r then { x with stop := (code, info) } else x) }
    s.setCur { s.cur.enter (.debugStopped r) s.cycle with backoffLen := 64 }
  else s.setCur (s.cur.backOff s.cycle)

/-- A watched access of the thread in turn: a debug stop, or a WATCH trap (R275). -/
def State.watchStop (s : State) (v : Vf) (i va : Nat) (write : Bool) : State :=
  let info := (if write then 2 else 1) + 16 * i
  if v.dbgctl.getLsbD 0 then s.debugStop v.id va 0x0F info
  else s.raise 0x0F info (BitVec.ofNat 64 va)

/-- Where a thread stands in the order of preference of R278: core number, crew, rank. -/
def startOrder (k : CoreId) (t : ThreadId) : Nat := (k.die * 52 + k.core) * 2 ^ 32 + (crewOf t).crew * 32 + rankOf t

/-- A miss that starts a walk together with others, in the cycle the walk starts in: it is named where it comes first in the order of
preference (R278). -/
def Walk.startsWith (w : Walk) (now : Nat) (k : CoreId) (t : ThreadId) (va kind : Nat) : Walk :=
  if w.cycle = now ∧ startOrder k t < startOrder w.core w.starter then { w with va := va, starter := t, core := k, kind := kind } else w

/-- A miss: the thread joins a pending record of the page, or waits for a walk, which it starts where none
runs (R77 steps 3 and 4, R178). -/
def State.miss (s : State) (v : Vf) (va kind : Nat) (setD : Bool) : State :=
  let k := s.curCore
  match s.pendingRec k.die v.id va with
  | some r => (s.setCur { s.cur with parkClock := s.clock.toNat, parkVa := va }).blockCur (.pageParked r.rid)
  | none =>
    let s := if s.walks.any (fun w => w.die == k.die && w.vf == v.id && w.va / 4096 == va / 4096 && (w.setD || !setD)) then s
      else { s with nextId := s.nextId + 1,
                    walks := s.walks ++ [⟨s.nextId, k.die, v.id, va, s.cur.id, k, kind, setD, s.cycle⟩] }
    State.parkCur { s with walks := s.walks.map (fun w => if w.die == k.die && w.vf == v.id && w.va / 4096 == va / 4096
      then w.startsWith s.cycle k s.cur.id va kind else w) } (.walking va)

/-- The kind of a thread's access: load, store, atomic; and the reads (PROOFQ, LDSC, WAITC) and the write (STSC) whose fault
record is that of an atomic (R185, R189, R190, R240). DEDUCED (log entry 21). -/
inductive AccKind where
  | load | store | atomic | query | publish
  deriving DecidableEq, Repr

/-- Whether it writes: it needs W and a leaf with D set. -/
def AccKind.writes : AccKind → Bool
  | .load => false
  | .store => true
  | .atomic => true
  | .query => false
  | .publish => true

/-- Whether it needs R: a store and STSC need W alone (R77, R189). -/
def AccKind.reads : AccKind → Bool
  | .load => true
  | .store => false
  | .atomic => true
  | .query => true
  | .publish => false

/-- Its record kind (R278). -/
def AccKind.code : AccKind → Nat
  | .load => 0
  | .store => 1
  | .atomic => 2
  | .query => 2
  | .publish => 2

/-- The checks of a global access after the aperture: watchpoint, DETVIO (`det` its TRAPINFO, 0 where the word has
none), translation, valid leaf, permission, HOST, physical address, D (R77, R177, R185, R275). `hostOk` says that a
HOST page may be accessed. -/
def State.checkGlobal (s : State) (va n cap : Nat) (k : AccKind) (hostOk : Bool) (det : Nat) : Checked :=
  match s.vf? (launchVf s.cur.id.launch) with
  | none => .stop (s.raise 0x06 2 (BitVec.ofNat 64 va))
  | some v =>
    match if s.cur.debugPass.contains va then none else v.watched va n k.writes with
    | some i => .stop (s.watchStop v i va k.writes)
    | none =>
      if det ≠ 0 ∧ s.pk.det then .stop (s.raise 0x0B det (BitVec.ofNat 64 va)) else
      match s.tlbFind s.curCore v va with
      | none => .stop (s.miss v va k.code false)
      | some e =>
        let ea := BitVec.ofNat 64 va
        if (k.reads && !e.r) || (k.writes && !e.w) then .stop (s.raise 0x08 (if k.writes then 2 else 1) ea)
        else if e.host && !hostOk then .stop (s.raise 0x08 3 ea)
        else if !e.host && !s.validPa (e.pa + (va - e.va)) then .stop (s.raise 0x06 2 ea)
        else if k.writes && !e.d then .stop (s.miss v va k.code true)
        else .ok (s.gaddr v s.cur.id.launch s.cur.id.team e va cap)

end Sys2Proof.Machine
end

