-- ==== Sys2Proof/Machine/Cache.lean ====
section
/-! DEFINITION. The levels of memory as an access meets them: the L1 of a core (R167, R168), the L2 of a die
with its copies of remote lines (R170, R294), the numbered writes of the Welt mesh (R295), the stash (R172),
replicated pages (R301), and loads and stores over them (R80, R313, R346). -/

namespace Sys2Proof.Machine

/-! ## Vector clocks -/

/-- a covers b componentwise (R297). -/
def covers (a b : List Nat) : Bool := (List.range 24).all (fun i => decide (b.getD i 0 ≤ a.getD i 0))

/-- The componentwise maximum. -/
def vmax (a b : List Nat) : List Nat := (List.range 24).map (fun i => max (a.getD i 0) (b.getD i 0))

/-! ## Cached bytes -/

/-- The byte held at an offset. -/
def byteAt (bs : List CByte) (off : Nat) : Option CByte := bs.find? (fun b => b.off == off)

/-- Sets a byte. -/
def setByte (bs : List CByte) (off : Nat) (v : Byte) (dirty : Bool) : List CByte :=
  upsert (fun b => b.off == off) ⟨off, v, dirty⟩ bs

/-- Sets bytes. -/
def setBytes (bs : List CByte) (new : List (Nat × Byte)) (dirty : Bool) : List CByte :=
  new.foldl (fun l b => setByte l b.1 b.2 dirty) bs

/-- Sets bytes that are not dirty already (the fill of a die's copy: R294). -/
def setClean (bs : List CByte) (new : List (Nat × Byte)) : List CByte :=
  new.foldl (fun l b => match byteAt l b.1 with
    | some c => if c.dirty then l else setByte l b.1 b.2 false
    | none => setByte l b.1 b.2 false) bs

/-- Sets bytes that are held and not dirty (an update of a copy from the home: R294). -/
def setHeld (bs : List CByte) (new : List (Nat × Byte)) : List CByte :=
  new.foldl (fun l b => match byteAt l b.1 with
    | some c => if c.dirty then l else setByte l b.1 b.2 false
    | none => l) bs

/-- Sets bytes that are not held (a fill of the L1: R168). -/
def setAbsent (bs : List CByte) (new : List (Nat × Byte)) : List CByte :=
  new.foldl (fun l b => if (byteAt l b.1).isSome then l else setByte l b.1 b.2 false) bs

/-- The dirty bytes, by offset. -/
def dirtyBytes (bs : List CByte) : List (Nat × Byte) :=
  (bs.filter (fun b => b.dirty)).map (fun b => (b.off, b.val))

/-- Makes the bytes clean. -/
def cleanBytes (bs : List CByte) : List CByte := bs.map (fun b => { b with dirty := false })

/-- The address of the line of an access, and its bytes by offset in the line. -/
def GAddr.line (g : GAddr) : GAddr := { g with pa := lineOf g.pa * 128 }
def inLine (g : GAddr) (bs : List (Nat × Byte)) : List (Nat × Byte) := bs.map (fun b => (b.1 + g.pa % 128, b.2))

/-- Bytes numbered from 0. -/
def numbered (bs : List Byte) : List (Nat × Byte) := (List.range bs.length).zip bs

/-! ## The L2 of a die -/

/-- The line a die's L2 holds. -/
def State.l2Line (s : State) (d line : Nat) : Option L2Line := (s.die d).l2.find? (fun l => l.line == line)

/-- Puts a line of a die's L2 in place. -/
def State.setL2 (s : State) (d : Nat) (x : L2Line) : State :=
  let dd := s.die d
  s.setDie { dd with l2 := upsert (fun l => l.line == x.line) x dd.l2 }

/-- The dies other than the home that hold a copy of a line (R295). -/
def State.holders (s : State) (line : Nat) : List Nat :=
  (List.range 24).filter (fun d => d != homeOf (line * 128) &&
    (match s.l2Line d line with
     | some l => !l.bytes.isEmpty
     | none => false))

/-- Numbers a write of die d: V_d[d] + 1 (R295). -/
def State.number (s : State) (d : Nat) : State :=
  let x := s.die d
  s.setDie { x with v := x.v.set d (x.v.getD d 0 + 1) }

/-- Adds a message to the mesh. -/
def State.addMsg (s : State) (src : Nat) (tag : List Nat) (dst : Nat) (g : GAddr) (bs : List (Nat × Byte))
    (toHome notice : Bool) : State :=
  { s with nextId := s.nextId + 1, welt := s.welt ++ [⟨s.nextId, src, tag, dst, g, bs, toHome, notice, []⟩] }

/-- The home forwards a write: data to the dies that hold a copy and to the replicas, a notice to the others.
The source gets its own write back where it holds a copy or the page is replicated, so that its bytes follow the home's order. -/
def State.forward (s : State) (g : GAddr) (bs : List (Nat × Byte)) (src : Nat) (tag : List Nat) : State :=
  let h := homeOf g.pa
  let hs := s.holders (lineOf g.pa)
  (List.range 24).foldl (fun s d =>
    let data := hs.contains d || g.reps.contains d || (g.repl && d == src)
    if d == h then s
    else if d == src && !data then s
    else s.addMsg src tag d g bs false (!data)) s

/-- A write (by offset in its line) applied at its home slice: it is counted (R318), the bytes that pass the ticket unit are
stored (R314) and go on to the copies; a write of the home die itself is numbered where another die holds a copy (R295), a write
from another die keeps its tag. -/
def State.homeWrite (s : State) (g : GAddr) (bs : List (Nat × Byte)) (tag : Option (Nat × List Nat)) : State :=
  let h := homeOf g.pa
  let (s, bs) := (s.countWrite g).ticketFilter g bs
  let s := s.storeAt g bs
  if 24 ≤ h then s
  else match tag with
    | some t => s.forward g bs t.1 t.2
    | none =>
      if (s.holders (lineOf g.pa)).isEmpty && g.reps.isEmpty then s
      else let s := s.number h
           s.forward g bs h (s.die h).v

/-- Sends bytes of a remote line to its home as a numbered write (R294, R295); a pod window or a host performs
it at once. -/
def State.sendHome (s : State) (d : Nat) (g : GAddr) (bs : List (Nat × Byte)) : State :=
  if bs.isEmpty then s
  else if 24 ≤ homeOf g.pa then s.homeWrite g bs none
  else let s := s.number d
       s.addMsg d (s.die d).v (homeOf g.pa) g bs true false

/-! ## Poison on its way (R328) -/

/-- Places become poisoned. -/
def State.addPoison (s : State) (fs : List FaultLoc) : State :=
  { s with poison := s.poison ++ fs.filter (fun f => !s.poison.contains f) }

/-- The offsets of a die's copy of a line, and of a line at home, that are poisoned there. -/
def State.badL2 (s : State) (d line off : Nat) : Bool :=
  s.poison.any (fun f => match f with
    | .l2 d' n o _ => d' == d && n == line && o == off
    | _ => false)
def State.badHome (s : State) (line off : Nat) : Bool :=
  s.poison.any (fun f => match f with
    | .memory a _ => a == line * 128 + off
    | _ => s.badL2 (homeOf (line * 128)) line off)

/-- The poisoned bytes of a line, at the offsets given, that die d has written through `write` are poisoned where they have gone: in the
messages that carry them, in the die's copy, or at their home (R328). DEDUCED (log entry 26). -/
def State.withPoison (s : State) (d : Nat) (g : GAddr) (offs : List Nat) (write : State → State) : State :=
  if offs.isEmpty then write s
  else
    let line := lineOf g.pa
    let t := write s
    let t := { t with welt := t.welt.map (fun (m : WeltMsg) =>
      if lineOf m.g.pa == line && !s.welt.any (fun x => x.id == m.id)
      then { m with bad := offs.filter (fun o => m.bytes.any (fun b => b.1 == o)) } else m) }
    let dirty (o : Nat) : Bool := ((t.l2Line d line).bind (fun l => byteAt l.bytes o)).any (fun b => b.dirty)
    t.addPoison (offs.filterMap (fun o =>
      if dirty o then some (.l2 d line o 0)
      else if homeOf g.pa = d ∨ 24 ≤ homeOf g.pa then some (.memory (line * 128 + o) 0) else none))

/-- Sends the dirty bytes of a die's copy home, of those offsets that `p` picks; they are clean then. -/
def State.sendLine (s : State) (d line : Nat) (p : Nat → Bool) : State :=
  match s.l2Line d line with
  | none => s
  | some l =>
    let out := (dirtyBytes l.bytes).filter (fun b => p b.1)
    (s.setL2 d { l with bytes := l.bytes.map (fun b => if p b.off then { b with dirty := false } else b) }).withPoison d l.g.line
      ((out.map (fun b => b.1)).filter (s.badL2 d line)) (fun s => s.sendHome d l.g.line out)

/-- A write of a checked launch, performed at the home slice of its line: after the older bytes that the die still holds of it (R313,
R346). -/
def State.homeStore (s : State) (d : Nat) (g : GAddr) (bs : List (Nat × Byte)) : State :=
  if homeOf g.pa = d then s.homeWrite g bs none
  else (s.sendLine d (lineOf g.pa) (fun o => bs.any (fun b => b.1 == o))).sendHome d g bs

/-- Sends every dirty byte of a die's copies home, of the lines that `p` picks. -/
def State.sendAll (s : State) (d : Nat) (p : Nat → Bool) : State :=
  ((s.die d).l2.filter (fun l => p l.line)).foldl (fun s l => s.sendLine d l.line (fun _ => true)) s

/-- The line of least last use, the lower way on a tie (R167, R170). -/
def lruOf {α : Type} (used way : α → Nat) : List α → Option α
  | [] => none
  | x :: xs => match lruOf used way xs with
    | none => some x
    | some y => if used y < used x ∨ (used y = used x ∧ way y < way x) then some y else some x

/-- Makes room for a line in a die's L2 and allocates it, or marks it used (R170, R294). -/
def State.l2Alloc (s : State) (d : Nat) (g : GAddr) : State :=
  let line := lineOf g.pa
  match s.l2Line d line with
  | some l => s.setL2 d { l with used := s.cycle }
  | none =>
    let mates := (s.die d).l2.filter (fun l => l.slice == sliceOf line && l.set == setOf line)
    let new (w : Nat) : L2Line := ⟨line, g.line, sliceOf line, setOf line, w, s.cycle, s.cycle, []⟩
    let s := match (List.range 16).find? (fun w => !(mates.any (fun l => l.way == w))) with
      | some w => s.setL2 d (new w)
      | none =>
        match lruOf (fun (l : L2Line) => l.used) (fun l => l.way) mates with
        | none => s
        | some v =>
          let s := s.sendLine d v.line (fun _ => true)
          let x := s.die d
          (s.setDie { x with l2 := x.l2.filter (fun l => l.line != v.line) }).setL2 d (new v.way)
    s.renewStored (fun f => match f with
      | .l2 d' line' _ _ => d' == d && line' == line
      | .l2tag d' line' _ => d' == d && line' == line
      | _ => false)

/-- Asks a remote line's home for the bytes of a copy that a write has made at die d (R294). -/
def State.askFill (s : State) (d : Nat) (g : GAddr) : State :=
  let x := s.die d
  { s with nextId := s.nextId + 1, requests := s.requests ++
      [⟨s.nextId, ⟨g.launch, g.team, 0⟩, ⟨d, 0⟩, g.vf, vmax x.h x.v, [], .fill g.line⟩] }

/-- Writes bytes into a die's copy as dirty; a copy that was absent is filled from its home (R294). -/
def State.l2Put (s : State) (d : Nat) (g : GAddr) (bs : List (Nat × Byte)) : State :=
  let line := lineOf g.pa
  let s := if (s.l2Line d line).isNone then (s.l2Alloc d g).askFill d g else s.l2Alloc d g
  match s.l2Line d line with
  | none => s
  | some l =>
    (s.setL2 d { l with bytes := setBytes l.bytes bs true,
                        dirtied := if (dirtyBytes l.bytes).isEmpty then s.cycle else l.dirtied }).renewStored (fun f => match f with
      | .l2 d' line' off _ => d' == d && line' == line && bs.any (fun b => b.1 == off)
      | _ => false)

/-- A write performed at die scope on die d (bytes by offset in the line): at the home slice, in the die's copy,
or sent home at once where the copy may not hold it (R179, R294, R301). -/
def State.dieWrite (s : State) (d : Nat) (g : GAddr) (bs : List (Nat × Byte)) : State :=
  let g := g.line
  let h := homeOf g.pa
  if h = d then (if g.cache = 0 then s else s.l2Alloc d g).homeWrite g bs none
  else if h = hostHome then s.homeWrite g bs none
  else if g.repl || (g.cache = 0 && (s.l2Line d (lineOf g.pa)).isNone) then s.sendHome d g bs
  else s.l2Put d g bs

/-- Hops between two dies (R293). -/
def hops (a b : Nat) : Nat :=
  (max (a % 4) (b % 4) - min (a % 4) (b % 4)) + (max (a / 4) (b / 4) - min (a / 4) (b / 4))

/-- The die that serves a load, and the address there: the home, or the nearest member of a replica set (R301). -/
def serveOf (d : Nat) (g : GAddr) : Nat × Nat :=
  if !g.repl then (homeOf g.pa, g.pa)
  else
    let m := (List.range 24).foldl (fun best x =>
      if (x == homeOf g.pa || g.reps.contains x) && (best == 24 || decide (hops d x < hops d best)) then x else best) 24
    (m, replKey g.pa m)

/-- A die's own write to a byte of a line that it has sent to another die and whose place in the home's order has not come back to it:
the newest is what the die's accesses see (R31, R301). -/
def State.ownPending (s : State) (d line off : Nat) : Option Byte :=
  let mine := s.welt.filter (fun m => m.src == d && !m.notice && lineOf m.g.pa == line && m.bytes.any (fun b => b.1 == off))
  let byte (m : WeltMsg) : Option Byte := (m.bytes.find? (fun b => b.1 == off)).map (fun b => b.2)
  match (mine.filter (fun m => m.toHome)).getLast? with
  | some m => byte m
  | none => ((mine.filter (fun m => m.dst == d)).getLast?).bind byte

/-- The byte a load performed at die scope on die d finds there without another die: k bytes from the address. -/
def State.readDie (s : State) (d : Nat) (g : GAddr) (k : Nat) : Option Byte :=
  let off := g.pa % 128 + k
  let (m, a) := serveOf d g
  if !g.repl && m = d then some (s.mem.get (a + k))
  else match (s.l2Line d (lineOf g.pa)).bind (fun l => byteAt l.bytes off) with
    | some b => some b.val
    | none => match s.ownPending d (lineOf g.pa) off with
      | some v => some v
      | none => if m = d || m = hostHome then some (s.mem.get (a + k)) else none

/-- Whether a load on die d leaves its line in the caches: of a replicated page only on a die of the set (R301). -/
def cachedOn (d : Nat) (g : GAddr) : Bool := !g.repl || homeOf g.pa == d || g.reps.contains d

/-- A die's copy of a remote line is filled with the bytes of its home, its own newer ones apart; what was on its way to it
is older (R294). -/
def State.fillLine (s : State) (d : Nat) (g : GAddr) : State :=
  let line := lineOf g.pa
  let s := s.l2Alloc d g
  match s.l2Line d line with
  | none => s
  | some l =>
    let bs := (List.range 128).map (fun k => (k, (s.ownPending d line k).getD (s.mem.get (line * 128 + k))))
    let bad := if s.poison.isEmpty then [] else (List.range 128).filter (fun k => s.badHome line k &&
      (s.ownPending d line k).isNone && !(byteAt l.bytes k).any (fun b => b.dirty))
    let s := (s.setL2 d { l with bytes := setClean l.bytes bs }).addPoison (bad.map (fun k => .l2 d line k 0))
    { s with welt := s.welt.map (fun (m : WeltMsg) =>
        if m.dst == d && !m.toHome && !m.g.repl && lineOf m.g.pa == line then { m with bytes := [] } else m) }

/-! ## The stash -/

/-- The dirty bytes of one stashed line, by offset in the line. -/
def Team.stashDirty (t : Team) (m : StashMap) (off : Nat) : List (Nat × Byte) :=
  ((List.range 128).filter (fun k => m.dirty.contains (off + k))).map (fun k => (k, t.scratch.get (off + k)))

/-- A scratch byte of a team is poisoned. -/
def State.badScratch (s : State) (t : Team) (off : Nat) : Bool :=
  s.poison.any (fun f => match f with
    | .scratch l u o _ => l == t.launch && u == t.idx && o == off
    | _ => false)

/-- Writes back the dirty bytes of one stashed line of a team, at scratch offset `off`, and ends its filling where asked; those of a
replicated page or in a checked launch go to its home (R301, R313). -/
def State.stashClean (s : State) (t : Team) (m : StashMap) (off : Nat) (g : GAddr) (drop : Bool) : State :=
  let bs := t.stashDirty m off
  let s := if bs.isEmpty then s
    else s.withPoison t.core.die g ((bs.map (fun b => b.1)).filter (fun k => s.badScratch t (off + k))) (fun s =>
      if g.checked then s.homeStore t.core.die g bs else s.dieWrite t.core.die g bs)
  match s.team? t.launch t.idx with
  | none => s
  | some t' => s.setTeam { t' with stash := t'.stash.map (fun m' =>
      if m'.off == m.off then
        { m' with dirty := m'.dirty.filter (fun o => !(decide (off ≤ o ∧ o < off + 128))),
                  filled := if drop then m'.filled.filter (fun f => f.1 != off) else m'.filled }
      else m') }

/-- The teams that `p` picks and that have a line stashed write its dirty bytes back, and lose the line where asked. -/
def State.stashOut (s : State) (line : Nat) (drop : Bool) (p : Team → Bool) : State :=
  s.teams.foldl (fun s t =>
    if !p t then s else
    t.stash.foldl (fun s m =>
      m.filled.foldl (fun s f => if lineOf f.2.pa == line then s.stashClean t m f.1 f.2 drop else s) s) s) s

/-- Whether a team has dirty bytes of a line in its stash. -/
def Team.stashedDirty (t : Team) (line : Nat) : Bool :=
  t.stash.any (fun m => m.filled.any (fun f => lineOf f.2.pa == line && !(t.stashDirty m f.1).isEmpty))

/-- Another agent reads (or writes) a line: every team that has it stashed writes its dirty bytes back (and loses the line); a stash
into whose line another team's bytes have been written back so loses it too (R172). -/
def State.stashFlush (s : State) (line : Nat) (write : Bool) : State :=
  let dirty := s.teams.filter (fun t => t.stashedDirty line)
  (s.stashOut line write (fun _ => true)).stashOut line true (fun t => dirty.any (fun u => u.launch != t.launch || u.idx != t.idx))

/-- Writes back every dirty stash byte of a team, after which no other team keeps an older line (R172). -/
def State.stashCleanTeam (s : State) (l t : Nat) : State :=
  match s.team? l t with
  | none => s
  | some tm => tm.stash.foldl (fun s m => m.filled.foldl (fun s f =>
      if tm.stashedDirty (lineOf f.2.pa) then
        (s.stashClean tm m f.1 f.2 false).stashOut (lineOf f.2.pa) true (fun u => u.launch != l || u.idx != t)
      else s) s) s

/-- A write performed at die scope as another agent's of every stash. -/
def State.dieStore (s : State) (d : Nat) (g : GAddr) (bs : List (Nat × Byte)) : State :=
  (s.stashFlush (lineOf g.pa) true).dieWrite d g bs

/-! ## The L1 of a core -/

/-- The line a core's L1 holds. -/
def Core.l1Line (c : Core) (line : Nat) : Option L1Line := c.l1.find? (fun l => l.line == line)

/-- Puts a line of a core's L1 in place. -/
def State.setL1 (s : State) (k : CoreId) (x : L1Line) : State :=
  let c := s.core k
  s.setCore { c with l1 := upsert (fun l => l.line == x.line) x c.l1 }

/-- A byte of a line is poisoned in a core's L1. -/
def State.badL1 (s : State) (k : CoreId) (line off : Nat) : Bool :=
  s.poison.any (fun f => match f with
    | .l1 k' n o _ => k' == k && n == line && o == off
    | _ => false)

/-- Writes back the dirty bytes of a line, of the offsets that `p` picks (R168, R346). -/
def State.l1Clean (s : State) (k : CoreId) (line : Nat) (p : Nat → Bool) : State :=
  match (s.core k).l1Line line with
  | none => s
  | some l =>
    let out := (dirtyBytes l.bytes).filter (fun b => p b.1)
    if out.isEmpty then s else
    (s.setL1 k { l with bytes := l.bytes.map (fun b => if p b.off then { b with dirty := false } else b) }).withPoison k.die l.g
      ((out.map (fun b => b.1)).filter (s.badL1 k line)) (fun s => s.dieStore k.die l.g out)

/-- Writes back every dirty byte of a core's L1. -/
def State.l1CleanAll (s : State) (k : CoreId) : State :=
  (s.core k).l1.foldl (fun s l => s.l1Clean k l.line (fun _ => true)) s

/-- Clears the valid bit of every byte of a core's L1 that is not dirty (R168). -/
def State.l1Invalidate (s : State) (k : CoreId) : State :=
  let c := s.core k
  let kept := c.l1.map (fun l => { l with bytes := l.bytes.filter (fun b => b.dirty) })
  s.setCore { c with l1 := kept.filter (fun l => !l.bytes.isEmpty) }

/-- Drops bytes of a line of a core's L1, dirty or not (R217), of the offsets that `p` picks. -/
def State.l1Drop (s : State) (k : CoreId) (line : Nat) (p : CByte → Bool) : State :=
  let c := s.core k
  let kept := c.l1.map (fun l => if l.line == line then { l with bytes := l.bytes.filter (fun b => !p b) } else l)
  s.setCore { c with l1 := kept.filter (fun l => !l.bytes.isEmpty) }

/-- An event of R138 on a core. -/
def State.triggerDecision (s : State) (k : CoreId) : State :=
  let c := s.core k
  s.setCore { c with deciding := true }

/-- A crew's lease has grown while it was active: it is the grower of the next decision on its core, and no other crew is (R138 step 1).
DESIGN CHOICE (log entry 15). -/
def State.grow (s : State) (k : CoreId) (c : CrewId) : State :=
  { s with crews := s.crews.map (fun x =>
      if x.id == c then { x with grower := true }
      else if s.coreOf x.id.launch x.id.team == k then { x with grower := false } else x) }

/-- A crew misses in the L1 on a line tagged with itself: a lost-locality event (R140). Two tags of one line and crew, where it was
evicted twice, go at one event: the rule does not say which is removed. DEDUCED and DESIGN CHOICE (log entry 22). -/
def State.lostLocality (s : State) (k : CoreId) (crew : CrewId) (line : Nat) : State :=
  let c := s.core k
  if !(c.victims.any (fun v => v.1 == line && v.2 == crew)) then s else
  let s := s.setCore { c with victims := c.victims.filter (fun v => !(v.1 == line && v.2 == crew)) }
  match s.crew? crew with
  | none => s
  | some w =>
    if !w.measured then s else
    let l := min (w.lease + 8) (carveLines c.carve)
    let s := s.setCrew { w with lease := l, window := 0, lines := [] }
    (if w.active && decide (w.lease < l) then s.grow k crew else s).triggerDecision k

/-- A measured crew's window counts the distinct lines it touches (R140): those of its global loads and stores, whatever their policy, and
of its atomics performed in the L1; an access performed beyond the L1 (any other atomic, LDSC, STSC, CASSC, WAITC) touches none. DESIGN
CHOICE (log entry 22). -/
def State.touchLine (s : State) (crew : CrewId) (line : Nat) : State :=
  match s.crew? crew with
  | some w => if w.measured && !(w.lines.contains line) then s.setCrew { w with lines := w.lines ++ [line] } else s
  | none => s

/-- Allocates a line in a core's L1, evicting where the set is full, or marks it used (R167, R140). -/
def State.l1Alloc (s : State) (k : CoreId) (g : GAddr) (crew : CrewId) : State :=
  let line := lineOf g.pa
  match (s.core k).l1Line line with
  | some l => s.setL1 k { l with used := s.cycle, crew := crew }
  | none =>
    let s := s.lostLocality k crew line
    let mates := (s.core k).l1.filter (fun l => l.line % 128 == line % 128)
    let new (w : Nat) : L1Line := ⟨line, g.line, w, s.cycle, crew, s.cycle, []⟩
    let s := match (List.range (carveLines (s.core k).carve / 128)).find? (fun w => !(mates.any (fun l => l.way == w))) with
      | some w => s.setL1 k (new w)
      | none =>
        match lruOf (fun (l : L1Line) => l.used) (fun l => l.way) mates with
        | none => s
        | some v =>
          let s := s.l1Clean k v.line (fun _ => true)
          let c := s.core k
          let tags := c.victims ++ [(v.line, v.crew)]
          (s.setCore { c with l1 := c.l1.filter (fun l => l.line != v.line),
                              victims := tags.drop (tags.length - 512) }).setL1 k (new v.way)
    s.renewStored (fun f => match f with
      | .l1 k' line' _ _ => k' == k && line' == line
      | _ => false)

/-- Fills a line of the L1 with the bytes given: only those that are not valid there (R168). -/
def State.l1Fill (s : State) (k : CoreId) (g : GAddr) (crew : CrewId) (bs : List (Nat × Byte)) : State :=
  let s := s.l1Alloc k g crew
  match (s.core k).l1Line (lineOf g.pa) with
  | none => s
  | some l =>
    let line := lineOf g.pa
    let bad := if s.poison.isEmpty then [] else (bs.map (fun b => b.1)).filter (fun o => (byteAt l.bytes o).isNone &&
      (s.badL2 k.die line o || (homeOf g.pa == k.die && s.badHome line o)))
    (s.setL1 k { l with bytes := setAbsent l.bytes bs }).addPoison (bad.map (fun o => .l1 k line o 0))

/-- Writes bytes into a line of the L1 as dirty. -/
def State.l1Put (s : State) (k : CoreId) (g : GAddr) (crew : CrewId) (bs : List (Nat × Byte)) : State :=
  let s := s.l1Alloc k g crew
  match (s.core k).l1Line (lineOf g.pa) with
  | none => s
  | some l =>
    (s.setL1 k { l with g := g.line, bytes := setBytes l.bytes bs true,
                        dirtied := if (dirtyBytes l.bytes).isEmpty then s.cycle else l.dirtied }).renewStored (fun f => match f with
      | .l1 k' line off _ => k' == k && line == lineOf g.pa && bs.any (fun b => b.1 == off)
      | _ => false)

/-- Before an access performed beyond the L1: the dirty bytes of its range go to the die's slice, and, where the
access is performed at a home on another die, on to that home (R346). DEDUCED (log entry 13). -/
def State.writeBackRange (s : State) (k : CoreId) (g : GAddr) (n : Nat) (home : Bool) : State :=
  let inR (off : Nat) : Bool := decide (g.pa % 128 ≤ off ∧ off < g.pa % 128 + n)
  let line := lineOf g.pa
  let s := s.stashFlush line false
  let s := s.l1Clean k line inR
  if home && homeOf g.pa != k.die then s.sendLine k.die line inR else s

/-- After an access performed beyond the L1, no clean copy of its bytes stays in the issuing core's L1, so that the thread's later loads
see nothing older (R31, R182). -/
def State.dropStale (s : State) (k : CoreId) (g : GAddr) (n : Nat) : State :=
  s.l1Drop k (lineOf g.pa) (fun b => !b.dirty && decide (g.pa % 128 ≤ b.off ∧ b.off < g.pa % 128 + n))

/-- A die's copies of remote lines of which no byte is left are gone: their ways are invalid (R170, R294). -/
def State.dropEmpty (s : State) (d : Nat) : State :=
  let x := s.die d
  s.setDie { x with l2 := x.l2.filter (fun l => homeOf (l.line * 128) == d || !l.bytes.isEmpty) }

/-- After an access performed at a home on another die, no clean copy of its bytes stays in the issuing die's L2 (R31, R182). -/
def State.dropStaleL2 (s : State) (d : Nat) (g : GAddr) (n : Nat) : State :=
  match s.l2Line d (lineOf g.pa) with
  | none => s
  | some l => (s.setL2 d { l with bytes := l.bytes.filter (fun b =>
      b.dirty || !(decide (g.pa % 128 ≤ b.off ∧ b.off < g.pa % 128 + n))) }).dropEmpty d

/-- What an access of core k performed at a home slice leaves in the caches nearer to the core: nothing older (R31, R182). -/
def State.seenAtHome (s : State) (k : CoreId) (g : GAddr) (n : Nat) : State := (s.dropStale k g n).dropStaleL2 k.die g n

/-! ## Other dies -/

/-- A die's clock after it has applied a write of another (R296). -/
def State.tick (s : State) (d src : Nat) (tag : List Nat) : State :=
  let x := s.die d
  s.setDie { x with v := x.v.set src (tag.getD src 0) }

/-- A reply carries the serving die's clock to the issuing die's horizon (R297). -/
def State.carry (s : State) (d m : Nat) : State :=
  if 24 ≤ m then s else
  let v := (s.die m).v
  let x := s.die d
  s.setDie { x with h := vmax x.h v }

/-- Whether a request that die d would send now can be performed at a home at once (R297). -/
def State.reaches (s : State) (d h : Nat) : Bool :=
  decide (24 ≤ h) || h == d || covers (s.die h).v (vmax (s.die d).h (s.die d).v)

/-- A write of die d performed at once at a home that it reaches: numbered, where that is another die (R295). -/
def State.writeAtHome (s : State) (d : Nat) (g : GAddr) (bs : List (Nat × Byte)) : State :=
  let h := homeOf g.pa
  if h = d ∨ 24 ≤ h then s.homeWrite g bs none
  else
    let s := s.number d
    let tag := (s.die d).v
    (s.homeWrite g bs (some (d, tag))).tick h d tag

/-! ## Walks -/

/-- A walk that die d makes can read every entry of it now (R178, R297). -/
def State.mayWalk (s : State) (d : Nat) (v : Vf) (va : Nat) : Bool := (s.walkHomes v va).all (s.reaches d)

/-- The clocks that the replies to a walk's reads bring back (R297). -/
def State.walked (s : State) (d : Nat) (v : Vf) (va : Nat) : State := (s.walkHomes v va).foldl (fun s h => s.carry d h) s

/-- A walker of die d sets A, and D where asked, in the entries of a leaf, by an atomic OR at the home slice of each (R177, R295). -/
def State.markPtes (s : State) (d : Nat) (setD : Bool) (ptes : List Nat) : State :=
  ptes.foldl (fun s a =>
    let g := GAddr.bare (s.memKey false a + 1)
    let s := s.stashFlush (lineOf g.pa) false
    let old := s.mem.get g.pa
    let new := old ||| 2 ||| (if setD then 4 else 0)
    if new = old then s else (s.stashFlush (lineOf g.pa) true).writeAtHome d g.line [(g.pa % 128, new)]) s

/-- The walker reads the entries of a walk as another agent of every stash: the dirty bytes of their lines are written back first (R172,
R178). -/
def State.flushWalkFrom (s : State) (va : Nat) : Nat → Nat → State
  | level, t =>
    let a := t + 8 * (va / leafSize level % 512)
    let s := s.stashFlush (lineOf (s.memKey false a)) false
    let e := s.pte a
    if !pteBit e 0 || pteBit e 1 then s else match level with
      | 0 => s
      | l + 1 => if s.tableOk (ptePa e) then s.flushWalkFrom va l (ptePa e) else s
def State.flushWalk (s : State) (v : Vf) (va : Nat) : State := if s.tableOk v.ptroot then s.flushWalkFrom va 3 v.ptroot else s

/-! ## Order within a thread -/

/-- The address ranges a request works on. -/
def ReqKind.ranges : ReqKind → List (Nat × Nat)
  | .load g _ n _ _ => [(g.pa, n)]
  | .ldu _ _ g1 g2 _ => [(g1.pa, 8), (g2.pa, 8)]
  | .atomic op _ _ at_ _ _ => match at_ with
    | .glob g => [(g.pa, if op == .add64 || op == .xchg64 || op == .cas64 || op == .fadd64 then 8 else 4)]
    | .scr _ _ => []
  | .redto _ at_ _ _ _ _ => match at_ with
    | .glob g => [(g.pa, 4)]
    | .scr _ _ => []
  | .sc _ g _ _ _ => [(g.pa, 4)]
  | .proof _ g _ _ _ _ => [(g.pa, 128)]
  | _ => []

/-- An LDSC or CASSC of the thread in turn is not yet over: its acquire stands before every later access (R189). -/
def State.acquiring (s : State) : Bool :=
  s.requests.any (fun r => r.t == s.cur.id && (match r.kind with
    | .sc f _ _ _ _ => f != 2
    | _ => false)) || s.replies.any (fun r => r.t == s.cur.id && r.acq)

/-- Whether an access of the thread in turn meets an earlier request of the same thread not yet performed on the same bytes: it then
waits, so that they take effect in program order, two loads no less than others (R31). -/
def State.unordered (s : State) (pa n : Nat) : Bool :=
  s.acquiring || s.requests.any (fun r => r.t == s.cur.id && r.kind.ranges.any (fun x => overlaps pa n x.1 x.2))

/-- The same for a scratch access. -/
def State.unorderedScr (s : State) (team off n : Nat) : Bool :=
  s.acquiring || s.requests.any (fun r => r.t == s.cur.id && (match r.kind with
    | .atomic op _ _ (.scr t o) _ _ => t == team &&
        overlaps off n o (if op == .add64 || op == .xchg64 || op == .cas64 || op == .fadd64 then 8 else 4)
    | .redto _ (.scr t o) _ _ _ _ => t == team && overlaps off n o 4
    | _ => false))

/-! ## Loads and stores of one thread -/

/-- Sends a request of the thread in turn, numbered where it is a write performed at another die's home (R295,
R297). It is named by `nextId` as it stood before the entry that awaits it, so `id` is given. -/
def State.request (s : State) (id : Nat) (kind : ReqKind) (numbered : Bool) : State :=
  let k := s.curCore
  let h := (s.die k.die).h
  let hor := vmax h (s.die k.die).v
  let s := if numbered then s.number k.die else s
  { s with requests := s.requests ++
      [⟨id, s.cur.id, k, launchVf s.cur.id.launch, hor, if numbered then (s.die k.die).v else [], kind⟩] }

/-- Every byte of a line that the die can give without another die. -/
def State.lineBytes (s : State) (d : Nat) (g : GAddr) : List (Nat × Byte) :=
  (List.range 128).filterMap (fun k => (s.readDie d g.line k).map (fun b => (k, b)))

/-- What a load finds at issue, byte by byte (R80, R168, R313). -/
def State.loadBytes (s : State) (k : CoreId) (g : GAddr) (n : Nat) : List (Option Byte) :=
  let ln := (s.core k).l1Line (lineOf g.pa)
  let l1 (i : Nat) : Option CByte := ln.bind (fun l => byteAt l.bytes (g.pa % 128 + i))
  let all := (List.range n).all (fun i => (l1 i).isSome)
  (List.range n).map (fun i =>
    if g.checked then (if homeOf g.pa = k.die || homeOf g.pa = hostHome then some (s.mem.get (g.pa + i)) else none)
    else match l1 i with
      | some b => if all || b.dirty || decide (2 ≤ g.cache) then some b.val else s.readDie k.die g i
      | none => s.readDie k.die g i)

/-- Whether the L1 alone serves a load. -/
def State.l1Hit (s : State) (k : CoreId) (g : GAddr) (n : Nat) : Bool :=
  !g.checked && (match (s.core k).l1Line (lineOf g.pa) with
    | some l => (List.range n).all (fun i => (byteAt l.bytes (g.pa % 128 + i)).isSome)
    | none => false)

/-- What a load leaves in the caches once it has been served without another die. -/
def State.loadAllocate (s : State) (k : CoreId) (g : GAddr) (n : Nat) (crew : CrewId) : State :=
  if g.checked then (s.countRead g).consumeAt g.vf k g.pa n
  else if s.l1Hit k g n then (s.l1Alloc k g crew).consumeL1 g.vf k g.pa n
  else
    let s := s.consumeAt g.vf k g.pa n
    let s := if 1 ≤ g.cache && homeOf g.pa < 24 && (!g.repl || homeOf g.pa = k.die) then s.l2Alloc k.die g else s
    if 2 ≤ g.cache && cachedOn k.die g then s.l1Fill k g crew (s.lineBytes k.die g) else s

/-- Where a load goes that its die cannot serve: the home where it is performed there (R313), else the die that serves it. -/
def loadSource (d : Nat) (g : GAddr) : Nat × Nat := if g.checked then (homeOf g.pa, g.pa) else serveOf d g

/-- A load needs another die, and every miss entry of its core is taken (R142). -/
def State.missFull (s : State) (k : CoreId) (g : GAddr) (n : Nat) : Bool :=
  !((s.loadBytes k g n).all Option.isSome) && decide (Config.missEntries < (s.requests.filter (fun r => r.core == k && (match r.kind with
    | .load _ _ _ _ _ => true
    | .ldu _ _ _ _ _ => true
    | _ => false))).length)

/-- A global load of the thread in turn (R78, R80, R168): an entry of `w` registers at `d`; its reply is on its way
where the core and its die hold every byte, else a request goes to the die that serves it. DESIGN CHOICE (log entry 30). -/
def State.loadGlobal (s : State) (g : GAddr) (n : Nat) (sgn : Bool) (d : Reg) (w : Nat) : State :=
  let k := s.curCore
  let id := s.nextId
  let crew := crewOf s.cur.id
  let s := (s.enqueue d w).touchLine crew (lineOf g.pa)
  let s := if g.checked then s.writeBackRange k g n true else s.stashFlush (lineOf g.pa) false
  let bs := s.loadBytes k g n
  if bs.all Option.isSome then
    (s.loadAllocate k g n crew).reply id s.cur.id (loadWords n sgn (bs.filterMap (fun b => b)))
  else
    s.request id (.load g (loadSource k.die g).2 n sgn
      (((List.range n).zip bs).filterMap (fun x => x.2.map (fun b => (x.1, b))))) false

/-- A global store of the thread in turn (R79, R80, R168, R313). -/
def State.storeGlobal (s : State) (g : GAddr) (bs : List Byte) : State :=
  let k := s.curCore
  let crew := crewOf s.cur.id
  let new := inLine g (numbered bs)
  let s := s.touchLine crew (lineOf g.pa)
  let held := ((s.core k).l1Line (lineOf g.pa)).isSome
  if g.checked then
    let s := s.writeBackRange k g bs.length true
    let s := match (s.core k).l1Line (lineOf g.pa) with
      | some l => s.setL1 k { l with bytes := setBytes l.bytes new false }
      | none => s
    let s := s.stashFlush (lineOf g.pa) true
    s.homeStore k.die g.line new
  else if 2 ≤ g.cache then s.l1Put k g crew new
  else if held then s.l1Put k g crew new
  else s.dieStore k.die g new

end Sys2Proof.Machine
end

