-- ==== Sys2Proof/Machine/Residency.lean ====
section
/-! DEFINITION. The resident segment table of a core (R98 to R104): keys, tokens, frames, eviction, and the
residency check of a transfer of control (R105). -/

namespace Sys2Proof.Machine

/-- Frames of a segment of the given length (R98). -/
def framesOf (len : Nat) : Nat := (len + 4095) / 4096

/-- Whether a team stands on a core with its threads (R102: a saved team holds no token, R109). -/
def Team.on (t : Team) (k : CoreId) : Bool :=
  t.core == k && (t.st == .resident || t.st == .pinning || t.st == .saving)

/-- Tokens on a segment of a core: an implicit one for every live thread whose pc lies in it, and the explicit
ones of the teams there (R102). -/
def State.tokens (s : State) (k : CoreId) (vf coid seg : Nat) : Nat :=
  let ts := s.teams.filter (fun t => t.on k && launchVf t.launch == vf && s.coidOf t.launch == coid)
  (s.threads.filter (fun x => x.live && segOf x.pc == seg &&
    ts.any (fun t => t.launch == x.id.launch && t.idx == x.id.team))).length +
  (ts.map (fun t => ((t.tokens.find? (fun y => y.1 == seg)).map (fun y => y.2)).getD 0)).foldl (· + ·) 0

/-- Whether an entry is evictable (R103). -/
def State.evictable (s : State) (k : CoreId) (e : SegEntry) : Bool :=
  e.st == .resident && e.pins.isEmpty && s.tokens k e.vf e.coid e.seg == 0

/-- A VF's frame quota on a core (R100). -/
def State.quota (s : State) (k : CoreId) (vf : Nat) : Nat :=
  ((s.vf? vf).bind (fun v => (v.quotas.find? (fun q => q.1 == k)).map (fun q => q.2))).getD 0

/-- Frames a VF holds on a core. -/
def Core.framesHeld (c : Core) (vf : Nat) : Nat :=
  (c.segs.map (fun e => if e.st != .absent && e.vf == vf then e.frames.length else 0)).foldl (· + ·) 0

/-- Frames available to a VF on a core; none where a lowered quota has left it more than its quota (R100). -/
def State.avail (s : State) (k : CoreId) (vf : Nat) : Nat := s.quota k vf - (s.core k).framesHeld vf

/-- Frames of a VF's evictable entries. -/
def State.evictableFrames (s : State) (k : CoreId) (vf : Nat) : Nat :=
  ((s.core k).segs.map (fun e => if e.vf == vf && s.evictable k e then e.frames.length else 0)).foldl (· + ·) 0

/-- The evictable entry of a VF least recently entered, the lower index on a tie (R103). -/
def oldestEntry : List (Nat × SegEntry) → Option (Nat × SegEntry)
  | [] => none
  | x :: xs => match oldestEntry xs with
    | none => some x
    | some y => if y.2.stamp < x.2.stamp then some y else some x

/-- The free frames of a core's instruction store, lowest first (R99). -/
def Core.freeFrames (c : Core) : List Nat :=
  (List.range 64).filter (fun f => !(c.segs.any (fun e => e.frames.contains f)))

/-- A VF can have the frames needed on a core within its quota, once `extra` frames of its own are given up (R100, R105). Frames within
a quota that another VF holds beyond its own lowered quota are not free until it gives them up: the request waits for them. DESIGN
CHOICE (log entry 29). -/
def State.framesFit (s : State) (k : CoreId) (vf need extra : Nat) : Bool :=
  decide ((s.core k).framesHeld vf + need ≤ s.quota k vf + extra) && decide (need ≤ (s.core k).freeFrames.length + extra)

/-- Evicts until a VF has the frames needed, at most `fuel` entries; each eviction is an event of R106 (R103). -/
def State.evictFor (s : State) (k : CoreId) (vf need : Nat) : Nat → State
  | 0 => s
  | fuel + 1 =>
    if s.framesFit k vf need 0 then s else
    let c := s.core k
    match oldestEntry (((List.range c.segs.length).zip c.segs).filter (fun x => x.2.vf == vf && s.evictable k x.2)) with
    | none => s
    | some x => ((s.setCore { c with segs := c.segs.set x.1 { x.2 with st := .absent, frames := [], words := [] } }).lacerStir
        k vf).evictFor k vf need fuel

/-- The virtual address of a segment of a launch's image (R107, R114). -/
def State.segVa (s : State) (l seg : Nat) : Nat :=
  ((s.launch? l).bind (fun x => (x.image.segs[seg]?).map (fun g => x.image.base + g.1))).getD 0

/-- Allocates the frames of a segment and starts its load in the first ABSENT entry, else in a new one at the end: the spec does not
say which (R99; the index decides ties of R103). `owner` is the thread that a record of the load names, for good where `named` says
so (R107). DESIGN CHOICE (log entry 29). -/
def State.startLoad (s : State) (k : CoreId) (vf coid seg len launch : Nat) (owner : ThreadId) (named : Bool) (pins : List Nat) :
    State :=
  let c := s.core k
  let e : SegEntry := { st := .loading, vf := vf, coid := coid, seg := seg, frames := c.freeFrames.take (framesOf len),
                        pins := pins, stamp := s.cycle, words := [], launch := launch, va := s.segVa launch seg, len := len,
                        owner := owner, named := named, frec := none }
  match c.segs.findIdx? (fun x => x.st == .absent) with
  | some i => s.setCore { c with segs := c.segs.set i e }
  | none => s.setCore { c with segs := c.segs ++ [e] }

/-- The state of a segment on a core. -/
def State.segState (s : State) (k : CoreId) (vf coid seg : Nat) : SegState :=
  (((s.core k).segEntry vf coid seg).map (fun e => e.st)).getD .absent

/-- A core's Lacer queue changes; a request that comes to its head waits from now on (R106). -/
def State.requeueLacer (s : State) (k : CoreId) (q : List LacerReq) : State :=
  let c := s.core k
  s.setCore { c with lacerQ := if c.lacerQ.head? == q.head? then q else match q with
    | [] => []
    | r :: rs => { r with since := s.cycle } :: rs }

/-- The first thread that settles on a load under way is the one that a record of it names (R107). -/
def State.nameLoad (s : State) (k : CoreId) (e : SegEntry) (t : ThreadId) : State :=
  if e.named then s
  else s.modSeg k e.vf e.coid e.seg (fun x => { x with owner := t, named := true })

/-- Whether a thread is settling (R105). -/
def State.settling (s : State) (t : ThreadId) : Bool := (s.thread? t).any (fun x => x.phase == .settling)

/-- A thread settles into a segment that is not resident: a request is queued where no load of it runs and none is queued (R105); one that
a thread of a restored team has queued without settling there becomes its own (R107, R109). -/
def State.settleReq (s : State) (t : ThreadId) (pc : Word) : State :=
  let k := s.coreOf t.launch t.team
  let vf := launchVf t.launch
  let co := s.coidOf t.launch
  let c := s.core k
  if s.segState k vf co (segOf pc) == .loading then (match c.segEntry vf co (segOf pc) with
    | some e => s.nameLoad k e t
    | none => s)
  else if c.lacerQ.any (fun r => r.req == 0 && !r.token && r.vf == vf && r.coid == co && r.seg == segOf pc) then
    s.setCore { c with lacerQ := c.lacerQ.map (fun r =>
      if r.req == 0 && !r.token && r.vf == vf && r.coid == co && r.seg == segOf pc && !s.settling r.thread
      then { r with launch := t.launch, team := t.team, thread := t } else r) }
  else s.setCore { c with lacerQ := c.lacerQ ++ [⟨t.launch, t.team, vf, co, segOf pc, t, 0, false, s.cycle⟩] }

/-- A transfer of the thread in turn that has passed its checks (R105): where the target's segment is resident the
thread goes there, and the entry's stamp is set where it comes from another segment; else it settles with its pc
at the target. With `rel` it stands released at the target (R274). -/
def State.transferRel (s : State) (pc : Word) (rel : Bool) : State :=
  let k := s.curCore
  let vf := launchVf s.cur.id.launch
  let co := s.coidOf s.cur.id.launch
  let seg := segOf pc
  let stand (s : State) : State := if rel then s.setCur { s.cur with pc := pc, released := true } else s
  if seg = segOf s.cur.pc then (stand s).goto pc
  else if s.segState k vf co seg == .resident then (stand (s.enterSeg k s.cur.id.launch seg)).goto pc
  else
    let s := s.lacerStir k vf
    let t := s.cur
    ((s.setCur { t with pc := pc, released := rel, debugPass := [] }).settleReq t.id pc).blockCur .settling

/-- A transfer to an address at which the thread does not stand released. -/
def State.transfer (s : State) (pc : Word) : State := s.transferRel pc false

/-- The word a core's resident segments hold at a code address of a launch (R34). -/
def State.fetch (s : State) (k : CoreId) (l : Nat) (pc : Word) : Option Word :=
  match (s.core k).segEntry (launchVf l) (s.coidOf l) (segOf pc) with
  | some e => if e.st == .resident then e.words[offOf pc / 4]? else none
  | none => none

end Sys2Proof.Machine
end

