-- ==== Sys2Proof/Machine/Control.lean ====
section
/-! DEFINITION. The BR and J words (majors 5, 6) and JR, CALLX, RET, OCALL (R70 to R72, R117, R308, R345). -/

namespace Sys2Proof.Machine

/-- The offset a relative transfer aims at, where it lies inside the segment. -/
def State.relTarget (s : State) (off : Int) : Option Word :=
  let t := branchTarget s.cur.pc off
  if t < 0 ∨ (s.curLen : Int) ≤ t then none else some (codeAddr (segOf s.cur.pc) t.toNat)

/-- A taken branch or a JMP (R70, R71). -/
def State.jump (s : State) (off : Int) : State :=
  match s.relTarget off with
  | none => s.raise 0x04 2 (BitVec.ofInt 64 (branchTarget s.cur.pc off))
  | some pc => s.goto pc

/-- A conditional branch on the A register read as s32 (R70). -/
def branch (sp : Bool) (a : Reg) (off : BitVec 17) (s : State) (c : Int → Bool) : Out :=
  issue sp false [opA a] s (fun s => if c (s.cur.w a).toInt then s.jump off.toInt else s.advance)

/-- BEQZ (R70). -/
def execBeqz (sp : Bool) (a : Reg) (off : BitVec 17) (s : State) : Out := branch sp a off s (fun t => t == 0)

/-- BNEZ (R70). -/
def execBnez (sp : Bool) (a : Reg) (off : BitVec 17) (s : State) : Out := branch sp a off s (fun t => t != 0)

/-- BLTZ (R70). -/
def execBltz (sp : Bool) (a : Reg) (off : BitVec 17) (s : State) : Out := branch sp a off s (fun t => decide (t < 0))

/-- BGEZ (R70). -/
def execBgez (sp : Bool) (a : Reg) (off : BitVec 17) (s : State) : Out := branch sp a off s (fun t => decide (0 ≤ t))

/-- BGTZ (R70). -/
def execBgtz (sp : Bool) (a : Reg) (off : BitVec 17) (s : State) : Out := branch sp a off s (fun t => decide (0 < t))

/-- BLEZ (R70). -/
def execBlez (sp : Bool) (a : Reg) (off : BitVec 17) (s : State) : Out := branch sp a off s (fun t => decide (t ≤ 0))

/-- BRA (R70). -/
def execBra (sp : Bool) (off : BitVec 17) (s : State) : Out := issue sp false [] s (fun s => s.jump off.toInt)

/-- JMP (R71). -/
def execJmp (sp : Bool) (off : BitVec 25) (s : State) : Out := issue sp false [] s (fun s => s.jump off.toInt)

/-- LK ← PC + 4. -/
def State.link (s : State) : State := s.setCur { s.cur with lk := s.cur.pc + 4 }

/-- The trap of a call whose return address would lie outside the segment (R345 cause 6). -/
def State.returnTrap (s : State) : State := s.raise 0x04 6 (BitVec.ofNat 64 (offOf s.cur.pc + 4))

/-- CALL (R71): the target's cause goes before the return address's (R345). -/
def execCall (sp : Bool) (off : BitVec 25) (s : State) : Out :=
  issue sp false [] s (fun s =>
    match s.relTarget off.toInt with
    | none => s.jump off.toInt
    | some pc => if s.noReturn then s.returnTrap else s.link.goto pc)

/-- An indirect transfer, linking where `call` (R72). -/
def State.indirect (s : State) (tgt : Word) (call : Bool) : State :=
  match s.badTarget tgt with
  | some c => s.raise 0x04 c (tgt.zeroExtend 64)
  | none =>
    if call && s.noReturn then s.returnTrap
    else (if call then s.link else s).transfer tgt

/-- JR (R72). -/
def execJr (sp : Bool) (a : Reg) (s : State) : Out :=
  issue sp false [opA a] s (fun s => s.indirect (s.cur.w a) false)

/-- CALLX (R72). -/
def execCallx (sp : Bool) (a : Reg) (s : State) : Out :=
  issue sp false [opA a] s (fun s => s.indirect (s.cur.w a) true)

/-- RET (R72). -/
def execRet (sp : Bool) (s : State) : Out := issue sp false [] s (fun s => s.indirect s.cur.lk false)

/-- Whether the VF of the thread in turn has LDU and OCALL: FEATURE0[10] (R308). -/
def State.hasOldWords (s : State) : Bool :=
  ((s.vf? (launchVf s.cur.id.launch)).map (fun v => v.feature0.getLsbD 10)).getD false

/-- OCALL (R117, R308). -/
def execOcall (sp : Bool) (b : Reg) (s : State) : Out :=
  issue sp false [opB b] s (fun s =>
    if s.hasOldWords then s.indirect ((s.cur.w b) <<< 16) true else s.raise 0x01 9 0)

end Sys2Proof.Machine
end

