-- ==== Sys2Proof/Machine/LoadStore.lean ====
section
/-! DEFINITION. The LD and ST words (majors 7, 8), LDU and PREF, and the scratch and stash accesses they share
with the PAR words (R76 to R81, R117, R153, R172). -/

namespace Sys2Proof.Machine

/-! ## What may have to wait -/

/-- What an action comes to that may have to wait: it is done, with its answer; or it waits, and what it has begun stands: an A bit set,
a line written back. -/
inductive Tried (α : Type) where
  | ok (s : State) (a : α)
  | wait (s : State)

/-- What follows once an action is done. -/
def Tried.andThen {α β : Type} (r : Tried α) (f : State → α → Tried β) : Tried β :=
  match r with
  | .ok s a => f s a
  | .wait s => .wait s

/-- An action for each of a list, in order, up to the first that has to wait. -/
def State.tryAll {α : Type} (s : State) (xs : List α) (f : State → α → Tried Unit) : Tried Unit :=
  xs.foldl (fun o x => o.andThen (fun s _ => f s x)) (.ok s ())

/-! ## Translation without a walk of its own thread -/

/-- What the translation of an agent's access answers: the entry; an invalid leaf, or the record of one pending; no permission to be
marked dirty; or not yet. -/
inductive Entry where
  | ok (s : State) (e : TlbEntry)
  | fault (s : State) (level : Nat)
  | deny (s : State)
  | wait (s : State)

/-- A miss of an agent: it joins the pending record of the page, waits for a walk of it under way, or has the page walked, which sets A
(and D for a store that passes step 5 of R77) and fills the TLBs (R177, R178). -/
def State.agentWalk (s : State) (k : CoreId) (v : Vf) (va : Nat) (setD : Bool) : Entry :=
  if (s.pendingRec k.die v.id va).isSome then .fault s 0
  else if s.walks.any (fun w => w.die == k.die && w.vf == v.id && w.va / 4096 == va / 4096) then .wait s
  else
    let s := s.flushWalk v va
    if !s.mayWalk k.die v va then .wait s
    else match s.walk v va with
      | .leaf a n pa pte ptes =>
        let e := leafEntry v.id a n pa pte
        let set := setD && e.w && (e.host || s.validPa (pa + (va - a)))
        let e' := { e with d := e.d || set }
        .ok (((s.walked k.die v va).markPtes k.die set ptes).fillTlb k e') e'
      | .fault l => .fault (s.walked k.die v va) l

/-- The translation an agent uses: the one held, else that of a walk; the first store through one whose D is 0 has it walked again
(R177, R178). -/
def State.entryNow (s : State) (k : CoreId) (v : Vf) (va : Nat) (setD : Bool) : Entry :=
  match s.tlbFind k v va with
  | some e =>
    if e.d || !setD then .ok s e
    else if !e.w || (!e.host && !s.validPa (e.pa + (va - e.va))) then .deny s
    else s.agentWalk k v va true
  | none => s.agentWalk k v va setD

/-! ## The stash of the thread's team -/

/-- The mapping of a team that covers a scratch offset, and the one that covers a virtual address (R172). -/
def Team.stashAt (t : Team) (off : Nat) : Option StashMap :=
  t.stash.find? (fun m => decide (m.off ≤ off ∧ off < m.off + m.len))
def Team.stashVa (t : Team) (va : Nat) : Option StashMap :=
  t.stash.find? (fun m => decide (m.va ≤ va ∧ va < m.va + m.len))

/-- The scratch offset of a physical address whose line a team's stash holds: any virtual address of it reaches it (R32, R172). -/
def State.ownStash (s : State) (l t pa : Nat) : Option Nat :=
  ((s.team? l t).bind (fun tm => tm.stash.findSome? (fun m => (m.filled.find? (fun f => lineOf f.2.pa == lineOf pa)).map (fun f => f.1)))).map
    (fun o => o + pa % 128)

/-- The physical address of a scratch offset in a filled stash line. -/
def State.stashPa (s : State) (l t off : Nat) : Option Nat :=
  ((s.team? l t).bind (fun tm => tm.stashAt off)).bind (fun m =>
    (m.filled.find? (fun f => f.1 == off / 128 * 128)).map (fun f => f.2.pa + off % 128))

/-- The bytes of a line as its home gives them, with those that the die has written and not yet sent there, a read that counts there
(R313, R318); none where the home's clock does not yet cover the horizon (R297). -/
def State.homeLine (s : State) (d : Nat) (g : GAddr) : Option (State × List Byte) :=
  let h := homeOf g.pa
  let own := match s.l2Line d (lineOf g.pa) with
    | some l => dirtyBytes l.bytes
    | none => []
  if !s.reaches d h then none
  else some ((if h == d then s else s.carry d h).countRead g, (List.range 128).map (fun i =>
    ((own.find? (fun b => b.1 == i)).map (fun b => b.2)).getD (s.mem.get (g.line.pa + i))))

/-- The bytes of a line as its die, or at once its serving die, gives them; none where that die's clock does not
yet cover the horizon (R297). A copy that was absent is filled (R294); a checked launch uses no copy (R313). -/
def State.wholeLine (s : State) (d : Nat) (g : GAddr) : Option (State × List Byte) :=
  let bs := (List.range 128).map (fun i => s.readDie d g.line i)
  if g.checked then s.homeLine d g
  else if bs.all Option.isSome then some (s, bs.filterMap (fun b => b))
  else
    let (m, a) := serveOf d g.line
    if !s.reaches d m then none
    else
      let s' := if 1 ≤ g.cache && !g.repl then s.fillLine d g else s
      some (s'.carry d m, (List.range 128).map (fun i => (s.readDie d g.line i).getD (s.mem.get (a + i))))

/-- The poisoned bytes of a line as a die reads it: those of its copy, else those at home (R328). DEDUCED (log entry 26). -/
def State.badLine (s : State) (d line : Nat) : List Nat :=
  if s.poison.isEmpty then [] else (List.range 128).filter (fun o =>
    if ((s.l2Line d line).bind (fun l => byteAt l.bytes o)).isSome then s.badL2 d line o else s.badHome line o)

/-- Fills a stash line of a team (R172): scratch offset `lo`, physical line of `g`. -/
def State.stashFill (s : State) (t : Team) (m : StashMap) (lo : Nat) (g : GAddr) : Tried Unit :=
  let line := lineOf g.pa
  let s := s.l1Clean t.core line (fun _ => true)
  let s := s.l1Drop t.core line (fun _ => true)
  let s := (s.stashFlush line false).stashOut line true (fun u => u.launch == t.launch && u.idx == t.idx)
  match s.wholeLine t.core.die g with
  | none => .wait s
  | some (s, bs) =>
    let s := (s.putScratch t.launch t.idx lo bs).addPoison ((s.badLine t.core.die line).map (fun o => .scratch t.launch t.idx (lo + o) 0))
    match s.team? t.launch t.idx with
    | none => .ok s ()
    | some t' => .ok (s.setTeam { t' with stash := t'.stash.map (fun x =>
        if x.off == m.off then { x with filled := x.filled ++ [(lo, g.line)] } else x) }) ()

/-- A scratch access touches the stash line of an offset: a line of a stashed page fills on the first touch (R172), in a checked launch
as in any other (R313); a die outside the set of a replicated page keeps nothing of it (R301). DEDUCED (log entry 22). -/
def State.stashTouch (s : State) (l t off : Nat) : Tried Unit :=
  match s.team? l t with
  | none => .ok s ()
  | some tm =>
    match tm.stashAt off with
    | none => .ok s ()
    | some m =>
      let lo := off / 128 * 128
      if m.filled.any (fun f => f.1 == lo) then .ok s () else
      match s.vf? (launchVf l) with
      | none => .ok s ()
      | some v =>
        match s.entryNow tm.core v (m.va + (lo - m.off)) false with
        | .fault s _ => .ok s ()
        | .deny s => .ok s ()
        | .wait s => .wait s
        | .ok s e =>
          let g := s.gaddr v l t e (m.va + (lo - m.off)) 3
          if g.cache = 3 && s.validPa g.pa && cachedOn tm.core.die g then s.stashFill tm m lo g else .ok s ()

/-- A scratch access of the thread in turn may go on once its stash line is filled and no earlier access of the thread to the same
location, by its global address, is still to be performed (R31, R32, R172). -/
def State.stashReady (s : State) (l t off n : Nat) : Tried Unit :=
  (s.stashTouch l t off).andThen (fun s _ => if (s.stashPa l t off).any (fun pa => s.unordered pa n) then .wait s else .ok s ())

/-- Marks scratch bytes of stashed lines dirty (R172). -/
def Team.markDirty (t : Team) (off n : Nat) : Team :=
  { t with stash := t.stash.map (fun m =>
      if m.filled.any (fun f => f.1 == off / 128 * 128) then
        { m with dirty := m.dirty ++ ((List.range n).map (fun i => off + i)).filter (fun o => !(m.dirty.contains o)) }
      else m) }

/-- Writes scratch bytes as a thread or an agent of the team does: stashed lines become dirty. -/
def State.writeScratch (s : State) (l t off : Nat) (bs : List Byte) : State :=
  let s := s.putScratch l t off bs
  match s.team? l t with
  | none => s
  | some tm => if tm.stash.isEmpty then s else s.setTeam (tm.markDirty off bs.length)

/-! ## Accesses of the thread in turn -/

/-- A scratch or cluster load of a team (R77 step 6, R153, R154). -/
def State.loadScratch (s : State) (team off n : Nat) (sgn : Bool) (d : Reg) (w : Nat) : State :=
  let l := s.cur.id.launch
  if s.hatched l team off n false then s.parkCur (.stalled 5)
  else if s.unorderedScr team off n then s.parkCur (.stalled 15)
  else match s.stashReady l team off n with
    | .wait s => s.parkCur (.stalled 15)
    | .ok s _ =>
      let id := s.nextId
      ((((s.bankAccess team off n).consumeScratch s.curCore l team off n).enqueue d w).reply id s.cur.id
        (loadWords n sgn (s.scratchBytes l team off n))).advance

/-- A scratch or cluster store (R77 step 6, R153, R154). -/
def State.storeScratch (s : State) (team off : Nat) (bs : List Byte) : State :=
  let l := s.cur.id.launch
  if s.hatched l team off bs.length true then s.parkCur (.stalled 5)
  else if s.unorderedScr team off bs.length then s.parkCur (.stalled 15)
  else match s.stashReady l team off bs.length with
    | .wait s => s.parkCur (.stalled 15)
    | .ok s _ => ((s.bankAccess team off bs.length).writeScratch l team off bs).advance

/-- Where a checked global access of the thread in turn goes: to a stash line of its team, to memory, or nowhere yet. -/
inductive Route where
  | mem (s : State)
  | stash (s : State) (off : Nat)
  | wait (s : State)

/-- The route of a global access of a team (R32, R80, R172): that of a checked launch is performed at home (R313). -/
def State.routeOf (s : State) (l t : Nat) (g : GAddr) (va : Nat) : Route :=
  if g.checked then .mem s else
  match s.ownStash l t g.pa with
  | some off => .stash s off
  | none =>
    match s.team? l t with
    | none => .mem s
    | some tm =>
      match tm.stashVa va with
      | none => .mem s
      | some m =>
        let off := m.off + (va - m.va)
        if g.cache = 3 && cachedOn tm.core.die g && !m.filled.any (fun f => f.1 == off / 128 * 128) then
          match s.stashFill tm m (off / 128 * 128) g with
          | .ok s _ => .stash s off
          | .wait s => .wait s
        else .mem s

/-- The route of a global access of the thread in turn. -/
def State.route (s : State) (g : GAddr) (va : Nat) : Route := s.routeOf s.cur.id.launch s.cur.id.team g va

/-- A load of n bytes at a generic address (R76 to R78): `cap` is the cap of its POL, `d` and `w` its destination. -/
def State.loadThread (s : State) (ea : DWord) (n cap : Nat) (sgn : Bool) (d : Reg) (w : Nat) : State :=
  if ea.toNat % n ≠ 0 then s.raise 0x05 n ea
  else match aperture s.pk ea n with
    | .bad => s.raise 0x06 1 ea
    | .scr off => s.loadScratch s.cur.id.team off n sgn d w
    | .clu r off => s.loadScratch (quadPeer s.pk s.cur.id.team r) off n sgn d w
    | .glob va =>
      match s.checkGlobal va n cap .load true 0 with
      | .stop s => s
      | .ok g =>
        if s.unordered g.pa n then s.parkCur (.stalled 15)
        else match s.route g va with
          | .wait s => s.parkCur (.stalled 15)
          | .stash s off =>
            let id := s.nextId
            let l := s.cur.id.launch
            let t := s.cur.id.team
            if s.unorderedScr t off n then s.parkCur (.stalled 15)
            else (((s.consumeScratch s.curCore l t off n).enqueue d w).reply id s.cur.id (loadWords n sgn (s.scratchBytes l t off n))).advance
          | .mem s => if s.missFull s.curCore g n then s.parkCur (.stalled 13) else (s.loadGlobal g n sgn d w).advance

/-- A store of bytes at a generic address (R76, R77, R79). -/
def State.storeThread (s : State) (ea : DWord) (bs : List Byte) (cap : Nat) : State :=
  let n := bs.length
  if ea.toNat % n ≠ 0 then s.raise 0x05 n ea
  else match aperture s.pk ea n with
    | .bad => s.raise 0x06 1 ea
    | .scr off => s.storeScratch s.cur.id.team off bs
    | .clu r off => s.storeScratch (quadPeer s.pk s.cur.id.team r) off bs
    | .glob va =>
      match s.checkGlobal va n cap .store true 0 with
      | .stop s => s
      | .ok g =>
        if s.unordered g.pa n then s.parkCur (.stalled 15)
        else match s.route g va with
          | .wait s => s.parkCur (.stalled 15)
          | .stash s off =>
            if s.unorderedScr s.cur.id.team off n then s.parkCur (.stalled 15)
            else (s.writeScratch s.cur.id.launch s.cur.id.team off bs).advance
          | .mem s => (s.storeGlobal g bs).advance

/-! ## The words -/

/-- The cap POL sets (R49, R80). -/
def polCap (pol : BitVec 2) : Nat := if pol == 1 then 1 else if pol == 2 then 0 else 3

/-- An LD word: access size n, w destination registers. -/
def load (n w : Nat) (sgn sp : Bool) (pol : BitVec 2) (d a : Reg) (off : BitVec 8) (s : State) : Out :=
  issue sp true [opD d w, opA a 2] s (fun s => s.loadThread (effAddr (s.cur.p a) off n) n (polCap pol) sgn d w)

/-- An ST word. -/
def store (n w : Nat) (sp : Bool) (pol : BitVec 2) (d a : Reg) (off : BitVec 8) (s : State) : Out :=
  issue sp false [opR d w, opA a 2] s (fun s =>
    s.storeThread (effAddr (s.cur.p a) off n) (bytesOf n (natOfWords (s.cur.words d w))) (polCap pol))

/-- LD8.s (R78). -/
def execLd8S (sp : Bool) (pol : BitVec 2) (d a : Reg) (off : BitVec 8) (s : State) : Out :=
  load 1 1 true sp pol d a off s

/-- LD8.n (R78). -/
def execLd8N (sp : Bool) (pol : BitVec 2) (d a : Reg) (off : BitVec 8) (s : State) : Out :=
  load 1 1 false sp pol d a off s

/-- LD16.s (R78). -/
def execLd16S (sp : Bool) (pol : BitVec 2) (d a : Reg) (off : BitVec 8) (s : State) : Out :=
  load 2 1 true sp pol d a off s

/-- LD16.n (R78). -/
def execLd16N (sp : Bool) (pol : BitVec 2) (d a : Reg) (off : BitVec 8) (s : State) : Out :=
  load 2 1 false sp pol d a off s

/-- LD32 (R78). -/
def execLd32 (sp : Bool) (pol : BitVec 2) (d a : Reg) (off : BitVec 8) (s : State) : Out :=
  load 4 1 false sp pol d a off s

/-- LD64 (R78). -/
def execLd64 (sp : Bool) (pol : BitVec 2) (d a : Reg) (off : BitVec 8) (s : State) : Out :=
  load 8 2 false sp pol d a off s

/-- LD128 (R78). -/
def execLd128 (sp : Bool) (pol : BitVec 2) (d a : Reg) (off : BitVec 8) (s : State) : Out :=
  load 16 4 false sp pol d a off s

/-- ST8 (R79). -/
def execSt8 (sp : Bool) (pol : BitVec 2) (d a : Reg) (off : BitVec 8) (s : State) : Out :=
  store 1 1 sp pol d a off s

/-- ST16 (R79). -/
def execSt16 (sp : Bool) (pol : BitVec 2) (d a : Reg) (off : BitVec 8) (s : State) : Out :=
  store 2 1 sp pol d a off s

/-- ST32 (R79). -/
def execSt32 (sp : Bool) (pol : BitVec 2) (d a : Reg) (off : BitVec 8) (s : State) : Out :=
  store 4 1 sp pol d a off s

/-- ST64 (R79). -/
def execSt64 (sp : Bool) (pol : BitVec 2) (d a : Reg) (off : BitVec 8) (s : State) : Out :=
  store 8 2 sp pol d a off s

/-- ST128 (R79). -/
def execSt128 (sp : Bool) (pol : BitVec 2) (d a : Reg) (off : BitVec 8) (s : State) : Out :=
  store 16 4 sp pol d a off s

/-- The bytes of an 8-byte access that an LDU makes at an aligned address, and the state after it; its checks are
those of an LD64 with POL 0 (R117). -/
inductive Part where
  | stop (s : State)
  | bytes (s : State) (bs : List Byte)
  | glob (g : GAddr)

/-- Steps 2 to 6 of R77 for one access of an LDU (R117). -/
def State.lduPart (s : State) (ea : DWord) : Part :=
  let l := s.cur.id.launch
  let scr (s : State) (team off : Nat) : Part :=
    if s.hatched l team off 8 false then .stop (s.parkCur (.stalled 5))
    else if s.unorderedScr team off 8 then .stop (s.parkCur (.stalled 15))
    else match s.stashReady l team off 8 with
      | .wait s => .stop (s.parkCur (.stalled 15))
      | .ok s _ => .bytes ((s.bankAccess team off 8).consumeScratch s.curCore l team off 8) (s.scratchBytes l team off 8)
  match aperture s.pk ea 8 with
  | .bad => .stop (s.raise 0x06 1 ea)
  | .scr off => scr s s.cur.id.team off
  | .clu r off => scr s (quadPeer s.pk s.cur.id.team r) off
  | .glob va =>
    match s.checkGlobal va 8 3 .load true 0 with
    | .stop s => .stop s
    | .ok g =>
      if s.unordered g.pa 8 then .stop (s.parkCur (.stalled 15))
      else match s.route g va with
        | .wait s => .stop (s.parkCur (.stalled 15))
        | .stash s off =>
          if s.unorderedScr s.cur.id.team off 8 then .stop (s.parkCur (.stalled 15))
          else .bytes (s.consumeScratch s.curCore l s.cur.id.team off 8) (s.scratchBytes l s.cur.id.team off 8)
        | .mem s => if s.missFull s.curCore g 8 then .stop (s.parkCur (.stalled 13)) else .glob g

/-- The bytes a global part finds at issue for a crew on a core, by offset from `base`. -/
def State.lduGlobal (s : State) (k : CoreId) (crew : CrewId) (g : GAddr) (base : Nat) : State × List (Nat × Byte) :=
  let s := s.touchLine crew (lineOf g.pa)
  let s := if g.checked then s.writeBackRange k g 8 true else s.stashFlush (lineOf g.pa) false
  let bs := s.loadBytes k g 8
  let s := if bs.all Option.isSome then s.loadAllocate k g 8 crew else s
  (s, ((List.range 8).zip bs).filterMap (fun x => x.2.map (fun b => (base + x.1, b))))

/-- The result of an LDU from the bytes of its 16, once all it needs are there. -/
def lduWords (a : Nat) (got : List (Nat × Byte)) : Option (List Word) :=
  let bs := (List.range 8).filterMap (fun i => (got.find? (fun x => x.1 == a + i)).map (fun x => x.2))
  if bs.length = 8 then some (loadWords 8 false bs) else none

/-- An address where no access goes: the second half of an aligned LDU. -/
def noAddr : GAddr := GAddr.bare 0

/-- The effect of LDU once FEATURE0[10] is there (R117). -/
def State.ldu (s : State) (ea : DWord) (d : Reg) : State :=
  let base := ea &&& ~~~7
  let a := ea.toNat % 8
  match s.lduPart base with
  | .stop s => s
  | p1 =>
    let s1 := match p1 with
      | .bytes s _ => s
      | _ => s
    match if a = 0 then Part.bytes s1 [] else s1.lduPart (base + 8) with
    | .stop s => s
    | p2 =>
      let s2 := match p2 with
        | .bytes s _ => s
        | _ => s1
      let id := s2.nextId
      let s3 := s2.enqueue d 2
      let (s4, b1, g1) := match p1 with
        | .bytes _ bs => (s3, numbered bs, noAddr)
        | .glob g => let r := s3.lduGlobal s.curCore (crewOf s.cur.id) g 0; (r.1, r.2, g)
        | .stop _ => (s3, [], noAddr)
      let (s5, b2, g2) := match p2 with
        | .bytes _ bs => (s4, (numbered bs).map (fun x : Nat × Byte => (x.1 + 8, x.2)), noAddr)
        | .glob g => let r := s4.lduGlobal s.curCore (crewOf s.cur.id) g 8; (r.1, r.2, g)
        | .stop _ => (s4, [], noAddr)
      (match lduWords a (b1 ++ b2) with
       | some ws => s5.reply id s5.cur.id ws
       | none => s5.request id (.ldu ea.toNat s.cur.pc g1 g2 (b1 ++ b2)) false).advance

/-- LDU (R117, R308). -/
def execLdu (sp : Bool) (d a : Reg) (s : State) : Out :=
  issue sp true [opD d 2, opA a 2] s (fun s =>
    if s.hasOldWords then s.ldu (s.cur.p a) d else s.raise 0x01 9 0)

/-- The entry that maps a virtual address for PREF: held, or found by a look at the tables that sets nothing (R81). -/
def State.peekEntry (s : State) (k : CoreId) (v : Vf) (va : Nat) : Option TlbEntry :=
  match s.tlbFind k v va with
  | some e => some e
  | none => match (s.flushWalk v va).walk v va with
    | .leaf a n pa pte _ => some (leafEntry v.id a n pa pte)
    | .fault _ => none

/-- PREF (R81): the line is brought into its home slice where the address is one of a readable, cached page; it never traps, starts no
fault and changes no memory. -/
def execPref (sp : Bool) (a : Reg) (s : State) : Out :=
  issue sp false [opA a 2] s (fun s =>
    let ea := (s.cur.p a).toNat
    let s' := if 2 ^ 48 ≤ ea then s else
      match s.vf? (launchVf s.cur.id.launch) with
      | none => s
      | some v =>
        match s.peekEntry s.curCore v ea with
        | some e =>
          let g := s.gaddr v s.cur.id.launch s.cur.id.team e ea 3
          if e.r && g.cache != 0 && homeOf g.pa < 24 && s.validPa g.pa then s.l2Alloc (homeOf g.pa) g else s
        | none => s
    s'.advance)

end Sys2Proof.Machine
end

