-- ==== Sys2Proof/Machine/Order.lean ====
section
/-! DEFINITION. What a release and an acquire do at a scope and when they are complete (R168, R172, R180, R188,
R294, R297, R303, R305). Scopes are coded as in R51: 1 core, 2 quad, 3 die, 4 pkg, 5 pod. -/

namespace Sys2Proof.Machine

/-- Whether a line of a die's L2 is a pod-window line. -/
def podLine (line : Nat) : Bool := homeOf (line * 128) == podHome

/-- What a release of a team's thread at a scope sets in motion: the core's dirty L1 bytes and the team's dirty stash
bytes go to L2 from quad scope up, the die's dirty remote bytes go home from package scope up, and pod-window bytes
at pod scope. -/
def State.releaseActs (s : State) (l t scope : Nat) : State :=
  if scope < 2 then s else
  let k := s.coreOf l t
  let s := (s.l1CleanAll k).stashCleanTeam l t
  if scope < 4 then s else s.sendAll k.die (fun line => decide (scope = 5) || !podLine line)

/-- No write that a die has sent is still on its way to its home. -/
def State.sentApplied (s : State) (d : Nat) : Bool := !(s.welt.any (fun m => m.toHome && m.src == d))

/-- Whether a thread's release at a scope is complete (R188). -/
def State.releaseDone (s : State) (t : ThreadId) (scope : Nat) : Bool :=
  s.performed t && (decide (scope < 4) || s.sentApplied (s.coreOf t.launch t.team).die)

/-- A thread's earlier loads and atomics have all been performed: STSC, a store without a reply, is none (R188, R189). -/
def State.loaded (s : State) (t : ThreadId) : Bool :=
  !(s.requests.any (fun r => r.t == t && r.kind.isAccess && (match r.kind with
    | .sc f _ _ _ _ => f != 2
    | _ => true)))

/-- Whether a thread's acquire at a scope may complete: its replies have been received, and from package scope up
the die's clock covers its horizon (R188, R297). -/
def State.acquireReady (s : State) (t : ThreadId) (scope : Nat) : Bool :=
  let d := s.die (s.coreOf t.launch t.team).die
  s.loaded t && !(s.replies.any (fun r => r.t == t)) && (decide (scope < 4) || covers d.v d.h)

/-- What an acquire at a scope does: the core's clean L1 bytes go from quad scope up, and the die's clean pod-window
bytes at pod scope (R168, R303). -/
def State.acquireActs (s : State) (l t scope : Nat) : State :=
  if scope < 2 then s else
  let k := s.coreOf l t
  let s := s.l1Invalidate k
  if scope < 5 then s else
  let d := s.die k.die
  let kept := d.l2.map (fun x => if podLine x.line then { x with bytes := x.bytes.filter (fun b => b.dirty) } else x)
  s.setDie { d with l2 := kept.filter (fun x => !(podLine x.line && x.bytes.isEmpty)) }

end Sys2Proof.Machine
end

