-- ==== Sys2Proof/Machine/Eyelet.lean ====
section
/-! DEFINITION. Barriers (R195 to R199): their owners, counts and phases, the Eyelet table of a core, arrivals and
the release of waiters. -/

namespace Sys2Proof.Machine

/-- The ids a scope has (R195). -/
def barrierIds (scope : Nat) : Nat := if scope = 1 then 16 else if scope = 2 then 8 else 4

/-- The owner of a barrier that a team's thread names (R195). -/
def State.barrierOwner (s : State) (l t scope : Nat) : Nat :=
  if scope = 1 then t
  else if scope = 2 then t / (s.packet l).qsize
  else if scope = 3 then (s.coreOf l t).die
  else 0

/-- Whether a team belongs to a barrier's owner. -/
def State.ownedBy (s : State) (l scope owner t : Nat) : Bool := s.barrierOwner l t scope == owner

/-- The live threads of an owner: the default of E (R195). -/
def State.liveOf (s : State) (l scope owner : Nat) : Nat :=
  (s.threads.filter (fun x => x.live && x.id.launch == l && s.ownedBy l scope owner x.id.team)).length

def Barrier.is (b : Barrier) (l scope owner id : Nat) : Bool :=
  b.launch == l && b.scope == scope && b.owner == owner && b.id == id

/-- The barrier in use under a key. -/
def State.barrier? (s : State) (l scope owner id : Nat) : Option Barrier :=
  s.barriers.find? (fun b => b.is l scope owner id)

/-- Puts a barrier in place. -/
def State.setBarrier (s : State) (b : Barrier) : State :=
  { s with barriers := upsert (fun x => x.is b.launch b.scope b.owner b.id) b s.barriers }

/-- The core that keeps a core or quad barrier: the team's, or that of QRANK 0 (R195). -/
def State.keeper (s : State) (l scope owner : Nat) : CoreId :=
  s.coreOf l (if scope = 2 then owner * (s.packet l).qsize else owner)

/-- Whether a barrier stands in an entry of a core's Eyelet table (R199). -/
def Barrier.inTable (b : Barrier) (k : CoreId) : Bool := decide (b.scope ≤ 2) && !b.spilled && b.core == k

/-- The lowest free entry of a core's Eyelet table of 64 (R199). -/
def State.eyeletFree (s : State) (k : CoreId) : Option Nat :=
  (List.range 64).find? (fun i => !(s.barriers.any (fun b => b.inTable k && b.entry == i)))

/-- A use of a barrier: the state with its entry in place, or none where the entry is spilled or the table is full
(R199, R289). -/
def State.useBarrier (s : State) (l scope owner id : Nat) : Option State :=
  match s.barrier? l scope owner id with
  | some b => if b.spilled then none else some s
  | none =>
    let k := s.keeper l scope owner
    if 2 < scope then some (s.setBarrier ⟨launchVf l, l, scope, owner, id, none, 0, 0, k, 0, false, []⟩)
    else match s.eyeletFree k with
      | none => none
      | some i => some (s.setBarrier ⟨launchVf l, l, scope, owner, id, none, 0, 0, k, i, false, []⟩)

/-- The stored entry of a barrier is read (R328). -/
def State.useEyelet (s : State) (l scope owner id : Nat) : State :=
  match s.barrier? l scope owner id with
  | none => s
  | some b => s.useStored b.vf b.core (fun f => match f with
      | .eyelet k e _ => b.inTable k && e == b.entry
      | _ => false)

/-- The group of several packages whose pod barrier a barrier is (R304). -/
def State.groupOf (s : State) (b : Barrier) : Option (Nat × Nat) :=
  if b.scope = 5 then (s.launch? b.launch).bind (fun x => x.group) else none

/-- E: the value set, or the default: the owner's live threads, of a launch group those of every member (R195 to R197, R304). The other
members' stand in a free value: one package is modelled. DESIGN CHOICE (log entry 27). -/
def State.expected (s : State) (b : Barrier) : Nat :=
  b.e.getD (s.liveOf b.launch b.scope b.owner + match s.groupOf b with
    | some g => Config.groupLive g.1 g.2 s.cycle
    | none => 0)

/-- C, with what the messages of a group's other members have brought (R304). DESIGN CHOICE (log entry 27). -/
def State.arrived (s : State) (b : Barrier) : Nat :=
  b.c + match s.groupOf b with
    | some g => Config.groupArrived g.1 g.2 b.id b.phase s.cycle
    | none => 0

/-- The barrier a thread is blocked at (at die scope that of the die it arrived on, wherever its team has been restored since: R195), and whether it waits there for a phase that is over. -/
def State.barrierOf (s : State) (t : Thread) : Option Barrier :=
  match t.phase with
  | .barrier sc id _ => s.barrier? t.id.launch sc t.barOwner id
  | _ => none
def State.phaseOver (s : State) (t : Thread) : Bool :=
  match t.phase with
  | .barrier _ _ (some n) => match s.barrierOf t with
    | some b => b.phase != n
    | none => true
  | _ => false

/-- The scope a thread blocked at a barrier waits at. -/
def Phase.scope : Phase → Nat
  | .barrier sc _ _ => sc
  | _ => 0

/-- The die of a thread released by a barrier of package scope or wider knows of the writes its arrivals knew of (R198, R297). -/
def State.learn (s : State) (t : Thread) : State :=
  match s.barrierOf t with
  | none => s
  | some b =>
    if b.scope < 4 then s else
    let x := s.die (s.coreOf t.id.launch t.id.team).die
    s.setDie { x with h := vmax x.h b.clock }

/-- A thread whose phase is over leaves once its acquire may complete: leaving acts as an acquire fence of the scope (R196, R198). -/
def State.leaveBarrier (s : State) (t : Thread) : State :=
  let s := s.learn t
  if s.acquireReady t.id t.phase.scope then (s.acquireActs t.id.launch t.id.team t.phase.scope).advanceThread t.id else s

/-- Releases every thread whose phase is over. A thread whose team is saved leaves when it is restored (R288). -/
def State.barrierLeave (s : State) : State :=
  (s.threads.filter (fun t => s.phaseOver t && (match s.team? t.id.launch t.id.team with
    | some tm => tm.st != .swapped
    | none => true))).foldl State.leaveBarrier s

/-- Completes a barrier's phase where C ≥ 1 and C ≥ E, and releases its waiters (R196). -/
def State.checkBarrier (s : State) (l scope owner id : Nat) : State :=
  match s.barrier? l scope owner id with
  | none => s
  | some b =>
    if 1 ≤ s.arrived b && s.expected b ≤ s.arrived b then
      (s.setBarrier { b with c := 0, phase := (b.phase + 1) % 65536 }).barrierLeave
    else s

/-- An arrival of a thread on a barrier is still on its way. -/
def State.arriving (s : State) (t : ThreadId) (scope owner id : Nat) : Bool :=
  s.arrivals.any (fun x => x.t == some t && x.scope == scope && x.owner == owner && x.bar == id)

/-- The phase noted at a thread's last arrival on a barrier (R195, R196). -/
def Thread.noted (t : Thread) (scope owner id : Nat) : Option Nat :=
  (t.arrivals.find? (fun y => y.1 == scope && y.2.1 == id && y.2.2.1 == owner)).map (fun y => y.2.2.2)

/-- An arrival is counted: the arriving thread notes the phase, and waits for it where no later arrival of its own is on its way; C
rises; the phase may complete (R195, R196). -/
def State.countArrival (s : State) (l scope owner id : Nat) (t : Option ThreadId) (clock : List Nat) : State :=
  match s.barrier? l scope owner id with
  | none => s
  | some b =>
    let s := match t with
      | none => s
      | some t =>
        let last := !s.arriving t scope owner id
        s.modThread t (fun x =>
          { x with arrivals := upsert (fun y => y.1 == scope && y.2.1 == id && y.2.2.1 == owner) (scope, id, owner, b.phase) x.arrivals,
                   phase := match x.phase with
                     | .barrier sc i none => if last && sc == scope && i == id && x.barOwner == owner then .barrier sc i (some b.phase) else x.phase
                     | p => p })
    (s.setBarrier { b with c := (b.c + 1) % 2 ^ 24, clock := vmax b.clock clock }).checkBarrier l scope owner id

/-- Sends an arrival of the thread in turn on its way to the barrier's keeper. -/
def State.sendArrival (s : State) (scope owner id : Nat) : State :=
  let t := s.cur.id
  let d := s.die s.curCore.die
  { s with nextId := s.nextId + 1, arrivals := s.arrivals ++ [⟨s.nextId, t.launch, scope, owner, id, some t, vmax d.h d.v⟩] }

/-- What names a barrier in the record of a use that waits for its entry. -/
def spillKey (scope owner id : Nat) : Nat × Nat := (scope + 8 * id, owner)

/-- A thread's use of a barrier has its record already (R289). -/
def State.spillPending (s : State) (t : ThreadId) (key : Nat × Nat) : Bool :=
  s.records.any (fun r => r.kind == 6 && r.launch == t.launch && r.team == t.team && r.thread == t.lin && r.stop == key)

/-- The BARSPILL record of a thread's use of a barrier, with its permit (R276, R278, R289). -/
def State.spillRecord (s : State) (k : CoreId) (t : ThreadId) (key : Nat × Nat) : State :=
  let r := s.nextId
  let s := (s.takePermit k).addRecord (launchVf t.launch) (Config.recordVa s.nextId) t 6 15 k
  { s with records := s.records.map (fun (x : FRec) => if x.rid == r then { x with stop := key } else x) }

/-- A use of the thread in turn that finds no entry raises BARSPILL once and waits with stall reason 3; without a permit
it backs off (R199, R276, R289). DEDUCED (log entry 24). -/
def State.barSpill (s : State) (scope owner id : Nat) : State :=
  let k := s.curCore
  let key := spillKey scope owner id
  if s.spillPending s.cur.id key then s.parkCur (.stalled 3)
  else if s.permitFree k then
    let s := s.spillRecord k s.cur.id key
    s.setCur { s.cur.enter (.stalled 3) s.cycle with backoffLen := 64 }
  else s.setCur (s.cur.backOff s.cycle)

/-- A barrier's entry is in place: the records of the uses that waited for it go, one still to be written once it is (R289). -/
def State.endSpill (s : State) (l scope owner id : Nat) : State :=
  let mine (r : FRec) : Bool := r.kind == 6 && r.launch == l && r.stop == spillKey scope owner id
  { s with records := (s.records.filter (fun r => !(mine r && r.seq.isSome))).map (fun r =>
      if mine r then { r with stop := (0, 0) } else r) }

/-- The die barriers of a launch that a team has left, restored on another die, may complete without it (R195 to R197). -/
def State.checkDies (s : State) (l : Nat) : State :=
  (s.barriers.filter (fun b => b.launch == l && b.scope == 3 && b.e.isNone)).foldl
    (fun s b => s.checkBarrier b.launch b.scope b.owner b.id) s

/-- The barriers that an exit of a thread of this team may complete: those of its owners with the default E (R197). -/
def State.exitBarriers (s : State) (l t : Nat) : State :=
  (s.barriers.filter (fun b => b.launch == l && b.e.isNone && s.ownedBy l b.scope b.owner t)).foldl
    (fun s b => s.checkBarrier b.launch b.scope b.owner b.id) s

end Sys2Proof.Machine
end

