-- ==== Sys2Proof/Machine/Float.lean ====
section
/-! DEFINITION. The four floating-point formats (R27) and every operation on them: an operand is read as
an exact number, the operation is computed exactly (or to an interval, for the two functions whose values
are irrational), and the result is rounded once (R28 to R30, R84 to R96). Flags are NX, UF, OF, DZ, NV in
bits 0 to 4 (R20). -/

namespace Sys2Proof.Machine

/-- A format: the widths of its exponent and fraction fields (R27). -/
structure Fmt where
  ew : Nat
  fw : Nat
  deriving DecidableEq, Repr

def f16 : Fmt := ⟨5, 10⟩
def bf16 : Fmt := ⟨8, 7⟩
def f32 : Fmt := ⟨8, 23⟩
def f64 : Fmt := ⟨11, 52⟩

def Fmt.bias (f : Fmt) : Nat := 2 ^ (f.ew - 1) - 1
def Fmt.infBits (f : Fmt) : Nat := (2 ^ f.ew - 1) * 2 ^ f.fw
def Fmt.nanBits (f : Fmt) : Nat := f.infBits + 2 ^ (f.fw - 1)
def Fmt.signBit (f : Fmt) : Nat := 2 ^ (f.ew + f.fw)
/-- The exponent of the unit in the last place of a subnormal. -/
def Fmt.qmin (f : Fmt) : Int := 1 - (f.bias : Int) - f.fw

/-- A value: NaN (signalling or quiet), ±∞, or the finite (−1)^neg × m × 2^e. -/
inductive FVal where
  | nan (sig : Bool)
  | inf (neg : Bool)
  | fin (neg : Bool) (m : Nat) (e : Int)
  deriving DecidableEq, Repr

/-- Reading a format (R27). -/
def Fmt.read (f : Fmt) (x : Nat) : FVal :=
  let neg := x / f.signBit % 2 == 1
  let ex := x / 2 ^ f.fw % 2 ^ f.ew
  let fr := x % 2 ^ f.fw
  if ex = 2 ^ f.ew - 1 then (if fr = 0 then .inf neg else .nan (fr / 2 ^ (f.fw - 1) == 0))
  else if ex = 0 then .fin neg fr f.qmin
  else .fin neg (2 ^ f.fw + fr) (f.qmin + ex - 1)

/-- A result with the flags it raises. -/
structure FRes where
  bits  : Nat
  flags : BitVec 5
  deriving DecidableEq, Repr

def fNX : BitVec 5 := 1
def fUF : BitVec 5 := 2
def fOF : BitVec 5 := 4
def fDZ : BitVec 5 := 8
def fNV : BitVec 5 := 16

def Fmt.zero (f : Fmt) (neg : Bool) : Nat := if neg then f.signBit else 0
def Fmt.infinity (f : Fmt) (neg : Bool) : Nat := f.infBits + f.zero neg

/-- The canonical NaN, with NV where `nv` (R29). -/
def Fmt.nan (f : Fmt) (nv : Bool) : FRes := ⟨f.nanBits, if nv then fNV else 0⟩

/-- Whether rounding in mode `rm` (0 RNE, 1 RTZ, 2 up, 3 down) takes the next magnitude: `odd` the parity
of the truncated one, `cmp` the remainder against one half (`lt` also for 0, with `inexact` telling). -/
def roundUp (rm : BitVec 2) (neg odd inexact : Bool) (cmp : Ordering) : Bool :=
  if rm == 0 then cmp == .gt || (cmp == .eq && odd)
  else if rm == 1 then false
  else if rm == 2 then inexact && !neg
  else inexact && neg

/-- Rounds m + (a fraction below 1 that is non-zero exactly where `sticky`), times 2^e, to a multiple of
2^q: the multiple, and whether it is inexact. -/
def roundAt (rm : BitVec 2) (neg : Bool) (m : Nat) (e : Int) (sticky : Bool) (q : Int) : Nat × Bool :=
  if q ≤ e then (m * 2 ^ (e - q).toNat, sticky)
  else
    let s := (q - e).toNat
    let hi := m / 2 ^ s
    let rem := m % 2 ^ s
    let half := 2 ^ (s - 1)
    let inexact := rem != 0 || sticky
    let cmp := if rem < half then Ordering.lt else if rem == half && !sticky then .eq else .gt
    (if roundUp rm neg (hi % 2 == 1) inexact cmp then hi + 1 else hi, inexact)

/-- The largest finite magnitude's bits. -/
def Fmt.maxBits (f : Fmt) : Nat := f.infBits - 1

/-- What overflow delivers (R30). -/
def Fmt.overflow (f : Fmt) (rm : BitVec 2) (neg : Bool) : Nat :=
  (if rm == 0 || (rm == 2 && !neg) || (rm == 3 && neg) then f.infBits else f.maxBits) + f.zero neg

/-- Rounds an exact non-zero magnitude (as in `roundAt`) once to a format, with OF, UF and NX (R28, R30). A
caller that says `sticky` gives m at least two bits more than the format's precision. -/
def Fmt.round (f : Fmt) (rm : BitVec 2) (neg : Bool) (m : Nat) (e : Int) (sticky : Bool) : FRes :=
  if m = 0 then ⟨f.zero neg, 0⟩ else
  let q := e + (m.log2 : Int) - f.fw
  let (ru, _) := roundAt rm neg m e sticky q
  let tiny := q < f.qmin && !(q + 1 == f.qmin && ru == 2 ^ (f.fw + 1))
  let qd := if q < f.qmin then f.qmin else q
  let (r, inexact) := roundAt rm neg m e sticky qd
  let (r, qd) := if r = 2 ^ (f.fw + 1) then (2 ^ f.fw, qd + 1) else (r, qd)
  let ex := if r < 2 ^ f.fw then 0 else (qd - f.qmin + 1).toNat
  if 2 ^ f.ew - 1 ≤ ex then ⟨f.overflow rm neg, fOF ||| fNX⟩
  else ⟨f.zero neg + (if ex = 0 then r else ex * 2 ^ f.fw + (r - 2 ^ f.fw)),
        (if inexact then fNX else 0) ||| (if tiny && inexact then fUF else 0)⟩

/-- Rounds an exact signed integer times 2^e; an exact zero takes the sign given. -/
def Fmt.roundInt (f : Fmt) (rm : BitVec 2) (zneg : Bool) (v : Int) (e : Int) : FRes :=
  if v = 0 then ⟨f.zero zneg, 0⟩ else f.round rm (v < 0) v.natAbs e false

/-- (−1)^neg × m as an integer. -/
def signed (neg : Bool) (m : Nat) : Int := if neg then -(m : Int) else m

def FVal.isSig : FVal → Bool
  | .nan sig => sig
  | _ => false

def FVal.isNan : FVal → Bool
  | .nan _ => true
  | _ => false

def FVal.neg : FVal → FVal
  | .nan s => .nan s
  | .inf n => .inf (!n)
  | .fin n m e => .fin (!n) m e

/-- The sign of an exact zero sum (R84). -/
def zeroSum (rm : BitVec 2) (na nb : Bool) : Bool := if na == nb then na else rm == 3

/-- The sum of two finite numbers. -/
def Fmt.addFin (f : Fmt) (rm : BitVec 2) (na : Bool) (ma : Nat) (ea : Int) (nb : Bool) (mb : Nat) (eb : Int) : FRes :=
  if ma = 0 && mb = 0 then ⟨f.zero (zeroSum rm na nb), 0⟩
  else
    let e := min ea eb
    f.roundInt rm (rm == 3)
      (signed na (ma * 2 ^ (ea - e).toNat) + signed nb (mb * 2 ^ (eb - e).toNat)) e

/-- Addition (R84, R85). -/
def Fmt.addV (f : Fmt) (rm : BitVec 2) (a b : FVal) : FRes :=
  match a, b with
  | .nan s, y => f.nan (s || y.isSig)
  | x, .nan s => f.nan (s || x.isSig)
  | .inf na, .inf nb => if na == nb then ⟨f.infinity na, 0⟩ else f.nan true
  | .inf na, .fin _ _ _ => ⟨f.infinity na, 0⟩
  | .fin _ _ _, .inf nb => ⟨f.infinity nb, 0⟩
  | .fin na ma ea, .fin nb mb eb => f.addFin rm na ma ea nb mb eb

def Fmt.add (f : Fmt) (rm : BitVec 2) (a b : Nat) : FRes := f.addV rm (f.read a) (f.read b)
def Fmt.sub (f : Fmt) (rm : BitVec 2) (a b : Nat) : FRes := f.addV rm (f.read a) (f.read b).neg

/-- Multiplication (R84, R85). -/
def Fmt.mul (f : Fmt) (rm : BitVec 2) (a b : Nat) : FRes :=
  match f.read a, f.read b with
  | .nan s, y => f.nan (s || y.isSig)
  | x, .nan s => f.nan (s || x.isSig)
  | .inf na, .inf nb => ⟨f.infinity (na != nb), 0⟩
  | .inf na, .fin nb m _ => if m = 0 then f.nan true else ⟨f.infinity (na != nb), 0⟩
  | .fin na m _, .inf nb => if m = 0 then f.nan true else ⟨f.infinity (na != nb), 0⟩
  | .fin na ma ea, .fin nb mb eb =>
    if ma * mb = 0 then ⟨f.zero (na != nb), 0⟩ else f.round rm (na != nb) (ma * mb) (ea + eb) false

/-- The exact product of two values that are not NaN, none where it is 0 × ∞. -/
def mulV (a b : FVal) : Option FVal :=
  match a, b with
  | .fin na ma ea, .fin nb mb eb => some (.fin (na != nb) (ma * mb) (ea + eb))
  | .inf na, .inf nb => some (.inf (na != nb))
  | .inf na, .fin nb m _ => if m = 0 then none else some (.inf (na != nb))
  | .fin na m _, .inf nb => if m = 0 then none else some (.inf (na != nb))
  | x, _ => some x

/-- d + a × b with one rounding (R84, R85). -/
def Fmt.fma (f : Fmt) (rm : BitVec 2) (d a b : Nat) : FRes :=
  let x := f.read a
  let y := f.read b
  let z := f.read d
  let sig := x.isSig || y.isSig || z.isSig
  if x.isNan || y.isNan then f.nan sig
  else match mulV x y with
    | none => f.nan true
    | some p => if z.isNan then f.nan sig else f.addV rm p z

/-- Division of finite non-zero magnitudes. -/
def Fmt.divFin (f : Fmt) (rm : BitVec 2) (neg : Bool) (ma : Nat) (ea : Int) (mb : Nat) (eb : Int) : FRes :=
  let k := f.fw + 4 + mb.log2
  let n := ma * 2 ^ k
  f.round rm neg (n / mb) (ea - eb - k) (n % mb != 0)

/-- Division (R84, R85). -/
def Fmt.div (f : Fmt) (rm : BitVec 2) (a b : Nat) : FRes :=
  match f.read a, f.read b with
  | .nan s, y => f.nan (s || y.isSig)
  | x, .nan s => f.nan (s || x.isSig)
  | .inf _, .inf _ => f.nan true
  | .inf na, .fin nb _ _ => ⟨f.infinity (na != nb), 0⟩
  | .fin na _ _, .inf nb => ⟨f.zero (na != nb), 0⟩
  | .fin na ma ea, .fin nb mb eb =>
    if mb = 0 then (if ma = 0 then f.nan true else ⟨f.infinity (na != nb), fDZ⟩)
    else if ma = 0 then ⟨f.zero (na != nb), 0⟩
    else f.divFin rm (na != nb) ma ea mb eb

/-- The greatest number from r to r + 2^k − 1 of which `le` holds, which holds of r and, past some number, no more: bit by bit. -/
def floorBits (le : Nat → Bool) : Nat → Nat → Nat
  | 0, r => r
  | k + 1, r => if le (r + 2 ^ k) then floorBits le k (r + 2 ^ k) else floorBits le k r

/-- ⌊√n⌋. -/
def isqrt (n : Nat) : Nat := floorBits (fun r => decide (r * r ≤ n)) (n.log2 / 2 + 1) 0

/-- Square root (R85, R86). -/
def Fmt.sqrt (f : Fmt) (rm : BitVec 2) (a : Nat) : FRes :=
  match f.read a with
  | .nan s => f.nan s
  | .inf neg => if neg then f.nan true else ⟨f.infinity false, 0⟩
  | .fin neg m e =>
    if m = 0 then ⟨f.zero neg, 0⟩
    else if neg then f.nan true
    else
      let k := 2 * (f.fw + 4) + (e % 2).toNat
      let n := m * 2 ^ k
      let r := isqrt n
      f.round rm false r ((e - k) / 2) (r * r != n)

/-- Reciprocal square root (R85, R86). -/
def Fmt.rsqrt (f : Fmt) (rm : BitVec 2) (a : Nat) : FRes :=
  match f.read a with
  | .nan s => f.nan s
  | .inf neg => if neg then f.nan true else ⟨f.zero false, 0⟩
  | .fin neg m e =>
    if m = 0 then ⟨f.infinity neg, fDZ⟩
    else if neg then f.nan true
    else
      let k0 := m.log2 + 2 * (f.fw + 4)
      let k := k0 + ((e + k0) % 2).toNat
      let r := isqrt (2 ^ k / m)
      f.round rm false r ((-e - k) / 2) (r * r * m != 2 ^ k)

/-! ### The two irrational functions: fixed point with 256 fraction bits -/

/-- The fraction bits of the intervals below, and the error bound both stay within, in the last place. -/
def fixBits : Nat := 256
def fixErr : Nat := 65536

/-- Σ t^(2k+1)/(2k+1) for k below `n` from the term `pow`: the series of atanh in fixed point. -/
def atanhSum (t2 : Nat) : Nat → Nat → Nat → Nat
  | 0, _, _ => 0
  | n + 1, pow, k => pow / (2 * k + 1) + atanhSum t2 n (pow * t2 / 2 ^ fixBits) (k + 1)

/-- ln(num/den) in fixed point, for 1 ≤ num/den ≤ 2, as 2 atanh((num − den)/(num + den)). -/
def lnFix (num den : Nat) : Nat :=
  let t := (num - den) * 2 ^ fixBits / (num + den)
  2 * atanhSum (t * t / 2 ^ fixBits) 90 t 0

/-- Σ y^k/k! for k from the index given: the series of the exponential in fixed point. -/
def expSum (y : Nat) : Nat → Nat → Nat → Nat
  | 0, _, _ => 0
  | n + 1, term, k => term + expSum y n (term * y / (2 ^ fixBits * (k + 1))) (k + 1)

/-- a^n × 2^j ≤ b^m × 2^k. -/
def powLe (a n j b m k : Nat) : Bool := decide (a ^ n * 2 ^ j ≤ b ^ m * 2 ^ k)

/-- Rounds an irrational magnitude known to lie within `fixErr` of c × 2^e, c large: where both ends do not round alike, `le` says
exactly of a number whether the magnitude is at least that many times 2^e (R28). -/
def Fmt.roundNear (f : Fmt) (rm : BitVec 2) (neg : Bool) (c : Nat) (e : Int) (le : Nat → Bool) : FRes :=
  let lo := f.round rm neg (c - fixErr) e true
  let hi := f.round rm neg (c + fixErr) e true
  if lo == hi then lo else f.round rm neg (floorBits le 17 (c - fixErr)) e true

/-- 2^x of an f32 (R85, R86). Outside ±1,024 the result overflows or is below every subnormal. How it is computed is log entry 17 (DEDUCED). -/
def exp2F32 (rm : BitVec 2) (a : Word) : FRes :=
  match f32.read a.toNat with
  | .nan s => f32.nan s
  | .inf neg => if neg then ⟨0, 0⟩ else ⟨f32.infBits, 0⟩
  | .fin neg m e =>
    if m = 0 then ⟨0x3F800000, 0⟩
    else if 10 < e + (m.log2 : Int) then f32.round rm false 1 (if neg then -2000 else 2000) false
    else
      -- x as a fixed-point integer with 149 fraction bits, split into integer and fraction
      let x := signed neg (m * 2 ^ (e + 149).toNat)
      let n := x / 2 ^ 149
      let fr := (x % 2 ^ 149).toNat
      if fr = 0 then f32.round rm false 1 n false
      else
        let y := fr * lnFix 2 1 / 2 ^ 149
        -- i / 2^256 ≤ 2^(fr / 2^149)
        f32.roundNear rm false (expSum y 70 (2 ^ fixBits) 0) (n - fixBits) (fun i => powLe i (2 ^ 149) 0 1 0 (fr + fixBits * 2 ^ 149))

/-- log₂ of an f32 (R85, R86). How it is computed is log entry 17 (DEDUCED). -/
def log2F32 (rm : BitVec 2) (a : Word) : FRes :=
  match f32.read a.toNat with
  | .nan s => f32.nan s
  | .inf neg => if neg then f32.nan true else ⟨f32.infBits, 0⟩
  | .fin neg m e =>
    if m = 0 then ⟨f32.infinity true, fDZ⟩
    else if neg then f32.nan true
    else
      let k : Int := e + m.log2
      if m = 2 ^ m.log2 then f32.roundInt rm false k 0
      else
        let v : Int := k * 2 ^ fixBits + (lnFix m (2 ^ m.log2) * 2 ^ fixBits / lnFix 2 1 : Nat)
        let w := 2 ^ fixBits
        let up := e.toNat * w
        let down := (-e).toNat * w
        -- i / 2^256 ≤ |log₂ x|, where x^(2^256) is m^w × 2^up / 2^down
        f32.roundNear rm (v < 0) v.natAbs (-fixBits) (fun i => if v < 0 then powLe m w (i + up) 1 0 down else powLe 1 0 (i + down) m w up)

/-! ### Comparison, minimum and maximum, class -/

/-- Whether a finite value is below another. -/
def ltFin (na : Bool) (ma : Nat) (ea : Int) (nb : Bool) (mb : Nat) (eb : Int) : Bool :=
  let e := min ea eb
  decide (signed na (ma * 2 ^ (ea - e).toNat) < signed nb (mb * 2 ^ (eb - e).toNat))

/-- a < b; a NaN holds no relation (R89). -/
def FVal.lt : FVal → FVal → Bool
  | .nan _, _ => false
  | _, .nan _ => false
  | .inf na, .inf nb => na && !nb
  | .inf na, .fin _ _ _ => na
  | .fin _ _ _, .inf nb => !nb
  | .fin na ma ea, .fin nb mb eb => ltFin na ma ea nb mb eb

/-- a = b; a NaN holds no relation, −0 equals +0 (R89). -/
def FVal.eq (a b : FVal) : Bool := !a.isNan && !b.isNan && !a.lt b && !b.lt a

/-- The comparisons of R89: the truth value, and NV for a signalling NaN, or for any NaN where `quiet`
is false. -/
def Fmt.compare (f : Fmt) (rel : FVal → FVal → Bool) (quiet : Bool) (a b : Nat) : Bool × BitVec 5 :=
  let x := f.read a
  let y := f.read b
  (rel x y, if x.isSig || y.isSig || (!quiet && (x.isNan || y.isNan)) then fNV else 0)

/-- The sign of a value that is a number. -/
def FVal.negative : FVal → Bool
  | .nan _ => false
  | .inf n => n
  | .fin n _ _ => n

/-- Minimum (`mx` false) and maximum of R87: −0 lies below +0, a number beats a NaN. -/
def Fmt.minMax (f : Fmt) (mx : Bool) (a b : Nat) : FRes :=
  let x := f.read a
  let y := f.read b
  let fl : BitVec 5 := if x.isSig || y.isSig then fNV else 0
  if x.isNan && y.isNan then ⟨f.nanBits, fl⟩
  else if x.isNan then ⟨b, fl⟩
  else if y.isNan then ⟨a, fl⟩
  else
    let below := x.lt y || (!y.lt x && x.negative && !y.negative)
    ⟨if below != mx then a else b, fl⟩

/-- FCLASS (R88). -/
def classF32 (a : Word) : Word :=
  let c : Nat := match f32.read a.toNat with
    | .nan sig => if sig then 5 else 4
    | .inf _ => 3
    | .fin _ m _ => if m = 0 then 0 else if m < 2 ^ 23 then 1 else 2
  BitVec.ofNat 32 (c + if a.getLsbD 31 then 16 else 0)

/-- FABS and FNEG: only a NaN is not a bit operation (R85). -/
def signOp (a v : Word) : FRes :=
  match f32.read a.toNat with
  | .nan s => f32.nan s
  | _ => ⟨v.toNat, 0⟩

/-! ### Rounding to an integral value, conversions -/

/-- A finite value rounded to an integer in a mode, and whether it is inexact. -/
def toIntegral (rm : BitVec 2) (neg : Bool) (m : Nat) (e : Int) : Int × Bool :=
  let (r, x) := roundAt rm neg m e false 0
  (signed neg r, x)

/-- FRINT and DRINT (R85, R90): the sign of the input is kept. -/
def Fmt.rint (f : Fmt) (rm : BitVec 2) (a : Nat) : FRes :=
  match f.read a with
  | .nan s => f.nan s
  | .inf _ => ⟨a, 0⟩
  | .fin neg m e =>
    let (r, x) := roundAt rm neg m e false 0
    ⟨if r = 0 then f.zero neg else (f.round rm neg r 0 false).bits, if x then fNX else 0⟩

/-- Conversion of one format to another, the exact value rounded once (R92, R94). -/
def convert (src dst : Fmt) (rm : BitVec 2) (a : Nat) : FRes :=
  match src.read a with
  | .nan s => dst.nan s
  | .inf neg => ⟨dst.infinity neg, 0⟩
  | .fin neg m e => dst.round rm neg m e false

/-- Conversion of a value to an integer of range [lo, hi] (R93). -/
def FVal.toInt (v : FVal) (rm : BitVec 2) (lo hi : Int) : Int × BitVec 5 :=
  match v with
  | .nan _ => (0, fNV)
  | .inf neg => (if neg then lo else hi, fNV)
  | .fin neg m e =>
    let (r, x) := toIntegral rm neg m e
    if r < lo then (lo, fNV) else if hi < r then (hi, fNV) else (r, if x then fNX else 0)

/-- Conversion of a value times 2^k (QNT.n8, R96). -/
def FVal.scale (v : FVal) (k : Int) : FVal :=
  match v with
  | .fin neg m e => .fin neg m (e + k)
  | x => x

/-- Two packed halves computed apart, with the union of their flags (R91). -/
def packed (g : Nat → Nat → Nat → FRes) (d a b : Word) : Word × BitVec 5 :=
  let lo := g (d.toNat % 65536) (a.toNat % 65536) (b.toNat % 65536)
  let hi := g (d.toNat / 65536) (a.toNat / 65536) (b.toNat / 65536)
  (BitVec.ofNat 32 (lo.bits + 65536 * hi.bits), lo.flags ||| hi.flags)

end Sys2Proof.Machine
end

