-- ==== Sys2Proof/Machine/Flags.lean ====
section
/-! DEFINITION. The sticky flags (R20): an instruction only ever sets them. -/

namespace Sys2Proof.Machine

/-- INTFLAGS.DZ and INTFLAGS.OV (R20). -/
def iDZ : BitVec 2 := 1
def iOV : BitVec 2 := 2

/-- Sets floating-point flags of a thread. -/
def Thread.fpRaise (t : Thread) (fl : BitVec 5) : Thread := { t with fpflags := t.fpflags ||| fl }

/-- Sets integer flags of a thread. -/
def Thread.intRaise (t : Thread) (fl : BitVec 2) : Thread := { t with intflags := t.intflags ||| fl }

/-- A fixed-latency word that writes registers from `d` on and sets floating-point flags. -/
def State.fpResult (s : State) (d : Reg) (vs : List Word) (fl : BitVec 5) : State :=
  (s.setCur ((s.cur.put d vs).fpRaise fl)).advance

/-- A fixed-latency word that writes registers from `d` on and sets integer flags. -/
def State.intResult (s : State) (d : Reg) (vs : List Word) (fl : BitVec 2) : State :=
  (s.setCur ((s.cur.put d vs).intRaise fl)).advance

/-- The one-word and two-word results of a floating-point operation. -/
def FRes.word (r : FRes) : List Word := [BitVec.ofNat 32 r.bits]
def FRes.pair (r : FRes) : List Word := pairWords (BitVec.ofNat 64 r.bits)

/-- Quotient, remainder and flag of a signed division (R66). -/
def divSigned (a b : Word) : Word × Word × BitVec 2 :=
  if b = 0 then (0xFFFFFFFF, a, iDZ)
  else if a = 0x80000000 ∧ b = 0xFFFFFFFF then (0x80000000, 0, iOV)
  else (BitVec.ofInt 32 (a.toInt.tdiv b.toInt), BitVec.ofInt 32 (a.toInt.tmod b.toInt), 0)

/-- Quotient, remainder and flag of a natural division (R66). -/
def divNatural (a b : Word) : Word × Word × BitVec 2 :=
  if b = 0 then (0xFFFFFFFF, a, iDZ)
  else (BitVec.ofNat 32 (a.toNat / b.toNat), BitVec.ofNat 32 (a.toNat % b.toNat), 0)

end Sys2Proof.Machine
end

