-- ==== Sys2Proof/Machine/Atomic.lean ====
section
/-! DEFINITION. The ATOM words (major 9) and their performance: R183, R185 to R187, R346. -/

namespace Sys2Proof.Machine

/-- The access size of an operation (R185). -/
def AtomOp.size : AtomOp → Nat
  | .add64 => 8
  | .xchg64 => 8
  | .cas64 => 8
  | .fadd64 => 8
  | _ => 4

/-- The new value at the place of performance, from the old one and the operands (R186, R193): `b` is B (for ACAS its
low word the compare value and its high word the new one, for ACAS64 the compare pair, and `c` the new pair). -/
def AtomOp.apply (op : AtomOp) (m b c : DWord) : DWord :=
  let mw := DWord.lo m
  let bw := DWord.lo b
  match op with
  | .add => (mw + bw).zeroExtend 64
  | .add64 => m + b
  | .minS => (if bw.slt mw then bw else mw).zeroExtend 64
  | .minN => (if bw.ult mw then bw else mw).zeroExtend 64
  | .maxS => (if mw.slt bw then bw else mw).zeroExtend 64
  | .maxN => (if mw.ult bw then bw else mw).zeroExtend 64
  | .and => (mw &&& bw).zeroExtend 64
  | .or => (mw ||| bw).zeroExtend 64
  | .xor => (mw ^^^ bw).zeroExtend 64
  | .xchg => bw.zeroExtend 64
  | .xchg64 => b
  | .cas => (if mw = bw then DWord.hi b else mw).zeroExtend 64
  | .cas64 => if m = b then c else m
  | .fadd => BitVec.ofNat 64 (f32.add 0 mw.toNat bw.toNat).bits
  | .fadd64 => BitVec.ofNat 64 (f64.add 0 m.toNat b.toNat).bits
  | .incw => (if bw.ule mw then 0 else mw + 1).zeroExtend 64

/-- Whether an atomic on a global address is performed in the core's L1 (R183, R187), and whether at the home slice. -/
def atomL1 (g : GAddr) (scope : Nat) : Bool := scope == 0 && decide (2 ≤ g.cache) && !g.repl && !g.checked
def atomHome (g : GAddr) (scope : Nat) : Bool := decide (2 ≤ scope) || g.repl || g.checked

/-- Whether a request performed at a home is a numbered write of the die it leaves (R295). -/
def isNumbered (g : GAddr) (d : Nat) : Bool := decide (homeOf g.pa < 24) && homeOf g.pa != d

/-- The checks of R185 on a generic address, with `det` the TRAPINFO of DETVIO: where the access goes, or the state
in which the thread stops. -/
inductive AtomPlace where
  | ok (s : State) (at_ : Place)
  | stop (s : State)

/-- Steps 1 to 7 of R185. A scratch or cluster address is refused where `global` (R189). -/
def State.atomPlace (s : State) (ea : DWord) (n : Nat) (k : AccKind) (hostOk global : Bool) (det : Nat) : AtomPlace :=
  let scr (team off : Nat) : AtomPlace :=
    if global then .stop (s.raise 0x06 1 ea)
    else if s.hatched s.cur.id.launch team off n k.writes then .stop (s.parkCur (.stalled 5))
    else if s.unorderedScr team off n then .stop (s.parkCur (.stalled 15))
    else match s.stashReady s.cur.id.launch team off n with
      | .wait s => .stop (s.parkCur (.stalled 15))
      | .ok s _ => .ok (s.bankAccess team off n) (.scr team off)
  if ea.toNat % n ≠ 0 then .stop (s.raise 0x05 n ea)
  else match aperture s.pk ea n with
    | .bad => .stop (s.raise 0x06 1 ea)
    | .scr off => scr s.cur.id.team off
    | .clu r off => scr (quadPeer s.pk s.cur.id.team r) off
    | .glob va =>
      match s.checkGlobal va n 3 k hostOk det with
      | .stop s => .stop s
      | .ok g => if s.unordered g.pa n then .stop (s.parkCur (.stalled 15)) else .ok s (.glob g)

/-- An ATOM word (R185 to R187): its entry awaits the old value, its request goes to the place of performance. -/
def atom (op : AtomOp) (w wb : Nat) (sp : Bool) (sc : BitVec 2) (d a b : Reg) (s : State) : Out :=
  issue sp true [opD d w, opA a 2, opB b wb] s (fun s =>
    let ea := s.cur.p a
    match s.atomPlace ea op.size .atomic false false 1 with
    | .stop s => s
    | .ok s pl =>
      let bv := if wb = 1 then (s.cur.w b).zeroExtend 64 else s.cur.p b
      let cv := if wb = 4 then Word.pair (s.cur.wAt b 2) (s.cur.wAt b 3) else 0
      let scope := sc.toNat
      match pl with
      | .scr _ _ => ((s.enqueue d w).request s.nextId (.atomic op scope false pl bv cv) false).advance
      | .glob g =>
        if atomL1 g scope then
          let go (s : State) : State := ((s.enqueue d w).request s.nextId (.atomic op scope true pl bv cv) false).advance
          match s.route g ea.toNat with
          | .wait s => s.parkCur (.stalled 15)
          | .stash s off => if s.unorderedScr s.cur.id.team off op.size then s.parkCur (.stalled 15) else go s
          | .mem s => go s
        else
          let home := atomHome g scope
          let s := s.writeBackRange s.curCore g op.size home
          ((s.enqueue d w).request s.nextId (.atomic op scope false pl bv cv) (home && isNumbered g s.curCore.die)).advance)

/-- AADD (R186). -/
def execAadd (sp : Bool) (sc : BitVec 2) (d a b : Reg) (s : State) : Out :=
  atom .add 1 1 sp sc d a b s

/-- AADD64 (R186). -/
def execAadd64 (sp : Bool) (sc : BitVec 2) (d a b : Reg) (s : State) : Out :=
  atom .add64 2 2 sp sc d a b s

/-- AMIN.s32 (R186). -/
def execAminS32 (sp : Bool) (sc : BitVec 2) (d a b : Reg) (s : State) : Out :=
  atom .minS 1 1 sp sc d a b s

/-- AMIN.n32 (R186). -/
def execAminN32 (sp : Bool) (sc : BitVec 2) (d a b : Reg) (s : State) : Out :=
  atom .minN 1 1 sp sc d a b s

/-- AMAX.s32 (R186). -/
def execAmaxS32 (sp : Bool) (sc : BitVec 2) (d a b : Reg) (s : State) : Out :=
  atom .maxS 1 1 sp sc d a b s

/-- AMAX.n32 (R186). -/
def execAmaxN32 (sp : Bool) (sc : BitVec 2) (d a b : Reg) (s : State) : Out :=
  atom .maxN 1 1 sp sc d a b s

/-- AAND (R186). -/
def execAand (sp : Bool) (sc : BitVec 2) (d a b : Reg) (s : State) : Out :=
  atom .and 1 1 sp sc d a b s

/-- AOR (R186). -/
def execAor (sp : Bool) (sc : BitVec 2) (d a b : Reg) (s : State) : Out :=
  atom .or 1 1 sp sc d a b s

/-- AXOR (R186). -/
def execAxor (sp : Bool) (sc : BitVec 2) (d a b : Reg) (s : State) : Out :=
  atom .xor 1 1 sp sc d a b s

/-- AXCHG (R186). -/
def execAxchg (sp : Bool) (sc : BitVec 2) (d a b : Reg) (s : State) : Out :=
  atom .xchg 1 1 sp sc d a b s

/-- AXCHG64 (R186). -/
def execAxchg64 (sp : Bool) (sc : BitVec 2) (d a b : Reg) (s : State) : Out :=
  atom .xchg64 2 2 sp sc d a b s

/-- ACAS (R186). -/
def execAcas (sp : Bool) (sc : BitVec 2) (d a b : Reg) (s : State) : Out :=
  atom .cas 1 2 sp sc d a b s

/-- ACAS64 (R186). -/
def execAcas64 (sp : Bool) (sc : BitVec 2) (d a b : Reg) (s : State) : Out :=
  atom .cas64 2 4 sp sc d a b s

/-- AFADD (R186). -/
def execAfadd (sp : Bool) (sc : BitVec 2) (d a b : Reg) (s : State) : Out :=
  atom .fadd 1 1 sp sc d a b s

/-- AFADD64 (R186). -/
def execAfadd64 (sp : Bool) (sc : BitVec 2) (d a b : Reg) (s : State) : Out :=
  atom .fadd64 2 2 sp sc d a b s

/-- AINCW (R186). -/
def execAincw (sp : Bool) (sc : BitVec 2) (d a b : Reg) (s : State) : Out :=
  atom .incw 1 1 sp sc d a b s

/-! ## Performance -/

/-- Takes a request out of flight; what waited for it tries again, and leaves a barrier for which it was the last (R196). -/
def State.dropReq (s : State) (id : Nat) : State :=
  (State.stir { s with requests := s.requests.filter (fun r => r.id != id) }).barrierLeave

/-- A die may apply a numbered write of another die at its home slice (R296). -/
def canApply (v tag : List Nat) (src : Nat) : Bool :=
  decide (tag.getD src 0 = v.getD src 0 + 1) && (List.range 24).all (fun k => k == src || decide (tag.getD k 0 ≤ v.getD k 0))

/-- Whether a request may be performed at its home slice now: on its own die at once; on another once that die's clock
covers its horizon and, for a numbered write, the write is the next to apply (R295 to R297). -/
def State.homeReady (s : State) (r : Request) (g : GAddr) : Bool :=
  let h := homeOf g.pa
  decide (24 ≤ h) || h == r.core.die ||
    (covers (s.die h).v r.hor && (r.tag.isEmpty || canApply (s.die h).v r.tag r.core.die))

/-- STSC is a pure store; every other request performed at a home reads its bytes there (R189). -/
def ReqKind.readsHome : ReqKind → Bool
  | .sc 2 _ _ _ _ => false
  | _ => true

/-- Performs a read and a write of n bytes at the home slice for a request: the new bytes are applied with the
request's tag, the die's clock moves, the reply's clock reaches the issuing die. A request that is numbered and writes nothing (a CASSC
that fails) sends its number on like any other (R295). -/
def State.homePerform (s : State) (r : Request) (g : GAddr) (n : Nat) (new : Option (List Byte)) : State :=
  let h := homeOf g.pa
  let d := r.core.die
  let s := s.stashFlush (lineOf g.pa) new.isSome
  let s := if r.kind.readsHome then (s.consumeAt g.vf r.core g.pa n).countRead g else s
  let s := match new with
    | none => if r.tag.isEmpty then s else s.forward g.line [] d r.tag
    | some bs => s.homeWrite g.line (inLine g (numbered bs)) (if r.tag.isEmpty then none else some (d, r.tag))
  let s := if r.tag.isEmpty || decide (24 ≤ h) then s else s.tick h d r.tag
  let s := if h == d then s else s.carry d h
  s.seenAtHome r.core g n

/-- The n bytes of an access that a core's L1 holds; none where one is not valid. -/
def Core.l1Bytes (c : Core) (g : GAddr) (n : Nat) : Option (List Byte) :=
  (c.l1Line (lineOf g.pa)).bind (fun ln =>
    let bs := (List.range n).filterMap (fun i => (byteAt ln.bytes (g.pa % 128 + i)).map (fun b => b.val))
    if bs.length = n then some bs else none)

/-- The bytes an atomic performed in a core's L1 finds there: the line is filled where they are not valid (R183). -/
def State.atomFindL1 (s : State) (r : Request) (g : GAddr) (n : Nat) : Tried (List Byte) :=
  let k := r.core
  let touch (s : State) : State := s.touchLine (crewOf r.t) (lineOf g.pa)
  match (s.core k).l1Bytes g n with
  | some bs => .ok (((touch s).l1Alloc k g (crewOf r.t)).consumeL1 g.vf k g.pa n) bs
  | none =>
    let s := s.stashFlush (lineOf g.pa) false
    match (touch s).wholeLine k.die g with
    | none => .wait s
    | some (s', bs) =>
      let s' := (s'.consumeAt g.vf k g.pa n).l1Fill k g (crewOf r.t) (numbered bs)
      match (s'.core k).l1Bytes g n with
      | some bs => .ok s' bs
      | none => .wait s

/-- The bytes an atomic finds where it is performed, and the state to perform it in. At core scope that is the L1, or the stash line that
the team holds of the address (R172, R179). -/
def State.atomFind (s : State) (r : Request) (l1 : Bool) (scope n : Nat) : Place → Tried (List Byte)
  | .scr t off => (s.stashTouch r.t.launch t off).andThen (fun s _ =>
      .ok (s.consumeScratch r.core r.t.launch t off n) (s.scratchBytes r.t.launch t off n))
  | .glob g =>
    if atomHome g scope then
      (if s.homeReady r g then
        let s := s.stashFlush (lineOf g.pa) true
        .ok s (s.mem.getN g.pa n) else .wait s)
    else if l1 then
      (match s.ownStash r.t.launch r.t.team g.pa with
       | some off => .ok (s.consumeScratch r.core r.t.launch r.t.team off n) (s.scratchBytes r.t.launch r.t.team off n)
       | none => s.atomFindL1 r g n)
    else
      let s := s.stashFlush (lineOf g.pa) true
      match s.wholeLine r.core.die g with
      | none => .wait s
      | some (s, bs) => .ok (s.consumeAt g.vf r.core g.pa n) ((bs.drop (g.pa % 128)).take n)

/-- Writes an atomic's new bytes where it is performed. -/
def State.atomWrite (s : State) (r : Request) (l1 : Bool) (scope : Nat) (bs : List Byte) : Place → State
  | .scr t off => s.writeScratch r.t.launch t off bs
  | .glob g =>
    if atomHome g scope then s.homePerform r g bs.length (some bs)
    else if l1 then
      (match s.ownStash r.t.launch r.t.team g.pa with
       | some off => s.writeScratch r.t.launch r.t.team off bs
       | none => s.l1Put r.core g (crewOf r.t) (inLine g (numbered bs)))
    else (s.dieWrite r.core.die g (inLine g (numbered bs))).dropStale r.core g bs.length

/-- A die-scope performance of one operation for a request: the old value, the state after. -/
def State.atomAct (s : State) (r : Request) (op : AtomOp) (l1 : Bool) (scope : Nat) (pl : Place) (b c : DWord) :
    Tried DWord :=
  (s.atomFind r l1 scope op.size pl).andThen (fun s old =>
    let m := BitVec.ofNat 64 (natOf old)
    .ok (s.atomWrite r l1 scope (bytesOf op.size (op.apply m b c).toNat) pl) m)

/-- ATOMIC_PERFORM (R186, R187, R194): an atomic or a REDTO is performed at its place. An atomic's old value goes back
to its entry, a REDTO's to the target team's scratch. -/
def execAtomicPerform (req : Nat) (s : State) : Out :=
  match s.requests.find? (fun r => r.id == req) with
  | none => .next s
  | some r =>
    match r.kind with
    | .atomic op scope l1 pl b c =>
      (match s.atomAct r op l1 scope pl b c with
       | .wait s => .next s
       | .ok s m =>
         .next ((s.dropReq req).reply req r.t (if op.size = 8 then pairWords m else [DWord.lo m])))
    | .redto op pl b off rank bar =>
      (match s.atomAct r op false 1 pl (b.zeroExtend 64) 0 with
       | .wait s => .next s
       | .ok s m =>
         let s := s.dropReq req
         .next { s with
           nextId := s.nextId + 1
           deliveries := s.deliveries ++
             [⟨s.nextId, r.t, r.t.launch, quadPeer (s.packet r.t.launch) r.t.team rank, off, DWord.lo m, bar⟩] })
    | _ => .next s

end Sys2Proof.Machine
end

