-- ==== Sys2Proof/Machine/EngineIo.lean ====
section
/-! DEFINITION. The accesses of an agent that is no thread in turn: the engines, the candidate loads, the Lacer, the copy
of LAUNCH (R217, R230, R291), the records their faults write (R276, R278), and the Crosshatch (R207 to R209). -/

namespace Sys2Proof.Machine

/-! ## Accesses -/

/-- What an access answers: the bytes; an invalid leaf at a walk level; no permission (or an address that names no
memory); or not yet. -/
inductive IoRes where
  | ok (s : State) (bs : List Byte)
  | fault (s : State) (va level : Nat)
  | deny (s : State)
  | wait (s : State)

/-- Reads n bytes of one line at its place: the home slice where `home` or the launch is checked (R213, R313), else the
die's slice, with the bytes dirty in the core's L1 taken from there (R217). -/
def State.readPlace (s : State) (k : CoreId) (g : GAddr) (n : Nat) (home : Bool) : IoRes :=
  let h := homeOf g.pa
  if g.checked || home then
    let s := s.writeBackRange k g n true
    if !s.reaches k.die h then .wait s
    else
      let s := ((if h == k.die then s else s.carry k.die h).countRead g).consumeAt g.vf k g.pa n
      .ok s (s.mem.getN g.pa n)
  else
    let s := s.stashFlush (lineOf g.pa) false
    match s.wholeLine k.die g with
    | none => .wait s
    | some (s, bs) =>
      let l1 (i : Nat) : Option CByte := ((s.core k).l1Line (lineOf g.pa)).bind (fun l => byteAt l.bytes (g.pa % 128 + i))
      let s' := if 1 ≤ g.cache && h < 24 && (!g.repl || h == k.die) then s.l2Alloc k.die g else s
      .ok (s'.consumeAt g.vf k g.pa n) ((List.range n).map (fun i => match l1 i with
        | some b => if b.dirty then b.val else bs.getD (g.pa % 128 + i) 0
        | none => bs.getD (g.pa % 128 + i) 0))

/-- Reads n bytes of one line at a virtual address for a launch's team, issued by a core; `needR` asks for R. -/
def State.engRead (s : State) (k : CoreId) (l t va n cap : Nat) (needR home : Bool) : IoRes :=
  match s.vf? (launchVf l) with
  | none => .deny s
  | some v =>
    match s.entryNow k v va false with
    | .fault s lv => .fault s va lv
    | .deny s => .deny s
    | .wait s => .wait s
    | .ok s e =>
      if (needR && !e.r) || (!e.host && !s.validPa (e.pa + (va - e.va))) then .deny s
      else s.readPlace k (s.gaddr v l t e va cap) n home

/-- Writes bytes, by offset in the line of a virtual address, as an engine does (R217): no older byte of them stays in
the core's L1; a write performed at home goes there after the older bytes of the core and of its die (R313, R346). -/
def State.engWrite (s : State) (k : CoreId) (l t va cap : Nat) (bs : List (Nat × Byte)) : IoRes :=
  match s.vf? (launchVf l) with
  | none => .deny s
  | some v =>
    match s.entryNow k v va true with
    | .fault s lv => .fault s va lv
    | .deny s => .deny s
    | .wait s => .wait s
    | .ok s e =>
      if !e.w || (!e.host && !s.validPa (e.pa + (va - e.va))) then .deny s
      else
        let g := (s.gaddr v l t e va cap).line
        let here (o : Nat) : Bool := bs.any (fun x => x.1 == o)
        let drop (s : State) : State := s.l1Drop k (lineOf g.pa) (fun b => here b.off)
        let s := s.stashFlush (lineOf g.pa) true
        if g.checked then
          .ok ((drop (s.l1Clean k (lineOf g.pa) here)).homeStore k.die g bs) []
        else .ok ((drop s).dieWrite k.die g bs) []

/-- Whether an engine may write at a virtual address: a missing permission, an invalid leaf, or not yet (R217). -/
def State.engMayWrite (s : State) (k : CoreId) (l va : Nat) : IoRes :=
  match s.vf? (launchVf l) with
  | none => .deny s
  | some v =>
    match s.entryNow k v va true with
    | .fault s lv => .fault s va lv
    | .deny s => .deny s
    | .wait s => .wait s
    | .ok s e => if !e.w || (!e.host && !s.validPa (e.pa + (va - e.va))) then .deny s else .ok s []

/-- What follows where an access has gone on. -/
def IoRes.andThen (r : IoRes) (f : State → IoRes) : IoRes :=
  match r with
  | .ok s _ => f s
  | r => r

/-- Reads n bytes from a virtual address, at most 64 at a time, as one access (R213, R220, R291). -/
def State.engReadN (s : State) (k : CoreId) (l t va cap : Nat) (needR home : Bool) : Nat → Nat → IoRes
  | 0, _ => .ok s []
  | fuel + 1, n =>
    let m := min n (64 - va % 64)
    match s.engRead k l t va m cap needR home with
    | .ok s bs =>
      if n ≤ m then .ok s bs
      else match s.engReadN k l t (va + m) cap needR home fuel (n - m) with
        | .ok s bs' => .ok s (bs ++ bs')
        | r => r
    | r => r

/-! ## Scratch of an agent -/

/-- The lines of a scratch range. -/
def linesOf (off n : Nat) : List Nat :=
  if n = 0 then [] else (List.range ((off + n - 1) / 128 - off / 128 + 1)).map (fun i => (off / 128 + i) * 128)

/-- A scratch range is touched: lines of stashed pages fill (R172). -/
def State.touchRange (s : State) (l t off n : Nat) : Tried Unit :=
  match s.team? l t with
  | none => .ok s ()
  | some tm =>
    if tm.stash.isEmpty then .ok s ()
    else s.tryAll (linesOf off n) (fun s x => s.stashTouch l t (max x off))

/-! ## Records -/

/-- An agent's access meets an invalid leaf: it joins the pending record of the page, or takes a permit and adds one;
the name of its record, 0 where no permit is free (R178, R217, R276). -/
def State.agentFault (s : State) (k : CoreId) (t : ThreadId) (va kind level : Nat) : State × Nat :=
  let vf := launchVf t.launch
  match s.pendingRec k.die vf va with
  | some r => (s, r.rid)
  | none => if s.permitFree k then ((s.takePermit k).addRecord vf va t kind level k, s.nextId) else (s, 0)

/-! ## The Crosshatch -/

/-- A scratch range of a team, and whether it is written. -/
structure Range where
  team  : Nat
  lo    : Nat
  hi    : Nat
  write : Bool
  deriving DecidableEq, Repr

/-- Whether each core has room for its entries among the ranges (R207). -/
def State.hatchRoom (s : State) (l : Nat) (rs : List Range) : Bool :=
  rs.all (fun r =>
    let k := s.coreOf l r.team
    decide ((s.core k).hatch.length + (rs.filter (fun x => s.coreOf l x.team == k)).length ≤ 48))

/-- Places the entries of an operation (R207). -/
def State.placeHatch (s : State) (l op : Nat) (rs : List Range) : State :=
  rs.foldl (fun s r =>
    let c := s.core (s.coreOf l r.team)
    s.setCore { c with hatch := c.hatch ++ [⟨l, r.team, r.lo, r.hi, r.write, op⟩] }) s

/-- Frees the entries of an operation (R207); threads stalled by them, or for want of entries, try again. -/
def State.freeHatch (s : State) (op : Nat) : State :=
  ((({ s with cores := s.cores.map (fun c => { c with hatch := c.hatch.filter (fun h => h.op != op) }) } : State).wake 5).wake 9)

/-- Two entries overlap in the sense of R209. -/
def Hatch.meets (a b : Hatch) : Bool :=
  a.launch == b.launch && a.team == b.team && overlaps a.lo (a.hi - a.lo) b.lo (b.hi - b.lo) && (a.write || b.write)

/-- An operation may begin: no operation issued earlier on a Crosshatch of its has an overlapping entry (R209). -/
def State.hatchTurn (s : State) (op : Nat) : Bool :=
  s.cores.all (fun c => c.hatch.all (fun h => h.op != op ||
    c.hatch.all (fun e => !(decide (e.op < op) && e.meets h))))

/-- Every access that the issuing thread's crew made before an operation's word has been performed (R204): `no` is the
operation's issue number. -/
def State.forked (s : State) (t : ThreadId) (no : Nat) : Bool :=
  s.requests.all (fun r => crewOf r.t != crewOf t || decide (no ≤ r.id) || !r.kind.isAccess)

/-! ## Operations -/

/-- Puts an engine operation in place. -/
def State.setEng (s : State) (e : EngineOp) : State :=
  { s with engines := s.engines.map (fun x => if x.no == e.no then e else x) }

/-- The engine operation of an issue number. -/
def State.eng? (s : State) (no : Nat) : Option EngineOp := s.engines.find? (fun e => e.no == no)

/-- A thread has an operation that a save has abandoned and that is not in its engine again: it issues nothing before, so that the
operation's entries are placed before its next word (R207, R283). -/
def State.reentering (s : State) (t : ThreadId) : Bool := s.engines.any (fun e => e.t == t && e.st == .reissue)

/-- Every operation of the quad team issued earlier than an operation is in its engine again after a restore (R209). -/
def State.reentryTurn (s : State) (e : EngineOp) : Bool :=
  s.engines.all (fun x => x.st != .reissue || decide (e.no ≤ x.no) || x.t.launch != e.t.launch ||
    x.t.team / (s.packet e.t.launch).qsize != e.t.team / (s.packet e.t.launch).qsize)

/-- An operation that a save has abandoned enters its engine again, on the core where its team stands now, in the order of issue, once
the engine and each Crosshatch have room (R207, R211, R283): `full` says that the engine has none. -/
def State.reenter (s : State) (e : EngineOp) (full : Bool) (st : EngState) (rs : List Range) : State :=
  let up := (s.team? e.t.launch e.t.team).any (fun t => t.st == .resident || t.st == .pinning)
  if !up || full || !s.reentryTurn e || !s.hatchRoom e.t.launch rs then s
  else (s.setEng { e with st := st, core := s.coreOf e.t.launch e.t.team }).placeHatch e.t.launch e.no rs

/-- Issues an engine operation of the thread in turn with its Crosshatch entries: its number is its request's name. -/
def State.startEng (s : State) (kind : EngKind) (st : EngState) (status : Word) (rs : List Range) (d : Reg) : State :=
  let t := s.cur.id
  let no := s.nextId
  let s := (s.enqueue d 1).placeHatch t.launch no rs
  State.advance { s with engines := s.engines ++
    [⟨no, no, t, s.curCore, launchVf t.launch, kind, st, 0, status, none, 0⟩] }

/-- An operation has finished; it retires with the status given. -/
def State.finishEng (s : State) (e : EngineOp) (status : Word) : State :=
  s.setEng { e with st := .done, status := status }

/-- An operation meets an invalid leaf: it stalls in place on a record, or for want of a permit (R217, R276). -/
def State.stallEng (s : State) (e : EngineOp) (va level : Nat) : State :=
  let (s, r) := s.agentFault e.core e.t va 3 level
  s.setEng { e with st := .stalled r }

/-- What follows an access: on its bytes, on an invalid leaf, on a missing permission, or once it has to wait. -/
def IoRes.next (r : IoRes) (ok : State → List Byte → State) (fault : State → Nat → Nat → State) (deny wait : State → State) :
    State :=
  match r with
  | .ok s bs => ok s bs
  | .fault s va lv => fault s va lv
  | .deny s => deny s
  | .wait s => wait s

/-- A status that is ready at once: it lands like any other result. -/
def State.quick (s : State) (d : Reg) (status : Word) : State :=
  let id := s.nextId
  ((s.enqueue d 1).reply id s.cur.id [status]).advance

/-- A status word: code and detail. -/
def statusOf (code detail : Nat) : Word := BitVec.ofNat 32 (code + 256 * detail)

/-- Whether the thread in turn is of its team's producer crew (R211). -/
def State.isProducer (s : State) : Bool := (crewOf s.cur.id).crew == s.pk.producer

/-- The right of R211: a thread of another crew traps ENGRIGHT with the word's F. -/
def State.withRight (s : State) (f : Nat) (k : State → State) : State :=
  if s.isProducer then k s else s.raise 0x09 f 0

/-- Bytes of a field of a record, least significant first. -/
def fieldAt (bs : List Byte) (off n : Nat) : Nat := natOf ((bs.drop off).take n)

/-- The offset of the first field that is not in order. -/
def firstBad (l : List (Nat × Bool)) : Option Nat := (l.find? (fun x => !x.2)).map (fun x => x.1)

end Sys2Proof.Machine
end

