-- ==== Sys2Proof/Machine/Retire.lean ====
section
/-! DEFINITION. The end of a thread, of a crew's residency and of a team (R102, R108, R137, R143, R157, R197, R199). -/

namespace Sys2Proof.Machine

/-- Saturating addition of 32-bit counters. -/
def satAdd (a b : Nat) : Nat := min (a + b) 0xFFFFFFFF

/-- STALL0 to STALL15 summed over a team's crews (R130). -/
def State.stallSums (s : State) (l t : Nat) : List Nat :=
  (List.range 16).map (fun i =>
    ((s.crews.filter (fun c => c.id.launch == l && c.id.team == t)).map (fun c => c.stall.getD i 0)).foldl satAdd 0)

/-- The segments a launch pins on its cores: those of its entry and its trap entry (R108). -/
def Image.pinned (i : Image) : List Nat :=
  match i.trap with
  | some t => if segOf t = segOf i.entry then [segOf i.entry] else [segOf i.entry, segOf t]
  | none => [segOf i.entry]

/-- Whether some team of a launch stands on a core. -/
def State.launchOn (s : State) (l : Nat) (k : CoreId) : Bool := s.teams.any (fun t => t.launch == l && t.on k)

/-- A launch's last team has left a core: its pins go (R108). -/
def State.unpin (s : State) (l : Nat) (k : CoreId) : State :=
  if s.launchOn l k then s else
  match s.launch? l with
  | none => s
  | some x =>
    let s := x.image.pinned.foldl (fun s g => s.modSeg k x.vf x.image.coid g (fun e => { e with pins := e.pins.erase l })) s
    if x.image.pinned.any (fun g => ((s.core k).segEntry x.vf x.image.coid g).any (s.evictable k)) then s.lacerStir k x.vf else s

/-- Whether every thread of a team has exited. -/
def State.teamDone (s : State) (l t : Nat) : Bool :=
  s.threads.all (fun x => !(x.id.launch == l && x.id.team == t) || !x.live)

/-- Whether a team has an engine operation not yet retired (R203). -/
def State.teamEngines (s : State) (l t : Nat) : Bool :=
  s.engines.any (fun e => e.t.launch == l && e.t.team == t)

/-- Whether every team of a quad team has retired. -/
def State.quadRetired (s : State) (l q : Nat) : Bool :=
  s.teams.all (fun t => !(t.launch == l && t.idx / (s.packet l).qsize == q) || t.st == .retired)

/-- Two cores of one quad. -/
def sameQuad (a b : CoreId) : Bool := a.die == b.die && a.core / 4 == b.core / 4

/-- A chain of a core's quad has ended: its opening tasks have a slot, or wait for one from now on (R258). -/
def State.chainEnded (s : State) (k : CoreId) : State :=
  { s with engines := s.engines.map (fun e => if sameQuad e.core k then { e with since := 0 } else e) }

/-- A team's open chains are discarded (R256). -/
def State.dropChains (s : State) (l t : Nat) (k : CoreId) : State :=
  if s.chains.any (fun c => c.launch == l && c.team == t) then
    State.chainEnded { s with chains := s.chains.filter (fun c => !(c.launch == l && c.team == t)) } k
  else s

/-- Whether a team of a VF is being saved for the host. -/
def State.savingFor (s : State) (vf : Nat) : Bool :=
  s.teams.any (fun t => launchVf t.launch == vf && t.st == .saving && !t.auto)

/-- PREEMPT reads 0 once no team is being saved (R282). -/
def State.preemptDone (s : State) (vf : Nat) : State :=
  match s.vf? vf with
  | none => s
  | some v => if v.preempt = 1 && !s.savingFor vf then s.setVf { v with preempt := 0 } else s

/-- A team retires (R143, R157): its stash mappings end with a write-back, its explicit tokens, pins, slots and barriers go, whose
entries others may take (R199), and it counts at die 0. Its tokens go here, as R157 says, and not at its last exit, as R102 has it: R157
is the rule of EXIT itself and names the order. DEDUCED (log entry 29). -/
def State.teamRetire (s : State) (l t : Nat) : State :=
  let s := s.stashCleanTeam l t
  match s.team? l t with
  | none => s
  | some tm =>
    let q := t / (s.packet l).qsize
    let s := (s.setTeam { tm with st := .retired, stash := [], tokens := [] }).preemptDone (launchVf l)
    let s := if tm.on tm.core && !tm.tokens.isEmpty then s.lacerStir tm.core (launchVf l) else s
    let s := (if tm.on tm.core then (s.unpin l tm.core).nextGen tm.core else s).dropChains l t tm.core
    let s := { s with slots := s.slots.filter (fun x => !(x.owner.launch == l && x.owner.team == t)) }
    let done := s.quadRetired l q
    let s := { s with
      barriers := s.barriers.filter (fun b => !(b.launch == l &&
        ((b.scope == 1 && b.owner == t) || (done && b.scope == 2 && b.owner == q))))
      drains := if done then s.drains.filter (fun d => !(d.launch == l && d.quad == q)) else s.drains }
    match s.launch? l with
    | none => s
    | some x => (s.setLaunch { x with retired := x.retired + 1, endTime := (s.vfTime (launchVf l)).toNat }).stir

/-- A team whose threads have all exited and whose engine operations have all retired, retires (R157). -/
def State.tryRetire (s : State) (l t : Nat) : State :=
  match s.team? l t with
  | none => s
  | some tm => if tm.st != .retired && s.teamDone l t && !s.teamEngines l t then s.teamRetire l t else s

/-- A crew whose live threads have all exited stops being resident for the activation controller (R137). -/
def State.crewLeave (s : State) (c : CrewId) : State :=
  if (s.liveMembers c).isEmpty then
    match s.crew? c with
    | none => s
    | some w => (s.setCrew { w with active := false, dueActivated := false, due := false, eligible := 0 }).triggerDecision
        (s.coreOf c.launch c.team)
  else s

/-- The thread in turn ends (R157): it counts as exited everywhere from now on. -/
def State.endThread (s : State) : State :=
  let t := s.cur
  let l := t.id.launch
  let s := s.setCur { t.enter .exited s.cycle with watch := none, inHandler := false }
  let s := (s.meetRelease (crewOf t.id)).crewLeave (crewOf t.id)
  let s := (s.lacerStir (s.coreOf l t.id.team) (launchVf l)).exitBarriers l t.id.team
  if s.teamDone l t.id.team then
    let s := match s.team? l t.id.team with
      | some tm => s.setTeam { tm with exitTime := (s.vfTime (launchVf l)).toNat, stalls := s.stallSums l t.id.team }
      | none => s
    s.tryRetire l t.id.team
  else s

end Sys2Proof.Machine
end

