-- ==== Sys2Proof/Machine/Code.lean ====
section
/-! DEFINITION. The overlay words OVLD, OVTOK, OVREL and OVQ, the Lacer's decisions and loads, and OVFULL (R101 to R111). -/

namespace Sys2Proof.Machine

/-! ## Explicit tokens -/

/-- Explicit tokens a team holds on a segment (R102). -/
def Team.tokensOn (t : Team) (seg : Nat) : Nat := ((t.tokens.find? (fun x => x.1 == seg)).map (fun x => x.2)).getD 0

/-- Whether a team may take one more explicit token on a segment (R102). -/
def Team.mayTake (t : Team) (seg : Nat) : Bool :=
  if t.tokensOn seg = 0 then decide (t.tokens.length < 16) else decide (t.tokensOn seg < 255)

/-- Takes one explicit token. -/
def Team.take (t : Team) (seg : Nat) : Team :=
  { t with tokens := upsert (fun x => x.1 == seg) (seg, t.tokensOn seg + 1) t.tokens }

/-- Gives one explicit token back; a team holding none is unaffected. -/
def Team.give (t : Team) (seg : Nat) : Team :=
  { t with tokens := (t.tokens.map (fun x => if x.1 == seg then (x.1, x.2 - 1) else x)).filter (fun x => x.2 != 0) }

/-- A team of a launch gives a token back, which the head of the Lacer's queue may profit from (R106); one that holds none changes
nothing. -/
def State.giveToken (s : State) (l t seg : Nat) : State :=
  match s.team? l t with
  | none => s
  | some tm => if tm.tokensOn seg = 0 then s else (s.setTeam (tm.give seg)).lacerStir tm.core (launchVf l)

/-! ## The overlay words -/

/-- A status word of an overlay word (R110): code, detail, frames. DEDUCED (log entry 20). -/
def ovStatus (code detail frames : Nat) : Word := BitVec.ofNat 32 (code + 256 * detail + 65536 * frames)

/-- OVLD and OVTOK (R111). -/
def ovLoad (token sp : Bool) (d a : Reg) (s : State) : Out :=
  issue sp true [opD d, opA a] s (fun s =>
    let t := s.cur.id
    let seg := segOf (s.cur.w a)
    let k := s.curCore
    let vf := launchVf t.launch
    let co := s.coidOf t.launch
    match s.segLen t.launch seg, s.team? t.launch t.team with
    | some len, some tm =>
      let f := framesOf len
      if token && !tm.mayTake seg then s.quick d (ovStatus 0x33 0 f)
      else
        let s := if token then s.setTeam (tm.take seg) else s
        let st := s.segState k vf co seg
        if st == .resident then
          (s.modSeg k vf co seg (fun e => { e with stamp := s.cycle })).quick d (ovStatus 0 1 f)
        else
          let id := s.nextId
          let s := s.enqueue d 1
          let c := s.core k
          (s.setCore (if st == .loading
            then { c with lacerW := c.lacerW ++ [⟨id, t.launch, t.team, vf, co, seg, token, 2⟩] }
            else { c with lacerQ := c.lacerQ ++ [⟨t.launch, t.team, vf, co, seg, t, id, token, s.cycle⟩] })).advance
    | _, _ => s.quick d (ovStatus 0x30 0 0))

/-- OVLD (R111). -/
def execOvld (sp : Bool) (d a : Reg) (s : State) : Out := ovLoad false sp d a s

/-- OVTOK (R111). -/
def execOvtok (sp : Bool) (d a : Reg) (s : State) : Out := ovLoad true sp d a s

/-- OVREL (R111). -/
def execOvrel (sp : Bool) (a : Reg) (s : State) : Out :=
  issue sp false [opA a] s (fun s => (s.giveToken s.cur.id.launch s.cur.id.team (segOf (s.cur.w a))).advance)

/-- OVQ (R111). -/
def execOvq (sp : Bool) (d a : Reg) (s : State) : Out :=
  issue sp true [opD d, opA a] s (fun s =>
    let t := s.cur.id
    let seg := segOf (s.cur.w a)
    match s.segLen t.launch seg with
    | none => s.quick d (ovStatus 0x30 0 0)
    | some len =>
      let e := (s.core s.curCore).segEntry (launchVf t.launch) (s.coidOf t.launch) seg
      let st := match (e.map (fun e => e.st)).getD .absent with
        | .absent => 0
        | .loading => 1
        | .resident => 2
      let pinned := (e.map (fun e => !e.pins.isEmpty)).getD false
      let held := ((s.team? t.launch t.team).map (fun x => decide (0 < x.tokensOn seg))).getD false
      s.quick d (ovStatus 0 (st + (if pinned then 4 else 0) + (if held then 8 else 0)) (framesOf len)))

/-! ## Threads and words that wait for a segment -/

/-- Whether a live thread on a core stands in the segment of a key, and so holds an implicit token on it (R102). -/
def State.standsIn (s : State) (t : Thread) (k : CoreId) (vf coid seg : Nat) : Bool :=
  t.live && segOf t.pc == seg && launchVf t.id.launch == vf && s.coidOf t.id.launch == coid &&
    (s.team? t.id.launch t.id.team).any (fun x => x.on k)

/-- Whether a thread settles on a key at a core (R105). -/
def State.settlesOn (s : State) (t : Thread) (k : CoreId) (vf coid seg : Nat) : Bool :=
  t.phase == .settling && s.standsIn t k vf coid seg

/-- Every thread settling on a key resumes at its pc (R105). -/
def State.resumeSettled (s : State) (k : CoreId) (vf coid seg : Nat) : State :=
  let ts := s.threads.filter (fun t => s.settlesOn t k vf coid seg)
  let s := s.mapThreads (fun t => if ts.any (fun x => x.id == t.id)
    then t.goto t.pc (s.inCode t.id.launch t.pc) else t)
  ts.foldl (fun s t => s.meetRelease (crewOf t.id)) s

/-- An overlay word that waited for a load ends with a status; one that fails gives its token back (R111). -/
def State.endOverlay (s : State) (w : LacerWait) (code detail : Nat) : State :=
  let t := (s.threads.find? (fun x => x.queue.any (fun e => e.req == w.req))).map (fun x => x.id)
  let s := if w.token && code != 0 then s.giveToken w.launch w.team w.seg else s
  s.reply w.req (t.getD ⟨w.launch, w.team, 0⟩) [ovStatus code detail (framesOf ((s.segLen w.launch w.seg).getD 0))]

/-- Ends every overlay word that waits on a key. -/
def State.endOverlays (s : State) (k : CoreId) (vf coid seg code : Nat) (detail : LacerWait → Nat) : State :=
  let on (w : LacerWait) : Bool := w.vf == vf && w.coid == coid && w.seg == seg
  let c := s.core k
  let ws := c.lacerW.filter on
  ws.foldl (fun s w => s.endOverlay w code (detail w)) (s.setCore { c with lacerW := c.lacerW.filter (fun w => !on w) })

/-- A load is abandoned and its frames are freed (R107): `trap` ends each settling thread, the overlay words end with
`code` and `detail`, and a pin load kills the launches that pin the segment with `kill` (R108). -/
def State.abandonLoad (s : State) (k : CoreId) (e : SegEntry) (trap : State → Thread → State) (code detail kill : Nat) :
    State :=
  let c := s.core k
  let pins := ((c.segEntry e.vf e.coid e.seg).map (fun x => x.pins)).getD []
  let s := s.setCore { c with segs := c.segs.map (fun x =>
    if x.is e.vf e.coid e.seg then { x with st := .absent, frames := [], words := [], pins := [], frec := none } else x) }
  let ts := s.threads.filter (fun t => s.settlesOn t k e.vf e.coid e.seg)
  let s := ts.foldl trap s
  let s := s.endOverlays k e.vf e.coid e.seg code (fun _ => detail)
  pins.foldl (fun s l => s.killLaunch l kill k) s

/-! ## Decisions -/

/-- The head of a core's queue is taken off. -/
def State.popLacer (s : State) (k : CoreId) : State := s.requeueLacer k ((s.core k).lacerQ.drop 1)

/-- Whether a request still has its asker: a settle request a thread that stands in its segment, whether it settles there already or,
restored while blocked, will when it goes on (R102, R109); that of a restored team its token (R109). -/
def State.wanted (s : State) (k : CoreId) (r : LacerReq) : Bool :=
  r.req != 0 ||
    (if r.token then (s.team? r.launch r.team).any (fun t => t.on k && decide (0 < t.tokensOn r.seg))
     else s.threads.any (fun t => s.standsIn t k r.vf r.coid r.seg))

/-- Frames that a request needs. -/
def State.needOf (s : State) (r : LacerReq) : Nat := framesOf ((s.segLen r.launch r.seg).getD 0)

/-- Whether frames for a request can be had, with evictions (R105). -/
def State.canLoad (s : State) (k : CoreId) (r : LacerReq) : Bool :=
  s.framesFit k r.vf (s.needOf r) (s.evictableFrames k r.vf)

/-- The thread that a record of the load of a request names, and whether for good: the first that has settled on the segment, else the
one that asked (R107). -/
def State.loadOwner (s : State) (k : CoreId) (r : LacerReq) : ThreadId × Bool :=
  match ((r :: (s.core k).lacerQ).find? (fun x => x.req == 0 && !x.token && x.vf == r.vf && x.coid == r.coid && x.seg == r.seg)) with
  | some x => (x.thread, s.settling x.thread)
  | none => (r.thread, false)

/-- The wait of an overlay word, from its request. -/
def LacerReq.waits (r : LacerReq) : LacerWait := ⟨r.req, r.launch, r.team, r.vf, r.coid, r.seg, r.token, 0⟩

/-- LACER_LOAD_DECISION (R103 to R106, R109, R111): the Lacer decides on the request at the head of a core's queue. -/
def execLacerLoadDecision (k : CoreId) (s : State) : Out :=
  match (s.core k).lacerQ with
  | [] => .next s
  | r :: _ =>
    let hold (s : State) : State :=
      if r.req = 0 then s else
        let c := s.core k
        s.setCore { c with lacerW := c.lacerW ++ [r.waits] }
    if !s.wanted k r then .next (s.popLacer k)
    else match s.segState k r.vf r.coid r.seg with
      | .loading => .next (hold (s.popLacer k))
      | .resident =>
        let s' := (s.popLacer k).modSeg k r.vf r.coid r.seg (fun e => { e with stamp := s.cycle })
        .next (if r.req ≠ 0 then s'.endOverlay r.waits 0 0
               else if r.token then s.popLacer k
               else s'.resumeSettled k r.vf r.coid r.seg)
      | .absent =>
        if s.canLoad k r then
          let who := s.loadOwner k r
          let s := (s.popLacer k).evictFor k r.vf (s.needOf r) 64
          .next (hold (s.startLoad k r.vf r.coid r.seg ((s.segLen r.launch r.seg).getD 0) r.launch who.1 who.2 []))
        else if r.req ≠ 0 then .next ((s.popLacer k).endOverlay r.waits 0x31 0)
        else .next s

/-- OVFULL_TIMEOUT (R106): nothing has changed for the request at the head for 65,536 cycles; an OVLD or OVTOK does not wait there
(R111). An explicit token that a restored team holds stays counted where its load is withdrawn so, and where R107 abandons it, though
the segment is absent: R109 takes the token before the load and nothing gives it back. DESIGN CHOICE (log entry 29). -/
def execOvfullTimeout (k : CoreId) (s : State) : Out :=
  match (s.core k).lacerQ with
  | [] => .next s
  | r :: _ =>
    if r.req = 0 && s.wanted k r && s.segState k r.vf r.coid r.seg == .absent && !s.canLoad k r &&
        decide (r.since + 65536 ≤ s.cycle) then
      let info := r.seg + 65536 * (s.needOf r % 32) + 2 ^ 21 * (s.avail k r.vf % 64)
      let ts := s.threads.filter (fun t => s.settlesOn t k r.vf r.coid r.seg)
      .next (ts.foldl (fun s t => s.trapThread t.id 0x0C info 0 t.pc t.pc) (s.popLacer k))
    else .next s

/-! ## Loads -/

/-- What the reading of a segment answers: its bytes; an invalid leaf; a page without X; or not yet. -/
inductive SegRead where
  | ok (s : State) (bs : List Byte)
  | fault (s : State) (va level : Nat)
  | lack (s : State) (va : Nat)
  | wait (s : State)

/-- Reads a segment's bytes from a virtual address, a line at a time, at the die's slice (R107): every page needs V and
X. A page whose physical address names no memory counts as one without X: the spec gives it no outcome of its own. DESIGN CHOICE (log
entry 29). -/
def State.segRead (s : State) (k : CoreId) (l va : Nat) : Nat → Nat → SegRead
  | 0, _ => .ok s []
  | fuel + 1, n =>
    if n = 0 then .ok s [] else
    let m := min n (128 - va % 128)
    match s.vf? (launchVf l) with
    | none => .lack s (va / 4096 * 4096)
    | some v =>
      match s.entryNow k v va false with
      | .fault s lv => .fault s va lv
      | .deny s => .lack s (va / 4096 * 4096)
      | .wait s => .wait s
      | .ok s e =>
        if !e.x || (!e.host && !s.validPa (e.pa + (va - e.va))) then .lack s (va / 4096 * 4096)
        else
          let g := { s.gaddr v l 0 e va 3 with checked := false, det := false, counted := false }
          let s := s.stashFlush (lineOf g.pa) false
          match s.wholeLine k.die g with
          | none => .wait s
          | some (s, line) =>
            match (s.consumeAt v.id k g.pa m).segRead k l (va + m) fuel (n - m) with
            | .ok s bs => .ok s ((line.drop (g.pa % 128)).take m ++ bs)
            | r => r

/-- Bytes as 32-bit words. -/
def wordsOfBytes : List Byte → List Word
  | a :: b :: c :: d :: r => (d ++ c ++ b ++ a : Word) :: wordsOfBytes r
  | _ => []

/-- A team whose pin loads are all resident may start, once what was delivered to it while it was off its core is in its scratch (R108,
R199). -/
def State.pinsDone (s : State) (t : Team) : Bool :=
  match s.launch? t.launch with
  | none => false
  | some l => t.late.isEmpty && l.image.pinned.all (fun g => s.segState t.core l.vf l.image.coid g == .resident)

/-- The crews of teams on a core whose pin loads are all resident go on. -/
def State.startPinned (s : State) (k : CoreId) : State :=
  { s with teams := s.teams.map (fun t =>
      if t.st == .pinning && t.core == k && s.pinsDone t then { t with st := .resident } else t) }

/-- A load completes with its words (R101, R103, R105, R108, R111); an entry that is evictable from then on is an event of R106. -/
def State.endSegLoad (s : State) (k : CoreId) (e : SegEntry) (ws : List Word) : State :=
  let s := s.modSeg k e.vf e.coid e.seg (fun x => { x with st := .resident, stamp := s.cycle, words := ws, frec := none })
  let s := ((s.resumeSettled k e.vf e.coid e.seg).endOverlays k e.vf e.coid e.seg 0 (fun w => w.detail)).startPinned k
  (if ((s.core k).segEntry e.vf e.coid e.seg).any (s.evictable k) then s.lacerStir k e.vf else s).triggerDecision k

/-- SEGMENT_LOAD_COMPLETE (R101, R105, R107, R108): a load reads its segment and completes, stalls on a record of kind
code, or is abandoned for want of X. -/
def execSegmentLoadComplete (k : CoreId) (entry : Nat) (s : State) : Out :=
  match (s.core k).segs[entry]? with
  | none => .next s
  | some e =>
    match e.st with
    | .loading =>
      if e.frec.isSome && e.frec != some 0 then .next s
      else
        match s.segRead k e.launch e.va (e.len + 1) e.len with
        | .ok s bs => .next (s.endSegLoad k e (wordsOfBytes bs))
        | .wait s => .next s
        | .lack s pg => .next (s.abandonLoad k e
            (fun s t => s.trapThread t.id 0x08 4 (BitVec.ofNat 64 pg) t.pc t.pc) 0x32 0 0x08)
        | .fault s va lv =>
          let (s, r) := s.agentFault k e.owner va 4 lv
          .next (s.modSeg k e.vf e.coid e.seg (fun x => { x with frec := some r }))
    | _ => .next s

end Sys2Proof.Machine
end

