-- ==== Sys2Proof/Machine/Cvt.lean ====
section
/-! DEFINITION. The CVT words (major 3): R92 to R96. -/

namespace Sys2Proof.Machine

/-- A conversion of a register to registers. -/
def cvt (sp : Bool) (d a : Reg) (dw aw : Nat) (s : State) (f : BitVec 2 → Nat → List Word × BitVec 5) : Out :=
  issue sp false [opD d dw, opA a aw] s (fun s =>
    let r := f s.cur.fpmode (if aw = 1 then (s.cur.w a).toNat else (s.cur.p a).toNat)
    s.fpResult d r.1 r.2)

/-- The result words of a conversion to a format. -/
def FRes.one (r : FRes) : List Word × BitVec 5 := (r.word, r.flags)
def FRes.two (r : FRes) : List Word × BitVec 5 := (r.pair, r.flags)

/-- A conversion to a 32-bit and to a 64-bit integer (R93). -/
def toInt32 (f : Fmt) (lo hi : Int) (rm : BitVec 2) (a : Nat) : List Word × BitVec 5 :=
  let r := (f.read a).toInt rm lo hi
  ([BitVec.ofInt 32 r.1], r.2)
def toInt64 (f : Fmt) (lo hi : Int) (rm : BitVec 2) (a : Nat) : List Word × BitVec 5 :=
  let r := (f.read a).toInt rm lo hi
  (pairWords (BitVec.ofInt 64 r.1), r.2)

/-- The value of n bits as a two's complement integer. -/
def sintOf (n x : Nat) : Int := if 2 ^ (n - 1) ≤ x then (x : Int) - 2 ^ n else x

/-- CVT.f32.s32 (R92). -/
def execCvtF32S32 (sp : Bool) (d a : Reg) (s : State) : Out :=
  cvt sp d a 1 1 s (fun rm a => (f32.roundInt rm false (sintOf 32 a) 0).one)

/-- CVT.f32.n32 (R92). -/
def execCvtF32N32 (sp : Bool) (d a : Reg) (s : State) : Out :=
  cvt sp d a 1 1 s (fun rm a => (f32.roundInt rm false a 0).one)

/-- CVT.s32.f32 (R92, R93). -/
def execCvtS32F32 (sp : Bool) (d a : Reg) (s : State) : Out :=
  cvt sp d a 1 1 s (toInt32 f32 (-2 ^ 31) (2 ^ 31 - 1))

/-- CVT.n32.f32 (R92, R93). -/
def execCvtN32F32 (sp : Bool) (d a : Reg) (s : State) : Out :=
  cvt sp d a 1 1 s (toInt32 f32 0 (2 ^ 32 - 1))

/-- CVT.f64.f32 (R92). -/
def execCvtF64F32 (sp : Bool) (d a : Reg) (s : State) : Out :=
  cvt sp d a 2 1 s (fun rm a => (convert f32 f64 rm a).two)

/-- CVT.f32.f64 (R92). -/
def execCvtF32F64 (sp : Bool) (d a : Reg) (s : State) : Out :=
  cvt sp d a 1 2 s (fun rm a => (convert f64 f32 rm a).one)

/-- CVT.f64.s32 (R92). -/
def execCvtF64S32 (sp : Bool) (d a : Reg) (s : State) : Out :=
  cvt sp d a 2 1 s (fun rm a => (f64.roundInt rm false (sintOf 32 a) 0).two)

/-- CVT.s32.f64 (R92, R93). -/
def execCvtS32F64 (sp : Bool) (d a : Reg) (s : State) : Out :=
  cvt sp d a 1 2 s (toInt32 f64 (-2 ^ 31) (2 ^ 31 - 1))

/-- CVT.f64.s64 (R92). -/
def execCvtF64S64 (sp : Bool) (d a : Reg) (s : State) : Out :=
  cvt sp d a 2 2 s (fun rm a => (f64.roundInt rm false (sintOf 64 a) 0).two)

/-- CVT.s64.f64 (R92, R93). -/
def execCvtS64F64 (sp : Bool) (d a : Reg) (s : State) : Out :=
  cvt sp d a 2 2 s (toInt64 f64 (-2 ^ 63) (2 ^ 63 - 1))

/-- CVT.f64.n64 (R92). -/
def execCvtF64N64 (sp : Bool) (d a : Reg) (s : State) : Out :=
  cvt sp d a 2 2 s (fun rm a => (f64.roundInt rm false a 0).two)

/-- CVT.n64.f64 (R92, R93). -/
def execCvtN64F64 (sp : Bool) (d a : Reg) (s : State) : Out :=
  cvt sp d a 2 2 s (toInt64 f64 0 (2 ^ 64 - 1))

/-- PACK: two f32 values rounded to a 16-bit format (R94). -/
def pack (f : Fmt) (sp : Bool) (d a b : Reg) (s : State) : Out :=
  issue sp false [opD d, opA a, opB b] s (fun s =>
    let lo := convert f32 f s.cur.fpmode (s.cur.w a).toNat
    let hi := convert f32 f s.cur.fpmode (s.cur.w b).toNat
    s.fpResult d [BitVec.ofNat 32 (lo.bits + 65536 * hi.bits)] (lo.flags ||| hi.flags))

/-- UNPK: the two halves as f32 values (R94). -/
def unpack (f : Fmt) (sp : Bool) (d a : Reg) (s : State) : Out :=
  issue sp false [opD d 2, opA a] s (fun s =>
    let lo := convert f f32 s.cur.fpmode ((s.cur.w a).toNat % 65536)
    let hi := convert f f32 s.cur.fpmode ((s.cur.w a).toNat / 65536)
    s.fpResult d (lo.word ++ hi.word) (lo.flags ||| hi.flags))

/-- PACK.f16 (R94). -/
def execPackF16 (sp : Bool) (d a b : Reg) (s : State) : Out := pack f16 sp d a b s

/-- PACK.bf16 (R94). -/
def execPackBf16 (sp : Bool) (d a b : Reg) (s : State) : Out := pack bf16 sp d a b s

/-- UNPK.f16 (R94). -/
def execUnpkF16 (sp : Bool) (d a : Reg) (s : State) : Out := unpack f16 sp d a s

/-- UNPK.bf16 (R94). -/
def execUnpkBf16 (sp : Bool) (d a : Reg) (s : State) : Out := unpack bf16 sp d a s

/-- SEXT8 (R95). -/
def execSext8 (sp : Bool) (d a : Reg) (s : State) : Out :=
  issue sp false [opD d, opA a] s (fun s => s.result d [((s.cur.w a).truncate 8).signExtend 32])

/-- SEXT16 (R95). -/
def execSext16 (sp : Bool) (d a : Reg) (s : State) : Out :=
  issue sp false [opD d, opA a] s (fun s => s.result d [((s.cur.w a).truncate 16).signExtend 32])

/-- The block-scale exponent sext(b[7:0]) (R96). -/
def scaleExp (b : Word) : Int := (b.truncate 8).toInt

/-- QNT.n8 (R96). -/
def execQntN8 (sp : Bool) (d a b : Reg) (s : State) : Out :=
  issue sp false [opD d, opA a, opB b] s (fun s =>
    let r := ((f32.read (s.cur.w a).toNat).scale (-(scaleExp (s.cur.w b)))).toInt s.cur.fpmode (-128) 127
    s.fpResult d [BitVec.ofInt 32 r.1] r.2)

/-- DQNT.n8 (R96). -/
def execDqntN8 (sp : Bool) (d a b : Reg) (s : State) : Out :=
  issue sp false [opD d, opA a, opB b] s (fun s =>
    let r := f32.roundInt s.cur.fpmode false ((s.cur.w a).truncate 8).toInt (scaleExp (s.cur.w b))
    s.fpResult d r.word r.flags)

end Sys2Proof.Machine
end

