-- ==== Sys2Proof/Machine/Tile.lean ====
section
/-! DEFINITION. The arithmetic of the graver over plain bytes: nested integers, the sums of R247 and R249, tile-task
records (R254, R255), drain programs and what a drain makes of an element (R248, R259, R262). -/

namespace Sys2Proof.Machine

/-! ## Shapes -/

/-- K and the element size, by format code (R245). -/
def tileK (f : Nat) : Nat := if f = 0 then 128 else if f ≤ 2 then 64 else if f = 3 then 32 else 16
def tileEs (f : Nat) : Nat := if f ≤ 2 then 2 else if f = 3 then 4 else 8

/-- The format of an operand element, and of the accumulator (R245). -/
def tileFmt (f : Nat) : Fmt := if f = 1 then bf16 else if f = 2 then f16 else if f = 3 then f32 else f64
def accFmt (f : Nat) : Fmt := if f = 4 then f64 else f32

/-- Products a run holds (R249). -/
def runLength (f nbv : Nat) : Nat :=
  if f = 1 ∨ f = 2 then (if nbv = 1 then 8 else 16) else if f = 3 then (if nbv = 1 then 2 else 4) else if nbv = 1 then 1 else 2

/-! ## Records -/

/-- A tile-task record from its 64 bytes (R254). -/
def taskRec (b : List Byte) : TaskRec :=
  { kind := fieldAt b 0 1, flags := fieldAt b 1 1, afmt := fieldAt b 2 1, aplanes := fieldAt b 3 1, bfmt := fieldAt b 4 1,
    chain := fieldAt b 5 1, slot := fieldAt b 6 1, aoff := fieldAt b 8 4, m := fieldAt b 12 2, apitch := fieldAt b 14 2,
    ascale := fieldAt b 16 4, boff := fieldAt b 20 4, bpitch := fieldAt b 24 2, bplanes := fieldAt b 26 1,
    bscale := fieldAt b 28 4, dest := fieldAt b 32 8, dpitch := fieldAt b 40 4, voff := fieldAt b 44 4, roff := fieldAt b 48 4 }

/-- Flags of a record: ZACC, drain after, STRICT (R254). -/
def TaskRec.zacc (r : TaskRec) : Bool := r.flags % 2 == 1
def TaskRec.strict (r : TaskRec) : Bool := r.flags / 4 % 2 == 1

/-- Whether a task drains, and ends its chain (R255). -/
def TaskRec.drains (r : TaskRec) : Bool := r.kind == 1 || (r.kind == 0 && r.flags / 2 % 2 == 1)

/-- The offset of the first field a record's kind reads that is not in order, the checks of R260 apart (R254, R255,
R308): `b` its bytes, `f0` the VF's FEATURE0, `p` the packet. -/
def taskBad (b : List Byte) (f0 : Word) (p : Packet) : Option Nat :=
  let r := taskRec b
  let mma := r.kind == 0
  let n8 := r.afmt == 0
  let planes (x : Nat) : Bool := if n8 then decide (2 ≤ x ∧ x ≤ 8) else x == 0
  let scale (x : Nat) : Bool := if n8 then x % 4 == 0 else x == 0
  let flagsOk := if mma then decide (r.flags < 8) else if r.kind = 1 then r.flags == 0 else decide (r.flags < 2)
  let only (c : Bool) (x : Bool) : Bool := !c || x
  firstBad [(0, decide (r.kind ≤ 2)), (1, flagsOk),
    (2, only (r.kind != 1) (decide (r.afmt ≤ 4) && only n8 (f0.getLsbD 0) && only (r.afmt == 4) (f0.getLsbD 1))),
    (3, only mma (planes r.aplanes)), (4, only mma (r.bfmt == r.afmt)),
    (6, only (r.kind != 2) (decide (r.slot ≤ 15))), (7, fieldAt b 7 1 == 0),
    (8, only mma (r.aoff % 16 == 0)), (12, only (r.kind != 1) (decide (1 ≤ r.m ∧ r.m ≤ 256))),
    (14, only mma (r.apitch % 16 == 0 && decide (rowBytes r.afmt r.aplanes ≤ r.apitch))),
    (16, only mma (scale r.ascale)), (20, only mma (r.boff % 16 == 0)),
    (24, only mma (r.bpitch % 16 == 0 && decide (rowBytes r.afmt r.bplanes ≤ r.bpitch))),
    (26, only mma (planes r.bplanes)), (27, fieldAt b 27 1 == 0), (28, only mma (scale r.bscale)),
    (32, only r.drains (aperture p (BitVec.ofNat 64 r.dest) 1 != .bad)),
    (44, only r.drains (r.voff % 4 == 0)), (48, only r.drains (r.roff % 4 == 0)),
    (52, (b.drop 52).all (fun x => x == 0))]

/-! ## Nested integers -/

/-- The integer of an N8 element: bit k of the row at `off`, at p planes (R243, R245). -/
def n8Elem (m : Memory) (off k p : Nat) : Int :=
  let x := ((List.range p).map (fun q =>
    if (m.get (off + 16 * q + k / 8)).getLsbD (k % 8) then 2 ^ (7 - q) else 0)).foldl (· + ·) 0
  if x < 128 then (x : Int) else (x : Int) - 256

/-- A block scale (R244). -/
def scaleAt (m : Memory) (off : Nat) : Int := (m.get off).toInt

/-- ⌊x / 2^s⌋. -/
def shiftDown (x : Int) (s : Nat) : Int := x / (2 ^ s : Nat)

/-- sat64 and whether it changed its argument (R247). -/
def sat64 (x : Int) : Int × Bool :=
  if 2 ^ 63 ≤ x then (2 ^ 63 - 1, true) else if x < -(2 ^ 63) then (-(2 ^ 63), true) else (x, false)

/-- The greatest of a list of integers. -/
def maxOf (l : List Int) : Int := l.foldl max (l.headD 0)

/-- An N8 task on a chain (R247). -/
def mmaN8 (c : Chain) (r : TaskRec) (m : Memory) : Chain :=
  let ea (i j : Nat) : Int := scaleAt m (r.ascale + 4 * i + j)
  let eb (n j : Nat) : Int := scaleAt m (r.bscale + 4 * n + j)
  let emax := maxOf ((List.range 4).map (fun j =>
    maxOf ((List.range r.m).map (fun i => ea i j)) + maxOf ((List.range 128).map (fun n => eb n j))))
  let (e, acc) := match c.e with
    | none => (emax, c.acc)
    | some e => if e < emax then (emax, c.acc.map (fun x => shiftDown x (emax - e).toNat)) else (e, c.acc)
  let rows := (List.range r.m).map (fun i => (List.range 128).map (fun k => n8Elem m (r.aoff + i * r.apitch) k r.aplanes))
  let cols := (List.range 128).map (fun n => (List.range 128).map (fun k => n8Elem m (r.boff + n * r.bpitch) k r.bplanes))
  let out := (List.range r.m).flatMap (fun i => (List.range 128).map (fun n =>
    let p := ((List.range 128).zip ((rows.getD i []).zip (cols.getD n []))).foldl (fun t x =>
      t + shiftDown (x.2.1 * x.2.2) (e - ea i (x.1 / 32) - eb n (x.1 / 32)).toNat) (0 : Int)
    sat64 (acc.getD (i * 128 + n) 0 + p)))
  { c with e := some e, acc := out.map (fun x => x.1), sat := c.sat || out.any (fun x => x.2) }

/-! ## Floating point -/

/-- The exact sum of two values; an exact zero is −0 only where both are −0 (R84, R249). -/
def addExact (a b : FVal) : FVal :=
  match a, b with
  | .nan s, _ => .nan s
  | _, .nan s => .nan s
  | .inf x, .inf y => if x == y then .inf x else .nan false
  | .inf x, .fin _ _ _ => .inf x
  | .fin _ _ _, .inf y => .inf y
  | .fin na ma ea, .fin nb mb eb =>
    let e := min ea eb
    let v := signed na (ma * 2 ^ (ea - e).toNat) + signed nb (mb * 2 ^ (eb - e).toNat)
    if v = 0 then .fin (na && nb && ma == 0 && mb == 0) 0 e else .fin (v < 0) v.natAbs e

/-- The exact product of two operand elements: NaN where one is, or for 0 × ∞ (R249). -/
def prodExact (a b : FVal) : FVal :=
  if a.isNan || b.isNan then .nan false else (mulV a b).getD (.nan false)

/-- One run added to an accumulator element, with one rounding (R249). -/
def addRun (f : Fmt) (acc : Nat) (ps : List FVal) : Nat :=
  let s := match ps with
    | [] => FVal.fin false 0 0
    | p :: ps => ps.foldl addExact p
  (f.addV 0 (f.read acc) s).bits

/-- Cuts a list into runs of g. -/
def runsOf {α : Type} (g : Nat) : Nat → List α → List (List α)
  | 0, _ => []
  | n + 1, l => l.take g :: runsOf g n (l.drop g)

/-- A floating-point task on a chain (R249, R252). -/
def mmaFp (c : Chain) (r : TaskRec) (nbv : Nat) (m : Memory) : Chain :=
  let f := tileFmt r.afmt
  let es := tileEs r.afmt
  let k := tileK r.afmt
  let n := tileN r.afmt
  let g := runLength r.afmt nbv
  let elems (base : Nat) : List FVal := (List.range k).map (fun i => f.read (natOf (m.getN (base + i * es) es)))
  let rows := (List.range r.m).map (fun i => elems (r.aoff + i * r.apitch))
  let cols := (List.range n).map (fun j => elems (r.boff + j * r.bpitch))
  let absent (b : FVal) : Bool := !r.strict && (match b with
    | .fin _ x _ => x == 0
    | _ => false)
  { c with acc := (List.range r.m).flatMap (fun i => (List.range n).map (fun j =>
      let ps := ((rows.getD i []).zip (cols.getD j [])).map (fun x => if absent x.2 then none else some (prodExact x.1 x.2))
      ((runsOf g (k / g) ps).foldl (fun acc run => addRun (accFmt r.afmt) acc (run.filterMap (fun x => x)))
        (c.acc.getD (i * n + j) 0).toNat : Nat))) }

/-- A ZERO task on a chain, or its opening (R255). -/
def Chain.zero (c : Chain) : Chain := { c with e := none, acc := List.replicate (c.m * tileN c.fmt) 0 }

/-! ## Drain programs -/

/-- Op and operand of a step (R259). -/
def stepOp (x : BitVec 16) : Nat := x.toNat / 4096
def stepArg (x : BitVec 16) : Nat := x.toNat % 4096
def argA (x : BitVec 16) : Nat := x.toNat % 16
def argB (x : BitVec 16) : Nat := x.toNat / 16 % 16
def argC (x : BitVec 16) : Nat := x.toNat / 256 % 16

/-- A program from its 80 bytes, its steps up to the first END (R259, R262). -/
def drainProg (b : List Byte) : DrainProg :=
  { consts := (List.range 16).map (fun i => BitVec.ofNat 32 (fieldAt b (4 * i) 4))
    steps := ((List.range 8).map (fun i => BitVec.ofNat 16 (fieldAt b (64 + 2 * i) 2))).takeWhile (fun x => stepOp x != 0) }

/-- A step's operand bits are as R259 marks them. -/
def stepOk (x : BitVec 16) : Bool :=
  let a := stepArg x
  match stepOp x with
  | 0 => a == 0
  | 1 => decide (a < 16)
  | 2 => decide (a < 16)
  | 3 => a == 0
  | 4 => decide (a < 16)
  | 5 => decide (a < 256)
  | 6 => a == 0
  | 7 => decide (a < 3) || argA x == 3
  | 8 => a == 0
  | 9 => a == 0
  | _ => false

/-- Whether a constant is integral in −128 to 127 (R259). -/
def intConst (c : Word) : Option Int :=
  match f32.read c.toNat with
  | .fin neg m e =>
    if e < 0 && m % 2 ^ (-e).toNat != 0 then none
    else
      let v := signed neg (if e < 0 then m / 2 ^ (-e).toNat else m * 2 ^ e.toNat)
      if -128 ≤ v ∧ v ≤ 127 then some v else none
  | _ => none

/-- The format a CVT turns to: 0 to 3. -/
def isCvt (x : BitVec 16) : Bool := stepOp x == 7
def isStore (x : BitVec 16) : Bool := stepOp x == 8 || stepOp x == 9

/-- The step order of R262: the index of the first step that breaks it. -/
def orderBad (steps : List (BitVec 16)) : Option Nat :=
  (List.range steps.length).find? (fun i =>
    let before := steps.take i
    let x := steps.getD i 0
    before.any isStore || (isCvt x && before.any isCvt) ||
      (before.any (fun y => isCvt y && argA y != 0) && stepOp x != 8))

/-- The detail with which a program fails the checks of R262; none where it passes. -/
def progBad (b : List Byte) : Option Nat :=
  let all := (List.range 8).map (fun i => BitVec.ofNat 16 (fieldAt b (64 + 2 * i) 2))
  let p := drainProg b
  let judged := all.take (p.steps.length + 1)
  match (List.range judged.length).find? (fun i => !stepOk (judged.getD i 0)) with
  | some i => some i
  | none => match orderBad p.steps with
    | some i => some i
    | none => match (List.range p.steps.length).find? (fun i =>
          let x := p.steps.getD i 0
          isCvt x && argA x == 3 && (decide (argB x < 2 ∨ 8 < argB x) || (intConst (p.consts.getD (argC x) 0)).isNone)) with
      | none => none
      | some i =>
        let x := p.steps.getD i 0
        some (if argB x < 2 ∨ 8 < argB x then i else 8)

/-- The op of a program's STORE or ADDST, 0 where it has none. -/
def storeOp (p : Option DrainProg) : Nat :=
  match p with
  | none => 0
  | some p => ((p.steps.find? isStore).map stepOp).getD 0

/-- The output of a drain (R260): planes (0 where it is no N8 output) and the element size. -/
def drainOut (fmt : Nat) (p : Option DrainProg) : Nat × Nat :=
  let es := if fmt = 4 then 8 else 4
  match p.bind (fun p => p.steps.find? isCvt) with
  | none => (0, es)
  | some x => if argA x = 0 then (0, es) else if argA x = 3 then (argB x, 0) else (0, 2)

/-- The alignment unit, and the bytes of one output row (R260). -/
def outUnit (fmt : Nat) (o : Nat × Nat) : Nat := if o.1 = 0 then o.2 else tileN fmt / 8
def outRow (fmt : Nat) (o : Nat × Nat) : Nat := if o.1 = 0 then tileN fmt * o.2 else o.1 * (tileN fmt / 8)

/-- The vectors a program names, and whether it reads the residual tile. -/
def progVectors (p : Option DrainProg) : List Nat :=
  ((p.map (fun p => p.steps)).getD []).filterMap (fun x => if stepOp x = 1 ∨ stepOp x = 2 then some (argA x) else none)
def progResid (p : Option DrainProg) : Bool := ((p.map (fun p => p.steps)).getD []).any (fun x => stepOp x == 6)

/-- A value of one format in another, rounded RNE; a NaN is canonical. -/
def Fmt.convert (src dst : Fmt) (x : Nat) : Nat :=
  match src.read x with
  | .nan _ => dst.nanBits
  | .inf n => dst.infinity n
  | .fin n m e => (dst.round 0 n m e false).bits

/-- The value with which element i of a chain's accumulator enters its drain (R248). -/
def Chain.start (c : Chain) (i : Nat) : Nat :=
  let a := c.acc.getD i 0
  if c.fmt = 0 then (f32.roundInt 0 false a (c.e.getD 0)).bits else a.toNat

/-- QNT.n8 under exponent e, and the top p planes kept, as a byte (R243, R259). -/
def quantByte (f : Fmt) (x : Nat) (e : Int) (p : Nat) : Nat :=
  let v := (((f.read x).scale (-e)).toInt 0 (-128) 127).1
  (v % 256).toNat / 2 ^ (8 - p) * 2 ^ (8 - p)

/-- One step of a drain on the value x of element (m, n), in the drain format f (R259). -/
def drainStep (f : Fmt) (fmt : Nat) (p : DrainProg) (vec : Nat → Nat) (res : Nat) (s : BitVec 16) (x : Nat) : Nat :=
  let wide (w : Nat) : Nat := if fmt = 4 then f32.convert f64 w else w
  let c (i : Nat) : Nat := wide (p.consts.getD i 0).toNat
  let v := f.read x
  match stepOp s with
  | 1 => (f.mul 0 x (wide (vec (argA s)))).bits
  | 2 => (f.add 0 x (wide (vec (argA s)))).bits
  | 3 => if v.negative then 0 else x
  | 4 => if v.negative && !(v.eq (.fin false 0 0)) then (f.mul 0 x (c (argA s))).bits else x
  | 5 =>
    if v.isNan then x
    else if (f.read (c (argA s))).isNan || (f.read (c (argB s))).isNan then f.nanBits
    else (f.minMax false (f.minMax true x (c (argA s))).bits (c (argB s))).bits
  | 6 => (f.add 0 x (wide res)).bits
  | 7 =>
    if argA s = 1 then f.convert bf16 x
    else if argA s = 2 then f.convert f16 x
    else if argA s = 3 then quantByte f x ((intConst (p.consts.getD (argC s) 0)).getD 0) (argB s)
    else x
  | _ => x

/-- What a drain delivers for element (m, n) of a chain, its operands taken from scratch (R248, R259). -/
def drainElem (c : Chain) (r : TaskRec) (p : DrainProg) (mem : Memory) (m n : Nat) : Nat :=
  let nn := tileN c.fmt
  let word (a : Nat) : Nat := natOf (mem.getN a 4)
  p.steps.foldl (fun x s => drainStep (accFmt c.fmt) c.fmt p (fun v => word (r.voff + 4 * (v * nn + n)))
    (word (r.roff + 4 * (m * nn + n))) s x) (c.start (m * nn + n))

/-- The units in which a drain writes: its elements, or for N8 output groups of eight of one row, whose bits share their bytes (R260,
R261). -/
def drainUnits (c : Chain) (p : DrainProg) : Nat := c.m * (if (drainOut c.fmt (some p)).1 = 0 then tileN c.fmt else tileN c.fmt / 8)

/-- What a drain writes for unit i: offsets from the destination, and bytes (R260, R261). -/
def drainUnit (c : Chain) (r : TaskRec) (p : DrainProg) (mem : Memory) (i : Nat) : List (Nat × List Byte) :=
  let o := drainOut c.fmt (some p)
  let nn := tileN c.fmt
  if o.1 = 0 then [(i / nn * r.dpitch + i % nn * o.2, bytesOf o.2 (drainElem c r p mem (i / nn) (i % nn)))]
  else
    let m := i / (nn / 8)
    let g := i % (nn / 8)
    let xs := (List.range 8).map (fun k => drainElem c r p mem m (8 * g + k))
    (List.range o.1).map (fun q => (m * r.dpitch + q * (nn / 8) + g,
      [BitVec.ofNat 8 (((List.range 8).zip xs).foldl (fun t x => t + x.2 / 2 ^ (7 - q) % 2 * 2 ^ x.1) 0)]))

/-- The pieces a drain stores, in order: offset from the destination, and bytes (R260, R261). -/
def drainPieces (c : Chain) (r : TaskRec) (p : DrainProg) (mem : Memory) : List (Nat × List Byte) :=
  (List.range (drainUnits c p)).flatMap (drainUnit c r p mem)

/-- What a drain writes for element i of the tile: offsets from the destination, and bytes; N8 output changes one bit of each byte that
stands there now, as `old` gives it by offset (R260, R261). -/
def drainBytes (c : Chain) (r : TaskRec) (p : DrainProg) (mem : Memory) (old : Nat → Nat) (i : Nat) : List (Nat × List Byte) :=
  let o := drainOut c.fmt (some p)
  let nn := tileN c.fmt
  if o.1 = 0 then drainUnit c r p mem i
  else
    let x := drainElem c r p mem (i / nn) (i % nn)
    let k := i % nn % 8
    (List.range o.1).map (fun q =>
      let a := i / nn * r.dpitch + q * (nn / 8) + i % nn / 8
      (a, [BitVec.ofNat 8 (old a - old a / 2 ^ k % 2 * 2 ^ k + x / 2 ^ (7 - q) % 2 * 2 ^ k)]))

end Sys2Proof.Machine
end

