-- ==== Sys2Proof/Machine/Part.lean ====
section
/-! DEFINITION. The part's own accesses through a VF's page tables, at the home slices (R277, R283, R347), the fault records of
the launch front end, interrupts (R305) and trace records (R325, R326). -/

namespace Sys2Proof.Machine

/-! ## Accesses at home -/

/-- How the translation of the part's own access ends: it goes on, or stops at an invalid leaf, at a missing permission, or for now. -/
inductive PartEnd where
  | done
  | fault (va level : Nat)
  | deny
  | wait
  deriving DecidableEq, Repr

/-- Steps 2 to 5 of R77 for the part's own load or store (R347). The walk leaves from die 0 and waits for the homes it goes to like any
other (R297). -/
def State.partAddr (s : State) (v : Vf) (l va : Nat) (write : Bool) : State × Option GAddr × PartEnd :=
  let s := if 2 ^ 48 ≤ va then s else s.flushWalk v va
  if 2 ^ 48 ≤ va then (s, none, .deny)
  else if !s.mayWalk 0 v va then (s, none, .wait)
  else match s.walk v va with
    | .fault lv => (s.walked 0 v va, none, .fault va lv)
    | .leaf a n pa e ptes =>
      let x := leafEntry v.id a n pa e
      let s := s.walked 0 v va
      if !(if write then x.w else x.r) || (!x.host && !s.validPa (pa + (va - a))) then (s.markPtes 0 false ptes, none, .deny)
      else (s.markPtes 0 write ptes, some { s.gaddr v l 0 x va 3 with checked := false, det := false, counted := false }, .done)

/-- The places of n bytes from a virtual address on, line by line, as far as they translate. -/
def State.partPlaces (s : State) (v : Vf) (l va : Nat) (write : Bool) : Nat → Nat → State × List (GAddr × Nat) × PartEnd
  | 0, _ => (s, [], .done)
  | fuel + 1, n =>
    if n = 0 then (s, [], .done) else
    let m := min n (128 - va % 128)
    match s.partAddr v l va write with
    | (s, none, e) => (s, [], e)
    | (s, some g, _) =>
      let (s, ps, e) := s.partPlaces v l (va + m) write fuel (n - m)
      (s, (g, m) :: ps, e)

/-- What an access answers once it has been made as far as it translates. -/
def PartEnd.answer (e : PartEnd) (s : State) (bs : List Byte) : IoRes :=
  match e with
  | .done => .ok s bs
  | .fault va lv => .fault s va lv
  | .deny => .deny s
  | .wait => .wait s

/-- Reads bytes at the home slices, once each of them can be read (R297, R347). -/
def State.partGet (s : State) (v : Vf) (ps : List (GAddr × Nat)) : IoRes :=
  if !ps.all (fun x => s.reaches 0 (homeOf x.1.pa)) then .wait s
  else
    let s := ps.foldl (fun s x => ((s.stashFlush (lineOf x.1.pa) false).consumeAt v.id ⟨24, 0⟩ x.1.pa x.2).carry 0 (homeOf x.1.pa)) s
    .ok s (ps.flatMap (fun x => s.mem.getN x.1.pa x.2))

/-- Reads n bytes from a virtual address at the home slices. -/
def State.partRead (s : State) (v : Vf) (l va fuel n : Nat) : IoRes :=
  match s.partPlaces v l va false fuel n with
  | (s, ps, .done) => s.partGet v ps
  | (s, _, e) => e.answer s []

/-- Writes bytes at the home slices, from die 0 on the way to each: a store that is ordered like any other of that die (R295). -/
def State.partPut (s : State) : List (GAddr × Nat) → List Byte → State
  | [], _ => s
  | (g, m) :: ps, bs =>
    let new := inLine g (numbered (bs.take m))
    let s := s.stashFlush (lineOf g.pa) true
    (if homeOf g.pa = 0 then s.homeWrite g.line new none else s.sendHome 0 g.line new).partPut ps (bs.drop m)

/-- Writes bytes from a virtual address on: what was written before a fault stays; nothing is written while the translation waits. -/
def State.partWrite (s : State) (v : Vf) (l va fuel : Nat) (bs : List Byte) : IoRes :=
  match s.partPlaces v l va true fuel bs.length with
  | (s, _, .wait) => .wait s
  | (s, ps, e) => e.answer (s.partPut ps bs) []

/-- The rest of a write that has faulted: from the faulting address on. -/
def restFrom (va at_ : Nat) (bs : List Byte) : List Byte := bs.drop (at_ - va)

/-- Adds a fault record of the launch front end: kind 0 or 1, no thread, no permit (R278, R347). DEDUCED (log entry 16). -/
def State.frontRecord (s : State) (vf l va kind level : Nat) : State :=
  { s with
    nextId := s.nextId + 1
    records := s.records ++ [{ rid := s.nextId, vf := vf, va := va, launch := l, team := 0xFFFFFFFF, thread := 0xFFFF,
                               kind := kind, level := level, time := (s.vfTime vf).toNat / 16 % 2 ^ 32, core := none,
                               seq := none, stop := (0, 0) }] }

/-! ## Interrupts and trace records -/

/-- Raises an interrupt to both masters (R305). -/
def State.interrupt (s : State) (vector : Nat) : State :=
  { s with mgmt := { s.mgmt with interrupts := s.mgmt.interrupts ++ [vector] } }

/-- Whether a captured event is written as a trace record: capture runs or is always on, and the ring is enabled (R325). -/
def State.tracing (s : State) : Bool :=
  (s.mgmt.capturing || s.mgmt.trctl.getLsbD 1) && decide (1 ≤ s.mgmt.trlog ∧ s.mgmt.trlog ≤ 20)

/-- The arithmetic clock of a die in MHz: 2,100, less the steps of a throttle (R19, R336). -/
def State.megaHertz (s : State) (d : Nat) : Nat := 2100 - 100 * (s.die d).slow

/-- The bytes of a trace record (R326). -/
def State.traceBytes (s : State) (kind d l team thread : Nat) : List Byte :=
  let steps := (((s.die d).doms[13]?).map (fun x => x.steps)).getD 0
  bytesOf 8 s.clock.toNat ++ bytesOf 1 kind ++ bytesOf 1 d ++ bytesOf 2 ((Config.floorMilliVolts d).toNat + 5 * steps) ++
    bytesOf 2 (s.megaHertz d) ++ bytesOf 2 0 ++ bytesOf 8 l ++ bytesOf 4 team ++ bytesOf 2 thread ++ bytesOf 2 0

/-- An event is captured: its record is written to the ring, or dropped where the ring is full (R325, R326). -/
def State.trace (s : State) (kind d l team thread : Nat) : State :=
  let m := s.mgmt
  if !s.tracing then s
  else if (m.trtail - m.trhead).toNat ≥ 2 ^ m.trlog then { s with mgmt := { m with trdrop := m.trdrop + 1 } }
  else
    let pa := m.trbase + 32 * (m.trtail.toNat % 2 ^ m.trlog)
    let s := { s with mgmt := { m with trtail := m.trtail + 1 } }
    if s.validPa pa then
      let g := GAddr.bare (s.memKey false pa)
      (s.stashFlush (lineOf g.pa) true).homeWrite g.line (inLine g (numbered (s.traceBytes kind d l team thread))) none
    else s

/-- A trace record that names no team and no thread. -/
def State.traceEvent (s : State) (kind d l : Nat) : State := s.trace kind d l 0xFFFFFFFF 0xFFFF

end Sys2Proof.Machine
end

