-- ==== Sys2Proof/Machine/Launch.lean ====
section
/-! DEFINITION. LAUNCH (R291, R292): a packet is appended to a launch queue. -/

namespace Sys2Proof.Machine

/-- A queue of a VF, and the VF with that queue in place. -/
def Vf.queue (v : Vf) (q : Nat) : Queue := v.queues.getD q Queue.fresh
def Vf.setQueue (v : Vf) (q : Nat) (x : Queue) : Vf := { v with queues := v.queues.set q x }

/-- Whether a queue is enabled (R126). -/
def Queue.enabled (q : Queue) : Bool := decide (1 ≤ q.logsize ∧ q.logsize ≤ 16)

/-- The virtual address of a slot of a queue. -/
def Queue.slotVa (q : Queue) (n : Word) : Nat := q.base + 128 * (n.toNat % 2 ^ q.logsize)

/-- What one attempt at a LAUNCH's copy comes to: a status, an invalid leaf met with what has been read, or not yet. -/
inductive LaunchTry where
  | done (s : State) (status : Word)
  | fault (s : State) (va level : Nat) (got : Option (List Byte))
  | wait (s : State)

/-- The slot of a LAUNCH is written: at home, where the front end reads it; no older byte of it stays in the L1 of the issuing core (R217,
R291). What was written before a fault stays. -/
def State.slotWrite (s : State) (v : Vf) (k : CoreId) (l va : Nat) (bs : List Byte) : IoRes :=
  match s.partPlaces v l va true 4 bs.length with
  | (s, _, .wait) => .wait s
  | (s, ps, e) =>
    let s := ps.foldl (fun s x => s.l1Drop k (lineOf x.1.pa) (fun b => decide (x.1.pa % 128 ≤ b.off ∧ b.off < x.1.pa % 128 + x.2))) s
    e.answer (s.partPut ps bs) []

/-- The copy of R291 from its first step, with the packet where it has been read. -/
def State.launchTry (s : State) (k : CoreId) (t : ThreadId) (q : Word) (a : Nat) (got : Option (List Byte)) : LaunchTry :=
  match s.vf? (launchVf t.launch) with
  | none => .done s (statusOf 0x90 0)
  | some v =>
    let x := v.queue q.toNat
    if 16 ≤ q.toNat ∨ !x.enabled then .done s (statusOf 0x90 0)
    else if a % 128 ≠ 0 ∨ 2 ^ 48 ≤ a then .done s (statusOf 0x92 0)
    else if (x.tail - x.head).toNat = 2 ^ x.logsize then .done s (statusOf 0x91 0)
    else
      let write (s : State) (bs : List Byte) : LaunchTry :=
        match s.slotWrite v k t.launch (x.slotVa x.tail) bs with
        | .ok s _ =>
          let old := x.tail.toNat % 65536
          .done (match s.vf? v.id with
            | some v => s.setVf (v.setQueue q.toNat { v.queue q.toNat with
                tail := x.tail + 1
                since := if x.tail = x.head then s.clock.toNat else x.since })
            | none => s) (BitVec.ofNat 32 (old * 65536))
        | .fault s va lv => .fault s va lv (some bs)
        | .deny s => .done s (statusOf 0x93 2)
        | .wait s => .wait s
      match got with
      | some bs => write s bs
      | none =>
        match s.engReadN k t.launch t.team a 3 true false 4 128 with
        | .ok s bs => write s bs
        | .fault s va lv => .fault s va lv none
        | .deny s => .done s (statusOf 0x93 1)
        | .wait s => .wait s

/-- A LAUNCH whose copy had to stop tries again, named by its request. -/
def State.launchGo (s : State) (r : Request) (q : Word) (a : Nat) (got : Option (List Byte)) : State :=
  let keep (s : State) (got : Option (List Byte)) (rid : Nat) : State :=
    { s with requests := s.requests.map (fun x => if x.id == r.id then { x with kind := .launch q a got rid } else x) }
  match s.launchTry r.core r.t q a got with
  | .done s st => (s.dropReq r.id).reply r.id r.t [st]
  | .fault s va lv got =>
    let (s, rid) := s.agentFault r.core r.t va 3 lv
    keep s got rid
  | .wait s => keep s got 0

/-- LAUNCH (R291, R292): the release of the thread's earlier accesses is complete before the front end acts. -/
def execLaunch (sp : Bool) (d a b : Reg) (s : State) : Out :=
  issue sp true [opD d, opA a 2, opB b] s (fun s =>
    let t := s.cur.id
    let q := s.cur.w b
    let addr := (s.cur.p a).toNat
    let s := s.releaseActs t.launch t.team 4
    if !s.releaseDone t 4 then s.parkCur (.stalled 15)
    else
      match s.launchTry s.curCore t q addr none with
      | .wait s => s.parkCur (.stalled 15)
      | .done s st => s.quick d st
      | .fault s va lv got =>
        let k := s.curCore
        let id := s.nextId
        let s := s.enqueue d 1
        let (s, rid) := s.agentFault k t va 3 lv
        (s.request id (.launch q addr got rid) false).advance)

end Sys2Proof.Machine
end

