-- ==== Sys2Proof/Machine/Welt.lean ====
section
/-! DEFINITION. Messages and replies: writes applied at a die (R295, R296, R301), requests served by another die (R297),
the timers that send dirty bytes on (R168, R294), replies that reach a thread and land (R22, R24). -/

namespace Sys2Proof.Machine

/-! ## Writes applied -/

/-- No earlier write to the line, forwarded to the same die, is still on its way (R296). -/
def State.lineTurn (s : State) (m : WeltMsg) : Bool :=
  m.toHome || !((s.welt.takeWhile (fun x => x.id != m.id)).any (fun x =>
    !x.toHome && x.dst == m.dst && lineOf x.g.pa == lineOf m.g.pa))

/-- A write of a die to a replicated page, back from the home, is over for the die once the member of the set that serves the die's loads
has it too, so that they see nothing older (R31, R301). -/
def State.replicaHas (s : State) (m : WeltMsg) : Bool :=
  !m.g.repl || !(s.welt.any (fun x => x.id != m.id && !x.toHome && x.src == m.src && x.tag == m.tag && x.dst == (serveOf m.dst m.g).1))

/-- Whether a die may apply a message now (R296). Its own write, back from the home, has no clock to wait for. -/
def State.mayApply (s : State) (m : WeltMsg) : Bool :=
  s.lineTurn m && (if m.src == m.dst then s.replicaHas m else canApply (s.die m.dst).v m.tag m.src)

/-- A replica's memory takes forwarded bytes (R301), the poisoned ones of them as such (R328). -/
def State.updateReplica (s : State) (m : WeltMsg) : State :=
  if !m.g.reps.contains m.dst then s else
  let a := replKey m.g.pa m.dst
  let s := s.logWrite m.g.launch a
  (State.renewStored { s with mem := s.mem.putAt a m.bytes } (fun f => match f with
    | .memory pa _ => m.bytes.any (fun b => a + b.1 == pa)
    | _ => false)).addPoison (m.bad.map (fun o => .memory (a + o) 0))

/-- Updates a replica's memory and a die's copy of a line with forwarded bytes: in the copy neither the bytes that are dirty there nor
those of which the die's own later write has not come back (R31, R294, R301); what is poisoned stays so (R328). -/
def State.updateCopy (s : State) (m : WeltMsg) : State :=
  if m.notice then s else
  let line := lineOf m.g.pa
  let s := (s.stashFlush line true).updateReplica m
  match s.l2Line m.dst line with
  | none => s
  | some l =>
    let new := m.bytes.filter (fun b => (s.ownPending m.dst line b.1).isNone)
    let taken (o : Nat) : Bool := new.any (fun b => b.1 == o) && (byteAt l.bytes o).any (fun b => !b.dirty)
    ((s.setL2 m.dst { l with bytes := setHeld l.bytes new }).renewStored (fun f => match f with
      | .l2 d n o _ => d == m.dst && n == line && taken o
      | _ => false)).addPoison ((m.bad.filter taken).map (fun o => .l2 m.dst line o 0))

/-- A message's bytes are written at the home slice; the poisoned ones that pass the ticket unit are poisoned there, and in the messages
in which the home sends them on (R328). -/
def State.applyHome (s : State) (m : WeltMsg) : State :=
  let bad := if m.bad.isEmpty then [] else m.bad.filter (fun o => (s.ticketFilter m.g m.bytes).2.any (fun b => b.1 == o))
  s.withPoison (homeOf m.g.pa) m.g bad (fun s => s.homeWrite m.g m.bytes (some (m.src, m.tag)))

/-- Applies a message at its destination: at the home slice, in a copy, or as a notice; the die's clock moves (R296). -/
def State.applyMsg (s : State) (m : WeltMsg) : State :=
  let s := { s with welt := s.welt.filter (fun x => x.id != m.id) }
  let s := if m.toHome then (s.stashFlush (lineOf m.g.pa) true).applyHome m
           else s.updateCopy m
  if m.src == m.dst then s else s.tick m.dst m.src m.tag

/-- WRITE_APPLY (R295, R296, R301). -/
def execWriteApply (msg : Nat) (s : State) : Out :=
  match s.welt.find? (fun m => m.id == msg) with
  | none => .next s
  | some m => .next (if s.mayApply m then (s.applyMsg m).stir.barrierLeave else s)

/-! ## Requests served -/

/-- A die may serve a request: its clock covers the one the request carries (R297). -/
def State.mayServe (s : State) (r : Request) (m : Nat) : Bool := decide (24 ≤ m) || covers (s.die m).v r.hor

/-- Fills the caches of the core a load came from, with its line as the serving die holds it (R168, R294, R301). -/
def State.fillFrom (s : State) (r : Request) (g : GAddr) : State :=
  if g.checked || g.cache == 0 || g.repl || homeOf g.pa == hostHome then s else
  let d := r.core.die
  let s := s.fillLine d g
  if 2 ≤ g.cache then s.l1Fill r.core g (crewOf r.t) (s.lineBytes d g) else s

/-- The n bytes of a request's load once its line can be had from the serving die: those got at issue stand. -/
def State.servedBytes (s : State) (r : Request) (g : GAddr) (src n base : Nat) (got : List (Nat × Byte)) : List (Nat × Byte) :=
  (List.range n).map (fun i => (base + i, match got.find? (fun x => x.1 == base + i) with
    | some x => x.2
    | none => if g.checked then s.mem.get (src + i) else (s.readDie r.core.die g i).getD (s.mem.get (src + i))))

/-- One part of a load is served: the state after and all its bytes (R297). -/
def State.servePart (s : State) (r : Request) (g : GAddr) (src n base : Nat) (got : List (Nat × Byte)) :
    State × List (Nat × Byte) :=
  let s := s.stashFlush (lineOf g.pa) false
  let s := (s.fillFrom r g).consumeAt g.vf r.core src n
  let bs := s.servedBytes r g src n base got
  ((s.countRead g).carry r.core.die (homeOf src), bs)

/-- The bytes of a half of an LDU are all there. -/
def halfGot (base : Nat) (got : List (Nat × Byte)) : Bool :=
  (List.range 8).all (fun i => got.any (fun x => x.1 == base + i))

/-- Whether a request's entry waits to be sent again after a restore (R283, R285). -/
def State.awaitsReissue (s : State) (r : Request) : Bool :=
  ((s.thread? r.t).map (fun t => t.queue.any (fun e => e.req == r.id && e.st == .reissue))).getD false

/-- The home's bytes reach the copy that a write has made at a die, where that holds it still (R294). -/
def State.fillCopy (s : State) (r : Request) (g : GAddr) : State :=
  let d := r.core.die
  let s := { s with requests := s.requests.filter (fun x => x.id != r.id) }
  if (s.l2Line d (lineOf g.pa)).isSome then (s.fillLine d g).carry d (homeOf g.pa) else s

/-! ## Bundle loads begun again -/

/-- What one access of an LDU that a restore begins again answers: its bytes, the address it goes to, a trap with its code and TRAPINFO,
an invalid leaf, a debug stop with its TRAPINFO, or not yet (R117, R290). -/
inductive Again where
  | bytes (s : State) (bs : List Byte)
  | glob (s : State) (g : GAddr)
  | trap (s : State) (code info : Nat)
  | fault (s : State) (level : Nat)
  | debug (s : State) (info : Nat)
  | wait (s : State)

/-- Steps 2 to 6 of R77 for one access of such an LDU, at an address below 2^64; the addresses of `pass` are not judged by step 2 again
(R275, R279). -/
def State.againPart (s : State) (r : Request) (pass : List Nat) (ea : Nat) : Again :=
  let l := r.t.launch
  let p := s.packet l
  let k := r.core
  let scr (team off : Nat) : Again :=
    if s.hatched l team off 8 false then .wait s
    else match s.stashTouch l team off with
      | .wait s => .wait s
      | .ok s _ => .bytes (s.consumeScratch k l team off 8) (s.scratchBytes l team off 8)
  match aperture p (BitVec.ofNat 64 ea) 8 with
  | .bad => .trap s 0x06 1
  | .scr off => scr r.t.team off
  | .clu q off => scr (quadPeer p r.t.team q) off
  | .glob va =>
    match s.vf? (launchVf l) with
    | none => .trap s 0x06 2
    | some v =>
      match if pass.contains va then none else v.watched va 8 false with
      | some i => if v.dbgctl.getLsbD 0 then .debug s (1 + 16 * i) else .trap s 0x0F (1 + 16 * i)
      | none =>
        match s.entryNow k v va false with
        | .wait s => .wait s
        | .fault s lv => .fault s lv
        | .deny s => .trap s 0x08 1
        | .ok s e =>
          if !e.r then .trap s 0x08 1
          else if !e.host && !s.validPa (e.pa + (va - e.va)) then .trap s 0x06 2
          else
            let g := s.gaddr v l r.t.team e va 3
            match s.routeOf l r.t.team g va with
            | .wait s => .wait s
            | .stash s off => .bytes (s.consumeScratch k l r.t.team off 8) (s.scratchBytes l r.t.team off 8)
            | .mem s => if s.missFull k g 8 then .wait s else .glob s g

/-- A request changes its kind. -/
def State.keepReq (s : State) (r : Request) (kind : ReqKind) : State :=
  { s with requests := s.requests.map (fun x => if x.id == r.id then { x with kind := kind } else x) }

/-- An LDU that has begun again ends in a trap at its own word (R290): its entry goes. DESIGN CHOICE (log entry 25). -/
def State.againTrap (s : State) (r : Request) (pc : Word) (code info addr : Nat) : State :=
  ((s.dropReq r.id).modThread r.t (fun t => { t with queue := t.queue.filter (fun e => e.req != r.id) })).trapThread r.t code info
    (BitVec.ofNat 64 addr) pc pc

/-- The access at `va` of such an LDU stops on a record, a page fault's or a debug stop's, or waits for a permit (R275 to R278). -/
def Again.stop (x : Again) (r : Request) (ea : Nat) (pc : Word) (pass : List Nat) (va : Nat) : State :=
  match x with
  | .fault s lv =>
    let (s, rid) := s.agentFault r.core r.t va 0 lv
    if rid = 0 then s else s.keepReq r (.lduAgain ea pc (va :: pass) rid none)
  | .debug s info =>
    if s.permitFree r.core then
      let rid := s.nextId
      let s := (s.takePermit r.core).addRecord r.vf va r.t 5 15 r.core
      State.keepReq { s with records := s.records.map (fun (f : FRec) => if f.rid == rid then { f with stop := (0x0F, info) } else f) } r
        (.lduAgain ea pc (va :: pass) rid none)
    else s
  | .trap s code info => s.againTrap r pc code info va
  | .wait s => s
  | .bytes s _ => s
  | .glob s _ => s

/-- What a part of such an LDU has found: its bytes, and the address of those still to come. -/
def State.againBytes (s : State) (r : Request) (base : Nat) (x : Again) : State × List (Nat × Byte) × GAddr :=
  match x with
  | .bytes s bs => (s, (numbered bs).map (fun b : Nat × Byte => (base + b.1, b.2)), noAddr)
  | .glob s g => let y := s.lduGlobal r.core (crewOf r.t) g base; (y.1, y.2, g)
  | _ => (s, [], noAddr)

/-- What a part of such an LDU that has passed its checks has found, at a later state. -/
def Again.on (x : Again) (s : State) : Again :=
  match x with
  | .bytes _ bs => .bytes s bs
  | .glob _ g => .glob s g
  | _ => .wait s

/-- A part of such an LDU has passed its checks: the state then. -/
def Again.passed : Again → Option State
  | .bytes s _ => some s
  | .glob s _ => some s
  | _ => none

/-- An LDU that a restore begins again runs from its first step (R117, R290): both accesses pass their checks before either reads. -/
def State.again (s : State) (r : Request) (ea : Nat) (pc : Word) (pass : List Nat) : State :=
  let a := ea % 8
  let base := ea - a
  let next := (base + 8) % 2 ^ 64
  let p1 := s.againPart r pass base
  match p1.passed with
  | none => p1.stop r ea pc pass base
  | some s1 =>
    let p2 := if a = 0 then Again.bytes s1 [] else s1.againPart r pass next
    match p2.passed with
    | none => p2.stop r ea pc pass next
    | some s2 =>
      let (s3, b1, g1) := s2.againBytes r 0 (p1.on s2)
      let (s4, b2, g2) := s3.againBytes r 8 (p2.on s3)
      match lduWords a (b1 ++ b2) with
      | some ws => (s4.dropReq r.id).reply r.id r.t ws
      | none =>
        let d := s4.die r.core.die
        State.stir { s4 with requests := s4.requests.map (fun x => if x.id == r.id
          then { x with kind := .ldu ea pc g1 g2 (b1 ++ b2), hor := vmax d.h d.v } else x) }

/-- REMOTE_REQUEST_SERVE (R290, R291, R294, R297, R301 to R303): another die serves a load or the fill of a copy; the copy of a LAUNCH that had
to wait goes on. -/
def execRemoteRequestServe (req : Nat) (s : State) : Out :=
  match s.requests.find? (fun r => r.id == req) with
  | none => .next s
  | some r =>
    if s.awaitsReissue r then .next s else
    match r.kind with
    | .load g src n sgn got =>
      if !s.mayServe r (homeOf src) then .next s else
      let (s, bs) := s.servePart r g src n 0 got
      .next ((s.dropReq req).reply req r.t (loadWords n sgn (bs.map (fun x : Nat × Byte => x.2))))
    | .lduAgain ea pc pass rid fail =>
      .next (match fail with
        | some (code, info, addr) => s.againTrap r pc code info addr
        | none => if rid = 0 then s.again r ea pc pass else s)
    | .ldu ea pc g1 g2 got =>
      let (g, base) := if halfGot 0 got then (g2, 8) else (g1, 0)
      let (m, src) := loadSource r.core.die g
      if !s.mayServe r m then .next s else
      let (s, bs) := s.servePart r g src 8 base got
      let got := got.filter (fun x => !(decide (base ≤ x.1 ∧ x.1 < base + 8))) ++ bs
      .next (match lduWords (ea % 8) got with
        | some ws => (s.dropReq req).reply req r.t ws
        | none => s.keepReq r (.ldu ea pc g1 g2 got))
    | .fill g => .next (if s.mayServe r (homeOf g.pa) then s.fillCopy r g else s)
    | .launch q a got rid => .next (if rid = 0 then s.launchGo r q a got else s)
    | _ => .next s

/-! ## Timers -/

/-- REMOTE_LINE_SEND_TIMER (R294): a die sends a remote line's dirty bytes home within 65,536 cycles. -/
def execRemoteLineSendTimer (d line : Nat) (s : State) : Out :=
  match s.l2Line d line with
  | some l => .next (if !(dirtyBytes l.bytes).isEmpty && decide (l.dirtied + 65536 ≤ s.cycle)
      then s.sendLine d line (fun _ => true) else s)
  | none => .next s

/-- L1_WRITEBACK_TIMER (R168): the L1 writes a line's dirty bytes back within 16,384 cycles. -/
def execL1WritebackTimer (k : CoreId) (line : Nat) (s : State) : Out :=
  match (s.core k).l1Line line with
  | some l => .next (if !(dirtyBytes l.bytes).isEmpty && decide (l.dirtied + 16384 ≤ s.cycle)
      then s.l1Clean k line (fun _ => true) else s)
  | none => .next s

/-! ## Replies -/

/-- Whether a team is off its core with its image written. -/
def State.isSwapped (s : State) (l t : Nat) : Bool :=
  match s.team? l t with
  | some tm => tm.st == .swapped
  | none => false

/-- The reply of a STEAL sets its core's clock (R136). -/
def State.takeClock (s : State) (r : Reply) : State :=
  if r.lamport = 0 then s else
  let c := s.core (s.coreOf r.t.launch r.t.team)
  s.setCore { c with lamport := max c.lamport r.lamport + 1 }

/-- LONG_LATENCY_REPLY (R22, R136): a reply reaches its entry of the pending-result queue and is held there. An acquire at
package scope follows LDSC and CASSC (R189). -/
def execLongLatencyReply (req : Nat) (s : State) : Out :=
  match s.replies.find? (fun r => r.req == req) with
  | none => .next s
  | some r =>
    let d := s.die (s.coreOf r.t.launch r.t.team).die
    if s.isSwapped r.t.launch r.t.team || (r.acq && !covers d.v d.h) then .next s
    else
      let s := (if r.acq then s.acquireActs r.t.launch r.t.team 4 else s).takeClock r
      let s := State.modThread { s with replies := s.replies.filter (fun x => x.req != req) } r.t (fun t => t.hold req r.val)
      .next s.stir.barrierLeave

/-- SWITCH_POINT_LEAVE (R22, R24): the results of a parked thread land in issue order and it goes on at its word. -/
def execSwitchPointLeave (t : ThreadId) (s : State) : Out :=
  match s.thread? t with
  | none => .next s
  | some x =>
    if x.phase == .switchParked && x.repliesIn && !s.isSwapped t.launch t.team then
      .next ((s.modThread t (fun x => x.leaveSwitch)).renewStored (fun f =>
        x.queue.any (fun e => inRegs t e.base e.width f)))
    else .next s

end Sys2Proof.Machine
end

