-- ==== Sys2Proof/Machine/Graver.lean ====
section
/-! DEFINITION. The graver and the Cobbler: TASK and DPROG, the placing and running of tile tasks, drains and tile
add-on-stores (R251 to R265, R315). -/

namespace Sys2Proof.Machine

/-! ## Chains as an issuing task finds them -/

/-- Whether an operation is a task of a team's chain. -/
def EngineOp.ofChain (e : EngineOp) (l t id : Nat) : Bool :=
  e.t.launch == l && e.t.team == t && (match e.kind with
    | .task r _ _ => r.chain == id
    | _ => false)

/-- The open chain of a team's id. -/
def State.chain? (s : State) (l t id : Nat) : Option Chain :=
  s.chains.find? (fun c => c.launch == l && c.team == t && c.id == id)

/-- The format and M of the chain that a task issued now belongs to, after every accepted task of its id (R256). DEDUCED (log entry 23). -/
def State.issueChain (s : State) (l t id : Nat) : Option (Nat × Nat) :=
  (s.engines.filter (fun e => e.st != .done && e.ofChain l t id)).foldl (fun c e => match e.kind with
    | .task r _ opens => if r.drains then none else if opens then some (r.afmt, r.m) else c
    | _ => c) ((s.chain? l t id).map (fun c => (c.fmt, c.m)))

/-- Whether a record opens its chain. -/
def TaskRec.opens (r : TaskRec) : Bool := r.kind != 1 && r.zacc

/-- The detail of ECHAIN with which a task fails against its chain's state (R256). -/
def chainBad (r : TaskRec) (open? : Option (Nat × Nat)) : Option Nat :=
  if r.opens then (if open?.isSome then some 1 else none)
  else match open? with
    | none => some 2
    | some c => if r.kind != 1 && (r.afmt != c.1 || r.m != c.2) then some 3 else none

/-- The installed program of a slot of a team's quad team (R262). -/
def State.slotProg (s : State) (l t slot : Nat) : Option DrainProg :=
  (s.drains.find? (fun d => d.launch == l && d.quad == t / (s.packet l).qsize)).bind (fun d =>
    (d.progs.find? (fun x => x.1 == slot)).map (fun x => x.2))

/-! ## TASK -/

/-- The offset of the destination field that fails R260. -/
def destBad (r : TaskRec) (fmt : Nat) (o : Nat × Nat) : Option Nat :=
  let u := outUnit fmt o
  firstBad [(32, r.dest % u == 0), (40, r.dpitch % u == 0 && decide (outRow fmt o ≤ r.dpitch))]

/-- The scratch ranges of a task, each with the offset of the field that starts it (R264). -/
def taskRanges (p : Packet) (t : Nat) (r : TaskRec) (prog : Option DrainProg) (fmt m : Nat) : List (Nat × Range) :=
  let mma := r.kind == 0
  let n8 := mma && r.afmt == 0
  let n := tileN fmt
  let dest (team off : Nat) : List (Nat × Range) :=
    [(32, ⟨team, off, off + (m - 1) * r.dpitch + outRow fmt (drainOut fmt prog), true⟩)]
  let vs := progVectors prog
  (if mma then [(8, ⟨t, r.aoff, r.aoff + (m - 1) * r.apitch + rowBytes r.afmt r.aplanes, false⟩)] else []) ++
  (if n8 then [(16, ⟨t, r.ascale, r.ascale + 4 * m, false⟩)] else []) ++
  (if mma then [(20, ⟨t, r.boff, r.boff + (n - 1) * r.bpitch + rowBytes r.bfmt r.bplanes, false⟩)] else []) ++
  (if n8 then [(28, ⟨t, r.bscale, r.bscale + 4 * n, false⟩)] else []) ++
  (if r.drains && storeOp prog != 0 then (match aperture p (BitVec.ofNat 64 r.dest) 1 with
    | .scr off => dest t off
    | .clu q off => dest (quadPeer p t q) off
    | _ => []) else []) ++
  (match vs with
   | [] => []
   | v :: rest => [(44, ⟨t, r.voff + 4 * n * rest.foldl min v, r.voff + 4 * n * (rest.foldl max v + 1), false⟩)]) ++
  (if progResid prog then [(48, ⟨t, r.roff, r.roff + 4 * m * n, false⟩)] else [])

/-- Whether a drain's global destination passes 2^48. -/
def destBeyond (r : TaskRec) (prog : Option DrainProg) (fmt m : Nat) : Bool :=
  r.drains && storeOp prog != 0 && decide (r.dest < 2 ^ 48) &&
    decide (2 ^ 48 < r.dest + (m - 1) * r.dpitch + outRow fmt (drainOut fmt prog))

/-- Tasks in the queue of a core's quad (R257). -/
def State.cobblerCount (s : State) (k : CoreId) : Nat :=
  (s.engines.filter (fun e => sameQuad e.core k && e.st == .queued && (match e.kind with
    | .task _ _ _ => true
    | _ => false))).length

/-- Steps 3 to 5 of R264 for a task whose record is in order. -/
def State.issueTask (s : State) (r : TaskRec) (d : Reg) : State :=
  let t := s.cur.id
  let open? := s.issueChain t.launch t.team r.chain
  match chainBad r open? with
  | some c => s.quick d (statusOf 0x81 c)
  | none =>
    let c := if r.opens then (r.afmt, r.m) else open?.getD (0, 0)
    let prog := if r.drains then s.slotProg t.launch t.team r.slot else none
    match if r.drains then destBad r c.1 (drainOut c.1 prog) else none with
    | some o => s.quick d (statusOf 0x80 o)
    | none =>
      let rs := taskRanges s.pk t.team r prog c.1 c.2
      match rs.find? (fun x => decide (s.pk.carveBytes < x.2.hi)) with
      | some x => s.quick d (statusOf 0x82 x.1)
      | none =>
        if destBeyond r prog c.1 c.2 then s.quick d (statusOf 0x86 0)
        else
          let ranges := rs.map (fun x => x.2)
          if 64 ≤ s.cobblerCount s.curCore || !s.hatchRoom t.launch ranges then s.parkCur (.stalled 9)
          else s.startEng (.task r prog r.opens) .queued 0 ranges d

/-- TASK (R264). -/
def execTask (sp : Bool) (d a : Reg) (s : State) : Out :=
  issue sp true [opD d, opA a] s (fun s =>
    let a := (s.cur.w a).toNat
    let l := s.cur.id.launch
    let t := s.cur.id.team
    if a % 64 ≠ 0 ∨ s.pk.carveBytes < a + 64 then s.quick d (statusOf 0x82 8)
    else if s.hatched l t a 64 false then s.parkCur (.stalled 5)
    else if s.unorderedScr t a 64 then s.parkCur (.stalled 15)
    else match s.stashTouch l t a with
      | .wait s => s.parkCur (.stalled 15)
      | .ok s _ =>
        let s := s.consumeScratch s.curCore l t a 64
        let b := s.scratchBytes l t a 64
        let f0 := ((s.vf? (launchVf l)).map (fun v => v.feature0)).getD 0
        match taskBad b f0 s.pk with
        | some o => s.quick d (statusOf 0x80 o)
        | none => s.issueTask (taskRec b) d)

/-! ## DPROG -/

/-- DPROG (R262): the first two checks answer at issue. -/
def execDprog (sp : Bool) (d a b : Reg) (s : State) : Out :=
  issue sp true [opD d, opA a, opB b] s (fun s =>
    let a := (s.cur.w a).toNat
    let slot := (s.cur.w b).toNat
    let rs : List Range := [⟨s.cur.id.team, a, a + 80, false⟩]
    if a % 16 ≠ 0 ∨ s.pk.carveBytes < a + 80 then s.quick d (statusOf 0x82 0)
    else if 16 ≤ slot then s.quick d (statusOf 0x83 0xFE)
    else if !s.hatchRoom s.cur.id.launch rs then s.parkCur (.stalled 9)
    else s.startEng (.dprog a slot none) .queued 0 rs d)

/-- A DPROG reads and checks its program (R262). -/
def State.beginDprog (s : State) (e : EngineOp) (a slot : Nat) : State :=
  let l := e.t.launch
  let t := e.t.team
  match s.touchRange l t a 80 with
  | .wait s => s
  | .ok s _ =>
    let s := s.consumeScratch e.core l t a 80
    let b := s.scratchBytes l t a 80
    match progBad b with
    | some i => s.finishEng e (statusOf 0x83 i)
    | none => s.finishEng { e with kind := .dprog a slot (some (drainProg b)) } 0

/-- A DPROG that has succeeded replaces its slot (R262). -/
def State.installProg (s : State) (e : EngineOp) : State :=
  match e.kind with
  | .dprog _ slot (some p) =>
    let l := e.t.launch
    let q := e.t.team / (s.packet l).qsize
    let old := ((s.drains.find? (fun d => d.launch == l && d.quad == q)).map (fun d => d.progs)).getD []
    let new : DrainTable := ⟨l, q, upsert (fun x => x.1 == slot) (slot, p) old⟩
    { s with drains := upsert (fun d => d.launch == l && d.quad == q) new s.drains }
  | _ => s

/-! ## Placing -/

/-- The cores of a core's quad. -/
def quadCores (k : CoreId) : List CoreId := (List.range 4).map (fun i => ⟨k.die, k.core / 4 * 4 + i⟩)

/-- The key of a task's B (R251). -/
def State.weightKey (s : State) (e : EngineOp) (r : TaskRec) : List Nat :=
  [coreNum e.core, r.boff, r.bscale, r.bpitch, r.bfmt, r.bplanes, if r.strict then 1 else 0, (s.core e.core).gen, e.vf,
   e.t.launch, e.t.team]

/-- The lower free accumulator slot of a graver's two (R256 to R258): the chains of a saved team hold none. -/
def State.graverSlot (s : State) (g : CoreId) : Option Nat :=
  [0, 1].find? (fun i => !(s.chains.any (fun c => c.graver == g && c.slot == i && !s.isSwapped c.launch c.team)))

/-- The graver and slot that an opening task takes, where one of its quad is free: one that has latched its B, then that of the issuing
core, then the lowest core number (R257). -/
def State.chooseGraver (s : State) (k : CoreId) (key : List Nat) : Option (CoreId × Nat) :=
  let gs := k :: quadCores k
  (gs.filter (fun g => (s.core g).weights.any (fun w => w.key == key)) ++ gs).findSome? (fun g =>
    (s.graverSlot g).map (fun i => (g, i)))

/-- Where a task goes: its chain's graver and slot, or those it opens with. -/
def State.taskTarget (s : State) (e : EngineOp) (r : TaskRec) (opens : Bool) : Option (CoreId × Nat) :=
  if opens then s.chooseGraver e.core (if r.kind = 0 then s.weightKey e r else [])
  else (s.chain? e.t.launch e.t.team r.chain).map (fun c => (c.graver, c.slot))

/-- A queued task is ready: it waits for no earlier access, no earlier overlapping operation and no earlier task of its
chain id (R204, R209, R257). -/
def State.taskReady (s : State) (e : EngineOp) (r : TaskRec) : Bool :=
  e.st == .queued && s.hatchTurn e.no && s.forked e.t e.no &&
    !(s.engines.any (fun x => decide (x.no < e.no) && x.st != .done && x.ofChain e.t.launch e.t.team r.chain))

/-- Whether an operation is a begun task whose chain is on a graver. -/
def State.onGraver (s : State) (x : EngineOp) (g : CoreId) : Bool :=
  x.st != .queued && x.st != .done && (match x.kind with
    | .task r _ _ => ((s.chain? x.t.launch x.t.team r.chain).map (fun c => c.graver)) == some g
    | _ => false)

/-- A graver is free for a task: it runs none, and no older task is ready for it (R257). -/
def State.graverFree (s : State) (e : EngineOp) (g : CoreId) : Bool :=
  !(s.engines.any (fun x => x.no != e.no && s.onGraver x g)) &&
  !(s.engines.any (fun x => decide (x.no < e.no) && (match x.kind with
    | .task r _ opens => s.taskReady x r && ((s.taskTarget x r opens).map (fun y => y.1)) == some g
    | _ => false)))

/-! ## Running -/

/-- Puts an open chain in place. -/
def State.setChain (s : State) (c : Chain) : State :=
  { s with chains := upsert (fun x => x.launch == c.launch && x.team == c.team && x.id == c.id) c s.chains }

/-- A status word of TASK (R265), its HIT bit kept. -/
def taskStatus (e : EngineOp) (code detail : Nat) (sat ended : Bool) : Word :=
  (e.status &&& 0x40000) ||| statusOf code detail ||| (if sat then 0x10000 else 0) ||| (if ended then 0x20000 else 0)

/-- A task ends with its status; where it has ended its chain, the slot is free (R256). -/
def State.endTask (s : State) (e : EngineOp) (status : Word) : State :=
  let s := s.finishEng e status
  match e.kind with
  | .task r _ _ =>
    if status.getLsbD 17 then
      State.chainEnded { s with chains := s.chains.filter (fun c =>
        !(c.launch == e.t.launch && c.team == e.t.team && c.id == r.chain)) } e.core
    else s
  | _ => s

/-- Latches B in a weight slot of a graver: the matching slot, a free one of four, or the one least recently used
(R251). -/
def State.latch (s : State) (g : CoreId) (key : List Nat) : State :=
  let c := s.core g
  let others := c.weights.filter (fun w => w.key != key)
  let kept := if others.length < 4 then others
    else match lruOf (fun w => w.used) (fun _ => 0) others with
      | none => others
      | some v => others.filter (fun w => w.key != v.key)
  s.setCore { c with weights := kept ++ [⟨key, s.cycle⟩] }

/-- The scratch of a task's team. -/
def State.taskMem (s : State) (e : EngineOp) : Memory := ((s.team? e.t.launch e.t.team).map (fun x => x.scratch)).getD []

/-- The lines a drain writes to for a unit. -/
def drainLines (r : TaskRec) (ws : List (Nat × List Byte)) : List Nat := ws.map (fun x => (r.dest + x.1) / 128)

/-- The units of a drain from number i on that are written together: those that go to the lines of the first (R217). -/
def State.drainRun (s : State) (e : EngineOp) (r : TaskRec) (c : Chain) (p : DrainProg) (i : Nat) : List (List (Nat × List Byte)) :=
  let mem := s.taskMem e
  ((List.range (min (drainUnits c p - i) 128)).map (fun j => drainUnit c r p mem (i + j))).takeWhile (fun ws =>
    drainLines r ws == drainLines r (drainUnit c r p mem i))

/-- The writes of a run, once every line it goes to may be written (R217, R261). -/
def State.drainWrite (s : State) (e : EngineOp) (r : TaskRec) (run : List (List (Nat × List Byte))) : IoRes :=
  let firsts := ((run.headD []).map (fun x => r.dest + x.1))
  let on (line : Nat) : List (Nat × Byte) := (run.flatten.filter (fun x => (r.dest + x.1) / 128 == line)).flatMap (fun x =>
    (numbered x.2).map (fun y : Nat × Byte => ((r.dest + x.1) % 128 + y.1, y.2)))
  (drainLines r (run.headD [])).dedup.foldl (fun o line => o.andThen (fun s =>
      s.engWrite e.core e.t.launch e.t.team (line * 128) 3 (on line)))
    (firsts.foldl (fun o va => o.andThen (fun s => s.engMayWrite e.core e.t.launch va)) (.ok s []))

/-- Stores the units of a drain from number i on to global memory, one write per line (R217, R261). -/
def State.drainStore (s : State) (e : EngineOp) (r : TaskRec) (c : Chain) (p : DrainProg) : Nat → Nat → State
  | 0, _ => s
  | fuel + 1, i =>
    if drainUnits c p ≤ i then s.endTask e (taskStatus e 0 0 c.sat true)
    else
      let run := s.drainRun e r c p i
      (s.drainWrite e r run).next
        (fun s _ => s.drainStore e r c p fuel (i + run.length))
        (fun s va lv => s.stallEng { e with pos := i + 1 } va lv)
        (fun s => s.endTask e (taskStatus e 0x85 1 c.sat true))
        (fun s => s.setEng { e with pos := i + 1, st := .running })

/-- The translated address of an add-on-store's element, or how its access ends. -/
inductive AddAddr where
  | ok (s : State) (g : GAddr)
  | fault (s : State) (level : Nat)
  | deny (s : State)
  | wait (s : State)

/-- Translates an element of an add-on-store (R217, R263). -/
def State.addAddr (s : State) (e : EngineOp) (va : Nat) : AddAddr :=
  match s.vf? e.vf with
  | none => .deny s
  | some v =>
    match s.entryNow e.core v va true with
    | .fault s lv => .fault s lv
    | .deny s => .deny s
    | .wait s => .wait s
    | .ok s x =>
      if !x.w || (!x.host && !s.validPa (x.pa + (va - x.va))) then .deny s
      else .ok s (s.gaddr v e.t.launch e.t.team x va 3)

/-- The add-on-store of a task is to be performed with the elements translated, after which the task has the status
given; none of its bytes stays dirty nearer than its home (R263). -/
def State.readyAdd (s : State) (e : EngineOp) (t : Tile) (status : Word) : State :=
  if t.elems.isEmpty then s.endTask e status
  else
    let s := t.elems.foldl (fun s x => s.writeBackRange e.core x.1 (if t.f64 then 8 else 4) true) s
    s.setEng { e with st := .addst, tile := some t, status := status }

/-- Translates the elements of an add-on-store from number i on (R261, R263). -/
def State.drainAdd (s : State) (e : EngineOp) (r : TaskRec) (sat : Bool) : List (Nat × List Byte) → Nat → Tile → State
  | [], _, t => s.readyAdd e t (taskStatus e 0 0 sat true)
  | p :: ps, i, t =>
    match s.addAddr e (r.dest + p.1) with
    | .ok s g => s.drainAdd e r sat ps (i + 1) { t with elems := t.elems ++ [(g, natOf p.2)] }
    | .fault s lv => s.stallEng { e with pos := i + 1, tile := some t } (r.dest + p.1) lv
    | .deny s => s.readyAdd e t (taskStatus e 0x85 1 sat true)
    | .wait s => s.setEng { e with pos := i + 1, tile := some t, st := .running }

/-- Adds the pieces of a drain to scratch or cluster as one add-on-store (R263). -/
def State.drainAddScratch (s : State) (l team off : Nat) (f : Fmt) (ps : List (Nat × List Byte)) : State :=
  ps.foldl (fun s p =>
    let n := p.2.length
    s.writeScratch l team (off + p.1) (bytesOf n (f.add 0 (natOf (s.scratchBytes l team (off + p.1) n)) (natOf p.2)).bits)) s

/-- Stores the elements of a drain into scratch or cluster, one after another: each is made of the scratch as the one before has left it
(R261). -/
def State.drainElements (s : State) (e : EngineOp) (r : TaskRec) (c : Chain) (p : DrainProg) (team off : Nat) : State :=
  (List.range (c.m * tileN c.fmt)).foldl (fun s i =>
    (drainBytes c r p (s.taskMem e) (fun a => natOf (s.scratchBytes e.t.launch team (off + a) 1)) i).foldl (fun s w =>
      s.writeScratch e.t.launch team (off + w.1) w.2) s) s

/-- A drain into scratch or cluster, once the stash lines it goes to are filled (R172, R261, R263). -/
def State.drainScratch (s : State) (e : EngineOp) (r : TaskRec) (c : Chain) (p : DrainProg) (team off : Nat) (add : Bool) :
    Tried Unit :=
  let ps := drainPieces c r p (s.taskMem e)
  (s.tryAll ps (fun s x => s.touchRange e.t.launch team (off + x.1) x.2.length)).andThen (fun s _ =>
    .ok (if add then s.drainAddScratch e.t.launch team off (accFmt c.fmt) ps else s.drainElements e r c p team off) ())

/-- A drain begins or goes on from its piece (R259 to R263). -/
def State.runDrain (s : State) (e : EngineOp) (r : TaskRec) (prog : Option DrainProg) : State :=
  let l := e.t.launch
  let t := e.t.team
  match s.chain? l t r.chain, prog with
  | some c, some p =>
    let ok := taskStatus e 0 0 c.sat true
    if storeOp prog = 0 then s.endTask e ok
    else
      let scr (team off : Nat) : State := match s.drainScratch e r c p team off (storeOp prog == 9) with
        | .ok s _ => s.endTask e ok
        | .wait s => s.setEng { e with st := .running }
      match aperture (s.packet l) (BitVec.ofNat 64 r.dest) 1 with
      | .scr off => scr t off
      | .clu q off => scr (quadPeer (s.packet l) t q) off
      | _ =>
        let i := e.pos - 1
        if storeOp prog = 9 then s.drainAdd e r c.sat ((drainPieces c r p (s.taskMem e)).drop i) i (e.tile.getD ⟨t, c.fmt == 4, []⟩)
        else s.drainStore e r c p (drainUnits c p + 1) i
  | some c, none => s.endTask e (taskStatus e 0x83 0xFF c.sat true)
  | none, _ => s.endTask e (taskStatus e 0x81 2 false false)

/-- A chain after the arithmetic of a task (R247, R249, R255). -/
def Chain.run (c : Chain) (r : TaskRec) (nbv : Nat) (mem : Memory) : Chain :=
  if r.kind = 2 then c.zero
  else if r.kind = 1 then c
  else if r.afmt = 0 then mmaN8 c r mem
  else mmaFp c r nbv mem

/-- A task begins on a graver's slot: its scratch lines are touched and read, B is latched, the arithmetic runs, and the
drain follows where the task drains (R251 to R256). -/
def State.beginTask (s : State) (e : EngineOp) (r : TaskRec) (prog : Option DrainProg) (opens : Bool) (g : CoreId)
    (slot : Nat) : State :=
  let l := e.t.launch
  let t := e.t.team
  let c := if opens then Chain.zero ⟨l, t, r.chain, r.afmt, r.m, none, false, [], g, slot⟩
    else (s.chain? l t r.chain).getD ⟨l, t, r.chain, r.afmt, r.m, none, false, [], g, slot⟩
  let rs := ((taskRanges (s.packet l) t r prog c.fmt c.m).map (fun x => x.2)).filter (fun x => !x.write)
  match s.tryAll rs (fun s x => s.touchRange l t x.lo (x.hi - x.lo)) with
  | .wait s => s
  | .ok s _ =>
    let s := rs.foldl (fun s x => s.consumeScratch e.core l t x.lo (x.hi - x.lo)) s
    let key := s.weightKey e r
    let hit := r.kind == 0 && (s.core g).weights.any (fun w => w.key == key)
    let s := if r.kind = 0 then s.latch g key else s
    let c := c.run r (s.packet l).nbv (((s.team? l t).map (fun x => x.scratch)).getD [])
    let e := { e with st := .running, pos := 1, status := if hit then 0x40000 else 0 }
    let s := ((s.setChain c).setEng e).wake 9
    if r.drains then s.runDrain e r prog else s.endTask e (taskStatus e 0 0 c.sat false)

/-- COBBLER_DISPATCH (R257, R258): the Cobbler places a ready task on its graver; a task whose chain id was left closed
ends with ECHAIN; a drain that had to wait goes on. -/
def execCobblerDispatch (op : Nat) (s : State) : Out :=
  match s.eng? op with
  | none => .next s
  | some e =>
    match e.kind with
    | .task r prog opens =>
      if e.st == .running || e.st == .stalled 0 then .next (s.runDrain e r prog)
      else if !s.taskReady e r then .next s
      else if !opens && (s.chain? e.t.launch e.t.team r.chain).isNone then
        .next (s.endTask e (taskStatus e 0x81 2 false false))
      else match s.taskTarget e r opens with
        | none => .next (if e.since = 0 then s.setEng { e with since := s.cycle + 1 } else s)
        | some x => .next (if s.graverFree e x.1 then s.beginTask e r prog opens x.1 x.2 else s.setEng { e with since := 0 })
    | _ => .next s

/-- ESLOT_TIMEOUT (R258): a ready opening task has found no slot free for 65,536 cycles in which no chain of its quad has ended. -/
def execEslotTimeout (op : Nat) (s : State) : Out :=
  match s.eng? op with
  | none => .next s
  | some e =>
    match e.kind with
    | .task r _ opens =>
      .next (if opens && s.taskReady e r && (s.taskTarget e r opens).isNone && decide (1 ≤ e.since ∧ e.since + 65535 ≤ s.cycle)
        then s.endTask e (taskStatus e 0x84 0 false false) else s)
    | _ => .next s

/-! ## Add-on-stores -/

/-- The lines of a tile, each once, and the homes of those at other dies. -/
def Tile.lines (t : Tile) : List Nat := (t.elems.map (fun x => lineOf x.1.pa)).dedup
def Tile.homes (t : Tile) (d : Nat) : List Nat :=
  ((t.elems.map (fun x => homeOf x.1.pa)).filter (fun h => decide (h < 24) && h != d)).dedup

/-- A tile can be applied whole now by die d: each other home can apply d's next write, and none awaits a write to the
tile's lines (R263, R296). -/
def State.tileReady (s : State) (d : Nat) (t : Tile) : Bool :=
  let v := (s.die d).v
  let tag := v.set d (v.getD d 0 + 1)
  (t.homes d).all (fun h => canApply (s.die h).v tag d &&
    !(s.welt.any (fun m => !m.toHome && m.dst == h && t.lines.contains (lineOf m.g.pa))))

/-- Applies the elements of one line of a tile at its home slice (R263): one write of die d, which the tile's other homes
apply with it. -/
def State.applyTileLine (s : State) (d : Nat) (t : Tile) (line : Nat) : State :=
  let els := t.elems.filter (fun x => lineOf x.1.pa == line)
  match els with
  | [] => s
  | x :: _ =>
    let f := if t.f64 then f64 else f32
    let n := if t.f64 then 8 else 4
    let s := s.stashFlush line true
    let bs := els.flatMap (fun y : GAddr × Nat => (numbered (bytesOf n (f.add 0 (natOf (s.mem.getN y.1.pa n)) y.2).bits)).map
      (fun z : Nat × Byte => (y.1.pa % 128 + z.1, z.2)))
    let g := { x.1.line with det := false }
    let h := homeOf g.pa
    if h = d ∨ 24 ≤ h then s.homeWrite g bs none
    else
      let s := s.number d
      let tag := (s.die d).v
      let s := (s.homeWrite g bs (some (d, tag))).tick h d tag
      (s.welt.filter (fun m => m.src == d && m.tag == tag && (t.homes d).contains m.dst)).foldl (fun s m => s.applyMsg m) s

/-- Applies a whole tile, the lines of other homes first. -/
def State.applyTile (s : State) (d : Nat) (t : Tile) : State :=
  let remote (line : Nat) : Bool := (t.homes d).contains (homeOf (line * 128))
  let s := (t.lines.filter remote).foldl (fun s x => s.applyTileLine d t x) s
  ((t.lines.filter (fun x => !remote x)).foldl (fun s x => s.applyTileLine d t x) s).stir

/-- What an applied tile leaves at the core that issued it: no stale copy of its bytes, and the homes' clocks in the die's
horizon (R217, R297). -/
def State.afterTile (s : State) (k : CoreId) (t : Tile) : State :=
  let n := if t.f64 then 8 else 4
  let s := t.elems.foldl (fun s x => (s.dropStale k x.1 n).dropStaleL2 k.die x.1 n) s
  (t.homes k.die).foldl (fun s h => s.carry k.die h) s

/-- Every team of a launch below an index has retired, and no held tile of theirs is left to apply (R315). DEDUCED (log entry 13). -/
def State.ticketTurn (s : State) (l t : Nat) (upTo : Nat) : Bool :=
  s.teams.all (fun x => !(x.launch == l && decide (x.idx < t)) || x.st == .retired) &&
    (match s.launch? l with
     | some x => x.held.all (fun y => !(decide (y.team < upTo)))
     | none => true)

/-- The ticket unit of die 0 holds as many tiles as it can (R315). -/
def State.ticketFull (s : State) : Bool := decide (1024 ≤ (s.launches.map (fun l => l.held.length)).foldl (· + ·) 0)

/-- ADD_ON_STORE_PERFORM (R263, R315): a tile is applied; under DET it goes to the ticket unit, which applies the tile of
the lowest team not yet retired at once and holds any other. -/
def execAddOnStorePerform (op : Nat) (s : State) : Out :=
  match s.eng? op with
  | none => .next s
  | some e =>
    match e.st, e.tile with
    | .addst, some t =>
      if !(s.packet e.t.launch).det then
        .next (if s.tileReady e.core.die t then ((s.applyTile e.core.die t).afterTile e.core t).endTask e e.status else s)
      else if s.ticketTurn e.t.launch e.t.team (e.t.team + 1) then
        .next (if s.tileReady 0 t then ((s.applyTile 0 t).afterTile e.core t).endTask e e.status else s)
      else match s.launch? e.t.launch with
        | none => .next s
        | some l =>
          .next (if s.ticketFull then s
            else (s.setLaunch { l with held := l.held ++ [t] }).endTask e e.status)
    | _, _ => .next s

/-- The held tile next in order: the first of the lowest team. -/
def nextTile (held : List Tile) : Option Tile :=
  held.foldl (fun o t => match o with
    | none => some t
    | some x => if t.team < x.team then some t else some x) none

/-- TICKET_TILE_APPLY (R315): the ticket unit of die 0 applies the held tile next in order. -/
def execTicketTileApply (l : Nat) (s : State) : Out :=
  match s.launch? l with
  | none => .next s
  | some x =>
    match nextTile x.held with
    | none => .next s
    | some t =>
      .next (if s.ticketTurn l t.team t.team && s.tileReady 0 t then
        let s := (s.applyTile 0 t).afterTile (s.coreOf l t.team) t
        s.setLaunch { (s.launch? l).getD x with held := x.held.erase t }
      else s)

end Sys2Proof.Machine
end

