-- ==== Sys2Proof/Machine/Skiver.lean ====
section
/-! DEFINITION. The Skiver: DJOB, the decoding of a ZBR stream, and the end of a job (R211, R220 to R222). -/

namespace Sys2Proof.Machine

/-! ## Job cards -/

/-- The card of a job from its 64 bytes (R220). -/
def jobCard (a : Nat) (b : List Byte) : JobCard :=
  { card := a, src := fieldAt b 8 8, srcLen := fieldAt b 16 4, cap := fieldAt b 20 4, dst := fieldAt b 24 8,
    dict := fieldAt b 32 8, dictLen := fieldAt b 40 4 }

/-- The scratch offset of a generic address in aperture 0x1. -/
def scrOff (a : Nat) : Nat := a % 2 ^ 32

/-- A range of n bytes lies in aperture 0x0, or in aperture 0x1 within the carve (R76, R220). -/
def jobRangeOk (carve a n : Nat) : Bool :=
  if a < 2 ^ 48 then decide (a + n ≤ 2 ^ 48)
  else a / 2 ^ 32 == 0x10000000 && decide (scrOff a + n ≤ carve)

/-- The result code a card earns at issue: 1 EKIND, 2 ERANGE, 0 where it is in order (R222). -/
def cardCode (carve : Nat) (b : List Byte) (j : JobCard) : Nat :=
  if fieldAt b 0 1 ≠ 1 ∨ fieldAt b 1 7 ≠ 0 ∨ fieldAt b 44 4 ≠ 0 ∨ fieldAt b 56 8 ≠ 0 then 1
  else if !jobRangeOk carve j.src j.srcLen || !jobRangeOk carve j.dst j.cap ||
      (j.dictLen != 0 && !jobRangeOk carve j.dict j.dictLen) ||
      overlaps j.dst j.cap j.src j.srcLen || overlaps j.dst j.cap j.dict j.dictLen then 2
  else 0

/-- The scratch ranges of a job (R220). -/
def jobRanges (t : Nat) (j : JobCard) : List Range :=
  let r (a n : Nat) (w : Bool) : List Range := if a < 2 ^ 48 ∨ n = 0 then [] else [⟨t, scrOff a, scrOff a + n, w⟩]
  r j.src j.srcLen false ++ r j.dict j.dictLen false ++ r j.dst j.cap true

/-- Jobs of a die's Skiver not yet retired (R211); one that a save has abandoned is in none. -/
def State.skiverCount (s : State) (d : Nat) : Nat :=
  (s.engines.filter (fun e => e.core.die == d && e.st != .reissue && (match e.kind with
    | .djob _ _ _ => true
    | _ => false))).length

/-- The job of a card that has been read (R220, R222). -/
def State.issueJob (s : State) (a : Nat) (b : List Byte) (d : Reg) : State :=
  let j := jobCard a b
  let at0 : SkiverAt := ⟨0, 0, 0, 0, 0⟩
  let code := cardCode s.pk.carveBytes b j
  if code ≠ 0 then s.startEng (.djob j at0 (some (0, code))) .running 0 [] d
  else
    let rs := jobRanges s.cur.id.team j
    if s.hatchRoom s.cur.id.launch rs then s.startEng (.djob j at0 none) .queued 0 rs d else s.parkCur (.stalled 9)

/-- DJOB at issue: the thread reads its card as a load does, but for the permissions (R220, R222). -/
def State.djob (s : State) (a : Nat) (d : Reg) : State :=
  if 64 ≤ s.skiverCount s.curCore.die then s.parkCur (.stalled 9)
  else if a % 64 ≠ 0 ∨ 2 ^ 48 ≤ a then s.quick d (statusOf 0x61 1)
  else match s.vf? (launchVf s.cur.id.launch) with
    | none => s.quick d (statusOf 0x61 2)
    | some v =>
      match if s.cur.debugPass.contains a then none else v.watched a 64 false with
      | some i => s.watchStop v i a false
      | none =>
        match s.tlbFind s.curCore v a with
        | none => s.miss v a 0 false
        | some e =>
          if !e.r || !e.w || (!e.host && !s.validPa (e.pa + (a - e.va))) then s.quick d (statusOf 0x61 2)
          else
            let g := s.gaddr v s.cur.id.launch s.cur.id.team e a 3
            if s.unordered g.pa 64 then s.parkCur (.stalled 15)
            else (s.readPlace s.curCore g 64 false).next (fun s b => s.issueJob a b d) (fun s _ _ => s)
              (fun s => s) (fun s => s.parkCur (.stalled 15))

/-- DJOB (R220). -/
def execDjob (sp : Bool) (d a : Reg) (s : State) : Out :=
  issue sp true [opD d, opA a 2] s (fun s => s.withRight 5 (fun s => s.djob (s.cur.p a).toNat d))

/-! ## Decoding -/

/-- Reads one byte for a job at a generic address. -/
def State.jobRead (s : State) (e : EngineOp) (a : Nat) (needR : Bool) : IoRes :=
  if a < 2 ^ 48 then s.engRead e.core e.t.launch e.t.team a 1 3 needR false
  else match s.touchRange e.t.launch e.t.team (scrOff a) 1 with
    | .wait s => .wait s
    | .ok s _ => .ok (s.consumeScratch e.core e.t.launch e.t.team (scrOff a) 1) (s.scratchBytes e.t.launch e.t.team (scrOff a) 1)

/-- Writes one byte for a job at a generic address. -/
def State.jobWrite (s : State) (e : EngineOp) (a : Nat) (v : Byte) : IoRes :=
  if a < 2 ^ 48 then s.engWrite e.core e.t.launch e.t.team a 3 [(a % 128, v)]
  else match s.touchRange e.t.launch e.t.team (scrOff a) 1 with
    | .wait s => .wait s
    | .ok s _ => .ok (s.writeScratch e.t.launch e.t.team (scrOff a) [v]) []

/-- Keeps the place a job has reached. -/
def EngineOp.atPlace (e : EngineOp) (j : JobCard) (x : SkiverAt) : EngineOp := { e with kind := .djob j x none }

/-- A job stops with a result code (R221, R222). -/
def State.stopJob (s : State) (e : EngineOp) (j : JobCard) (x : SkiverAt) (code : Nat) : State :=
  s.setEng { e with kind := .djob j x (some (x.p, code)), st := .running }

/-- What a job does after an access: `k` goes on with the bytes; a missing permission
stops it with EPROT (R217, R222). -/
def IoRes.forJob (r : IoRes) (e : EngineOp) (j : JobCard) (x : SkiverAt) (k : State → List Byte → State) : State :=
  r.next k
    (fun s va lv => s.stallEng (e.atPlace j x) va lv)
    (fun s => s.stopJob e j x 6)
    (fun s => s.setEng { e.atPlace j x with st := .queued })

/-- The decoder, from a place on (R221); each round reads a stream byte or writes an output byte. -/
def State.decodeJob (s : State) (e : EngineOp) (j : JobCard) : Nat → SkiverAt → State
  | 0, x => s.setEng { e.atPlace j x with st := .queued }
  | n + 1, x =>
    let stream (k : State → Nat → State) : State :=
      if j.srcLen ≤ x.i then s.stopJob e j x 5
      else (s.jobRead e (j.src + x.i) true).forJob e j x (fun s bs => k s (natOf bs))
    let output (s : State) (v : Byte) (x' : SkiverAt) : State :=
      (s.jobWrite e (j.dst + x.p) v).forJob e j x (fun s _ =>
        s.decodeJob e j n { x' with p := x.p + 1, rem := x.rem - 1, tok := if x.rem ≤ 1 then 0 else x.tok })
    if x.tok = 0 then
      stream (fun s t =>
        if t = 0xFF then s.stopJob e j x 0
        else if t ≤ 0x7F then s.decodeJob e j n { x with i := x.i + 1, tok := 1, rem := t + 1 }
        else s.decodeJob e j n { x with i := x.i + 1, tok := 3, rem := t % 128 + 3 })
    else if x.tok = 3 then
      stream (fun s t => s.decodeJob e j n { x with i := x.i + 1, tok := 4, dist := t })
    else if x.tok = 4 then
      stream (fun s t =>
        let dist := x.dist + 256 * t
        if dist = 0 ∨ x.p + j.dictLen < dist then s.stopJob e j x 3
        else s.decodeJob e j n { x with i := x.i + 1, tok := 2, dist := dist })
    else if x.tok = 1 then
      stream (fun s t =>
        if x.p = j.cap then s.stopJob e j x 4 else output s (BitVec.ofNat 8 t) { x with i := x.i + 1 })
    else if x.p = j.cap then s.stopJob e j x 4
    else
      let src := if x.dist ≤ x.p then (j.dst + (x.p - x.dist), false) else (j.dict + (j.dictLen + x.p - x.dist), true)
      (s.jobRead e src.1 src.2).forJob e j x (fun s bs => output s (bs.headD 0) x)

/-- A job begins, or goes on from the byte reached (R209, R217, R221). -/
def State.beginJob (s : State) (e : EngineOp) (j : JobCard) (x : SkiverAt) : State :=
  s.decodeJob { e with st := .running } j (2 * (j.srcLen + j.cap) + 4) x

/-- A job that a save has abandoned enters the Skiver again: one that its card has failed goes on with the writing of its code (R211, R222,
R283). -/
def State.reenterJob (s : State) (e : EngineOp) (j : JobCard) (result : Option (Nat × Nat)) : State :=
  let full := decide (64 ≤ s.skiverCount (s.coreOf e.t.launch e.t.team).die)
  match result with
  | none => s.reenter e full .queued (jobRanges e.t.team j)
  | some _ => s.reenter e full .running []

/-- The DJOB status of a result code (R222). -/
def jobStatus (code : Nat) : Word := if code = 0 then 0 else statusOf 0x60 code

/-- SKIVER_JOB_STOP (R204, R222): the job that has stopped writes its result length and code into its card, after every access ordered
before its word. -/
def execSkiverJobStop (op : Nat) (s : State) : Out :=
  match s.eng? op with
  | none => .next s
  | some e =>
    match e.kind, e.st with
    | .djob j _ (some r), .running =>
      .next (if !s.forked e.t e.no then s else
        ((s.engWrite e.core e.t.launch e.t.team (j.card + 48) 3
          ((numbered (bytesOf 4 r.1 ++ bytesOf 4 r.2)).map (fun x : Nat × Byte => (j.card % 128 + 48 + x.1, x.2)))).next
        (fun s _ => s.finishEng e (jobStatus r.2))
        (fun s va lv => s.stallEng e va lv)
        (fun s => s.finishEng e (statusOf 0x61 2))
        (fun s => s)))
    | _, _ => .next s

end Sys2Proof.Machine
end

