-- ==== Sys2Proof/Machine/Streamer.lean ====
section
/-! DEFINITION. The streamer: COPY, COPYM and RECFL (R211 to R219), and the stash words SMAP and SUNMAP (R172, R200). -/

namespace Sys2Proof.Machine

/-! ## Tensor layout records -/

/-- Fields of a record (R212). -/
def recRank (b : List Byte) : Nat := fieldAt b 4 1
def recEs (b : List Byte) : Nat := 2 ^ fieldAt b 5 1
def recFill (b : List Byte) : Bool := fieldAt b 6 1 % 2 == 1
def recStagger (b : List Byte) : Bool := fieldAt b 6 1 / 2 % 2 == 1
def recBase (b : List Byte) : Nat := fieldAt b 8 8
def recSize (b : List Byte) (i : Nat) : Nat := fieldAt b (16 + 8 * i) 8
def recStride (b : List Byte) (i : Nat) : Nat := if i = 0 then recEs b else fieldAt b (48 + 8 * i) 8
def recBox (b : List Byte) (i : Nat) : Nat := fieldAt b (88 + 4 * i) 4
def recStep (b : List Byte) (i : Nat) : Nat := fieldAt b (108 + 4 * i) 4
def recFillValue (b : List Byte) : Nat := fieldAt b 128 4
def recCap (b : List Byte) : Nat := polCap (BitVec.ofNat 2 (fieldAt b 132 1))

/-- Elements of the box. -/
def recElems (b : List Byte) : Nat := recBox b 0 * recBox b 1 * recBox b 2 * recBox b 3 * recBox b 4

/-- The offset of the first invalid field of a record; none where it is valid (R212). -/
def recordBad (b : List Byte) : Option Nat :=
  let rank := recRank b
  let es := recEs b
  let dim (i n lo hi top : Nat) : Bool := if i < rank then decide (lo ≤ n ∧ n ≤ hi) else n == top
  firstBad ([(0, fieldAt b 0 4 == 1), (4, decide (1 ≤ rank ∧ rank ≤ 5)), (5, decide (fieldAt b 5 1 ≤ 3)),
      (6, decide (fieldAt b 6 1 < 4)), (7, fieldAt b 7 1 == 0), (8, recBase b % es == 0 && decide (recBase b < 2 ^ 48))] ++
    (List.range 5).map (fun i => (16 + 8 * i, dim i (recSize b i) 1 (2 ^ 40) 1)) ++
    [1, 2, 3, 4].map (fun i => (48 + 8 * i,
      if i < rank then recStride b i % es == 0 && decide (recStride b i < 2 ^ 44) else recStride b i == 0)) ++
    [(88, dim 0 (recBox b 0) 1 1024 1), (88, decide (recElems b * es ≤ 65536))] ++
    [1, 2, 3, 4].map (fun i => (88 + 4 * i, dim i (recBox b i) 1 1024 1)) ++
    (List.range 5).map (fun i => (108 + 4 * i, dim i (recStep b i) 1 16 1)) ++
    [(132, decide (fieldAt b 132 1 ≤ 2)), (133, (b.drop 133).all (fun x => x == 0))])

/-- Fields of an operand block (R215). -/
def blkOff (w : List Word) : Nat := (w.getD 0 0).toNat
def blkDir (w : List Word) : Nat := (w.getD 1 0).toNat % 2
def blkMask (w : List Word) : Nat := (w.getD 1 0).toNat / 256 % 16
def blkStart (w : List Word) (i : Nat) : Int := (w.getD (2 + i) 0).toInt

/-- The index of the first register of an operand block, OFF apart, that breaks its required value (R215, R219). -/
def operandBad (multi : Bool) (b : List Byte) (w : List Word) : Option Nat :=
  firstBad ([(1, (w.getD 1 0).toNat == blkDir w + 256 * blkMask w &&
      (if multi then blkDir w == 0 && blkMask w != 0 else blkMask w == 0))] ++
    (List.range 5).map (fun i => (2 + i, decide (i < recRank b) || blkStart w i == 0)) ++ [(7, w.getD 7 0 == 0)])

/-- Z of R216: the bytes of scratch the box covers. -/
def boxBytes (b : List Byte) : Nat :=
  let z := recElems b * recEs b
  if recStagger b then (z + 127) / 128 * 128 else z

/-- Whether the scratch range of a copy is in order (R219). -/
def scratchOk (b : List Byte) (w : List Word) (carve : Nat) : Bool :=
  blkOff w % recEs b == 0 && (!recStagger b || blkOff w % 128 == 0) && decide (blkOff w + boxBytes b ≤ carve)

/-- The coordinates of element j of a box (R216). -/
def boxCoord (b : List Byte) (w : List Word) (j i : Nat) : Int :=
  let below := ((List.range i).map (recBox b)).foldl (· * ·) 1
  blkStart w i + ((j / below % recBox b i) * recStep b i : Nat)

/-- The global address of element j where it is in bounds (R216). -/
def boxGlobal (b : List Byte) (w : List Word) (j : Nat) : Option Nat :=
  if (List.range 5).all (fun i => decide (0 ≤ boxCoord b w j i ∧ boxCoord b w j i < recSize b i))
  then some ((List.range 5).foldl (fun g i => g + (boxCoord b w j i).toNat * recStride b i) (recBase b))
  else none

/-- The scratch offset of element j (R216). -/
def boxScratch (b : List Byte) (w : List Word) (j : Nat) : Nat :=
  let es := recEs b
  let o := j * es
  let row := o / 128
  blkOff w + (if recStagger b then 128 * row + (o % 128 + row * max es 4) % 128 else o)

/-! ## The record cache -/

/-- The entry of a handle in a core's record cache (R213). -/
def Core.recEntry (c : Core) (vf handle : Nat) : Option RecEntry :=
  c.recs.find? (fun r => r.vf == vf && r.handle == handle)

/-- Keeps a record in a core's record cache of 32 entries, least recently used first out (R213). -/
def State.keepRecord (s : State) (k : CoreId) (vf handle : Nat) (bs : List Byte) : State :=
  let c := s.core k
  s.setCore { c with recs := (⟨vf, handle, bs, s.cycle⟩ ::
    c.recs.filter (fun r => !(r.vf == vf && r.handle == handle))).take 32 }

/-! ## Issue -/

/-- Operations of a core's streamer not yet retired (R211); one that a save has abandoned is in none. -/
def State.streamerCount (s : State) (k : CoreId) : Nat :=
  (s.engines.filter (fun e => e.core == k && e.st != .reissue && (match e.kind with
    | .copy _ _ _ _ _ => true
    | .recfl _ => true
    | _ => false))).length

/-- A handle is in order (R219). -/
def handleOk (h : Nat) : Bool := h % 64 == 0 && decide (h < 2 ^ 48)

/-- A record is looked up: in the core's record cache, or by a fetch at home (R213). -/
def State.lookRecord (s : State) (k : CoreId) (l t handle : Nat) : IoRes :=
  match (s.core k).recEntry (launchVf l) handle with
  | some r => .ok (s.keepRecord k (launchVf l) handle r.bytes) r.bytes
  | none => match s.engReadN k l t handle 3 true true 4 192 with
    | .ok s bs => .ok (s.keepRecord k (launchVf l) handle bs) bs
    | r => r

/-- A RECFL of a handle that a core has issued has not been done (R214). -/
def State.flushing (s : State) (k : CoreId) (handle : Nat) : Bool :=
  s.engines.any (fun e => e.core == k && e.st != .done && (match e.kind with
    | .recfl h => h == handle
    | _ => false))

/-- The mask of peers that a COPYM skips where it begins now: those that have exited (R218). -/
def State.skipMask (s : State) (t : ThreadId) (w : List Word) : Nat :=
  ((List.range 4).map (fun q => if blkMask w / 2 ^ q % 2 == 1 &&
    s.teamDone t.launch (quadPeer (s.packet t.launch) t.team q) then 2 ^ q else 0)).foldl (· + ·) 0

/-- The teams a copy delivers to: those of a COPYM's mask that are not skipped, in increasing QRANK (R218). -/
def State.copyTargets (s : State) (t : ThreadId) (multi : Bool) (w : List Word) (skipped : Nat) : List Nat :=
  if multi then
    ((List.range 4).filter (fun q => blkMask w / 2 ^ q % 2 == 1 && skipped / 2 ^ q % 2 == 0)).map
      (quadPeer (s.packet t.launch) t.team)
  else [t.team]

/-- The status of a copy, with its skipped peers (R219). -/
def copyStatus (code detail skipped : Nat) : Word := BitVec.ofNat 32 (code + 256 * detail + 65536 * skipped)

/-- What the checks of a copy's record, operands and scratch range find wrong: code and detail (R219). -/
def copyBad (multi : Bool) (b : List Byte) (w : List Word) (carve : Nat) : Option (Nat × Nat) :=
  match recordBad b with
  | some off => some (0x51, off)
  | none => match operandBad multi b w with
    | some i => some (0x52, i)
    | none => if scratchOk b w carve then none else some (0x53, 0)

/-- The scratch ranges of a copy: those of its record, none where a check fails; up to the end of the carve while its record cannot be
read (R207, R219). DEDUCED (log entry 20). -/
def State.copyRanges (s : State) (t : ThreadId) (multi : Bool) (rec : Option (List Byte)) (w : List Word) (skipped : Nat) :
    List Range :=
  let carve := (s.packet t.launch).carveBytes
  let hi := match rec with
    | some b => if (copyBad multi b w carve).isSome then 0 else blkOff w + boxBytes b
    | none => carve
  if blkOff w < hi then (s.copyTargets t multi w skipped).map (fun x => ⟨x, blkOff w, hi, multi || blkDir w == 0⟩) else []

/-- A copy's word takes its Crosshatch entries, or waits for them (R207, R218). -/
def State.issueCopy (s : State) (multi : Bool) (h : Nat) (w : List Word) (rec : Option (List Byte)) (rs : List Range) (d : Reg) :
    State :=
  if s.hatchRoom s.cur.id.launch rs then s.startEng (.copy multi h w rec none) .queued 0 rs d else s.parkCur (.stalled 9)

/-- COPY and COPYM at issue (R207, R211, R213, R215, R218): the record is looked up, once the accesses and the RECFL ordered before the
word have been performed, so that the entries placed are those of its box; one that no page grants ends the operation there and then. DEDUCED (log entry 20). -/
def copyWord (multi sp : Bool) (f : Nat) (d a b : Reg) (s : State) : Out :=
  issue sp true [opD d, opA a 2, opB b 8] s (fun s => s.withRight f (fun s =>
    let w := s.cur.words b 8
    let t := s.cur.id
    let h := (s.cur.p a).toNat
    let ranges (s : State) (rec : Option (List Byte)) : List Range :=
      s.copyRanges t multi rec w (if multi then s.skipMask t w else 0)
    if multi && decide (2 ^ s.pk.qsize ≤ blkMask w) then s.raise 0x0A (blkMask w) 0
    else if 32 ≤ s.streamerCount s.curCore then s.parkCur (.stalled 9)
    else if !handleOk h then s.issueCopy multi h w none [] d
    else if s.flushing s.curCore h then s.parkCur (.stalled 9)
    else if !s.forked t s.nextId then s.parkCur (.stalled 15)
    else match s.lookRecord s.curCore t.launch t.team h with
      | .ok s b => s.issueCopy multi h w (some b) (ranges s (some b)) d
      | .fault s _ _ => s.issueCopy multi h w none (ranges s none) d
      | .deny s => s.startEng (.copy multi h w none none) .done (copyStatus 0x55 1 (if multi then s.skipMask t w else 0)) [] d
      | .wait s => s.parkCur (.stalled 15)))

/-- COPY (R215). -/
def execCopy (sp : Bool) (d a b : Reg) (s : State) : Out := copyWord false sp 0 d a b s

/-- COPYM (R218). -/
def execCopym (sp : Bool) (d a b : Reg) (s : State) : Out := copyWord true sp 1 d a b s

/-- RECFL (R214). -/
def execRecfl (sp : Bool) (d a : Reg) (s : State) : Out :=
  issue sp true [opD d, opA a 2] s (fun s => s.withRight 2 (fun s =>
    if 32 ≤ s.streamerCount s.curCore then s.parkCur (.stalled 9)
    else s.startEng (.recfl (s.cur.p a).toNat) .queued 0 [] d))

/-! ## Running -/

/-- A RECFL runs (R214). -/
def State.beginRecfl (s : State) (e : EngineOp) (h : Nat) : State :=
  if !handleOk h then s.finishEng e (statusOf 0x50 0)
  else State.finishEng { s with cores := s.cores.map (fun c =>
    { c with recs := c.recs.filter (fun r => !(r.vf == e.vf && r.handle == h)) }) } e 0

/-- Moves elements from global memory into scratch, from element j on, n of them (R216, R217). -/
def State.copyIn (s : State) (e : EngineOp) (b : List Byte) (w : List Word) (sk : Nat) (ts : List Nat) : Nat → Nat → State
  | 0, _ => s.finishEng e (copyStatus 0 0 sk)
  | n + 1, j =>
    let es := recEs b
    let put (s : State) (bs : List Byte) : State :=
      ts.foldl (fun s x => s.writeScratch e.t.launch x (boxScratch b w j) bs) s
    match boxGlobal b w j with
    | none => (put s (bytesOf es (if recFill b then recFillValue b else 0))).copyIn e b w sk ts n (j + 1)
    | some g =>
      if 2 ^ 48 ≤ g then s.finishEng e (copyStatus 0x54 0 sk)
      else match s.engRead e.core e.t.launch e.t.team g es (recCap b) true false with
        | .ok s bs => (put s bs).copyIn e b w sk ts n (j + 1)
        | .fault s va lv => s.stallEng { e with pos := j } va lv
        | .deny s => s.finishEng e (copyStatus 0x55 1 sk)
        | .wait s => s.setEng { e with pos := j, st := .queued }

/-- The elements from j on, n of them, that go to the line of `va`: their bytes by offset in it, and the first
element that goes elsewhere. -/
def State.copyRun (s : State) (e : EngineOp) (b : List Byte) (w : List Word) (line : Nat) :
    Nat → Nat → List (Nat × Byte) → List (Nat × Byte) × Nat
  | 0, j, acc => (acc, j)
  | n + 1, j, acc =>
    match boxGlobal b w j with
    | none => s.copyRun e b w line n (j + 1) acc
    | some g =>
      if g / 128 = line then
        s.copyRun e b w line n (j + 1) (acc ++ (numbered (s.scratchBytes e.t.launch e.t.team (boxScratch b w j) (recEs b))).map
          (fun x : Nat × Byte => (g % 128 + x.1, x.2)))
      else (acc, j)

/-- Moves elements from scratch to global memory, from element j on up to element n, one write per line (R216, R217,
R301). -/
def State.copyOut (s : State) (e : EngineOp) (b : List Byte) (w : List Word) (n : Nat) : Nat → Nat → State
  | 0, _ => s.finishEng e 0
  | fuel + 1, j =>
    if n ≤ j then s.finishEng e 0
    else match boxGlobal b w j with
      | none => s.copyOut e b w n fuel (j + 1)
      | some g =>
        if 2 ^ 48 ≤ g then s.finishEng e (statusOf 0x54 0)
        else
          let r := s.copyRun e b w (g / 128) (n - j) j []
          match s.engWrite e.core e.t.launch e.t.team g (recCap b) r.1 with
          | .ok s _ => s.copyOut e b w n fuel r.2
          | .fault s va lv => s.stallEng { e with pos := j } va lv
          | .deny s => s.finishEng e (statusOf 0x55 2)
          | .wait s => s.setEng { e with pos := j, st := .queued }

/-- A copy whose record is at hand moves its elements, from the one it has reached on (R212 to R219). -/
def State.runCopy (s : State) (e : EngineOp) (multi : Bool) (h : Nat) (w : List Word) (b : List Byte) (sk : Nat) : State :=
  let e := { e with kind := .copy multi h w (some b) (some sk), st := .running }
  let l := e.t.launch
  match copyBad multi b w (s.packet l).carveBytes with
  | some x => (s.freeHatch e.no).finishEng e (copyStatus x.1 x.2 sk)
  | none =>
    let n := recElems b
    let ts := s.copyTargets e.t multi w sk
    match s.tryAll ts (fun s x => s.touchRange l x (blkOff w) (boxBytes b)) with
    | .wait s => s.setEng { e with st := .queued }
    | .ok s _ =>
      if multi || blkDir w == 0 then s.copyIn e b w sk ts (n - e.pos) e.pos
      else (s.consumeScratch e.core l e.t.team (blkOff w) (boxBytes b)).copyOut e b w n (n + 1) e.pos

/-- The Crosshatch entries of an operation become those of the ranges given. -/
def State.renewHatch (s : State) (l no : Nat) (rs : List Range) : State := (s.freeHatch no).placeHatch l no rs

/-- A copy that a save has abandoned enters the streamer again (R211, R218, R283). -/
def State.reenterCopy (s : State) (e : EngineOp) (multi : Bool) (w : List Word) (rec : Option (List Byte)) : State :=
  s.reenter e (decide (32 ≤ s.streamerCount (s.coreOf e.t.launch e.t.team))) .queued
    (s.copyRanges e.t multi rec w (if multi then s.skipMask e.t w else 0))

/-- A copy begins: the peers that have exited by now are skipped for good, its entries are those of its record, and it moves its
elements; or it goes on (R209, R213, R216 to R219). -/
def State.beginCopy (s : State) (e : EngineOp) (multi : Bool) (h : Nat) (w : List Word) (rec : Option (List Byte))
    (skipped : Option Nat) : State :=
  match rec, skipped with
  | some b, some sk => s.runCopy e multi h w b sk
  | _, _ =>
    let sk := if multi then s.skipMask e.t w else 0
    let go (s : State) (b : List Byte) : State :=
      (s.renewHatch e.t.launch e.no (s.copyRanges e.t multi (some b) w sk)).runCopy e multi h w b sk
    if !handleOk h then s.finishEng e (copyStatus 0x50 0 sk)
    else match rec with
      | some b => go s b
      | none =>
        match s.lookRecord e.core e.t.launch e.t.team h with
        | .ok s b => go s b
        | .fault s va lv => s.stallEng e va lv
        | .deny s => (s.freeHatch e.no).finishEng e (copyStatus 0x55 1 sk)
        | .wait s => s.setEng { e with st := .queued }

/-! ## Stash mappings -/

/-- SMAP (R172, R200). -/
def execSmap (sp : Bool) (d a b : Reg) (s : State) : Out :=
  issue sp true [opD d, opA a 2, opB b 2] s (fun s =>
    let va := (s.cur.p a).toNat
    let off := (s.cur.wAt b 0).toNat
    let len := (s.cur.wAt b 1).toNat
    match s.team? s.cur.id.launch s.cur.id.team with
    | none => s.quick d (statusOf 0x43 0)
    | some tm =>
      if va % 128 ≠ 0 ∨ off % 128 ≠ 0 ∨ len % 128 ≠ 0 ∨ len = 0 then s.quick d (statusOf 0x40 0)
      else if s.pk.carveBytes < off + len ∨ 2 ^ 48 < va + len then s.quick d (statusOf 0x41 0)
      else if tm.stash.any (fun m => overlaps off len m.off m.len || overlaps va len m.va m.len) then
        s.quick d (statusOf 0x42 0)
      else if 8 ≤ tm.stash.length then s.quick d (statusOf 0x43 0)
      else (s.setTeam { tm with stash := tm.stash ++ [⟨off, len, va, [], []⟩] }).quick d 0)

/-- SUNMAP (R172, R200). -/
def execSunmap (sp : Bool) (d a : Reg) (s : State) : Out :=
  issue sp true [opD d, opA a] s (fun s =>
    let off := (s.cur.w a).toNat
    match s.team? s.cur.id.launch s.cur.id.team with
    | none => s.quick d (statusOf 0x44 0)
    | some tm =>
      match tm.stash.find? (fun m => m.off == off) with
      | none => s.quick d (statusOf 0x44 0)
      | some m =>
        let s := m.filled.foldl (fun s f =>
          let s' := s.stashClean tm m f.1 f.2 true
          if tm.stashedDirty (lineOf f.2.pa) then s'.stashOut (lineOf f.2.pa) true (fun u => u.launch != tm.launch || u.idx != tm.idx) else s') s
        (match s.team? tm.launch tm.idx with
         | none => s
         | some t => s.setTeam { t with stash := t.stash.filter (fun x => x.off != off) }).quick d 0)

end Sys2Proof.Machine
end

