-- ==== Sys2Proof/Machine/Engine.lean ====
section
/-! DEFINITION. The beginning and the retirement of engine operations (R203, R204, R207, R209). -/

namespace Sys2Proof.Machine

/-- An operation that has not begun, or waits for a permit, may go on now: it waits for no earlier access of its crew and no
earlier overlapping operation (R204, R209, R276). -/
def State.mayBegin (s : State) (e : EngineOp) : Bool :=
  (e.st == .queued || e.st == .stalled 0) && s.hatchTurn e.no && s.forked e.t e.no

/-- ENGINE_OP_BEGIN (R204, R209): an operation of the streamer, of the Skiver or of DPROG begins, or goes on from where it had to
wait; one that a save has abandoned enters its engine again first (R283). -/
def execEngineOpBegin (op : Nat) (s : State) : Out :=
  match s.eng? op with
  | none => .next s
  | some e =>
    if e.st == .reissue then .next (match e.kind with
      | .copy multi _ w rec _ => s.reenterCopy e multi w rec
      | .djob j _ r => s.reenterJob e j r
      | _ => s)
    else if !s.mayBegin e then .next s
    else match e.kind with
      | .copy multi h w rec sk => .next (s.beginCopy e multi h w rec sk)
      | .recfl h => .next (s.beginRecfl e h)
      | .dprog a slot _ => .next (s.beginDprog e a slot)
      | .djob j x none => .next (s.beginJob e j x)
      | .djob _ _ (some _) => .next (s.setEng { e with st := .running })
      | .task _ _ _ => .next s

/-- A write of an operation that is performed at its home is still on its way there (R203, R301, R313). -/
def State.writesOut (s : State) (e : EngineOp) : Bool :=
  s.welt.any (fun m => m.toHome && m.src == e.core.die && m.g.launch == e.t.launch && m.g.team == e.t.team &&
    (m.g.checked || m.g.repl))

/-- ENGINE_RETIRE (R203, R207, R209, R262, R265): an operation that has finished retires: its status goes to its entry, its
Crosshatch entries are free, a drain program takes its slot, and its team may retire. -/
def execEngineRetire (op : Nat) (s : State) : Out :=
  match s.eng? op with
  | none => .next s
  | some e =>
    if e.st != .done || s.writesOut e then .next s
    else
      let s := ({ s with engines := s.engines.filter (fun x => x.no != op) } : State).installProg e
      let s := ((s.freeHatch op).reply e.req e.t [e.status]).wake 9
      .next (s.tryRetire e.t.launch e.t.team)

end Sys2Proof.Machine
end

