-- ==== Sys2Proof/Machine/Packet.lean ====
section
/-! DEFINITION. Launch packets and code objects over plain bytes: what the launch front end checks (R112 to R115, R127,
R128, R234, R308, R312). -/

namespace Sys2Proof.Machine

/-! ## The packet -/

/-- A launch packet from its 128 bytes (R127). -/
def packetOf (b : List Byte) : Packet :=
  { flags := BitVec.ofNat 32 (fieldAt b 4 4), object := fieldAt b 8 8, entry := fieldAt b 16 2, nbv := fieldAt b 18 1,
    qsize := fieldAt b 19 1, regs := fieldAt b 20 2, carve := fieldAt b 22 2, lease := fieldAt b 24 2,
    producer := fieldAt b 26 1, ntid := (fieldAt b 28 2, fieldAt b 30 1, fieldAt b 31 1),
    nteam := (fieldAt b 32 4, fieldAt b 36 2, fieldAt b 38 2), consts := fieldAt b 40 8, sigAddr := fieldAt b 48 8,
    sigVal := fieldAt b 56 8, repAddr := fieldAt b 64 8, repLen := fieldAt b 72 4, iters := fieldAt b 80 8,
    kt := fieldAt b 88 4, p := fieldAt b 92 4, chain := fieldAt b 96 8, proof := fieldAt b 104 8, proofB := fieldAt b 112 1 }

/-- The FEATURE0 bits a packet needs (R308). -/
def Packet.features (p : Packet) : List Nat :=
  (if p.stylus then [2] else []) ++ (if p.det then [3] else []) ++ (if p.checkord || p.impress then [4] else []) ++ [7 + p.nbv]

/-- Step 1 of R128: the detail of the first check that fails. -/
def packetDetail (b : List Byte) (f0 : Word) : Option Nat :=
  let p := packetOf b
  let d1 := fieldAt b 0 2 == 1 && fieldAt b 2 2 == 0 && decide (p.flags.toNat < 2 ^ 11) && fieldAt b 27 1 == 0 &&
    fieldAt b 76 4 == 0 && fieldAt b 113 15 == 0 && p.object % 256 == 0 && p.consts % 256 == 0 && p.sigAddr % 8 == 0 &&
    p.repAddr % 64 == 0 && decide (64 ≤ p.repLen) && p.chain % 128 == 0 &&
    (p.stylus || (p.proof == 0 && p.proofB == 0))
  let d2 := decide (1 ≤ p.qsize ∧ p.qsize ≤ 4 ∧ 1 ≤ p.threads ∧ p.threads ≤ 1024 ∧ 1 ≤ p.grid) &&
    p.grid % p.qsize == 0 && decide (p.producer < p.crews)
  let d3 := p.dist != 3 && (if p.dist = 0 then p.iters == 0 && p.kt == 0 && p.p == 0 else p.kt != 0 && p.p != 0) &&
    (p.dist != 1 || p.resident)
  let d5 := !p.stylus || (decide (p.proofB ≤ 24) && (p.proof == 0 || (p.proof % 128 == 0 && decide (p.proof < 2 ^ 48))))
  firstBad [(1, d1), (2, d2), (3, d3), (4, p.nbv == 1 || p.nbv == 2), (5, d5),
    (6, p.features.all (fun i => f0.getLsbD i)), (7, !p.det || p.resident)]

/-- Steps 1 to 3 of R128: status and detail of the first check that fails. -/
def packetBad (b : List Byte) (f0 : Word) : Option (Nat × Nat) :=
  let p := packetOf b
  match packetDetail b f0 with
  | some d => some (1, d)
  | none =>
    if !Config.carves.contains p.carve then some (2, 0)
    else if p.regs % 32 ≠ 0 ∨ p.regs < 32 ∨ 512 < p.regs then some (3, 0)
    else none

/-! ## The code object -/

/-- What the front end does next with what it has read: another read, a refusal, or the selected image. -/
inductive PkWant where
  | read (va n : Nat)
  | refuse (status detail : Nat)
  | image (i : Image)

/-- Goes on with n bytes at an address, once they have been read. -/
def withBytes (rd : Nat → Nat → Option (List Byte)) (va n : Nat) (k : List Byte → PkWant) : PkWant :=
  if n = 0 then k [] else match rd va n with
    | none => .read va n
    | some bs => k bs

/-- The records of an object's notes, type and payload (R113): none where one breaks its form. -/
def noteRecords : Nat → List Byte → Option (List (Nat × List Byte))
  | 0, _ => some []
  | fuel + 1, b =>
    if b.isEmpty then some []
    else
      let len := fieldAt b 4 4
      let rec_ := 8 + (len + 7) / 8 * 8
      if b.length < 8 ∨ b.length < rec_ then none
      else (noteRecords fuel (b.drop rec_)).map (fun rs => (fieldAt b 0 4, (b.drop 8).take len) :: rs)

/-- The payload of an object's version note, the first where there are several: none where a record breaks its form or the note's fields
do not hold what R113 requires; a payload of another length than 24 does not. DESIGN CHOICE (log entry 34). -/
def versionNote (fuel : Nat) (b : List Byte) : Option (Option (List Byte)) :=
  (noteRecords fuel b).bind (fun rs => match rs.find? (fun r => r.1 == 1) with
    | none => some none
    | some (_, p) => if p.length = 24 ∧ fieldAt p 2 1 ≠ 0 ∧ fieldAt p 3 1 = 0 ∧ fieldAt p 20 4 = 0 then some (some p) else none)

/-- The trap entry of an image table entry: an entry index, or 0xFFFF for none (R114). -/
def trapEntryOk (e : List Byte) : Bool := fieldAt e 24 2 == 0xFFFF || decide (fieldAt e 24 2 < fieldAt e 6 2)

/-- An image table entry (R114), its trap entry apart. -/
def imageEntryOk (total : Nat) (e : List Byte) : Bool :=
  let segs := fieldAt e 4 2
  let ents := fieldAt e 6 2
  decide (fieldAt e 2 2 < 2 ∧ 1 ≤ segs ∧ segs ≤ 4096 ∧ 1 ≤ ents ∧ ents ≤ 256) && fieldAt e 8 4 % 16 == 0 &&
    fieldAt e 12 4 % 16 == 0 && decide (fieldAt e 8 4 + 16 * segs ≤ total ∧ fieldAt e 12 4 + 16 * ents ≤ total) &&
    fieldAt e 26 6 == 0

/-- The i-th entry of n bytes of a table. -/
def entryAt (t : List Byte) (n i : Nat) : List Byte := (t.drop (n * i)).take n

/-- The image selected from a table (R115 step 5): the first of revision 0x0300, else the highest lower one that is
forward-safe, the earlier on a tie. DEDUCED (log entry 11). -/
def selectImage (es : List (List Byte)) : Option (List Byte) :=
  match es.find? (fun e => fieldAt e 0 2 == 0x300) with
  | some e => some e
  | none => (es.filter (fun e => decide (fieldAt e 0 2 < 0x300) && fieldAt e 2 2 % 2 == 1)).foldl (fun best e =>
      match best with
      | none => some e
      | some b => if fieldAt b 0 2 < fieldAt e 0 2 then some e else some b) none

/-- Step 7 of R115 for the selected image `e`, with its segment directory and entry table. -/
def imageOf (base total entry : Nat) (e dir ents : List Byte) : PkWant :=
  let nseg := fieldAt e 4 2
  let nent := fieldAt e 6 2
  let trap := fieldAt e 24 2
  let segs := (List.range nseg).map (fun i => entryAt dir 16 i)
  let addrs := (List.range nent).map (fun i => entryAt ents 16 i)
  let segOk (g : List Byte) : Bool :=
    let len := fieldAt g 4 4
    fieldAt g 0 4 % 4 == 0 && len % 4 == 0 && decide (4 ≤ len ∧ len ≤ 65536) && decide (fieldAt g 0 4 + len ≤ total) &&
      fieldAt g 8 8 == 0
  let lenOf (i : Nat) : Nat := ((segs[i]?).map (fun g => fieldAt g 4 4)).getD 0
  let addrOk (a : List Byte) : Bool :=
    let pc := fieldAt a 0 4
    pc % 4 == 0 && decide (pc % 65536 < lenOf (pc / 65536)) && fieldAt a 11 5 == 0
  if nent ≤ entry ∨ !trapEntryOk e then .refuse 5 7
  else if !segs.all segOk || !addrs.all addrOk then .refuse 5 7
  else
    let pcOf (i : Nat) : Word := BitVec.ofNat 32 (((addrs[i]?).map (fun a => fieldAt a 0 4)).getD 0)
    .image { base := base, rev := fieldAt e 0 2, coid := fieldAt e 16 8, entry := pcOf entry,
             trap := if trap = 0xFFFF then none else some (pcOf trap),
             segs := segs.map (fun g => (fieldAt g 0 4, fieldAt g 4 4)) }

/-- Steps 2 to 7 of R115 with the version note's payload and the image table. The segment directory and the entry table are read only for
the image that step 5 selects, so a failure of steps 2 to 6 goes before their being unreadable, which is step 1's. DESIGN CHOICE (log
entry 34). -/
def judgeImage (rd : Nat → Nat → Option (List Byte)) (v : Vf) (p : Packet) (total cls : Nat) (note : Option (List Byte))
    (es : List (List Byte)) : PkWant :=
  let has (f : Word) (need : Nat) : Bool := f.toNat &&& need == need
  let noteOk (c : List Byte → Bool) : Bool := (note.map c).getD true
  if cls ≠ 1 then .refuse 5 2
  else if !noteOk (fun n => decide (fieldAt n 0 2 ≤ 0x300)) then .refuse 5 3
  else if !noteOk (fun n => has v.feature0 (fieldAt n 12 4) && has v.feature1 (fieldAt n 16 4)) then .refuse 5 4
  else match selectImage es with
    | none => .refuse 5 5
    | some e =>
      if !noteOk (fun n => fieldAt n 2 1 / 2 ^ p.nbv % 2 == 1) then .refuse 5 6
      else withBytes rd (p.object + fieldAt e 8 4) (16 * fieldAt e 4 2) (fun dir =>
        withBytes rd (p.object + fieldAt e 12 4) (16 * fieldAt e 6 2) (fun ents =>
          imageOf p.object total p.entry e dir ents))

/-- The image table at step 1 of R115. The trap entry of the image that is selected is step 7's. DEDUCED (log entry 34). -/
def imageTableOk (total : Nat) (es : List (List Byte)) : Bool :=
  es.all (imageEntryOk total) && (match selectImage es with
    | none => es
    | some e => es.erase e).all trapEntryOk

/-- R115: the front end's judgement of the code object of a packet, from what it has read so far. -/
def judgeObject (rd : Nat → Nat → Option (List Byte)) (v : Vf) (p : Packet) : PkWant :=
  withBytes rd p.object 64 (fun h =>
    let total := fieldAt h 16 8
    let count := fieldAt h 8 2
    let noff := fieldAt h 24 4
    let nlen := fieldAt h 28 4
    let toff := fieldAt h 32 4
    let ok := fieldAt h 0 4 == 0x314F435A && fieldAt h 4 2 == 1 && decide (1 ≤ count ∧ count ≤ 16) && fieldAt h 10 2 == 64 &&
      fieldAt h 12 4 == 0 && noff % 8 == 0 && nlen % 8 == 0 && toff % 32 == 0 && fieldAt h 36 28 == 0 &&
      decide (64 ≤ total ∧ noff + nlen ≤ total ∧ toff + 32 * count ≤ total)
    if !ok then .refuse 5 1
    else withBytes rd (p.object + noff) nlen (fun notes =>
      withBytes rd (p.object + toff) (32 * count) (fun tab =>
        let es := (List.range count).map (fun i => entryAt tab 32 i)
        match versionNote (nlen / 8 + 1) notes with
        | none => .refuse 5 1
        | some note => if imageTableOk total es then judgeImage rd v p total (fieldAt h 6 2) note es else .refuse 5 1)))

end Sys2Proof.Machine
end

