-- ==== Sys2Proof/Machine/FrontEnd.lean ====
section
/-! DEFINITION. The launch front end: rounds and turns (R131), the packets of a queue (R126 to R129, R347), their acceptance, and the
checkpoint interval a launch belongs to (R331). -/

namespace Sys2Proof.Machine

/-! ## Turns -/

/-- A packet that the front end may take from the head of a queue now. -/
def Queue.waiting (x : Queue) : Bool :=
  x.enabled && x.head != x.tail && x.busy.isNone && x.chain.isNone && x.wait.isNone && x.out.isEmpty

/-- PRIO of the packet at the head of a queue, as the tables and the memory stand; 0 where it cannot be read: the rule does not say how
such a head counts. DESIGN CHOICE (log entry 16). -/
def State.peekPrio (s : State) (v : Vf) (x : Queue) : Nat :=
  let va := x.slotVa x.head + 4
  match s.walk v va with
  | .leaf a n pa e _ =>
    let t := leafEntry v.id a n pa e
    let at_ := pa + (va - a)
    if t.r && (t.host || s.validPa at_) then natOf (s.mem.getN (s.memKey t.host at_) 4) / 2 ^ 8 % 8 else 0
  | .fault _ => 0

/-- The front end reads PRIO of the packet at the head of a queue, by a load at home like any other of its own, which waits while a home
that it goes to has not come up with what die 0 knows (R131, R297, R347). -/
def State.seePrio (s : State) (v : Vf) (x : Queue) : Tried Unit :=
  match s.partRead v 0 (x.slotVa x.head + 4) 2 4 with
  | .ok s _ => .ok s ()
  | .fault s _ _ => .ok s ()
  | .deny s => .ok s ()
  | .wait s => .wait s

/-- The front end reads PRIO of the heads of a VF's queues where more than one has a packet to take. -/
def State.seePrios (s : State) (v : Vf) : Tried Unit :=
  let qs := v.queues.filter Queue.waiting
  if qs.length < 2 then .ok s () else s.tryAll qs (fun s x => s.seePrio v x)

/-- The effective priority of a queue head (R131). -/
def State.headPrio (s : State) (v : Vf) (x : Queue) : Nat :=
  min 7 (s.peekPrio v x + (s.clock.toNat - x.since) / 10000000)

/-- Whether a VF's queues are served. -/
def State.serves (s : State) (v : Vf) : Bool := s.mgmt.ready && v.migctl == 0

/-- Whether a VF has a packet to take. -/
def State.hasPacket (s : State) (v : Vf) : Bool := s.serves v && v.queues.any Queue.waiting

/-- Queue q holds the head that its VF takes next: the highest effective priority, the lower queue on a tie (R131). -/
def State.queueTurn (s : State) (v : Vf) (q : Nat) : Bool :=
  (v.queue q).waiting && ((List.range 16).zip v.queues).all (fun y => y.1 == q || !y.2.waiting ||
    (let a := s.headPrio v (v.queue q)
     let b := s.headPrio v y.2
     decide (b < a) || (a == b && decide (q < y.1))))

/-- Every VF that has a packet to take has had its share: the round is over (R131). -/
def State.roundOver (s : State) : Bool := s.vfs.all (fun v => !s.hasPacket v || decide (v.share ≤ v.taken))

/-- A new round. -/
def State.newRound (s : State) : State := { s with vfs := s.vfs.map (fun v => { v with taken := 0 }) }

/-! ## Checkpoint intervals -/

/-- A unit of a queue: its packet's HEAD and its launches; none of them where it is to run again after a rollback. -/
abbrev RunUnit := Nat × Word × List Nat

/-- Puts a chained launch into the last unit of its queue. -/
def addToLast (q l : Nat) : List RunUnit → List RunUnit
  | [] => []
  | u :: us => if u.1 == q && !(us.any (fun x => x.1 == q && !x.2.2.isEmpty)) && !u.2.2.isEmpty
      then (u.1, u.2.1, u.2.2 ++ [l]) :: us else u :: addToLast q l us

/-- Whether an interval holds a unit of a queue that has started. -/
def Interval.hasQueue (i : Interval) (q : Nat) : Bool := i.units.any (fun u => u.1 == q && !u.2.2.isEmpty)

/-- The last interval of a VF that holds a unit of a queue gets a chained launch. -/
def chainInto (vf q l : Nat) : List Interval → List Interval
  | [] => []
  | i :: is => if i.vf == vf && i.hasQueue q && !(is.any (fun j => j.vf == vf && j.hasQueue q))
      then { i with units := addToLast q l i.units } :: is else i :: chainInto vf q l is

/-- Whether a unit is one that a rollback has put back to its packet. -/
def rerun (q : Nat) (head : Word) (u : RunUnit) : Bool := u.1 == q && u.2.1 == head && u.2.2.isEmpty

/-- Puts a launch into the first entry that `p` picks. -/
def fillUnit (q l : Nat) (head : Word) : List RunUnit → List RunUnit
  | [] => []
  | u :: us => if rerun q head u then (q, head, [l]) :: us else u :: fillUnit q l head us

/-- A unit starts: it runs again in the interval of its rollback, belongs to the interval that takes units, or opens a new one
(R331). -/
def State.addUnit (s : State) (vf q l : Nat) (head : Word) (chained : Bool) : State :=
  { s with intervals :=
      if chained then chainInto vf q l s.intervals
      else if s.intervals.any (fun i => i.vf == vf && i.units.any (rerun q head)) then
        s.intervals.map (fun i => if i.vf == vf then { i with units := fillUnit q l head i.units } else i)
      else if s.intervals.any (fun i => i.vf == vf && i.taking) then
        s.intervals.map (fun i => if i.vf == vf && i.taking then { i with units := i.units ++ [(q, head, [l])] } else i)
      else s.intervals ++ [⟨vf, [(q, head, [l])], true, [], [], [], none, []⟩] }

/-- The unit of a queue has ended: its interval takes no more units (R331). -/
def State.endUnit (s : State) (vf q : Nat) : State :=
  { s with intervals := s.intervals.map (fun i => if i.vf == vf && i.hasQueue q then { i with taking := false } else i) }

/-- A packet starts no launch: no unit waits for it any more. -/
def State.dropUnit (s : State) (vf q : Nat) (head : Word) : State :=
  { s with intervals := s.intervals.map (fun i =>
      if i.vf == vf then { i with units := i.units.filter (fun u => !rerun q head u) } else i) }

/-! ## The end of a packet's service -/

/-- The packet in service leaves its queue: HEAD passes a slot and the VF has taken a packet; a chained packet is used up. -/
def State.packetDone (s : State) (vf q : Nat) (chained : Bool) (f : Queue → Queue) : State :=
  match s.vf? vf with
  | none => s
  | some v =>
    let x := v.queue q
    let y := f { x with memo := [], fail := none, chain := none, since := s.clock.toNat,
                        head := if chained then x.head else x.head + 1 }
    s.setVf { v.setQueue q y with taken := if chained then v.taken else v.taken + 1 }

/-- A packet that starts no launch ends a chain, or leaves a slot behind. -/
def State.packetOff (s : State) (vf q : Nat) (chained : Bool) (f : Queue → Queue) : State :=
  let head := ((s.vf? vf).map (fun v => (v.queue q).head)).getD 0
  let s := s.packetDone vf q chained f
  if chained then s.endUnit vf q else s.dropUnit vf q head

/-- The report header's first 40 bytes (R130). -/
def headerBytes (status detail id start stop records dropped : Nat) : List Byte :=
  bytesOf 4 status ++ bytesOf 4 detail ++ bytesOf 8 id ++ bytesOf 8 start ++ bytesOf 8 stop ++ bytesOf 4 records ++
    bytesOf 4 dropped

/-- A refused launch (R128): the writes of its header and of its signal are to be made. DEDUCED (log entry 16). -/
def State.refuseLaunch (s : State) (vf q : Nat) (chained : Bool) (p : Packet) (status detail : Nat) : State :=
  let t := (s.vfTime vf).toNat
  let header := headerBytes status detail 0 t t 0 0 ++ bytesOf 24 0
  s.packetOff vf q chained (fun x => { x with
    out := [(p.repAddr, header)] ++ (if p.sigAddr = 0 then [] else [(p.sigAddr, bytesOf 8 p.sigVal)]) })

/-! ## Acceptance -/

/-- The dies of a VF (R311), and the cores of a quad of a die. -/
def Vf.dies (v : Vf) : List Nat := (List.range 24).filter (fun d => v.diemask.getLsbD d)
def quadOf (d j : Nat) : List CoreId := (List.range 4).map (fun i => ⟨d, 4 * j + i⟩)

/-- Frames of the segments a launch pins (R108). -/
def Image.pinFrames (i : Image) : Nat := (i.pinned.map (fun g => framesOf ((i.segLen g).getD 0))).foldl (· + ·) 0

/-- Teams that one core can hold of a launch's packet (R133, R164). -/
def Packet.perCore (p : Packet) : Nat :=
  if p.carve ≠ 0 then 1
  else
    let n := p.crews * 32
    let c := min (196608 / (n * p.regs)) (2048 / n)
    if p.stylus then min c (512 / n) else c

/-- Teams of a RESIDENT grid that the cores of a VF's dies can hold at once (R128 step 5). -/
def State.gridRoom (s : State) (v : Vf) (p : Packet) (i : Image) : Nat :=
  let ok (k : CoreId) : Bool := decide (i.pinFrames ≤ s.quota k v.id)
  (v.dies.flatMap (fun d => (List.range 13).map (fun j =>
    let u := ((quadOf d j).filter ok).length
    if u < p.qsize then 0 else u * p.perCore / p.qsize * p.qsize))).foldl (· + ·) 0

/-- Step 5 of R128: the detail of the first check that fails. -/
def State.fitDetail (s : State) (v : Vf) (p : Packet) (i : Image) : Option Nat :=
  firstBad [(1, decide (p.crews * 32 * p.regs ≤ 196608)), (2, !p.stylus || decide (p.crews * 32 ≤ 512)),
    (3, p.lease == 0xFFFF || decide (p.lease ≤ carveLines p.carve)),
    (4, v.dies.any (fun d => (List.range 52).any (fun c => decide (i.pinFrames ≤ s.quota ⟨d, c⟩ v.id)))),
    (5, !p.resident || decide (p.grid ≤ s.gridRoom v p i))]

/-- A pending team of a launch, with its range (R135). -/
def Team.start (l : Nat) (p : Packet) (t : Nat) : Team :=
  { launch := l, idx := t, st := .pending, core := ⟨0, 0⟩, scratch := [], stash := [], tokens := [],
    next := if p.dist = 1 then t * p.iters / p.grid else 0,
    stop := if p.dist = 1 then (t + 1) * p.iters / p.grid else 0,
    swaps := 0, exitTime := 0, stalls := List.replicate 16 0, image := none, allowed := false, auto := false, late := [] }

/-- TAG of a queue's LGROUP, and whether its groups have members on other packages (R304). -/
def Queue.tag (x : Queue) : Nat := x.lgroup.toNat % 2 ^ 32
def Queue.grouped (x : Queue) : Bool := x.tag != 0 && x.lgroup.toNat / 2 ^ 32 % 64 != 0

/-- How many launches have been served from a VF's queues of a tag (R304). -/
def Vf.groupCount (v : Vf) (tag : Nat) : Nat := ((v.groups.find? (fun g => g.1 == tag)).map (fun g => g.2)).getD 0

/-- A launch that has been accepted (R129). -/
def Launch.fresh (l vf q order : Nat) (p : Packet) (i : Image) (group : Option (Nat × Nat)) : Launch :=
  { id := l, vf := vf, q := q, packet := p, image := i, consts := List.replicate 64 0, order := order, start := none,
    retired := 0, workNext := 0, kill := none, killed := false, stage := if p.consts = 0 then 1 else 0, out := [],
    wait := none, written := 0, endTime := 0, tags := [], held := [], writers := [], uncounted := [], violations := [],
    unrollable := false, group := group }

/-- The launch is accepted (R128, R129): it takes the next launch id of its VF and its place in its queue's group (R304), its teams are
pending. -/
def State.accept (s : State) (v : Vf) (q : Nat) (p : Packet) (i : Image) (chained : Bool) : State :=
  let n := v.lcount + 1
  let l := v.id * 2 ^ 58 + n % 2 ^ 58
  let tag := (v.queue q).tag
  let nth := v.groupCount tag + 1
  let group := if (v.queue q).grouped then some (tag, nth) else none
  let s := s.packetDone v.id q chained (fun x => { x with busy := some l })
  let s := match s.vf? v.id with
    | none => s
    | some w => s.setVf { w with lcount := n, accepted := w.accepted + 1,
                                 groups := if tag = 0 then w.groups else upsert (fun g => g.1 == tag) (tag, nth) w.groups }
  let s := { s with
    launches := s.launches ++ [Launch.fresh l v.id q s.nextId p i group]
    teams := s.teams ++ (List.range p.grid).map (Team.start l p)
    mgmt := { s.mgmt with launched := true }
    nextId := s.nextId + 1 }
  (s.addUnit v.id q l (v.queue q).head chained).traceEvent 2 0 l

/-! ## Service -/

/-- What the front end has read of n bytes at an address. -/
def Queue.rd (x : Queue) (va n : Nat) : Option (List Byte) :=
  (x.memo.find? (fun m => m.1 == va && m.2.length == n)).map (fun m => m.2)

/-- Changes a queue. -/
def State.modQueue (s : State) (vf q : Nat) (f : Queue → Queue) : State :=
  match s.vf? vf with
  | none => s
  | some v => s.setVf (v.setQueue q (f (v.queue q)))

/-- The front end waits on a record for its access of a queue (R347). -/
def State.frontWait (s : State) (vf q l va kind level : Nat) : State :=
  let r := s.nextId
  (s.frontRecord vf l va kind level).modQueue vf q (fun x => { x with wait := some r })

/-- An access to the packet has failed: the packet is dropped. DEDUCED (log entry 16). -/
def State.dropPacket (s : State) (vf q : Nat) (chained : Bool) : State := s.packetOff vf q chained (fun x => x)

/-- What the front end does next with a packet: read on, refuse it, or accept it. -/
inductive Judged where
  | read (va n : Nat)
  | refuse (status detail : Nat)
  | accept (i : Image)

/-- Steps 1 to 5 of R128 over what has been read. -/
def State.judgePacket (s : State) (v : Vf) (x : Queue) (b : List Byte) : Judged :=
  match packetBad b v.feature0 with
  | some (st, d) => .refuse st d
  | none =>
    match judgeObject x.rd v (packetOf b) with
    | .read va n => .read va n
    | .refuse st d => .refuse st d
    | .image i =>
      match s.fitDetail v (packetOf b) i with
      | some d => .refuse 4 d
      | none => .accept i

/-- One reading of the packet served: what it brings in is kept, and `again` looks at the packet once more (R55, R172). -/
def State.serveOnce (s : State) (vf q : Nat) (chained : Bool) (a : Nat) (again : State → State) : State :=
  match s.vf? vf with
  | none => s
  | some v =>
    let x := v.queue q
    let keep (s : State) (va : Nat) (bs : List Byte) : State :=
      s.modQueue vf q (fun x => { x with memo := x.memo ++ [(va, bs)] })
    match x.rd a 128 with
    | none =>
      if x.fail.isSome then s.dropPacket vf q chained
      else match s.partRead v 0 a 4 128 with
        | .ok s b => again (keep s a b)
        | .fault s va lv => s.frontWait vf q 0 va 0 lv
        | .deny s => s.dropPacket vf q chained
        | .wait s => s
    | some b =>
      match s.judgePacket v x b with
      | .refuse st d => s.refuseLaunch vf q chained (packetOf b) st d
      | .accept i => s.accept v q (packetOf b) i chained
      | .read va n =>
        if x.fail.isSome then s.refuseLaunch vf q chained (packetOf b) 5 1
        else match s.partRead v 0 va (n + 1) n with
          | .ok s bs => again (keep s va bs)
          | .fault s va lv => s.frontWait vf q 0 va 0 lv
          | .deny s => s.refuseLaunch vf q chained (packetOf b) 5 1
          | .wait s => s

/-- Goes on with the packet at an address: at most `fuel` reads (R128, R347). -/
def State.servePacket (s : State) (vf q : Nat) (chained : Bool) (a : Nat) : Nat → State
  | 0 => s
  | fuel + 1 => s.serveOnce vf q chained a (fun s => s.servePacket vf q chained a fuel)

/-- The next write of a refusal (R128, R347). -/
def State.refusalWrite (s : State) (v : Vf) (q : Nat) (x : Queue) (w : Nat × List Byte) : State :=
  let next (s : State) : State := s.modQueue v.id q (fun y => { y with out := x.out.drop 1, fail := none, since := s.clock.toNat })
  if x.fail.isSome then next s
  else match s.partWrite v 0 w.1 (w.2.length + 1) w.2 with
    | .ok s _ => next s
    | .fault s va lv =>
      (s.frontWait v.id q 0 va 1 lv).modQueue v.id q (fun y => { y with out := (va, restFrom w.1 va w.2) :: x.out.drop 1 })
    | .deny s => next s
    | .wait s => s

/-- The constants of an accepted launch are read before its first thread starts (R15, R129, R347). -/
def State.readConsts (s : State) (v : Vf) (q : Nat) (x : Queue) (l : Launch) : State :=
  let part : CoreId := ⟨24, 0⟩
  let fail (s : State) (d : Nat) : State :=
    (s.killLaunch l.id d part).modQueue v.id q (fun y => { y with fail := none })
  match x.fail with
  | some f => fail s f.2
  | none =>
    match s.partRead v l.id l.packet.consts 8 256 with
    | .ok s bs => s.setLaunch { l with consts := wordsOf 64 (natOf bs), stage := 1 }
    | .fault s va lv => s.frontWait v.id q l.id va 0 lv
    | .deny s => fail s 0x08
    | .wait s => s

/-- The front end waits on a record for a held signal of a queue's launch (R331, R347). -/
def State.signalWait (s : State) (vf q : Nat) : Bool :=
  s.intervals.any (fun i => i.vf == vf && i.wait.isSome && (i.signals.head?.map (fun x => x.1)) == some q)

/-- PACKET_SERVE (R126, R128, R131, R143, R347): the front end goes on with a queue: a refusal's writes, a launch's constants, a
chained packet, or the packet at HEAD in its turn. -/
def execPacketServe (vf q : Nat) (s : State) : Out :=
  match s.vf? vf with
  | none => .next s
  | some v =>
    let x := v.queue q
    if !s.mgmt.ready || x.wait.isSome || s.signalWait vf q then .next s
    else match x.out with
      | w :: _ => .next (s.refusalWrite v q x w)
      | [] =>
        match x.busy.bind s.launch? with
        | some l => .next (if l.stage = 0 && l.kill.isNone then s.readConsts v q x l else s)
        | none =>
          if x.busy.isSome || v.migctl ≠ 0 then .next s
          else match x.chain with
            | some a => .next (s.servePacket vf q true a 8)
            | none =>
              match s.seePrios v with
              | .wait s => .next s
              | .ok s _ =>
                if !s.queueTurn v q then .next s
                else if v.share ≤ v.taken then .next (if s.roundOver then s.newRound else s)
                else .next (s.servePacket vf q false (x.slotVa x.head) 8)

end Sys2Proof.Machine
end

