-- ==== Sys2Proof/WellFormed.lean ====
section
/-! DEFINITION. Which instructions an encoding can hold: the checks of steps 3 to 5 of R59 on the
fields of a decoded instruction. -/

namespace Sys2Proof

/-- A pair's base name is even (R37). -/
def pairOk (r : Reg) : Bool := r.extractLsb' 0 1 == 0

/-- A quad's base name is a multiple of 4 (R37). -/
def quadOk (r : Reg) : Bool := r.extractLsb' 0 2 == 0

/-- A block's base name is a multiple of 4 and at most w120 (R37). -/
def blockOk (r : Reg) : Bool := r.extractLsb' 0 2 == 0 && r != 124

/-- A scope code of R51: 1 core, 2 quad, 3 die, 4 pkg, 5 pod. -/
def scopeOk (c : BitVec 3) : Bool := c != 0 && c != 6 && c != 7

/-- RDS may read every selector but the reserved ones 42 to 47 (R16). -/
def readable (sel : BitVec 7) : Bool := !(42 ≤ sel.toNat && sel.toNat ≤ 47)

/-- WRS may write FPMODE, FPFLAGS, INTFLAGS and LK (R16). -/
def writable (sel : BitVec 7) : Bool := sel == 22 || sel == 23 || sel == 24 || sel == 27

/-- Every check a word passes at fetch that its fields can break: shapes (R37), reserved immediates (R38, R51),
special registers (R16, R55), and the selector of a reserved hint (R56). A step that is no word is well formed. -/
def wellFormed : Instr → Bool
  | .add _ _ _ _ => true
  | .sub _ _ _ _ => true
  | .mullo _ _ _ _ => true
  | .mulhiS32 _ _ _ _ => true
  | .mulhiN32 _ _ _ _ => true
  | .mulwS32 _ d _ _ => pairOk d
  | .mulwN32 _ d _ _ => pairOk d
  | .mad _ _ _ _ => true
  | .divS32 _ _ _ _ => true
  | .divN32 _ _ _ _ => true
  | .remS32 _ _ _ _ => true
  | .remN32 _ _ _ _ => true
  | .and _ _ _ _ => true
  | .or _ _ _ _ => true
  | .xor _ _ _ _ => true
  | .andn _ _ _ _ => true
  | .orn _ _ _ _ => true
  | .shl _ _ _ _ => true
  | .shr _ _ _ _ => true
  | .sar _ _ _ _ => true
  | .rotl _ _ _ _ => true
  | .rotr _ _ _ _ => true
  | .minS32 _ _ _ _ => true
  | .minN32 _ _ _ _ => true
  | .maxS32 _ _ _ _ => true
  | .maxN32 _ _ _ _ => true
  | .sad _ _ _ _ => true
  | .sel _ _ _ _ => true
  | .seteq _ _ _ _ => true
  | .setne _ _ _ _ => true
  | .setltS32 _ _ _ _ => true
  | .setltN32 _ _ _ _ => true
  | .setleS32 _ _ _ _ => true
  | .setleN32 _ _ _ _ => true
  | .clz _ _ _ => true
  | .popc _ _ _ => true
  | .brev _ _ _ => true
  | .bfxS32 _ _ _ _ => true
  | .bfxN32 _ _ _ _ => true
  | .bfi _ _ _ _ => true
  | .add64 _ d a b => pairOk d && pairOk a && pairOk b
  | .sub64 _ d a b => pairOk d && pairOk a && pairOk b
  | .shl64 _ d a _ => pairOk d && pairOk a
  | .shr64 _ d a _ => pairOk d && pairOk a
  | .sar64 _ d a _ => pairOk d && pairOk a
  | .seteq64 _ _ a b => pairOk a && pairOk b
  | .setlt64S _ _ a b => pairOk a && pairOk b
  | .setlt64N _ _ a b => pairOk a && pairOk b
  | .mad64N32 _ d _ _ => pairOk d
  | .mad64S32 _ d _ _ => pairOk d
  | .mov _ _ _ => true
  | .mov64 _ d a => pairOk d && pairOk a
  | .addi _ _ _ _ => true
  | .andi _ _ _ _ => true
  | .ori _ _ _ _ => true
  | .xori _ _ _ _ => true
  | .shli _ _ _ _ => true
  | .shri _ _ _ _ => true
  | .sari _ _ _ _ => true
  | .setltiS32 _ _ _ _ => true
  | .fadd _ _ _ _ => true
  | .fsub _ _ _ _ => true
  | .fmul _ _ _ _ => true
  | .fma _ _ _ _ => true
  | .fmin _ _ _ _ => true
  | .fmax _ _ _ _ => true
  | .fdiv _ _ _ _ => true
  | .fsqrt _ _ _ => true
  | .frcp _ _ _ => true
  | .frsq _ _ _ => true
  | .fexp2 _ _ _ => true
  | .flog2 _ _ _ => true
  | .fabs _ _ _ => true
  | .fneg _ _ _ => true
  | .frint _ _ _ => true
  | .fclass _ _ _ => true
  | .fseteq _ _ _ _ => true
  | .fsetlt _ _ _ _ => true
  | .fsetle _ _ _ _ => true
  | .fsetun _ _ _ _ => true
  | .dadd _ d a b => pairOk d && pairOk a && pairOk b
  | .dsub _ d a b => pairOk d && pairOk a && pairOk b
  | .dmul _ d a b => pairOk d && pairOk a && pairOk b
  | .dfma _ d a b => pairOk d && pairOk a && pairOk b
  | .dmin _ d a b => pairOk d && pairOk a && pairOk b
  | .dmax _ d a b => pairOk d && pairOk a && pairOk b
  | .ddiv _ d a b => pairOk d && pairOk a && pairOk b
  | .dsqrt _ d a => pairOk d && pairOk a
  | .drint _ d a => pairOk d && pairOk a
  | .dseteq _ _ a b => pairOk a && pairOk b
  | .dsetlt _ _ a b => pairOk a && pairOk b
  | .dsetle _ _ a b => pairOk a && pairOk b
  | .hadd2 _ _ _ _ => true
  | .hmul2 _ _ _ _ => true
  | .hfma2 _ _ _ _ => true
  | .badd2 _ _ _ _ => true
  | .bmul2 _ _ _ _ => true
  | .bfma2 _ _ _ _ => true
  | .cvtF32S32 _ _ _ => true
  | .cvtF32N32 _ _ _ => true
  | .cvtS32F32 _ _ _ => true
  | .cvtN32F32 _ _ _ => true
  | .cvtF64F32 _ d _ => pairOk d
  | .cvtF32F64 _ _ a => pairOk a
  | .cvtF64S32 _ d _ => pairOk d
  | .cvtS32F64 _ _ a => pairOk a
  | .cvtF64S64 _ d a => pairOk d && pairOk a
  | .cvtS64F64 _ d a => pairOk d && pairOk a
  | .cvtF64N64 _ d a => pairOk d && pairOk a
  | .cvtN64F64 _ d a => pairOk d && pairOk a
  | .packF16 _ _ _ _ => true
  | .packBf16 _ _ _ _ => true
  | .unpkF16 _ d _ => pairOk d
  | .unpkBf16 _ d _ => pairOk d
  | .sext8 _ _ _ => true
  | .sext16 _ _ _ => true
  | .qntN8 _ _ _ _ => true
  | .dqntN8 _ _ _ _ => true
  | .lds _ _ _ => true
  | .ldh _ _ _ => true
  | .orl _ _ _ => true
  | .addpc _ _ _ => true
  | .beqz _ _ _ => true
  | .bnez _ _ _ => true
  | .bltz _ _ _ => true
  | .bgez _ _ _ => true
  | .bgtz _ _ _ => true
  | .blez _ _ _ => true
  | .bra _ _ => true
  | .jmp _ _ => true
  | .call _ _ => true
  | .ld8S _ _ _ a _ => pairOk a
  | .ld8N _ _ _ a _ => pairOk a
  | .ld16S _ _ _ a _ => pairOk a
  | .ld16N _ _ _ a _ => pairOk a
  | .ld32 _ _ _ a _ => pairOk a
  | .ld64 _ _ d a _ => pairOk d && pairOk a
  | .ld128 _ _ d a _ => quadOk d && pairOk a
  | .st8 _ _ _ a _ => pairOk a
  | .st16 _ _ _ a _ => pairOk a
  | .st32 _ _ _ a _ => pairOk a
  | .st64 _ _ d a _ => pairOk d && pairOk a
  | .st128 _ _ d a _ => quadOk d && pairOk a
  | .aadd _ _ _ a _ => pairOk a
  | .aadd64 _ _ d a b => pairOk d && pairOk a && pairOk b
  | .aminS32 _ _ _ a _ => pairOk a
  | .aminN32 _ _ _ a _ => pairOk a
  | .amaxS32 _ _ _ a _ => pairOk a
  | .amaxN32 _ _ _ a _ => pairOk a
  | .aand _ _ _ a _ => pairOk a
  | .aor _ _ _ a _ => pairOk a
  | .axor _ _ _ a _ => pairOk a
  | .axchg _ _ _ a _ => pairOk a
  | .axchg64 _ _ d a b => pairOk d && pairOk a && pairOk b
  | .acas _ _ _ a b => pairOk a && pairOk b
  | .acas64 _ _ d a b => pairOk d && pairOk a && quadOk b
  | .afadd _ _ _ a _ => pairOk a
  | .afadd64 _ _ d a b => pairOk d && pairOk a && pairOk b
  | .aincw _ _ _ a _ => pairOk a
  | .fence _ kind sc => scopeOk sc && kind != 0
  | .ldsc _ _ a => pairOk a
  | .stsc _ a _ => pairOk a
  | .cassc _ _ a b => pairOk a && pairOk b
  | .waitcEq _ _ a _ => pairOk a
  | .waitcNe _ _ a _ => pairOk a
  | .waitcGeS32 _ _ a _ => pairOk a
  | .waitcGeN32 _ _ a _ => pairOk a
  | .waitcLtS32 _ _ a _ => pairOk a
  | .waitcLtN32 _ _ a _ => pairOk a
  | .redtoAdd _ d a _ => pairOk d && pairOk a
  | .redtoFadd _ d a _ => pairOk d && pairOk a
  | .redtoMinS32 _ d a _ => pairOk d && pairOk a
  | .redtoMaxS32 _ d a _ => pairOk d && pairOk a
  | .redtoOr _ d a _ => pairOk d && pairOk a
  | .bar _ _ sc => scopeOk sc
  | .bara _ _ sc => scopeOk sc
  | .barw _ _ sc => scopeOk sc
  | .barinit _ _ _ sc => scopeOk sc
  | .meet _ _ => true
  | .meetq _ _ => true
  | .cshfl _ _ _ _ => true
  | .cshflx _ _ _ _ => true
  | .cup _ _ _ _ => true
  | .cdn _ _ _ _ => true
  | .cbcast _ _ _ _ => true
  | .cvany _ _ _ => true
  | .cvall _ _ _ => true
  | .cballot _ _ _ => true
  | .cradd _ _ _ => true
  | .crfadd _ _ _ => true
  | .crminS32 _ _ _ => true
  | .crmaxS32 _ _ _ => true
  | .cscan _ _ _ => true
  | .cscanf _ _ _ => true
  | .sld32 _ _ _ => true
  | .sst32 _ _ _ => true
  | .sld64 _ d _ => pairOk d
  | .sst64 _ d _ => pairOk d
  | .qld32 _ _ a => pairOk a
  | .qst32 _ _ a => pairOk a
  | .lease _ _ => true
  | .leasem _ _ => true
  | .work _ d => quadOk d
  | .steal _ d => quadOk d
  | .exit _ => true
  | .copy _ _ a b => pairOk a && blockOk b
  | .copym _ _ a b => pairOk a && blockOk b
  | .recfl _ _ a => pairOk a
  | .task _ _ _ => true
  | .dprog _ _ _ _ => true
  | .djob _ _ a => pairOk a
  | .ovld _ _ _ => true
  | .ovtok _ _ _ => true
  | .ovrel _ _ => true
  | .ovq _ _ _ => true
  | .smap _ _ a b => pairOk a && pairOk b
  | .sunmap _ _ _ => true
  | .cload _ _ a _ => pairOk a
  | .crun _ d a _ => pairOk d && quadOk a
  | .sinit _ => true
  | .sfold _ _ _ => true
  | .sget _ d => pairOk d
  | .proof _ d a _ => pairOk d && pairOk a
  | .proofq _ d a => pairOk d && pairOk a
  | .nop _ => true
  | .rds _ _ b => readable b
  | .wrs _ _ b => writable b
  | .win _ _ => true
  | .jr _ _ => true
  | .callx _ _ => true
  | .ret _ => true
  | .trap _ _ => true
  | .tret _ => true
  | .bkpt _ => true
  | .launch _ _ a _ => pairOk a
  | .ldu _ d a => pairOk d && pairOk a
  | .ocall _ _ => true
  | .pref _ a => pairOk a
  | .reservedHint _ f _ _ _ => f != 0
  | .illegalWordFetch _ => true
  | .reformBoundary _ => true
  | .longLatencyReply _ => true
  | .switchPointLeave _ => true
  | .crewdivDetect _ => true
  | .trapTaken _ => true
  | .launchKill _ => true
  | .permitBackoffExpiry _ => true
  | .lacerLoadDecision _ => true
  | .segmentLoadComplete _ _ => true
  | .ovfullTimeout _ => true
  | .packetServe _ _ => true
  | .teamPlacement _ => true
  | .launchEnd _ => true
  | .activationDecision _ => true
  | .dueCountExpiry _ => true
  | .leaseWindowExpiry _ => true
  | .l1WritebackTimer _ _ => true
  | .pageWalkComplete _ => true
  | .faultRecordWrite _ => true
  | .atomicPerform _ => true
  | .scAccessPerform _ => true
  | .scClockPublish _ => true
  | .monitorReread _ => true
  | .waitcPollTimer _ => true
  | .redtoDelivery _ => true
  | .barrierArrival _ => true
  | .workPieceServe _ => true
  | .engineOpBegin _ => true
  | .engineRetire _ => true
  | .skiverJobStop _ => true
  | .cobblerDispatch _ => true
  | .eslotTimeout _ => true
  | .addOnStorePerform _ => true
  | .ticketTileApply _ => true
  | .candidateStop _ => true
  | .proofPerform _ => true
  | .proofqPerform _ => true
  | .writeApply _ => true
  | .remoteRequestServe _ => true
  | .remoteLineSendTimer _ _ => true
  | .autoSwapOut _ _ => true
  | .lateReplyWrite _ => true
  | .teamRestore _ _ => true
  | .migrationQuiesced _ => true
  | .intervalClose _ => true
  | .uncorrectableConsumed _ => true
  | .timingReplay _ _ => true
  | .schedulerRebuild _ _ => true
  | .voltageEvaluation _ _ => true
  | .throttleStart _ => true
  | .throttleEnd _ => true
  | .traceCaptureStop => true
  | .powerOn _ => true
  | .memoryInitComplete => true
  | .queueTail _ _ _ => true
  | .resume _ _ => true
  | .fqhead _ _ => true
  | .invalva _ _ => true
  | .preempt _ _ => true
  | .restorel _ _ => true
  | .eyeletSpill _ _ _ => true
  | .eyeletFill _ _ _ => true
  | .migctl _ _ => true
  | .vtime _ _ => true
  | .semAcquire _ _ => true
  | .semRelease _ _ => true
  | .frameQuota _ _ _ => true
  | .diemask _ _ => true
  | .vfCreate _ _ _ => true
  | .vfDestroy _ => true
  | .registerWrite _ _ => true
  | .masterMemoryWrite _ _ _ _ => true
  | .singleFault _ => true
  | .invalvaRemovalComplete _ => true
  | .saveComplete _ _ => true

end Sys2Proof
end

