-- ==== Sys2Proof/Decode.lean ====
section
/-! DEFINITION. Decoding (R34 to R62), total on any word, rejecting by the reasons of R61; and the
encoder, written from the same tables. -/

namespace Sys2Proof

/-- Steps 4 and 5 of R59: zero fields (reason 3), immediates (4) and special registers (6), then alignment (5). R59 gives the checks of
step 4 no order among themselves: where two of them fail at once, the reason reported is the first of 3, 4, 6. DESIGN CHOICE (log entry
35). -/
def judge (zero imm spec aligned : Bool) (i : Instr) : Except FetchFault Instr :=
  if !zero then .error (.illegal 3)
  else if !imm then .error (.illegal 4)
  else if !spec then .error (.illegal 6)
  else if !aligned then .error (.illegal 5)
  else .ok i

/-- The words of major 0 by F (03_encoding.md). -/
def decodeInt (sp : Bool) (f : BitVec 6) (d a b : Reg) : Except FetchFault Instr :=
  match f.toNat with
  | 0 => .ok (.add sp d a b)
  | 1 => .ok (.sub sp d a b)
  | 2 => .ok (.mullo sp d a b)
  | 3 => .ok (.mulhiS32 sp d a b)
  | 4 => .ok (.mulhiN32 sp d a b)
  | 5 => judge (true) true true (pairOk d) (.mulwS32 sp d a b)
  | 6 => judge (true) true true (pairOk d) (.mulwN32 sp d a b)
  | 7 => .ok (.mad sp d a b)
  | 8 => .ok (.divS32 sp d a b)
  | 9 => .ok (.divN32 sp d a b)
  | 10 => .ok (.remS32 sp d a b)
  | 11 => .ok (.remN32 sp d a b)
  | 12 => .ok (.and sp d a b)
  | 13 => .ok (.or sp d a b)
  | 14 => .ok (.xor sp d a b)
  | 15 => .ok (.andn sp d a b)
  | 16 => .ok (.orn sp d a b)
  | 17 => .ok (.shl sp d a b)
  | 18 => .ok (.shr sp d a b)
  | 19 => .ok (.sar sp d a b)
  | 20 => .ok (.rotl sp d a b)
  | 21 => .ok (.rotr sp d a b)
  | 22 => .ok (.minS32 sp d a b)
  | 23 => .ok (.minN32 sp d a b)
  | 24 => .ok (.maxS32 sp d a b)
  | 25 => .ok (.maxN32 sp d a b)
  | 26 => .ok (.sad sp d a b)
  | 27 => .ok (.sel sp d a b)
  | 28 => .ok (.seteq sp d a b)
  | 29 => .ok (.setne sp d a b)
  | 30 => .ok (.setltS32 sp d a b)
  | 31 => .ok (.setltN32 sp d a b)
  | 32 => .ok (.setleS32 sp d a b)
  | 33 => .ok (.setleN32 sp d a b)
  | 34 => judge (b == 0) true true (true) (.clz sp d a)
  | 35 => judge (b == 0) true true (true) (.popc sp d a)
  | 36 => judge (b == 0) true true (true) (.brev sp d a)
  | 37 => .ok (.bfxS32 sp d a b)
  | 38 => .ok (.bfxN32 sp d a b)
  | 39 => .ok (.bfi sp d a b)
  | 40 => judge (true) true true (pairOk d && pairOk a && pairOk b) (.add64 sp d a b)
  | 41 => judge (true) true true (pairOk d && pairOk a && pairOk b) (.sub64 sp d a b)
  | 42 => judge (true) true true (pairOk d && pairOk a) (.shl64 sp d a b)
  | 43 => judge (true) true true (pairOk d && pairOk a) (.shr64 sp d a b)
  | 44 => judge (true) true true (pairOk d && pairOk a) (.sar64 sp d a b)
  | 45 => judge (true) true true (pairOk a && pairOk b) (.seteq64 sp d a b)
  | 46 => judge (true) true true (pairOk a && pairOk b) (.setlt64S sp d a b)
  | 47 => judge (true) true true (pairOk a && pairOk b) (.setlt64N sp d a b)
  | 48 => judge (true) true true (pairOk d) (.mad64N32 sp d a b)
  | 49 => judge (true) true true (pairOk d) (.mad64S32 sp d a b)
  | 50 => judge (b == 0) true true (true) (.mov sp d a)
  | 51 => judge (b == 0) true true (pairOk d && pairOk a) (.mov64 sp d a)
  | _ => .error (.illegal 1)

/-- The words of major 2 by F (03_encoding.md). -/
def decodeFlt (sp : Bool) (f : BitVec 6) (d a b : Reg) : Except FetchFault Instr :=
  match f.toNat with
  | 0 => .ok (.fadd sp d a b)
  | 1 => .ok (.fsub sp d a b)
  | 2 => .ok (.fmul sp d a b)
  | 3 => .ok (.fma sp d a b)
  | 4 => .ok (.fmin sp d a b)
  | 5 => .ok (.fmax sp d a b)
  | 6 => .ok (.fdiv sp d a b)
  | 7 => judge (b == 0) true true (true) (.fsqrt sp d a)
  | 8 => judge (b == 0) true true (true) (.frcp sp d a)
  | 9 => judge (b == 0) true true (true) (.frsq sp d a)
  | 10 => judge (b == 0) true true (true) (.fexp2 sp d a)
  | 11 => judge (b == 0) true true (true) (.flog2 sp d a)
  | 12 => judge (b == 0) true true (true) (.fabs sp d a)
  | 13 => judge (b == 0) true true (true) (.fneg sp d a)
  | 14 => judge (b == 0) true true (true) (.frint sp d a)
  | 15 => judge (b == 0) true true (true) (.fclass sp d a)
  | 16 => .ok (.fseteq sp d a b)
  | 17 => .ok (.fsetlt sp d a b)
  | 18 => .ok (.fsetle sp d a b)
  | 19 => .ok (.fsetun sp d a b)
  | 20 => judge (true) true true (pairOk d && pairOk a && pairOk b) (.dadd sp d a b)
  | 21 => judge (true) true true (pairOk d && pairOk a && pairOk b) (.dsub sp d a b)
  | 22 => judge (true) true true (pairOk d && pairOk a && pairOk b) (.dmul sp d a b)
  | 23 => judge (true) true true (pairOk d && pairOk a && pairOk b) (.dfma sp d a b)
  | 24 => judge (true) true true (pairOk d && pairOk a && pairOk b) (.dmin sp d a b)
  | 25 => judge (true) true true (pairOk d && pairOk a && pairOk b) (.dmax sp d a b)
  | 26 => judge (true) true true (pairOk d && pairOk a && pairOk b) (.ddiv sp d a b)
  | 27 => judge (b == 0) true true (pairOk d && pairOk a) (.dsqrt sp d a)
  | 28 => judge (b == 0) true true (pairOk d && pairOk a) (.drint sp d a)
  | 29 => judge (true) true true (pairOk a && pairOk b) (.dseteq sp d a b)
  | 30 => judge (true) true true (pairOk a && pairOk b) (.dsetlt sp d a b)
  | 31 => judge (true) true true (pairOk a && pairOk b) (.dsetle sp d a b)
  | 32 => .ok (.hadd2 sp d a b)
  | 33 => .ok (.hmul2 sp d a b)
  | 34 => .ok (.hfma2 sp d a b)
  | 35 => .ok (.badd2 sp d a b)
  | 36 => .ok (.bmul2 sp d a b)
  | 37 => .ok (.bfma2 sp d a b)
  | _ => .error (.illegal 1)

/-- The words of major 3 by F (03_encoding.md). -/
def decodeCvt (sp : Bool) (f : BitVec 6) (d a b : Reg) : Except FetchFault Instr :=
  match f.toNat with
  | 0 => judge (b == 0) true true (true) (.cvtF32S32 sp d a)
  | 1 => judge (b == 0) true true (true) (.cvtF32N32 sp d a)
  | 2 => judge (b == 0) true true (true) (.cvtS32F32 sp d a)
  | 3 => judge (b == 0) true true (true) (.cvtN32F32 sp d a)
  | 4 => judge (b == 0) true true (pairOk d) (.cvtF64F32 sp d a)
  | 5 => judge (b == 0) true true (pairOk a) (.cvtF32F64 sp d a)
  | 6 => judge (b == 0) true true (pairOk d) (.cvtF64S32 sp d a)
  | 7 => judge (b == 0) true true (pairOk a) (.cvtS32F64 sp d a)
  | 8 => judge (b == 0) true true (pairOk d && pairOk a) (.cvtF64S64 sp d a)
  | 9 => judge (b == 0) true true (pairOk d && pairOk a) (.cvtS64F64 sp d a)
  | 10 => judge (b == 0) true true (pairOk d && pairOk a) (.cvtF64N64 sp d a)
  | 11 => judge (b == 0) true true (pairOk d && pairOk a) (.cvtN64F64 sp d a)
  | 12 => .ok (.packF16 sp d a b)
  | 13 => .ok (.packBf16 sp d a b)
  | 14 => judge (b == 0) true true (pairOk d) (.unpkF16 sp d a)
  | 15 => judge (b == 0) true true (pairOk d) (.unpkBf16 sp d a)
  | 16 => judge (b == 0) true true (true) (.sext8 sp d a)
  | 17 => judge (b == 0) true true (true) (.sext16 sp d a)
  | 18 => .ok (.qntN8 sp d a b)
  | 19 => .ok (.dqntN8 sp d a b)
  | _ => .error (.illegal 1)

/-- The words of major 9 by F (03_encoding.md). -/
def decodeAtom (sp : Bool) (f : BitVec 6) (d a b : Reg) : Except FetchFault Instr :=
  match (f.extractLsb' 0 4).toNat with
  | 0 => judge (true) true true (pairOk a) (.aadd sp (f.extractLsb' 4 2) d a b)
  | 1 => judge (true) true true (pairOk d && pairOk a && pairOk b) (.aadd64 sp (f.extractLsb' 4 2) d a b)
  | 2 => judge (true) true true (pairOk a) (.aminS32 sp (f.extractLsb' 4 2) d a b)
  | 3 => judge (true) true true (pairOk a) (.aminN32 sp (f.extractLsb' 4 2) d a b)
  | 4 => judge (true) true true (pairOk a) (.amaxS32 sp (f.extractLsb' 4 2) d a b)
  | 5 => judge (true) true true (pairOk a) (.amaxN32 sp (f.extractLsb' 4 2) d a b)
  | 6 => judge (true) true true (pairOk a) (.aand sp (f.extractLsb' 4 2) d a b)
  | 7 => judge (true) true true (pairOk a) (.aor sp (f.extractLsb' 4 2) d a b)
  | 8 => judge (true) true true (pairOk a) (.axor sp (f.extractLsb' 4 2) d a b)
  | 9 => judge (true) true true (pairOk a) (.axchg sp (f.extractLsb' 4 2) d a b)
  | 10 => judge (true) true true (pairOk d && pairOk a && pairOk b) (.axchg64 sp (f.extractLsb' 4 2) d a b)
  | 11 => judge (true) true true (pairOk a && pairOk b) (.acas sp (f.extractLsb' 4 2) d a b)
  | 12 => judge (true) true true (pairOk d && pairOk a && quadOk b) (.acas64 sp (f.extractLsb' 4 2) d a b)
  | 13 => judge (true) true true (pairOk a) (.afadd sp (f.extractLsb' 4 2) d a b)
  | 14 => judge (true) true true (pairOk d && pairOk a && pairOk b) (.afadd64 sp (f.extractLsb' 4 2) d a b)
  | 15 => judge (true) true true (pairOk a) (.aincw sp (f.extractLsb' 4 2) d a b)
  | _ => .error (.illegal 1)

/-- The words of major 10 by F (03_encoding.md). -/
def decodeSync (sp : Bool) (f : BitVec 6) (d a b : Reg) : Except FetchFault Instr :=
  match f.toNat with
  | 0 => judge (d == 0 && a == 0) (b.extractLsb' 5 2 == 0 && scopeOk (b.extractLsb' 0 3) && b.extractLsb' 3 2 != 0) true true (.fence sp (b.extractLsb' 3 2) (b.extractLsb' 0 3))
  | 1 => judge (b == 0) true true (pairOk a) (.ldsc sp d a)
  | 2 => judge (d == 0) true true (pairOk a) (.stsc sp a b)
  | 3 => judge (true) true true (pairOk a && pairOk b) (.cassc sp d a b)
  | 4 => judge (true) true true (pairOk a) (.waitcEq sp d a b)
  | 5 => judge (true) true true (pairOk a) (.waitcNe sp d a b)
  | 6 => judge (true) true true (pairOk a) (.waitcGeS32 sp d a b)
  | 7 => judge (true) true true (pairOk a) (.waitcGeN32 sp d a b)
  | 8 => judge (true) true true (pairOk a) (.waitcLtS32 sp d a b)
  | 9 => judge (true) true true (pairOk a) (.waitcLtN32 sp d a b)
  | 10 => judge (true) true true (pairOk d && pairOk a) (.redtoAdd sp d a b)
  | 11 => judge (true) true true (pairOk d && pairOk a) (.redtoFadd sp d a b)
  | 12 => judge (true) true true (pairOk d && pairOk a) (.redtoMinS32 sp d a b)
  | 13 => judge (true) true true (pairOk d && pairOk a) (.redtoMaxS32 sp d a b)
  | 14 => judge (true) true true (pairOk d && pairOk a) (.redtoOr sp d a b)
  | 15 => judge (d == 0) (b.extractLsb' 3 4 == 0 && scopeOk (b.extractLsb' 0 3)) true true (.bar sp a (b.extractLsb' 0 3))
  | 16 => judge (d == 0) (b.extractLsb' 3 4 == 0 && scopeOk (b.extractLsb' 0 3)) true true (.bara sp a (b.extractLsb' 0 3))
  | 17 => judge (d == 0) (b.extractLsb' 3 4 == 0 && scopeOk (b.extractLsb' 0 3)) true true (.barw sp a (b.extractLsb' 0 3))
  | 18 => judge true (b.extractLsb' 3 4 == 0 && scopeOk (b.extractLsb' 0 3)) true true (.barinit sp d a (b.extractLsb' 0 3))
  | _ => .error (.illegal 1)

/-- The words of major 11 by F (03_encoding.md). -/
def decodePar (sp : Bool) (f : BitVec 6) (d a b : Reg) : Except FetchFault Instr :=
  match f.toNat with
  | 0 => judge (d == 0 && b == 0) true true (true) (.meet sp a)
  | 1 => judge (a == 0 && b == 0) true true (true) (.meetq sp d)
  | 2 => .ok (.cshfl sp d a b)
  | 3 => .ok (.cshflx sp d a b)
  | 4 => .ok (.cup sp d a b)
  | 5 => .ok (.cdn sp d a b)
  | 6 => .ok (.cbcast sp d a b)
  | 7 => judge (b == 0) true true (true) (.cvany sp d a)
  | 8 => judge (b == 0) true true (true) (.cvall sp d a)
  | 9 => judge (b == 0) true true (true) (.cballot sp d a)
  | 10 => judge (b == 0) true true (true) (.cradd sp d a)
  | 11 => judge (b == 0) true true (true) (.crfadd sp d a)
  | 12 => judge (b == 0) true true (true) (.crminS32 sp d a)
  | 13 => judge (b == 0) true true (true) (.crmaxS32 sp d a)
  | 14 => judge (b == 0) true true (true) (.cscan sp d a)
  | 15 => judge (b == 0) true true (true) (.cscanf sp d a)
  | 16 => judge (b == 0) true true (true) (.sld32 sp d a)
  | 17 => judge (b == 0) true true (true) (.sst32 sp d a)
  | 18 => judge (b == 0) true true (pairOk d) (.sld64 sp d a)
  | 19 => judge (b == 0) true true (pairOk d) (.sst64 sp d a)
  | 20 => judge (b == 0) true true (pairOk a) (.qld32 sp d a)
  | 21 => judge (b == 0) true true (pairOk a) (.qst32 sp d a)
  | 22 => judge (d == 0 && b == 0) true true (true) (.lease sp a)
  | 23 => judge (d == 0 && b == 0) true true (true) (.leasem sp a)
  | 24 => judge (a == 0 && b == 0) true true (quadOk d) (.work sp d)
  | 25 => judge (a == 0 && b == 0) true true (quadOk d) (.steal sp d)
  | 26 => judge (d == 0 && a == 0 && b == 0) true true (true) (.exit sp)
  | _ => .error (.illegal 1)

/-- The words of major 12 by F (03_encoding.md). -/
def decodeEng (sp : Bool) (f : BitVec 6) (d a b : Reg) : Except FetchFault Instr :=
  match f.toNat with
  | 0 => judge (true) true true (pairOk a && blockOk b) (.copy sp d a b)
  | 1 => judge (true) true true (pairOk a && blockOk b) (.copym sp d a b)
  | 2 => judge (b == 0) true true (pairOk a) (.recfl sp d a)
  | 3 => judge (b == 0) true true (true) (.task sp d a)
  | 4 => .ok (.dprog sp d a b)
  | 5 => judge (b == 0) true true (pairOk a) (.djob sp d a)
  | 6 => judge (b == 0) true true (true) (.ovld sp d a)
  | 7 => judge (b == 0) true true (true) (.ovtok sp d a)
  | 8 => judge (d == 0 && b == 0) true true (true) (.ovrel sp a)
  | 9 => judge (b == 0) true true (true) (.ovq sp d a)
  | 10 => judge (true) true true (pairOk a && pairOk b) (.smap sp d a b)
  | 11 => judge (b == 0) true true (true) (.sunmap sp d a)
  | _ => .error (.illegal 1)

/-- The words of major 13 by F (03_encoding.md). -/
def decodeSty (sp : Bool) (f : BitVec 6) (d a b : Reg) : Except FetchFault Instr :=
  match f.toNat with
  | 0 => judge (true) true true (pairOk a) (.cload sp d a b)
  | 1 => judge (true) true true (pairOk d && quadOk a) (.crun sp d a b)
  | 2 => judge (d == 0 && a == 0 && b == 0) true true (true) (.sinit sp)
  | 3 => judge (d == 0) true true (true) (.sfold sp a b)
  | 4 => judge (a == 0 && b == 0) true true (pairOk d) (.sget sp d)
  | 5 => judge (true) true true (pairOk d && pairOk a) (.proof sp d a b)
  | 6 => judge (b == 0) true true (pairOk d && pairOk a) (.proofq sp d a)
  | _ => .error (.illegal 1)

/-- The words of major 14 by F (03_encoding.md). -/
def decodeSys (sp : Bool) (f : BitVec 6) (d a b : Reg) : Except FetchFault Instr :=
  match f.toNat with
  | 0 => judge (d == 0 && a == 0 && b == 0) true true (true) (.nop sp)
  | 1 => judge (a == 0) true (readable b) true (.rds sp d b)
  | 2 => judge (d == 0) true (writable b) true (.wrs sp a b)
  | 3 => judge (d == 0 && b == 0) true true (true) (.win sp a)
  | 4 => judge (d == 0 && b == 0) true true (true) (.jr sp a)
  | 5 => judge (d == 0 && b == 0) true true (true) (.callx sp a)
  | 6 => judge (d == 0 && a == 0 && b == 0) true true (true) (.ret sp)
  | 7 => judge (d == 0 && a == 0) true true true (.trap sp b)
  | 8 => judge (d == 0 && a == 0 && b == 0) true true (true) (.tret sp)
  | 9 => judge (d == 0 && a == 0 && b == 0) true true (true) (.bkpt sp)
  | 10 => judge (true) true true (pairOk a) (.launch sp d a b)
  | 60 => judge (b == 0) true true (pairOk d && pairOk a) (.ldu sp d a)
  | 61 => judge (d == 0 && a == 0) true true (true) (.ocall sp b)
  | _ => .error (.illegal 1)

/-- The words of major 15 by F (03_encoding.md). -/
def decodeHint (sp : Bool) (f : BitVec 6) (d a b : Reg) : Except FetchFault Instr :=
  match f.toNat with
  | 0 => judge (d == 0 && b == 0) true true (pairOk a) (.pref sp a)
  | n => if n < 32 then .ok (.reservedHint sp (f.truncate 5) d a b) else .error (.illegal 2)

/-- The words of major 1 by F3 (R42). -/
def decodeInti (sp : Bool) (f : BitVec 3) (d a : Reg) (imm : BitVec 10) : Except FetchFault Instr :=
  match f.toNat with
  | 0 => .ok (.addi sp d a imm)
  | 1 => .ok (.andi sp d a imm)
  | 2 => .ok (.ori sp d a imm)
  | 3 => .ok (.xori sp d a imm)
  | 4 => judge true (imm.extractLsb' 5 5 == 0) true true (.shli sp d a (imm.extractLsb' 0 5))
  | 5 => judge true (imm.extractLsb' 5 5 == 0) true true (.shri sp d a (imm.extractLsb' 0 5))
  | 6 => judge true (imm.extractLsb' 5 5 == 0) true true (.sari sp d a (imm.extractLsb' 0 5))
  | _ => .ok (.setltiS32 sp d a imm)

/-- The words of major 4 by U2 (R45). -/
def decodeUimm (sp : Bool) (u : BitVec 2) (d : Reg) (imm : BitVec 18) : Except FetchFault Instr :=
  match u.toNat with
  | 0 => .ok (.lds sp d imm)
  | 1 => .ok (.ldh sp d imm)
  | 2 => .ok (.orl sp d imm)
  | _ => .ok (.addpc sp d imm)

/-- The words of major 5 by cond (R46). -/
def decodeBr (sp : Bool) (c : BitVec 3) (a : Reg) (off : BitVec 17) : Except FetchFault Instr :=
  match c.toNat with
  | 0 => .ok (.beqz sp a off)
  | 1 => .ok (.bnez sp a off)
  | 2 => .ok (.bltz sp a off)
  | 3 => .ok (.bgez sp a off)
  | 4 => .ok (.bgtz sp a off)
  | 5 => .ok (.blez sp a off)
  | 6 => judge (a == 0) true true true (.bra sp off)
  | _ => .error (.illegal 1)

/-- The words of major 6 by kind (R47). -/
def decodeJ (sp : Bool) (k : BitVec 2) (off : BitVec 25) : Except FetchFault Instr :=
  match k.toNat with
  | 0 => .ok (.jmp sp off)
  | 1 => .ok (.call sp off)
  | _ => .error (.illegal 1)

/-- The words of major 7 by size (R48). POL 3 is legal (R49). -/
def decodeLd (sp : Bool) (z : BitVec 3) (pol : BitVec 2) (d a : Reg) (off : BitVec 8) : Except FetchFault Instr :=
  match z.toNat with
  | 0 => judge true true true (pairOk a) (.ld8S sp pol d a off)
  | 1 => judge true true true (pairOk a) (.ld8N sp pol d a off)
  | 2 => judge true true true (pairOk a) (.ld16S sp pol d a off)
  | 3 => judge true true true (pairOk a) (.ld16N sp pol d a off)
  | 4 => judge true true true (pairOk a) (.ld32 sp pol d a off)
  | 5 => judge true true true (pairOk d && pairOk a) (.ld64 sp pol d a off)
  | 6 => judge true true true (quadOk d && pairOk a) (.ld128 sp pol d a off)
  | _ => .error (.illegal 1)

/-- The words of major 8 by size (R48). POL 3 is legal (R49). -/
def decodeSt (sp : Bool) (z : BitVec 3) (pol : BitVec 2) (d a : Reg) (off : BitVec 8) : Except FetchFault Instr :=
  match z.toNat with
  | 0 => judge true true true (pairOk a) (.st8 sp pol d a off)
  | 2 => judge true true true (pairOk a) (.st16 sp pol d a off)
  | 4 => judge true true true (pairOk a) (.st32 sp pol d a off)
  | 5 => judge true true true (pairOk d && pairOk a) (.st64 sp pol d a off)
  | 6 => judge true true true (quadOk d && pairOk a) (.st128 sp pol d a off)
  | _ => .error (.illegal 1)

/-- The instruction of a word, or why the word does not issue: the major class alone decides the
format (R34, R35). -/
def decodeWord (w : Word) : Except FetchFault Instr :=
  let sp := w.getLsbD 31
  let d := w.extractLsb' 14 7
  let a := w.extractLsb' 7 7
  let b := w.extractLsb' 0 7
  let f := w.extractLsb' 21 6
  match (w.extractLsb' 27 4).toNat with
  | 0 => decodeInt sp f d a b
  | 1 => decodeInti sp (w.extractLsb' 24 3) (w.extractLsb' 17 7) (w.extractLsb' 10 7) (w.extractLsb' 0 10)
  | 2 => decodeFlt sp f d a b
  | 3 => decodeCvt sp f d a b
  | 4 => decodeUimm sp (w.extractLsb' 25 2) (w.extractLsb' 18 7) (w.extractLsb' 0 18)
  | 5 => decodeBr sp (w.extractLsb' 24 3) (w.extractLsb' 17 7) (w.extractLsb' 0 17)
  | 6 => decodeJ sp (w.extractLsb' 25 2) (w.extractLsb' 0 25)
  | 7 => decodeLd sp (w.extractLsb' 24 3) (w.extractLsb' 22 2) (w.extractLsb' 15 7) (w.extractLsb' 8 7) (w.extractLsb' 0 8)
  | 8 => decodeSt sp (w.extractLsb' 24 3) (w.extractLsb' 22 2) (w.extractLsb' 15 7) (w.extractLsb' 8 7) (w.extractLsb' 0 8)
  | 9 => decodeAtom sp f d a b
  | 10 => decodeSync sp f d a b
  | 11 => decodePar sp f d a b
  | 12 => decodeEng sp f d a b
  | 13 => decodeSty sp f d a b
  | 14 => decodeSys sp f d a b
  | _ => decodeHint sp f d a b

/-- Four bytes as the word the hardware stores them for, the first at the lowest address (R4, R34). -/
def wordOfBytes (b0 b1 b2 b3 : Byte) : Word := b3 ++ b2 ++ b1 ++ b0

/-- Decoding the bytes at a code address (R34): a list shorter than a word holds no instruction. -/
def decodeBytes : List Byte → Option (Except FetchFault Instr × List Byte)
  | b0 :: b1 :: b2 :: b3 :: rest => some (decodeWord (wordOfBytes b0 b1 b2 b3), rest)
  | _ => none

/-- The instruction the decoder reads from a word numbered as the opcode table numbers its bits. -/
def decodeTableWord (_nbits w : Nat) : Option Instr :=
  let x := BitVec.ofNat 32 w
  match decodeBytes [x.extractLsb' 0 8, x.extractLsb' 8 8, x.extractLsb' 16 8, x.extractLsb' 24 8] with
  | some (.ok i, _) => some i
  | _ => none

/-! ## The encoder -/

/-- Format A (R35). -/
def formA (sp : Bool) (m : BitVec 4) (f : BitVec 6) (d a b : Reg) : Word :=
  BitVec.ofBool sp ++ m ++ f ++ d ++ a ++ b

/-- Format I (R35). -/
def formI (sp : Bool) (m : BitVec 4) (f3 : BitVec 3) (d a : Reg) (imm : BitVec 10) : Word :=
  BitVec.ofBool sp ++ m ++ f3 ++ d ++ a ++ imm

/-- Format U (R35). -/
def formU (sp : Bool) (m : BitVec 4) (u2 : BitVec 2) (d : Reg) (imm : BitVec 18) : Word :=
  BitVec.ofBool sp ++ m ++ u2 ++ d ++ imm

/-- Format B (R35). -/
def formB (sp : Bool) (m : BitVec 4) (cond : BitVec 3) (a : Reg) (off : BitVec 17) : Word :=
  BitVec.ofBool sp ++ m ++ cond ++ a ++ off

/-- Format J (R35). -/
def formJ (sp : Bool) (m : BitVec 4) (kind : BitVec 2) (off : BitVec 25) : Word :=
  BitVec.ofBool sp ++ m ++ kind ++ off

/-- Format M (R35). -/
def formM (sp : Bool) (m : BitVec 4) (size : BitVec 3) (pol : BitVec 2) (d a : Reg) (off : BitVec 8) : Word :=
  BitVec.ofBool sp ++ m ++ size ++ pol ++ d ++ a ++ off

/-- The word of an instruction, written from the formats of R35 and the maps of R41 to R56; a step that is
no instruction word has none. -/
def encode : Instr → Option Word
  | .add sp d a b => some (formA sp 0 0 d a b)
  | .sub sp d a b => some (formA sp 0 1 d a b)
  | .mullo sp d a b => some (formA sp 0 2 d a b)
  | .mulhiS32 sp d a b => some (formA sp 0 3 d a b)
  | .mulhiN32 sp d a b => some (formA sp 0 4 d a b)
  | .mulwS32 sp d a b => some (formA sp 0 5 d a b)
  | .mulwN32 sp d a b => some (formA sp 0 6 d a b)
  | .mad sp d a b => some (formA sp 0 7 d a b)
  | .divS32 sp d a b => some (formA sp 0 8 d a b)
  | .divN32 sp d a b => some (formA sp 0 9 d a b)
  | .remS32 sp d a b => some (formA sp 0 10 d a b)
  | .remN32 sp d a b => some (formA sp 0 11 d a b)
  | .and sp d a b => some (formA sp 0 12 d a b)
  | .or sp d a b => some (formA sp 0 13 d a b)
  | .xor sp d a b => some (formA sp 0 14 d a b)
  | .andn sp d a b => some (formA sp 0 15 d a b)
  | .orn sp d a b => some (formA sp 0 16 d a b)
  | .shl sp d a b => some (formA sp 0 17 d a b)
  | .shr sp d a b => some (formA sp 0 18 d a b)
  | .sar sp d a b => some (formA sp 0 19 d a b)
  | .rotl sp d a b => some (formA sp 0 20 d a b)
  | .rotr sp d a b => some (formA sp 0 21 d a b)
  | .minS32 sp d a b => some (formA sp 0 22 d a b)
  | .minN32 sp d a b => some (formA sp 0 23 d a b)
  | .maxS32 sp d a b => some (formA sp 0 24 d a b)
  | .maxN32 sp d a b => some (formA sp 0 25 d a b)
  | .sad sp d a b => some (formA sp 0 26 d a b)
  | .sel sp d a b => some (formA sp 0 27 d a b)
  | .seteq sp d a b => some (formA sp 0 28 d a b)
  | .setne sp d a b => some (formA sp 0 29 d a b)
  | .setltS32 sp d a b => some (formA sp 0 30 d a b)
  | .setltN32 sp d a b => some (formA sp 0 31 d a b)
  | .setleS32 sp d a b => some (formA sp 0 32 d a b)
  | .setleN32 sp d a b => some (formA sp 0 33 d a b)
  | .clz sp d a => some (formA sp 0 34 d a 0)
  | .popc sp d a => some (formA sp 0 35 d a 0)
  | .brev sp d a => some (formA sp 0 36 d a 0)
  | .bfxS32 sp d a b => some (formA sp 0 37 d a b)
  | .bfxN32 sp d a b => some (formA sp 0 38 d a b)
  | .bfi sp d a b => some (formA sp 0 39 d a b)
  | .add64 sp d a b => some (formA sp 0 40 d a b)
  | .sub64 sp d a b => some (formA sp 0 41 d a b)
  | .shl64 sp d a b => some (formA sp 0 42 d a b)
  | .shr64 sp d a b => some (formA sp 0 43 d a b)
  | .sar64 sp d a b => some (formA sp 0 44 d a b)
  | .seteq64 sp d a b => some (formA sp 0 45 d a b)
  | .setlt64S sp d a b => some (formA sp 0 46 d a b)
  | .setlt64N sp d a b => some (formA sp 0 47 d a b)
  | .mad64N32 sp d a b => some (formA sp 0 48 d a b)
  | .mad64S32 sp d a b => some (formA sp 0 49 d a b)
  | .mov sp d a => some (formA sp 0 50 d a 0)
  | .mov64 sp d a => some (formA sp 0 51 d a 0)
  | .addi sp d a imm => some (formI sp 1 0 d a imm)
  | .andi sp d a imm => some (formI sp 1 1 d a imm)
  | .ori sp d a imm => some (formI sp 1 2 d a imm)
  | .xori sp d a imm => some (formI sp 1 3 d a imm)
  | .shli sp d a imm => some (formI sp 1 4 d a (0#5 ++ imm))
  | .shri sp d a imm => some (formI sp 1 5 d a (0#5 ++ imm))
  | .sari sp d a imm => some (formI sp 1 6 d a (0#5 ++ imm))
  | .setltiS32 sp d a imm => some (formI sp 1 7 d a imm)
  | .fadd sp d a b => some (formA sp 2 0 d a b)
  | .fsub sp d a b => some (formA sp 2 1 d a b)
  | .fmul sp d a b => some (formA sp 2 2 d a b)
  | .fma sp d a b => some (formA sp 2 3 d a b)
  | .fmin sp d a b => some (formA sp 2 4 d a b)
  | .fmax sp d a b => some (formA sp 2 5 d a b)
  | .fdiv sp d a b => some (formA sp 2 6 d a b)
  | .fsqrt sp d a => some (formA sp 2 7 d a 0)
  | .frcp sp d a => some (formA sp 2 8 d a 0)
  | .frsq sp d a => some (formA sp 2 9 d a 0)
  | .fexp2 sp d a => some (formA sp 2 10 d a 0)
  | .flog2 sp d a => some (formA sp 2 11 d a 0)
  | .fabs sp d a => some (formA sp 2 12 d a 0)
  | .fneg sp d a => some (formA sp 2 13 d a 0)
  | .frint sp d a => some (formA sp 2 14 d a 0)
  | .fclass sp d a => some (formA sp 2 15 d a 0)
  | .fseteq sp d a b => some (formA sp 2 16 d a b)
  | .fsetlt sp d a b => some (formA sp 2 17 d a b)
  | .fsetle sp d a b => some (formA sp 2 18 d a b)
  | .fsetun sp d a b => some (formA sp 2 19 d a b)
  | .dadd sp d a b => some (formA sp 2 20 d a b)
  | .dsub sp d a b => some (formA sp 2 21 d a b)
  | .dmul sp d a b => some (formA sp 2 22 d a b)
  | .dfma sp d a b => some (formA sp 2 23 d a b)
  | .dmin sp d a b => some (formA sp 2 24 d a b)
  | .dmax sp d a b => some (formA sp 2 25 d a b)
  | .ddiv sp d a b => some (formA sp 2 26 d a b)
  | .dsqrt sp d a => some (formA sp 2 27 d a 0)
  | .drint sp d a => some (formA sp 2 28 d a 0)
  | .dseteq sp d a b => some (formA sp 2 29 d a b)
  | .dsetlt sp d a b => some (formA sp 2 30 d a b)
  | .dsetle sp d a b => some (formA sp 2 31 d a b)
  | .hadd2 sp d a b => some (formA sp 2 32 d a b)
  | .hmul2 sp d a b => some (formA sp 2 33 d a b)
  | .hfma2 sp d a b => some (formA sp 2 34 d a b)
  | .badd2 sp d a b => some (formA sp 2 35 d a b)
  | .bmul2 sp d a b => some (formA sp 2 36 d a b)
  | .bfma2 sp d a b => some (formA sp 2 37 d a b)
  | .cvtF32S32 sp d a => some (formA sp 3 0 d a 0)
  | .cvtF32N32 sp d a => some (formA sp 3 1 d a 0)
  | .cvtS32F32 sp d a => some (formA sp 3 2 d a 0)
  | .cvtN32F32 sp d a => some (formA sp 3 3 d a 0)
  | .cvtF64F32 sp d a => some (formA sp 3 4 d a 0)
  | .cvtF32F64 sp d a => some (formA sp 3 5 d a 0)
  | .cvtF64S32 sp d a => some (formA sp 3 6 d a 0)
  | .cvtS32F64 sp d a => some (formA sp 3 7 d a 0)
  | .cvtF64S64 sp d a => some (formA sp 3 8 d a 0)
  | .cvtS64F64 sp d a => some (formA sp 3 9 d a 0)
  | .cvtF64N64 sp d a => some (formA sp 3 10 d a 0)
  | .cvtN64F64 sp d a => some (formA sp 3 11 d a 0)
  | .packF16 sp d a b => some (formA sp 3 12 d a b)
  | .packBf16 sp d a b => some (formA sp 3 13 d a b)
  | .unpkF16 sp d a => some (formA sp 3 14 d a 0)
  | .unpkBf16 sp d a => some (formA sp 3 15 d a 0)
  | .sext8 sp d a => some (formA sp 3 16 d a 0)
  | .sext16 sp d a => some (formA sp 3 17 d a 0)
  | .qntN8 sp d a b => some (formA sp 3 18 d a b)
  | .dqntN8 sp d a b => some (formA sp 3 19 d a b)
  | .lds sp d imm => some (formU sp 4 0 d imm)
  | .ldh sp d imm => some (formU sp 4 1 d imm)
  | .orl sp d imm => some (formU sp 4 2 d imm)
  | .addpc sp d imm => some (formU sp 4 3 d imm)
  | .beqz sp a off => some (formB sp 5 0 a off)
  | .bnez sp a off => some (formB sp 5 1 a off)
  | .bltz sp a off => some (formB sp 5 2 a off)
  | .bgez sp a off => some (formB sp 5 3 a off)
  | .bgtz sp a off => some (formB sp 5 4 a off)
  | .blez sp a off => some (formB sp 5 5 a off)
  | .bra sp off => some (formB sp 5 6 0 off)
  | .jmp sp off => some (formJ sp 6 0 off)
  | .call sp off => some (formJ sp 6 1 off)
  | .ld8S sp pol d a off => some (formM sp 7 0 pol d a off)
  | .ld8N sp pol d a off => some (formM sp 7 1 pol d a off)
  | .ld16S sp pol d a off => some (formM sp 7 2 pol d a off)
  | .ld16N sp pol d a off => some (formM sp 7 3 pol d a off)
  | .ld32 sp pol d a off => some (formM sp 7 4 pol d a off)
  | .ld64 sp pol d a off => some (formM sp 7 5 pol d a off)
  | .ld128 sp pol d a off => some (formM sp 7 6 pol d a off)
  | .st8 sp pol d a off => some (formM sp 8 0 pol d a off)
  | .st16 sp pol d a off => some (formM sp 8 2 pol d a off)
  | .st32 sp pol d a off => some (formM sp 8 4 pol d a off)
  | .st64 sp pol d a off => some (formM sp 8 5 pol d a off)
  | .st128 sp pol d a off => some (formM sp 8 6 pol d a off)
  | .aadd sp sc d a b => some (formA sp 9 (sc ++ 0#4) d a b)
  | .aadd64 sp sc d a b => some (formA sp 9 (sc ++ 1#4) d a b)
  | .aminS32 sp sc d a b => some (formA sp 9 (sc ++ 2#4) d a b)
  | .aminN32 sp sc d a b => some (formA sp 9 (sc ++ 3#4) d a b)
  | .amaxS32 sp sc d a b => some (formA sp 9 (sc ++ 4#4) d a b)
  | .amaxN32 sp sc d a b => some (formA sp 9 (sc ++ 5#4) d a b)
  | .aand sp sc d a b => some (formA sp 9 (sc ++ 6#4) d a b)
  | .aor sp sc d a b => some (formA sp 9 (sc ++ 7#4) d a b)
  | .axor sp sc d a b => some (formA sp 9 (sc ++ 8#4) d a b)
  | .axchg sp sc d a b => some (formA sp 9 (sc ++ 9#4) d a b)
  | .axchg64 sp sc d a b => some (formA sp 9 (sc ++ 10#4) d a b)
  | .acas sp sc d a b => some (formA sp 9 (sc ++ 11#4) d a b)
  | .acas64 sp sc d a b => some (formA sp 9 (sc ++ 12#4) d a b)
  | .afadd sp sc d a b => some (formA sp 9 (sc ++ 13#4) d a b)
  | .afadd64 sp sc d a b => some (formA sp 9 (sc ++ 14#4) d a b)
  | .aincw sp sc d a b => some (formA sp 9 (sc ++ 15#4) d a b)
  | .fence sp kind sc => some (formA sp 10 0 0 0 (0#2 ++ kind ++ sc))
  | .ldsc sp d a => some (formA sp 10 1 d a 0)
  | .stsc sp a b => some (formA sp 10 2 0 a b)
  | .cassc sp d a b => some (formA sp 10 3 d a b)
  | .waitcEq sp d a b => some (formA sp 10 4 d a b)
  | .waitcNe sp d a b => some (formA sp 10 5 d a b)
  | .waitcGeS32 sp d a b => some (formA sp 10 6 d a b)
  | .waitcGeN32 sp d a b => some (formA sp 10 7 d a b)
  | .waitcLtS32 sp d a b => some (formA sp 10 8 d a b)
  | .waitcLtN32 sp d a b => some (formA sp 10 9 d a b)
  | .redtoAdd sp d a b => some (formA sp 10 10 d a b)
  | .redtoFadd sp d a b => some (formA sp 10 11 d a b)
  | .redtoMinS32 sp d a b => some (formA sp 10 12 d a b)
  | .redtoMaxS32 sp d a b => some (formA sp 10 13 d a b)
  | .redtoOr sp d a b => some (formA sp 10 14 d a b)
  | .bar sp a sc => some (formA sp 10 15 0 a (0#4 ++ sc))
  | .bara sp a sc => some (formA sp 10 16 0 a (0#4 ++ sc))
  | .barw sp a sc => some (formA sp 10 17 0 a (0#4 ++ sc))
  | .barinit sp d a sc => some (formA sp 10 18 d a (0#4 ++ sc))
  | .meet sp a => some (formA sp 11 0 0 a 0)
  | .meetq sp d => some (formA sp 11 1 d 0 0)
  | .cshfl sp d a b => some (formA sp 11 2 d a b)
  | .cshflx sp d a b => some (formA sp 11 3 d a b)
  | .cup sp d a b => some (formA sp 11 4 d a b)
  | .cdn sp d a b => some (formA sp 11 5 d a b)
  | .cbcast sp d a b => some (formA sp 11 6 d a b)
  | .cvany sp d a => some (formA sp 11 7 d a 0)
  | .cvall sp d a => some (formA sp 11 8 d a 0)
  | .cballot sp d a => some (formA sp 11 9 d a 0)
  | .cradd sp d a => some (formA sp 11 10 d a 0)
  | .crfadd sp d a => some (formA sp 11 11 d a 0)
  | .crminS32 sp d a => some (formA sp 11 12 d a 0)
  | .crmaxS32 sp d a => some (formA sp 11 13 d a 0)
  | .cscan sp d a => some (formA sp 11 14 d a 0)
  | .cscanf sp d a => some (formA sp 11 15 d a 0)
  | .sld32 sp d a => some (formA sp 11 16 d a 0)
  | .sst32 sp d a => some (formA sp 11 17 d a 0)
  | .sld64 sp d a => some (formA sp 11 18 d a 0)
  | .sst64 sp d a => some (formA sp 11 19 d a 0)
  | .qld32 sp d a => some (formA sp 11 20 d a 0)
  | .qst32 sp d a => some (formA sp 11 21 d a 0)
  | .lease sp a => some (formA sp 11 22 0 a 0)
  | .leasem sp a => some (formA sp 11 23 0 a 0)
  | .work sp d => some (formA sp 11 24 d 0 0)
  | .steal sp d => some (formA sp 11 25 d 0 0)
  | .exit sp => some (formA sp 11 26 0 0 0)
  | .copy sp d a b => some (formA sp 12 0 d a b)
  | .copym sp d a b => some (formA sp 12 1 d a b)
  | .recfl sp d a => some (formA sp 12 2 d a 0)
  | .task sp d a => some (formA sp 12 3 d a 0)
  | .dprog sp d a b => some (formA sp 12 4 d a b)
  | .djob sp d a => some (formA sp 12 5 d a 0)
  | .ovld sp d a => some (formA sp 12 6 d a 0)
  | .ovtok sp d a => some (formA sp 12 7 d a 0)
  | .ovrel sp a => some (formA sp 12 8 0 a 0)
  | .ovq sp d a => some (formA sp 12 9 d a 0)
  | .smap sp d a b => some (formA sp 12 10 d a b)
  | .sunmap sp d a => some (formA sp 12 11 d a 0)
  | .cload sp d a b => some (formA sp 13 0 d a b)
  | .crun sp d a b => some (formA sp 13 1 d a b)
  | .sinit sp => some (formA sp 13 2 0 0 0)
  | .sfold sp a b => some (formA sp 13 3 0 a b)
  | .sget sp d => some (formA sp 13 4 d 0 0)
  | .proof sp d a b => some (formA sp 13 5 d a b)
  | .proofq sp d a => some (formA sp 13 6 d a 0)
  | .nop sp => some (formA sp 14 0 0 0 0)
  | .rds sp d b => some (formA sp 14 1 d 0 b)
  | .wrs sp a b => some (formA sp 14 2 0 a b)
  | .win sp a => some (formA sp 14 3 0 a 0)
  | .jr sp a => some (formA sp 14 4 0 a 0)
  | .callx sp a => some (formA sp 14 5 0 a 0)
  | .ret sp => some (formA sp 14 6 0 0 0)
  | .trap sp b => some (formA sp 14 7 0 0 b)
  | .tret sp => some (formA sp 14 8 0 0 0)
  | .bkpt sp => some (formA sp 14 9 0 0 0)
  | .launch sp d a b => some (formA sp 14 10 d a b)
  | .ldu sp d a => some (formA sp 14 60 d a 0)
  | .ocall sp b => some (formA sp 14 61 0 0 b)
  | .pref sp a => some (formA sp 15 0 0 a 0)
  | .reservedHint sp f d a b => some (formA sp 15 (0#1 ++ f) d a b)
  | .illegalWordFetch _ => none
  | .reformBoundary _ => none
  | .longLatencyReply _ => none
  | .switchPointLeave _ => none
  | .crewdivDetect _ => none
  | .trapTaken _ => none
  | .launchKill _ => none
  | .permitBackoffExpiry _ => none
  | .lacerLoadDecision _ => none
  | .segmentLoadComplete _ _ => none
  | .ovfullTimeout _ => none
  | .packetServe _ _ => none
  | .teamPlacement _ => none
  | .launchEnd _ => none
  | .activationDecision _ => none
  | .dueCountExpiry _ => none
  | .leaseWindowExpiry _ => none
  | .l1WritebackTimer _ _ => none
  | .pageWalkComplete _ => none
  | .faultRecordWrite _ => none
  | .atomicPerform _ => none
  | .scAccessPerform _ => none
  | .scClockPublish _ => none
  | .monitorReread _ => none
  | .waitcPollTimer _ => none
  | .redtoDelivery _ => none
  | .barrierArrival _ => none
  | .workPieceServe _ => none
  | .engineOpBegin _ => none
  | .engineRetire _ => none
  | .skiverJobStop _ => none
  | .cobblerDispatch _ => none
  | .eslotTimeout _ => none
  | .addOnStorePerform _ => none
  | .ticketTileApply _ => none
  | .candidateStop _ => none
  | .proofPerform _ => none
  | .proofqPerform _ => none
  | .writeApply _ => none
  | .remoteRequestServe _ => none
  | .remoteLineSendTimer _ _ => none
  | .autoSwapOut _ _ => none
  | .lateReplyWrite _ => none
  | .teamRestore _ _ => none
  | .migrationQuiesced _ => none
  | .intervalClose _ => none
  | .uncorrectableConsumed _ => none
  | .timingReplay _ _ => none
  | .schedulerRebuild _ _ => none
  | .voltageEvaluation _ _ => none
  | .throttleStart _ => none
  | .throttleEnd _ => none
  | .traceCaptureStop => none
  | .powerOn _ => none
  | .memoryInitComplete => none
  | .queueTail _ _ _ => none
  | .resume _ _ => none
  | .fqhead _ _ => none
  | .invalva _ _ => none
  | .preempt _ _ => none
  | .restorel _ _ => none
  | .eyeletSpill _ _ _ => none
  | .eyeletFill _ _ _ => none
  | .migctl _ _ => none
  | .vtime _ _ => none
  | .semAcquire _ _ => none
  | .semRelease _ _ => none
  | .frameQuota _ _ _ => none
  | .diemask _ _ => none
  | .vfCreate _ _ _ => none
  | .vfDestroy _ => none
  | .registerWrite _ _ => none
  | .masterMemoryWrite _ _ _ _ => none
  | .singleFault _ => none
  | .invalvaRemovalComplete _ => none
  | .saveComplete _ _ => none

/-- Whether a step is an instruction word. -/
def Instr.isWord (i : Instr) : Bool := (encode i).isSome

end Sys2Proof
end

