-- ==== Sys2Proof/Machine/Int.lean ====
section
/-! DEFINITION. The INT words (major 0): R63 to R67. -/

namespace Sys2Proof.Machine

/-- A word of shapes r, r, r that writes f a b. -/
def alu3 (sp : Bool) (d a b : Reg) (s : State) (f : Word → Word → Word) : Out :=
  issue sp false [opD d, opA a, opB b] s (fun s => s.result d [f (s.cur.w a) (s.cur.w b)])

/-- The same where D is also a source. -/
def alu3d (sp : Bool) (d a b : Reg) (s : State) (f : Word → Word → Word → Word) : Out :=
  issue sp false [opR d, opA a, opB b] s (fun s => s.result d [f (s.cur.w d) (s.cur.w a) (s.cur.w b)])

/-- A word of shapes r, r, 0. -/
def alu2 (sp : Bool) (d a : Reg) (s : State) (f : Word → Word) : Out :=
  issue sp false [opD d, opA a] s (fun s => s.result d [f (s.cur.w a)])

/-- A word of shapes p, r, r. -/
def aluW (sp : Bool) (d a b : Reg) (s : State) (f : Word → Word → DWord) : Out :=
  issue sp false [opD d 2, opA a, opB b] s (fun s => s.result d (pairWords (f (s.cur.w a) (s.cur.w b))))

/-- The same where D is also a source. -/
def aluWd (sp : Bool) (d a b : Reg) (s : State) (f : DWord → Word → Word → DWord) : Out :=
  issue sp false [opR d 2, opA a, opB b] s
    (fun s => s.result d (pairWords (f (s.cur.p d) (s.cur.w a) (s.cur.w b))))

/-- A word of shapes p, p, p. -/
def aluP (sp : Bool) (d a b : Reg) (s : State) (f : DWord → DWord → DWord) : Out :=
  issue sp false [opD d 2, opA a 2, opB b 2] s (fun s => s.result d (pairWords (f (s.cur.p a) (s.cur.p b))))

/-- A word of shapes p, p, r. -/
def aluPs (sp : Bool) (d a b : Reg) (s : State) (f : DWord → Word → DWord) : Out :=
  issue sp false [opD d 2, opA a 2, opB b] s (fun s => s.result d (pairWords (f (s.cur.p a) (s.cur.w b))))

/-- A word of shapes r, p, p that writes a truth value. -/
def cmpP (sp : Bool) (d a b : Reg) (s : State) (f : DWord → DWord → Bool) : Out :=
  issue sp false [opD d, opA a 2, opB b 2] s (fun s => s.result d [Word.ofBool (f (s.cur.p a) (s.cur.p b))])

/-- A division word: `q` picks its result from quotient and remainder (R66). -/
def divide (sp : Bool) (d a b : Reg) (s : State) (dv : Word → Word → Word × Word × BitVec 2)
    (q : Word × Word × BitVec 2 → Word) : Out :=
  issue sp false [opD d, opA a, opB b] s
    (fun s => let r := dv (s.cur.w a) (s.cur.w b)
              s.intResult d [q r] r.2.2)

/-- The position, and the width cut at bit 31, of a bit field given by b (R67). -/
def fieldPos (b : Word) : Nat := b.toNat % 32
def fieldWidth (b : Word) : Nat := min (min (b.toNat / 256 % 64) 32) (32 - fieldPos b)

/-- The field of `a`, zero-extended (R67). -/
def fieldOf (a b : Word) : Nat := a.toNat / 2 ^ fieldPos b % 2 ^ fieldWidth b

/-- The field of `a`, sign-extended from its top bit (R67). -/
def fieldSigned (a b : Word) : Word :=
  let x := fieldOf a b
  let n := fieldWidth b
  if n ≠ 0 ∧ 2 ^ (n - 1) ≤ x then BitVec.ofInt 32 ((x : Int) - 2 ^ n) else BitVec.ofNat 32 x

/-- `d` with the field replaced by the low bits of `a` (R67). -/
def fieldInsert (d a b : Word) : Word :=
  let mask : Word := BitVec.ofNat 32 ((2 ^ fieldWidth b - 1) * 2 ^ fieldPos b)
  (d &&& ~~~mask) ||| ((a <<< fieldPos b) &&& mask)

/-- The number of leading zero bits of a, 32 when a = 0 (R65). -/
def leadingZeros (a : Word) : Word := if a = 0 then 32 else BitVec.ofNat 32 (31 - a.toNat.log2)

/-- The number of one bits (R65). -/
def popCount (a : Word) : Word :=
  BitVec.ofNat 32 ((List.range 32).foldl (fun n k => n + (a.getLsbD k).toNat) 0)

/-- The bits of a reversed (R65). -/
def bitReverse (a : Word) : Word :=
  BitVec.ofNat 32 ((List.range 32).foldl (fun n k => n + (a.getLsbD (31 - k)).toNat * 2 ^ k) 0)

/-- |a − b| of naturals (R65). -/
def absDiff (a b : Word) : Word := if a.ult b then b - a else a - b

/-- a × b as 64 bits, natural and signed. -/
def mulNat (a b : Word) : DWord := BitVec.ofNat 64 (a.toNat * b.toNat)
def mulInt (a b : Word) : DWord := BitVec.ofInt 64 (a.toInt * b.toInt)

/-- ADD (R65). -/
def execAdd (sp : Bool) (d a b : Reg) (s : State) : Out :=
  alu3 sp d a b s (fun a b => a + b)

/-- SUB (R65). -/
def execSub (sp : Bool) (d a b : Reg) (s : State) : Out :=
  alu3 sp d a b s (fun a b => a - b)

/-- MULLO (R65). -/
def execMullo (sp : Bool) (d a b : Reg) (s : State) : Out :=
  alu3 sp d a b s (fun a b => a * b)

/-- MULHI.s32 (R65). -/
def execMulhiS32 (sp : Bool) (d a b : Reg) (s : State) : Out :=
  alu3 sp d a b s (fun a b => DWord.hi (mulInt a b))

/-- MULHI.n32 (R65). -/
def execMulhiN32 (sp : Bool) (d a b : Reg) (s : State) : Out :=
  alu3 sp d a b s (fun a b => DWord.hi (mulNat a b))

/-- MULW.s32 (R65). -/
def execMulwS32 (sp : Bool) (d a b : Reg) (s : State) : Out :=
  aluW sp d a b s mulInt

/-- MULW.n32 (R65). -/
def execMulwN32 (sp : Bool) (d a b : Reg) (s : State) : Out :=
  aluW sp d a b s mulNat

/-- MAD (R65). -/
def execMad (sp : Bool) (d a b : Reg) (s : State) : Out :=
  alu3d sp d a b s (fun d a b => d + a * b)

/-- DIV.s32 (R66). -/
def execDivS32 (sp : Bool) (d a b : Reg) (s : State) : Out :=
  divide sp d a b s divSigned (fun r => r.1)

/-- DIV.n32 (R66). -/
def execDivN32 (sp : Bool) (d a b : Reg) (s : State) : Out :=
  divide sp d a b s divNatural (fun r => r.1)

/-- REM.s32 (R66). -/
def execRemS32 (sp : Bool) (d a b : Reg) (s : State) : Out :=
  divide sp d a b s divSigned (fun r => r.2.1)

/-- REM.n32 (R66). -/
def execRemN32 (sp : Bool) (d a b : Reg) (s : State) : Out :=
  divide sp d a b s divNatural (fun r => r.2.1)

/-- AND (R65). -/
def execAnd (sp : Bool) (d a b : Reg) (s : State) : Out :=
  alu3 sp d a b s (fun a b => a &&& b)

/-- OR (R65). -/
def execOr (sp : Bool) (d a b : Reg) (s : State) : Out :=
  alu3 sp d a b s (fun a b => a ||| b)

/-- XOR (R65). -/
def execXor (sp : Bool) (d a b : Reg) (s : State) : Out :=
  alu3 sp d a b s (fun a b => a ^^^ b)

/-- ANDN (R65). -/
def execAndn (sp : Bool) (d a b : Reg) (s : State) : Out :=
  alu3 sp d a b s (fun a b => a &&& ~~~b)

/-- ORN (R65). -/
def execOrn (sp : Bool) (d a b : Reg) (s : State) : Out :=
  alu3 sp d a b s (fun a b => a ||| ~~~b)

/-- SHL (R65). -/
def execShl (sp : Bool) (d a b : Reg) (s : State) : Out :=
  alu3 sp d a b s (fun a b => a <<< (b.toNat % 32))

/-- SHR (R65). -/
def execShr (sp : Bool) (d a b : Reg) (s : State) : Out :=
  alu3 sp d a b s (fun a b => a >>> (b.toNat % 32))

/-- SAR (R65). -/
def execSar (sp : Bool) (d a b : Reg) (s : State) : Out :=
  alu3 sp d a b s (fun a b => a.sshiftRight (b.toNat % 32))

/-- ROTL (R65). -/
def execRotl (sp : Bool) (d a b : Reg) (s : State) : Out :=
  alu3 sp d a b s (fun a b => a.rotateLeft (b.toNat % 32))

/-- ROTR (R65). -/
def execRotr (sp : Bool) (d a b : Reg) (s : State) : Out :=
  alu3 sp d a b s (fun a b => a.rotateLeft ((32 - b.toNat % 32) % 32))

/-- MIN.s32 (R65). -/
def execMinS32 (sp : Bool) (d a b : Reg) (s : State) : Out :=
  alu3 sp d a b s (fun a b => if a.sle b then a else b)

/-- MIN.n32 (R65). -/
def execMinN32 (sp : Bool) (d a b : Reg) (s : State) : Out :=
  alu3 sp d a b s (fun a b => if a.ule b then a else b)

/-- MAX.s32 (R65). -/
def execMaxS32 (sp : Bool) (d a b : Reg) (s : State) : Out :=
  alu3 sp d a b s (fun a b => if b.sle a then a else b)

/-- MAX.n32 (R65). -/
def execMaxN32 (sp : Bool) (d a b : Reg) (s : State) : Out :=
  alu3 sp d a b s (fun a b => if b.ule a then a else b)

/-- SAD (R65). -/
def execSad (sp : Bool) (d a b : Reg) (s : State) : Out :=
  alu3d sp d a b s (fun d a b => d + absDiff a b)

/-- SEL (R65). -/
def execSel (sp : Bool) (d a b : Reg) (s : State) : Out :=
  alu3d sp d a b s (fun d a b => if d ≠ 0 then a else b)

/-- SETEQ (R65). -/
def execSeteq (sp : Bool) (d a b : Reg) (s : State) : Out :=
  alu3 sp d a b s (fun a b => Word.ofBool (a == b))

/-- SETNE (R65). -/
def execSetne (sp : Bool) (d a b : Reg) (s : State) : Out :=
  alu3 sp d a b s (fun a b => Word.ofBool (a != b))

/-- SETLT.s32 (R65). -/
def execSetltS32 (sp : Bool) (d a b : Reg) (s : State) : Out :=
  alu3 sp d a b s (fun a b => Word.ofBool (a.slt b))

/-- SETLT.n32 (R65). -/
def execSetltN32 (sp : Bool) (d a b : Reg) (s : State) : Out :=
  alu3 sp d a b s (fun a b => Word.ofBool (a.ult b))

/-- SETLE.s32 (R65). -/
def execSetleS32 (sp : Bool) (d a b : Reg) (s : State) : Out :=
  alu3 sp d a b s (fun a b => Word.ofBool (a.sle b))

/-- SETLE.n32 (R65). -/
def execSetleN32 (sp : Bool) (d a b : Reg) (s : State) : Out :=
  alu3 sp d a b s (fun a b => Word.ofBool (a.ule b))

/-- CLZ (R65). -/
def execClz (sp : Bool) (d a : Reg) (s : State) : Out :=
  alu2 sp d a s leadingZeros

/-- POPC (R65). -/
def execPopc (sp : Bool) (d a : Reg) (s : State) : Out :=
  alu2 sp d a s popCount

/-- BREV (R65). -/
def execBrev (sp : Bool) (d a : Reg) (s : State) : Out :=
  alu2 sp d a s bitReverse

/-- BFX.s32 (R67). -/
def execBfxS32 (sp : Bool) (d a b : Reg) (s : State) : Out :=
  alu3 sp d a b s fieldSigned

/-- BFX.n32 (R67). -/
def execBfxN32 (sp : Bool) (d a b : Reg) (s : State) : Out :=
  alu3 sp d a b s (fun a b => BitVec.ofNat 32 (fieldOf a b))

/-- BFI (R67). -/
def execBfi (sp : Bool) (d a b : Reg) (s : State) : Out :=
  alu3d sp d a b s fieldInsert

/-- ADD64 (R65). -/
def execAdd64 (sp : Bool) (d a b : Reg) (s : State) : Out :=
  aluP sp d a b s (fun a b => a + b)

/-- SUB64 (R65). -/
def execSub64 (sp : Bool) (d a b : Reg) (s : State) : Out :=
  aluP sp d a b s (fun a b => a - b)

/-- SHL64 (R65). -/
def execShl64 (sp : Bool) (d a b : Reg) (s : State) : Out :=
  aluPs sp d a b s (fun a b => a <<< (b.toNat % 64))

/-- SHR64 (R65). -/
def execShr64 (sp : Bool) (d a b : Reg) (s : State) : Out :=
  aluPs sp d a b s (fun a b => a >>> (b.toNat % 64))

/-- SAR64 (R65). -/
def execSar64 (sp : Bool) (d a b : Reg) (s : State) : Out :=
  aluPs sp d a b s (fun a b => a.sshiftRight (b.toNat % 64))

/-- SETEQ64 (R65). -/
def execSeteq64 (sp : Bool) (d a b : Reg) (s : State) : Out :=
  cmpP sp d a b s (fun a b => a == b)

/-- SETLT64.s (R65). -/
def execSetlt64S (sp : Bool) (d a b : Reg) (s : State) : Out :=
  cmpP sp d a b s (fun a b => a.slt b)

/-- SETLT64.n (R65). -/
def execSetlt64N (sp : Bool) (d a b : Reg) (s : State) : Out :=
  cmpP sp d a b s (fun a b => a.ult b)

/-- MAD64.n32 (R65). -/
def execMad64N32 (sp : Bool) (d a b : Reg) (s : State) : Out :=
  aluWd sp d a b s (fun d a b => d + mulNat a b)

/-- MAD64.s32 (R65). -/
def execMad64S32 (sp : Bool) (d a b : Reg) (s : State) : Out :=
  aluWd sp d a b s (fun d a b => d + mulInt a b)

/-- MOV (R65). -/
def execMov (sp : Bool) (d a : Reg) (s : State) : Out := alu2 sp d a s (fun a => a)

/-- MOV64 (R65). -/
def execMov64 (sp : Bool) (d a : Reg) (s : State) : Out :=
  issue sp false [opD d 2, opA a 2] s (fun s => s.result d (pairWords (s.cur.p a)))

end Sys2Proof.Machine
end

