-- ==== Sys2Proof/Machine/Sync.lean ====
section
/-! DEFINITION. The SYNC words (major 10) and the events that complete them: R188 to R199, R299. -/

namespace Sys2Proof.Machine

/-! ## Fences -/

/-- FENCE (R180, R188): the thread stays at the word until its conditions hold. -/
def execFence (sp : Bool) (kind : BitVec 2) (sc : BitVec 3) (s : State) : Out :=
  issue sp false [] s (fun s =>
    let t := s.cur.id
    let scope := sc.toNat
    let s := if kind.getLsbD 1 then s.releaseActs t.launch t.team scope else s
    if (kind.getLsbD 1 && !s.releaseDone t scope) || (kind.getLsbD 0 && !s.acquireReady t scope)
    then s.parkCur (.stalled 15)
    else (if kind.getLsbD 0 then s.acquireActs t.launch t.team scope else s).advance)

/-! ## Sequentially consistent accesses -/

/-- A stamp: L first, then the package number, then the core (R299). -/
def stampOf (l pkg : Nat) (k : CoreId) : Nat := (l * 64 + pkg) * 2048 + (k.die * 52 + k.core)

/-- Stamps an SC access: L ← max(L + 1, CLOCK) (R299). -/
def State.scStamp (s : State) : State × Nat :=
  let c := s.core s.curCore
  let l := max (c.scClock + 1) s.clock.toNat
  (s.setCore { c with scClock := l }, stampOf l s.package s.curCore)

/-- Sends an SC access to its home slice. -/
def State.scIssue (s : State) (f : Nat) (g : GAddr) (b c : Word) (dst : Option Reg) : State :=
  let s := s.writeBackRange s.curCore g 4 true
  let (s, stamp) := s.scStamp
  let num := f != 1 && isNumbered g s.curCore.die
  match dst with
  | some d => ((s.enqueue d 1).request s.nextId (.sc f g b c stamp) num).advance
  | none => (s.fresh.request s.nextId (.sc f g b c stamp) num).advance

/-- An SC word: `rel` stands before it as a release at package scope, which must be complete (R189). -/
def State.scWord (s : State) (f : Nat) (ea : DWord) (b c : Word) (dst : Option Reg) (k : AccKind) (rel : Bool) : State :=
  match s.atomPlace ea 4 k false true 3 with
  | .stop s => s
  | .ok s (.scr _ _) => s
  | .ok s (.glob g) =>
    let t := s.cur.id
    let s := if rel then s.releaseActs t.launch t.team 4 else s
    if rel && !s.releaseDone t 4 then s.parkCur (.stalled 15) else s.scIssue f g b c dst

/-- LDSC (R189): it needs R. -/
def execLdsc (sp : Bool) (d a : Reg) (s : State) : Out :=
  issue sp true [opD d, opA a 2] s (fun s => s.scWord 1 (s.cur.p a) 0 0 (some d) .query false)

/-- STSC (R189): it needs W and takes no queue entry. -/
def execStsc (sp : Bool) (a b : Reg) (s : State) : Out :=
  issue sp false [opA a 2, opB b] s (fun s => s.scWord 2 (s.cur.p a) (s.cur.w b) 0 none .publish true)

/-- CASSC (R189): it needs R and W. -/
def execCassc (sp : Bool) (d a b : Reg) (s : State) : Out :=
  issue sp true [opD d, opA a 2, opB b 2] s (fun s =>
    s.scWord 3 (s.cur.p a) (s.cur.wAt b 0) (s.cur.wAt b 1) (some d) .atomic true)

/-- The L a core has last published; a core that no list names has published the CLOCK of the last multiple of 256
(R299). -/
def State.published (s : State) (k : CoreId) : Nat :=
  match s.cores.find? (fun c => c.id == k) with
  | some c => c.scPublished
  | none => s.clock.toNat / 256 * 256

/-- Every core of the package has published an L at or above the given one (R299). -/
def State.allPublished (s : State) (l : Nat) : Bool :=
  s.cores.all (fun c => decide (l ≤ s.published c.id)) &&
    (decide (Config.dies * Config.coresPerDie ≤ s.cores.length) || decide (l ≤ s.clock.toNat / 256 * 256))

/-- Whether a core has an SC access in flight. -/
def State.scInFlight (s : State) (k : CoreId) : Bool :=
  s.requests.any (fun r => r.core == k && (match r.kind with
    | .sc _ _ _ _ _ => true
    | _ => false))

/-- SC_CLOCK_PUBLISH (R299). -/
def execScClockPublish (k : CoreId) (s : State) : Out :=
  let c := s.core k
  let l := if s.scInFlight k then c.scClock else max c.scClock s.clock.toNat
  .next (s.setCore { c with scPublished := max c.scPublished l })

/-- No SC access to a word of the same home slice stands before a stamp (R299). -/
def State.scFirst (s : State) (g : GAddr) (stamp : Nat) : Bool :=
  !(s.requests.any (fun r => match r.kind with
    | .sc _ g' _ _ st => homeOf g'.pa == homeOf g.pa && sliceOf (lineOf g'.pa) == sliceOf (lineOf g.pa) && decide (st < stamp)
    | _ => false))

/-- SC_ACCESS_PERFORM (R299): in stamp order at the home slice, once every core has published. The reply raises the
issuing core's clock, and an acquire at package scope follows LDSC and CASSC. -/
def execScAccessPerform (req : Nat) (s : State) : Out :=
  match s.requests.find? (fun r => r.id == req) with
  | none => .next s
  | some r =>
    match r.kind with
    | .sc f g b c stamp =>
      let l := stamp / 2048 / 64
      if s.allPublished l && s.scFirst g stamp && s.homeReady r g then
        let s := s.stashFlush (lineOf g.pa) false
        let old := s.mem.getN g.pa 4
        let m : Word := BitVec.ofNat 32 (natOf old)
        let new := if f = 2 then some (bytesOf 4 b.toNat)
                   else if f = 3 ∧ m = b then some (bytesOf 4 c.toNat) else none
        let s := (s.homePerform r g 4 new).dropReq req
        let k := s.core r.core
        let s := s.setCore { k with scClock := max k.scClock l }
        .next (if f = 2 then s else { s with replies := s.replies ++ [⟨req, r.t, [m], true, 0⟩] })
      else .next s
    | _ => .next s

/-! ## Waiting on a word -/

/-- The condition of a WAITC by its F (R190). -/
def waitHolds (op : Nat) (m b : Word) : Bool :=
  if op = 4 then m == b
  else if op = 5 then m != b
  else if op = 6 then b.sle m
  else if op = 7 then b.ule m
  else if op = 8 then m.slt b
  else m.ult b

/-- Monitors in use at a home die: the threads of one core waiting on one word share one (R191). -/
def State.monitorsAt (s : State) (h : Nat) : Nat :=
  ((s.threads.filterMap (fun t => match t.watch with
    | some w => match w.glob with
      | some g => if w.monitor && homeOf g.pa == h then some (s.coreOf t.id.launch t.id.team, g.pa) else none
      | none => none
    | none => none)).dedup).length

/-- A thread of a core watches a word with a monitor, which every thread of the core that waits on the word shares (R191). -/
def State.monitored (s : State) (k : CoreId) (pa : Nat) : Bool :=
  s.threads.any (fun t => s.coreOf t.id.launch t.id.team == k && (match t.watch with
    | some w => w.monitor && (match w.glob with
      | some g => g.pa == pa
      | none => false)
    | none => false))

/-- Whether a wait of a core's thread on a global word gets a monitor: a host word has none (R191, R305). -/
def State.monitorFree (s : State) (k : CoreId) (g : GAddr) : Bool :=
  homeOf g.pa != hostHome && (s.monitored k g.pa || decide (s.monitorsAt (homeOf g.pa) < 4096))

/-- The word a wait reads (R190): at the home slice, or at the owning scratch, whose Crosshatch may stall it (R208). -/
def State.watchRead (s : State) (t : Thread) (w : Watch) : Tried Word :=
  let k := s.coreOf t.id.launch t.id.team
  match w.glob with
  | none =>
    if s.hatched t.id.launch w.team w.off 4 false then .wait s else
    (s.stashTouch t.id.launch w.team w.off).andThen (fun s _ =>
      .ok (s.consumeScratch k t.id.launch w.team w.off 4)
        (BitVec.ofNat 32 (natOf (s.scratchBytes t.id.launch w.team w.off 4))))
  | some g =>
    let h := homeOf g.pa
    if !s.reaches k.die h then .wait s
    else
      let s := (((s.stashFlush (lineOf g.pa) false).countRead g).consumeAt g.vf k g.pa 4).seenAtHome k g 4
      .ok (if h == k.die then s else s.carry k.die h) (BitVec.ofNat 32 (natOf (s.mem.getN g.pa 4)))

/-- A read that a thread at WAITC has to make is stalled by the Crosshatch (R208). -/
def State.watchHatched (s : State) (t : Thread) : Bool :=
  match t.watch with
  | some w => w.reread && w.glob.isNone && s.hatched t.id.launch w.team w.off 4 false
  | none => false

/-- One read of a thread at WAITC: on a true condition D ← m and the thread leaves; otherwise it stays blocked. -/
def State.watchStep (s : State) (id : ThreadId) : State :=
  match s.thread? id with
  | none => s
  | some t =>
    match t.watch with
    | none => s
    | some w =>
      match s.watchRead t w with
      | .wait s => s
      | .ok s m =>
        if waitHolds w.op m w.cmp then
          (s.modThread id (fun t => { t with regs := t.regs.set w.dst m, watch := none })).advanceThread id
        else s.modThread id (fun t => { t with watch := some { w with reread := false } })

/-- A WAITC word (R190): it parks as a switch point, takes its checks, and reads. -/
def waitc (op : Nat) (d a b : Reg) (s : State) : Out :=
  issue true false [opD d, opA a 2, opB b] s (fun s =>
    match s.atomPlace (s.cur.p a) 4 .query true false 2 with
    | .stop s => s
    | .ok s pl =>
      let w (g : Option GAddr) (team off : Nat) (mon : Bool) : Watch :=
        ⟨op, g, team, off, s.cur.w b, s.cur.idx d, mon, true, s.cycle⟩
      let s := match pl with
        | .scr team off => s.setCur { s.cur with watch := some (w none team off true) }
        | .glob g =>
          let s := s.writeBackRange s.curCore g 4 true
          s.setCur { s.cur with watch := some (w (some g) 0 0 (s.monitorFree s.curCore g)) }
      (s.blockCur .monitor).watchStep s.cur.id)

/-- WAITC.EQ (R190). -/
def execWaitcEq (_sp : Bool) (d a b : Reg) (s : State) : Out := waitc 4 d a b s

/-- WAITC.NE (R190). -/
def execWaitcNe (_sp : Bool) (d a b : Reg) (s : State) : Out := waitc 5 d a b s

/-- WAITC.GE.s32 (R190). -/
def execWaitcGeS32 (_sp : Bool) (d a b : Reg) (s : State) : Out := waitc 6 d a b s

/-- WAITC.GE.n32 (R190). -/
def execWaitcGeN32 (_sp : Bool) (d a b : Reg) (s : State) : Out := waitc 7 d a b s

/-- WAITC.LT.s32 (R190). -/
def execWaitcLtS32 (_sp : Bool) (d a b : Reg) (s : State) : Out := waitc 8 d a b s

/-- WAITC.LT.n32 (R190). -/
def execWaitcLtN32 (_sp : Bool) (d a b : Reg) (s : State) : Out := waitc 9 d a b s

/-- MONITOR_REREAD (R191): a write to the watched word causes a new read. -/
def execMonitorReread (t : ThreadId) (s : State) : Out :=
  match (s.thread? t).bind (fun x => x.watch) with
  | some w => .next (if w.reread then s.watchStep t else s)
  | none => .next s

/-- WAITC_POLL_TIMER (R191, R305): a wait without a monitor, or on a host word, reads again every 1,024 cycles, and
takes a monitor that is free; a read that the home cannot perform yet is tried again in the next cycle. -/
def execWaitcPollTimer (t : ThreadId) (s : State) : Out :=
  match (s.thread? t).bind (fun x => x.watch) with
  | some w =>
    if !w.monitor && decide (w.polled + 1024 ≤ s.cycle) then
      match (s.thread? t).map (fun x => s.watchRead x w) with
      | some (.ok _ _) =>
        let free := match w.glob with
          | some g => s.monitorFree (s.coreOf t.launch t.team) g
          | none => true
        .next ((s.modThread t (fun x => { x with watch := some { w with polled := s.cycle, monitor := free } })).watchStep t)
      | some (.wait s) => .next s
      | none => .next s
    else .next s
  | none => .next s

/-! ## Reduction to a peer -/

/-- A REDTO word (R193, R194). -/
def redto (op : AtomOp) (sp : Bool) (d a b : Reg) (s : State) : Out :=
  issue sp false [opR d 2, opA a 2, opB b] s (fun s =>
    let ea := s.cur.p a
    match s.atomPlace ea 4 .atomic false false 4 with
    | .stop s => s
    | .ok s pl =>
      let off := s.cur.wAt d 0
      let tgt := s.cur.wAt d 1
      let rank := (tgt.extractLsb' 0 4).toNat
      let bar := (tgt.extractLsb' 8 4).toNat
      let t := s.cur.id
      if off.toNat % 4 ≠ 0 then s.raise 0x05 4 (off.zeroExtend 64)
      else if tgt &&& 0xFFFFF0F0 ≠ 0 ∨ s.pk.qsize ≤ rank ∨ s.pk.carveBytes < off.toNat + 4 then s.raise 0x06 1 ea
      else
        let s := s.releaseActs t.launch t.team 2
        if !s.releaseDone t 2 then s.parkCur (.stalled 15)
        else match pl with
          | .scr _ _ => (s.fresh.request s.nextId (.redto op pl (s.cur.w b) off.toNat rank bar) false).advance
          | .glob g =>
            let s := s.writeBackRange s.curCore g 4 (atomHome g 1)
            (s.fresh.request s.nextId (.redto op pl (s.cur.w b) off.toNat rank bar)
              (atomHome g 1 && isNumbered g s.curCore.die)).advance)

/-- REDTO.ADD (R193). -/
def execRedtoAdd (sp : Bool) (d a b : Reg) (s : State) : Out := redto .add sp d a b s

/-- REDTO.FADD (R193). -/
def execRedtoFadd (sp : Bool) (d a b : Reg) (s : State) : Out := redto .fadd sp d a b s

/-- REDTO.MIN.s32 (R193). -/
def execRedtoMinS32 (sp : Bool) (d a b : Reg) (s : State) : Out := redto .minS sp d a b s

/-- REDTO.MAX.s32 (R193). -/
def execRedtoMaxS32 (sp : Bool) (d a b : Reg) (s : State) : Out := redto .maxS sp d a b s

/-- REDTO.OR (R193). -/
def execRedtoOr (sp : Bool) (d a b : Reg) (s : State) : Out := redto .or sp d a b s

/-- A use of a barrier by an agent that is no thread in turn finds no entry: it waits, with a record that names the thread whose use it
is, one for each use (R199, R278, R289). -/
def State.spillFor (s : State) (k : CoreId) (t : ThreadId) (scope owner id : Nat) : State :=
  if s.spillPending t (spillKey scope owner id) || !s.permitFree k then s else s.spillRecord k t (spillKey scope owner id)

/-- A delivered word is written to the target team's scratch, touching its stash line (R172). What reaches a team that is off its core
goes into its scratch when that is restored, in order, before it runs again (R194, R199, R288). DESIGN CHOICE (log entry 25). -/
def State.deliver (s : State) (d : Delivery) : Tried Unit :=
  match s.team? d.launch d.team with
  | none => .ok s ()
  | some tm =>
    if tm.st == .swapped || (tm.st != .resident && !tm.late.isEmpty) then .ok (s.setTeam { tm with late := tm.late ++ [(d.off, d.val)] }) ()
    else (s.stashTouch d.launch d.team d.off).andThen (fun s _ =>
      .ok (s.writeScratch d.launch d.team d.off (bytesOf 4 d.val.toNat)) ())

/-- REDTO_DELIVERY (R194, R199): the first delivery to its team is written to the team's scratch, unless a Crosshatch entry
stalls it, and one arrival is counted on the team's barrier; a team that has exited gets the write alone. -/
def execRedtoDelivery (req : Nat) (s : State) : Out :=
  match s.deliveries.find? (fun d => d.id == req) with
  | none => .next s
  | some d =>
    let first := (s.deliveries.find? (fun x => x.launch == d.launch && x.team == d.team)).map (fun x => x.id) == some req
    let drop (s : State) : State := State.stir { s with deliveries := s.deliveries.filter (fun x => x.id != req) }
    if !first || s.hatched d.launch d.team d.off 4 true then .next s
    else if s.teamDone d.launch d.team then .next (match s.deliver d with
      | .wait s => s
      | .ok s _ => drop s)
    else match s.useBarrier d.launch 1 d.team d.bar with
      | none => .next (s.spillFor (s.coreOf d.launch d.team) d.src 1 d.team d.bar)
      | some s' => match s'.deliver d with
        | .wait s => .next s
        | .ok s' _ => .next (((drop s').endSpill d.launch 1 d.team d.bar).countArrival d.launch 1 d.team d.bar none [])

/-! ## Barriers -/

/-- The checks of a barrier word at issue (R196), then its entry: `k` goes on with the owner and the id. -/
def State.barrierWord (s : State) (sc : BitVec 3) (a : Reg) (k : State → Nat → Nat → State) : State :=
  let scope := sc.toNat
  let id := (s.cur.w a).toNat
  let t := s.cur.id
  if barrierIds scope ≤ id || (decide (3 ≤ scope) && !s.pk.resident) then s.raise 0x06 3 0
  else
    let owner := s.barrierOwner t.launch t.team scope
    match s.useBarrier t.launch scope owner id with
    | none => s.barSpill scope owner id
    | some s => k (s.endSpill t.launch scope owner id) owner id

/-- An arrival of the thread in turn: the release of the barrier's scope is complete first (R198). -/
def State.arrive (s : State) (sc : BitVec 3) (owner id reason : Nat) (k : State → State) : State :=
  let t := s.cur.id
  let s := s.releaseActs t.launch t.team sc.toNat
  if !s.releaseDone t sc.toNat then s.parkCur (.stalled reason)
  else k (s.sendArrival sc.toNat owner id)

/-- The thread in turn blocks at a barrier of an owner. -/
def State.blockAt (s : State) (scope owner id : Nat) (noted : Option Nat) : State :=
  (s.setCur { s.cur with barOwner := owner }).blockCur (.barrier scope id noted)

/-- BAR (R196): a switch point that arrives, then waits for its phase to complete. -/
def execBar (_sp : Bool) (a : Reg) (sc : BitVec 3) (s : State) : Out :=
  issue true false [opA a] s (fun s => s.barrierWord sc a (fun s owner id =>
    s.arrive sc owner id 3 (fun s => s.blockAt sc.toNat owner id none)))

/-- BARA (R196): arrives and goes on. -/
def execBara (sp : Bool) (a : Reg) (sc : BitVec 3) (s : State) : Out :=
  issue sp false [opA a] s (fun s => s.barrierWord sc a (fun s owner id =>
    s.arrive sc owner id 15 (fun s => s.advance)))

/-- BARW (R196): a switch point that waits for the phase of the thread's last arrival, or the current one. -/
def execBarw (_sp : Bool) (a : Reg) (sc : BitVec 3) (s : State) : Out :=
  issue true false [opA a] s (fun s => s.barrierWord sc a (fun s owner id =>
    let t := s.cur.id
    let scope := sc.toNat
    if s.arriving t scope owner id
    then s.blockAt scope owner id none
    else
      let cur := ((s.barrier? t.launch scope owner id).map (fun b => b.phase)).getD 0
      (s.blockAt scope owner id (some ((s.cur.noted scope owner id).getD cur))).barrierLeave))

/-- BARINIT (R196). -/
def execBarinit (sp : Bool) (d a : Reg) (sc : BitVec 3) (s : State) : Out :=
  issue sp false [opR d, opA a] s (fun s => s.barrierWord sc a (fun s owner id =>
    let e := (s.cur.w d).toNat % 2 ^ 24
    let l := s.cur.id.launch
    match s.barrier? l sc.toNat owner id with
    | none => s.advance
    | some b =>
      ((s.setBarrier { b with e := if e = 0 then none else some e }).advance).checkBarrier l sc.toNat owner id))

/-- The pod barriers of launch groups count what the other members' messages have brought (R304). -/
def State.groupArrivals (s : State) : State :=
  (s.barriers.filter (fun b => (s.groupOf b).isSome)).foldl (fun s b => s.checkBarrier b.launch b.scope b.owner b.id) s

/-- BARRIER_ARRIVAL (R195, R196): the arrival reaches the keeper and is counted; where its entry is spilled it waits. A name that is
none of the package's arrivals stands for a message of another member of a launch group (R304). -/
def execBarrierArrival (arr : Nat) (s : State) : Out :=
  match s.arrivals.find? (fun x => x.id == arr) with
  | none => .next s.groupArrivals
  | some x =>
    match s.useBarrier x.launch x.scope x.owner x.bar with
    | none => .next (match x.t with
        | some t => s.spillFor (s.keeper x.launch x.scope x.owner) t x.scope x.owner x.bar
        | none => s)
    | some s =>
      let s := (s.useEyelet x.launch x.scope x.owner x.bar).endSpill x.launch x.scope x.owner x.bar
      .next (State.countArrival { s with arrivals := s.arrivals.filter (fun y => y.id != arr) }
        x.launch x.scope x.owner x.bar x.t x.clock)

end Sys2Proof.Machine
end

