-- ==== Sys2Proof/Machine/Stylus.lean ====
section
/-! DEFINITION. The STY words (major 13): candidate slots, CLOAD, CRUN and the pipelines, the signature fold, and the
proof table (R224 to R242, with R62, R82, R97 and R159 for candidate words). -/

namespace Sys2Proof.Machine

/-! ## Slots -/

/-- The start values of a signature (R224). -/
def sigH0 : Word := 0x5A17C3E9
def sigL0 : Word := 0x0F2D8B41

/-- A slot at its start values (R224). -/
def CandSlot.start (t : ThreadId) : CandSlot :=
  { owner := t, buffer := List.replicate 64 0, n := 0, h := sigH0, l := sigL0, sandbox := List.replicate 64 0,
    run := none, ops := [], pipes := 0, wait := 0 }

/-- A thread's slot. -/
def State.slot? (s : State) (t : ThreadId) : Option CandSlot := s.slots.find? (fun x => x.owner == t)

/-- Puts a slot in place. -/
def State.setSlot (s : State) (x : CandSlot) : State :=
  { s with slots := s.slots.map (fun y => if y.owner == x.owner then x else y) }

/-- R225: every STY word of a launch without STYLUS traps ILLEGAL with reason 7; `table` asks for a proof region too. -/
def State.withSlot (s : State) (table : Bool) (k : State → CandSlot → State) : State :=
  match s.slot? s.cur.id with
  | some x => if !s.pk.stylus || (table && s.pk.proof == 0) then s.raise 0x01 7 0 else k s x
  | none => s.raise 0x01 7 0

/-! ## Candidate words -/

/-- What a legal candidate word does (R228). -/
inductive CandEff where
  | write (d : Reg) (v : Word)
  | goto (off : Int)
  | load (d : Reg) (off : Word)
  | store (off v : Word)
  | divz
  | halt
  | nothing
  deriving DecidableEq, Repr

/-- A quotient or remainder in a candidate: a divisor of 0 stops it (R82). -/
def candDiv (d : Reg) (a b : Word) (q : Word × Word × BitVec 2 → Word) : CandEff :=
  if b = 0 then .divz else .write d (q (divSigned a b))

/-- A branch in a candidate. -/
def candBranch (taken : Bool) (off : BitVec 17) : CandEff := if taken then .goto off.toInt else .nothing

/-- A word of the candidate subset: its register fields and its effect on candidate registers `w`; none for any other
word (R227, R228; R82, R97, R159). -/
def candWord (i : Instr) (w : Reg → Word) : Option (List Reg × CandEff) :=
  let alu (d a b : Reg) (v : Word) : Option (List Reg × CandEff) := some ([d, a, b], .write d v)
  let fl (d a b : Reg) (r : FRes) : Option (List Reg × CandEff) := some ([d, a, b], .write d (BitVec.ofNat 32 r.bits))
  let n (r : Reg) : Nat := (w r).toNat
  match i with
  | .add _ d a b => alu d a b (w a + w b)
  | .sub _ d a b => alu d a b (w a - w b)
  | .mullo _ d a b => alu d a b (w a * w b)
  | .divS32 _ d a b => some ([d, a, b], candDiv d (w a) (w b) (fun r => r.1))
  | .remS32 _ d a b => some ([d, a, b], candDiv d (w a) (w b) (fun r => r.2.1))
  | .and _ d a b => alu d a b (w a &&& w b)
  | .or _ d a b => alu d a b (w a ||| w b)
  | .xor _ d a b => alu d a b (w a ^^^ w b)
  | .shl _ d a b => alu d a b (w a <<< (n b % 32))
  | .shr _ d a b => alu d a b (w a >>> (n b % 32))
  | .sar _ d a b => alu d a b ((w a).sshiftRight (n b % 32))
  | .minS32 _ d a b => alu d a b (if (w b).slt (w a) then w b else w a)
  | .maxS32 _ d a b => alu d a b (if (w a).slt (w b) then w b else w a)
  | .sel _ d a b => alu d a b (if w d ≠ 0 then w a else w b)
  | .seteq _ d a b => alu d a b (Word.ofBool (w a == w b))
  | .setltS32 _ d a b => alu d a b (Word.ofBool ((w a).slt (w b)))
  | .mov _ d a => alu d a a (w a)
  | .addi _ d a k => alu d a a (w a + sext10 k)
  | .andi _ d a k => alu d a a (w a &&& sext10 k)
  | .ori _ d a k => alu d a a (w a ||| sext10 k)
  | .xori _ d a k => alu d a a (w a ^^^ sext10 k)
  | .shli _ d a k => alu d a a (w a <<< k.toNat)
  | .shri _ d a k => alu d a a (w a >>> k.toNat)
  | .sari _ d a k => alu d a a ((w a).sshiftRight k.toNat)
  | .setltiS32 _ d a k => alu d a a (Word.ofBool ((w a).slt (sext10 k)))
  | .lds _ d k => alu d d d (sext18 k)
  | .fadd _ d a b => fl d a b (f32.add 0 (n a) (n b))
  | .fsub _ d a b => fl d a b (f32.sub 0 (n a) (n b))
  | .fmul _ d a b => fl d a b (f32.mul 0 (n a) (n b))
  | .fma _ d a b => fl d a b (f32.fma 0 (n d) (n a) (n b))
  | .fmin _ d a b => fl d a b (f32.minMax false (n a) (n b))
  | .fmax _ d a b => fl d a b (f32.minMax true (n a) (n b))
  | .fabs _ d a => fl d a a (signOp (w a) (w a &&& 0x7FFFFFFF))
  | .fneg _ d a => fl d a a (signOp (w a) (w a ^^^ 0x80000000))
  | .fsetlt _ d a b => alu d a b (Word.ofBool ((f32.read (n a)).lt (f32.read (n b))))
  | .beqz _ a off => some ([a], candBranch (w a == 0) off)
  | .bnez _ a off => some ([a], candBranch (w a != 0) off)
  | .bltz _ a off => some ([a], candBranch ((w a).slt 0) off)
  | .bgez _ a off => some ([a], candBranch (!(w a).slt 0) off)
  | .bra _ off => some ([], candBranch true off)
  | .sld32 _ d a => some ([d, a], .load d (w a))
  | .sst32 _ d a => some ([d, a], .store (w a) (w d))
  | .exit _ => some ([], .halt)
  | .nop _ => some ([], .nothing)
  | _ => none

/-- A word as a stylus pipeline decodes it: legal in a candidate, or none (R62, R227). -/
def candDecode (x : Word) (cw : List Word) : Option CandEff :=
  match decodeWord x with
  | .error _ => none
  | .ok i =>
    match candWord i (fun r => cw.getD r.toNat 0) with
    | none => none
    | some (rs, e) => if rs.all (fun r => decide (r.toNat < 16)) then some e else none

/-- One round of a candidate's loop (R231): it goes on, or stops with a status at a candidate PC, having used fuel. -/
inductive CandRes where
  | go (r : CandRun) (box : List Byte)
  | stop (code q used : Nat)

/-- One round of the loop of R231. -/
def candStep (x : CandSlot) (r : CandRun) : CandRes :=
  if x.n ≤ r.pc then .stop 5 (r.pc - 1) r.used
  else if r.fuel = 0 then .stop 1 r.pc r.used
  else match candDecode (x.buffer.getD r.pc 0) r.regs with
    | none => .stop 2 r.pc r.used
    | some e =>
      let r' := { r with fuel := r.fuel - 1, used := r.used + 1 }
      let on (regs : List Word) (box : List Byte) : CandRes := .go { r' with regs := regs, pc := r.pc + 1 } box
      let stop (code : Nat) : CandRes := .stop code r.pc r'.used
      match e with
      | .write d v => on (r.regs.set d.toNat v) x.sandbox
      | .goto off =>
        let t := (r.pc : Int) + off
        if t < 0 ∨ (x.n : Int) ≤ t then stop 5 else .go { r' with pc := t.toNat } x.sandbox
      | .load d off =>
        if 63 < off.toNat then stop 4
        else on (r.regs.set d.toNat (BitVec.ofNat 32 (natOf ((x.sandbox.drop (off.toNat / 4 * 4)).take 4)))) x.sandbox
      | .store off v =>
        if 63 < off.toNat then stop 4
        else
          let o := off.toNat / 4 * 4
          on r.regs (x.sandbox.take o ++ bytesOf 4 v.toNat ++ x.sandbox.drop (o + 4))
      | .divz => stop 3
      | .halt => stop 0
      | .nothing => on r.regs x.sandbox

/-- A running candidate completes one instruction, if it does not stop (R226). -/
def CandSlot.advance (x : CandSlot) : CandSlot :=
  match x.run with
  | none => x
  | some r => match candStep x r with
    | .go r' box => { x with run := some r', sandbox := box }
    | .stop _ _ _ => x

/-! ## CLOAD -/

/-- What a CLOAD does next with what it has read so far: its 64 header bytes, the length byte, the record (R229, R230). -/
inductive CandWant where
  | fail (code detail : Nat)
  | read (va n : Nat)
  | full (n : Nat)

/-- The next step of a CLOAD (R230). -/
def candWant (a c : Nat) (got : List Byte) : CandWant :=
  let k := got.length
  if a % 64 ≠ 0 ∨ 2 ^ 48 ≤ a then .fail 0x70 1
  else if k < 64 then .read a 64
  else
    let recs := fieldAt got 12 4
    if fieldAt got 0 4 ≠ 1 ∨ fieldAt got 4 4 = 0 ∨ recs % 256 ≠ 0 ∨ fieldAt got 16 48 ≠ 0 then .fail 0x70 2
    else if fieldAt got 4 4 ≤ c then .fail 0x71 0
    else if k = 64 then .read (a + fieldAt got 8 4 + c) 1
    else
      let n := fieldAt got 64 1
      if 64 < n then .fail 0x72 0
      else if 65 + 4 * n ≤ k then .full n
      else
        let va := a + recs + 256 * c + (k - 65)
        .read va (min (65 + 4 * n - k) (64 - va % 64))

/-- The first word of a slot's queue is done: a CRUN that follows begins (R231, R232). -/
def CandSlot.next (x : CandSlot) : CandSlot :=
  match x.ops.drop 1 with
  | .run req inputs fuel :: rest =>
    { x with ops := rest, sandbox := List.replicate 64 0,
             run := some ⟨req, inputs ++ List.replicate 12 0, 0, fuel, 0⟩ }
  | rest => { x with ops := rest }

/-- A CLOAD ends with a status; one that fails leaves the length at 0 (R230). -/
def State.endLoad (s : State) (x : CandSlot) (req : Nat) (got : List Byte) (code detail n : Nat) : State :=
  let words := wordsOf n (natOf ((got.drop 65).take (4 * n)))
  let x := if code = 0 then { x with buffer := words ++ x.buffer.drop n, n := n } else { x with n := 0 }
  (s.setSlot x.next).reply req x.owner [BitVec.ofNat 32 (code + 256 * detail + 65536 * n)]

/-- Puts back the CLOAD at the head of a slot's queue. -/
def State.keepLoad (s : State) (x : CandSlot) (req a c : Nat) (got : List Byte) (rid : Option Nat) : State :=
  s.setSlot { x with ops := .load req a c got rid :: x.ops.drop 1 }

/-- The CLOAD at the head of a slot's queue goes on from where it is (R230). -/
def State.runLoad (s : State) (x : CandSlot) (req a c : Nat) : Nat → List Byte → State
  | 0, got => s.keepLoad x req a c got none
  | fuel + 1, got =>
    match candWant a c got with
    | .fail code detail => s.endLoad x req got code detail 0
    | .full n => s.endLoad x req got 0 0 n
    | .read va n =>
      let k := s.coreOf x.owner.launch x.owner.team
      if 2 ^ 48 ≤ va then s.endLoad x req got 0x73 1 0
      else match s.engRead k x.owner.launch x.owner.team va n 3 true false with
        | .ok s bs => s.runLoad x req a c fuel (got ++ bs)
        | .fault s va lv =>
          let (s, r) := s.agentFault k x.owner va 0 lv
          s.keepLoad x req a c got (some r)
        | .deny s => s.endLoad x req got 0x73 1 0
        | .wait s => s.keepLoad x req a c got none

/-- The team of a slot stands on its core: what its candidates do goes on (R242). -/
def State.candOn (s : State) (t : ThreadId) : Bool :=
  match s.team? t.launch t.team with
  | some tm => tm.st == .resident || tm.st == .saving
  | none => false

/-- The CLOAD at the head of a slot's queue, where it waits for no record, tries to go on. -/
def State.tryLoad (s : State) (t : ThreadId) : State :=
  match if s.candOn t then s.slot? t else none with
  | none => s
  | some x =>
    match x.run, x.ops.head? with
    | none, some (.load req a c got rid) =>
      if (rid == none || rid == some 0) && s.forked t req then s.runLoad x req a c 8 got else s
    | _, _ => s

/-- CLOAD (R230, R232). -/
def execCload (sp : Bool) (d a b : Reg) (s : State) : Out :=
  issue sp true [opD d, opA a 2, opB b] s (fun s => s.withSlot false (fun s x =>
    let id := s.nextId
    let op := CandOp.load id (s.cur.p a).toNat (s.cur.w b).toNat [] none
    let t := s.cur.id
    ((s.enqueue d 1).setSlot { x with ops := x.ops ++ [op] }).advance.tryLoad t))

/-! ## CRUN -/

/-- CRUNs of a slot whose candidates have not stopped: each holds a pipeline from its issue on (R226). -/
def CandSlot.runs (x : CandSlot) : Nat :=
  (if x.run.isSome then 1 else 0) + (x.ops.filter (fun o => match o with
    | .run _ _ _ => true
    | .load _ _ _ _ _ => false)).length

/-- Whether a slot is of a core's quarter. -/
def State.slotOn (s : State) (k : CoreId) (q : Nat) (x : CandSlot) : Bool :=
  s.quarterOf x.owner == q && (match s.team? x.owner.launch x.owner.team with
    | some t => t.on k
    | none => false)

/-- Free pipelines of a quarter, of its 32. -/
def State.freePipes (s : State) (k : CoreId) (q : Nat) : Nat :=
  32 - (((s.slots.filter (s.slotOn k q)).map (fun x => x.pipes)).foldl (· + ·) 0)

/-- A restored slot has not yet the pipelines it needs: its thread does not issue (R242). -/
def State.pipesShort (s : State) (t : ThreadId) : Bool := (s.slot? t).any (fun x => decide (x.pipes < x.runs))

/-- The crew slot of a thread (R202). -/
def State.crewSlot (s : State) (t : ThreadId) : Nat := ((s.crew? (crewOf t)).map (fun c => c.slot)).getD 0

/-- A waiter for pipelines: since when, whose, and how many. -/
structure PipeWait where
  since : Nat
  id    : ThreadId
  need  : Nat
  deriving DecidableEq, Repr

/-- Those who wait for pipelines of a core's quarter: threads at a CRUN, and restored candidates (R226, R242). -/
def State.pipeWaits (s : State) (k : CoreId) (q : Nat) : List PipeWait :=
  ((s.threads.filter (fun x => x.phase == .stalled 14 && s.coreOf x.id.launch x.id.team == k && s.quarterOf x.id == q)).map
    (fun x => PipeWait.mk x.since x.id 1)) ++
  ((s.slots.filter (fun x => s.slotOn k q x && decide (x.pipes < x.runs))).map (fun x => PipeWait.mk x.wait x.owner (x.runs - x.pipes)))

/-- A waiter stands before another: earlier, then the lower crew, then the lower rank (R226). -/
def State.pipeBefore (s : State) (x y : PipeWait) : Bool :=
  decide (x.since < y.since) || (x.since == y.since &&
    (decide (s.crewSlot x.id < s.crewSlot y.id) ||
      (s.crewSlot x.id == s.crewSlot y.id && decide (rankOf x.id < rankOf y.id))))

/-- Pipelines of its quarter that go to waiters before one. -/
def State.pipeAhead (s : State) (w : PipeWait) : Nat :=
  (((s.pipeWaits (s.coreOf w.id.launch w.id.team) (s.quarterOf w.id)).filter (fun x => x.id != w.id && s.pipeBefore x w)).map
    (fun x => x.need)).foldl (· + ·) 0

/-- A pipeline is free for a waiter (R226). -/
def State.pipeFor (s : State) (w : PipeWait) : Bool :=
  decide (s.pipeAhead w < s.freePipes (s.coreOf w.id.launch w.id.team) (s.quarterOf w.id))

/-- A pipeline is free for a thread at a CRUN; one that waits not yet stands behind all others. -/
def State.pipeFree (s : State) (t : Thread) : Bool :=
  s.pipeFor ⟨if t.phase == .stalled 14 then t.since else s.cycle + 1, t.id, 1⟩

/-- A restored candidate takes a pipeline of its new quarter, where one is free for it (R242). -/
def State.regainPipe (s : State) (x : CandSlot) : State :=
  if s.pipeFor ⟨x.wait, x.owner, x.runs - x.pipes⟩ then s.setSlot { x with pipes := x.pipes + 1 } else s

/-- CRUN (R226, R231). -/
def execCrun (sp : Bool) (d a b : Reg) (s : State) : Out :=
  issue sp true [opD d 2, opA a 4, opB b] s (fun s => s.withSlot false (fun s x =>
    if !s.pipeFree s.cur then (if s.cur.phase == .stalled 14 then s else s.parkCur (.stalled 14))
    else
      let op := CandOp.run s.nextId (s.cur.words a 4) (s.cur.w b).toNat
      let x' := if x.run.isNone && x.ops.isEmpty
        then CandSlot.next { x with ops := [op, op] } else { x with ops := x.ops ++ [op] }
      ((s.enqueue d 2).setSlot { x' with pipes := x.pipes + 1 }).advance))

/-- CANDIDATE_STOP (R231, R242): a candidate that stops gives its result and its pipeline; a CLOAD that had to wait, or a restored
candidate, goes on. -/
def execCandidateStop (t : ThreadId) (s : State) : Out :=
  match if s.candOn t then s.slot? t else none with
  | none => .next s
  | some x =>
    if x.pipes < x.runs then .next (s.regainPipe x) else
    match x.run with
    | none => .next (s.tryLoad t)
    | some r =>
      match candStep x r with
      | .go _ _ => .next s
      | .stop code q used =>
        let s := s.useStored (launchVf t.launch) (s.coreOf t.launch t.team) (fun f => match f with
          | .candidate u _ _ => u == t
          | _ => false)
        let x' := CandSlot.next { x with run := none, ops := .run 0 [] 0 :: x.ops, pipes := x.pipes - 1 }
        .next (((s.setSlot x').reply r.req t [r.regs.getD 0 0,
          BitVec.ofNat 32 (code + q * 256 + min used 0xFFFF * 65536)]).tryLoad t)

/-! ## The signature -/

/-- One fold: h and l after value v and status st (R233). -/
def foldSig (h l v st : Word) : Word × Word :=
  let l' := (l ^^^ v).rotateLeft 5 + 0x9E3779B9
  ((h + v).rotateLeft 11 ^^^ l' ^^^ st, l')

/-- SINIT (R233). -/
def execSinit (sp : Bool) (s : State) : Out :=
  issue sp false [] s (fun s => s.withSlot false (fun s x => (s.setSlot { x with h := sigH0, l := sigL0 }).advance))

/-- SFOLD (R233). -/
def execSfold (sp : Bool) (a b : Reg) (s : State) : Out :=
  issue sp false [opA a, opB b] s (fun s => s.withSlot false (fun s x =>
    let r := foldSig x.h x.l (s.cur.w a) (s.cur.w b)
    (s.setSlot { x with h := r.1, l := r.2 }).advance))

/-- SGET (R233): the value is taken at issue. -/
def execSget (sp : Bool) (d : Reg) (s : State) : Out :=
  issue sp true [opD d 2] s (fun s => s.withSlot false (fun s x =>
    let id := s.nextId
    ((s.enqueue d 2).reply id s.cur.id [x.l, x.h]).advance))

/-! ## The proof table -/

/-- An entry of a bucket (R235). -/
structure ProofEntry where
  h   : Nat
  l   : Nat
  idx : Nat
  tag : Nat
  deriving DecidableEq, Repr

/-- The entry at a position, and the bytes of an entry. -/
def proofEntry (b : List Byte) (i : Nat) : ProofEntry :=
  ⟨fieldAt b (16 * i) 4, fieldAt b (16 * i + 4) 4, fieldAt b (16 * i + 8) 4, fieldAt b (16 * i + 12) 4⟩
def ProofEntry.bytes (e : ProofEntry) : List Byte := bytesOf 4 e.h ++ bytesOf 4 e.l ++ bytesOf 4 e.idx ++ bytesOf 4 e.tag

/-- The signature an entry stands for, as a natural number. -/
def ProofEntry.key (e : ProofEntry) : Nat := e.h * 2 ^ 32 + e.l

/-- Entries in increasing signature order, equal ones as they stood. -/
def sortEntries (l : List ProofEntry) : List ProofEntry := l.insertionSort (fun x y => x.key ≤ y.key)

/-- The positions of the live entries of a run tag (R235). -/
def livePos (b : List Byte) (tag : Nat) : List Nat := (List.range 8).filter (fun i => (proofEntry b i).tag == tag)

/-- The lowest-positioned live match of a signature. -/
def proofMatch (b : List Byte) (tag h l : Nat) : Option Nat :=
  (livePos b tag).find? (fun i => (proofEntry b i).h == h && (proofEntry b i).l == l)

/-- A PROOF on a bucket (R236, R238): its code, the index it answers, and the bytes it writes, by offset. -/
def proofStep (b : List Byte) (tag h l c : Nat) (verify : Bool) : Nat × Nat × List (Nat × Byte) :=
  match proofMatch b tag h l with
  | some i =>
    let old := (proofEntry b i).idx
    if verify || decide (old ≤ c) then (1, old, [])
    else (2, old, (numbered (bytesOf 4 c)).map (fun x : Nat × Byte => (16 * i + 8 + x.1, x.2)))
  | none =>
    let live := livePos b tag
    if 8 ≤ live.length then (3, 0, [])
    else (0, 0, numbered ((sortEntries (live.map (proofEntry b) ++ [⟨h, l, c, tag⟩])).flatMap ProofEntry.bytes))

/-- The virtual address of a signature's bucket (R234, R235). -/
def bucketVa (p : Packet) (h l : Word) : Nat :=
  let g := (l &&& 0xFFFF).toNat % 24
  let k := (h ^^^ l).toNat % 2 ^ p.proofB
  p.proof + (g * 2 ^ p.proofB + k) * 128

/-- PROOF and PROOFQ at issue (R225, R240, R346). -/
def proofWord (query : Bool) (d : Reg) (h l c : Word) (s : State) : State :=
  s.withSlot true (fun s _ =>
    let va := bucketVa s.pk h l
    match s.checkGlobal va 128 3 (if query then .query else .atomic) false 0 with
    | .stop s => s
    | .ok g =>
      if s.unordered g.pa 128 then s.parkCur (.stalled 15)
      else
        let s := s.writeBackRange s.curCore g 128 true
        let num := !query && isNumbered g s.curCore.die
        ((s.enqueue d 2).request s.nextId
          (.proof query { g with checked := false, det := false } va h l c) num).advance)

/-- PROOF (R236). -/
def execProof (sp : Bool) (d a b : Reg) (s : State) : Out :=
  issue sp true [opD d 2, opA a 2, opB b] s (fun s =>
    proofWord false d (s.cur.wAt a 1) (s.cur.wAt a 0) (s.cur.w b) s)

/-- PROOFQ (R239). -/
def execProofq (sp : Bool) (d a : Reg) (s : State) : Out :=
  issue sp true [opD d 2, opA a 2] s (fun s => proofWord true d (s.cur.wAt a 1) (s.cur.wAt a 0) 0 s)

/-- A FULL under DET is recorded as a violation (R317). -/
def State.noteFull (s : State) (t : ThreadId) (va : Nat) : State :=
  match s.launch? t.launch with
  | none => s
  | some l => if l.packet.det then s.setLaunch { l with violations := l.violations ++ [(va, t.team, t.lin)] } else s

/-- PROOF_PERFORM (R236): one indivisible read-modify-write of the bucket at its home slice. -/
def execProofPerform (req : Nat) (s : State) : Out :=
  match s.requests.find? (fun r => r.id == req) with
  | none => .next s
  | some r =>
    match r.kind with
    | .proof false g va h l c =>
      if !s.homeReady r g then .next s
      else
        let s := (s.stashFlush (lineOf g.pa) false).consumeAt g.vf r.core g.pa 128
        let p := s.packet r.t.launch
        let res := proofStep (s.mem.getN g.pa 128) (r.t.launch % 2 ^ 32) h.toNat l.toNat c.toNat p.verify
        let off := (res.2.2.map (fun x => x.1)).headD 0
        let s := s.homePerform r { g with pa := g.pa + off } res.2.2.length (some (res.2.2.map (fun x => x.2)))
        let s := s.seenAtHome r.core g 128
        let s := if res.1 = 3 then s.noteFull r.t va else s
        .next ((s.dropReq req).reply req r.t [BitVec.ofNat 32 res.1, BitVec.ofNat 32 res.2.1])
    | _ => .next s

/-- PROOFQ_PERFORM (R239). -/
def execProofqPerform (req : Nat) (s : State) : Out :=
  match s.requests.find? (fun r => r.id == req) with
  | none => .next s
  | some r =>
    match r.kind with
    | .proof true g _ h l _ =>
      if !s.homeReady r g then .next s
      else
        let s := s.homePerform r g 128 none
        let b := s.mem.getN g.pa 128
        let res := match proofMatch b (r.t.launch % 2 ^ 32) h.toNat l.toNat with
          | some i => [1, BitVec.ofNat 32 (proofEntry b i).idx]
          | none => [0, 0]
        .next ((s.dropReq req).reply req r.t res)
    | _ => .next s

end Sys2Proof.Machine
end

