-- ==== Sys2Proof/Machine/Place.lean ====
section
/-! DEFINITION. The placing of teams (R108, R118, R119, R132, R133, R164, R166, R202, R224) and the pieces of WORK and STEAL (R134 to
R136). -/

namespace Sys2Proof.Machine

/-! ## Admission -/

/-- The teams on a core, and a figure of their packets added up. -/
def State.teamsOn (s : State) (k : CoreId) : List Team := s.teams.filter (fun t => t.on k)
def State.sumOn (s : State) (k : CoreId) (f : Packet → Nat) : Nat :=
  ((s.teamsOn k).map (fun t => f (s.packet t.launch))).foldl (· + ·) 0

/-- Registers, threads and candidate slots that a team takes (R133). -/
def Packet.teamRegs (p : Packet) : Nat := p.crews * 32 * p.regs
def Packet.teamThreads (p : Packet) : Nat := p.crews * 32
def Packet.teamSlots (p : Packet) : Nat := if p.stylus then p.crews * 32 else 0

/-- Teams of a packet that a core still has room for. -/
def State.coreRoom (s : State) (k : CoreId) (p : Packet) : Nat :=
  let a := min ((196608 - s.sumOn k Packet.teamRegs) / p.teamRegs) ((2048 - s.sumOn k Packet.teamThreads) / p.teamThreads)
  if p.stylus then min a ((512 - s.sumOn k Packet.teamSlots) / p.teamSlots) else a

/-- The pinned segments of a launch that a core does not hold (R108). -/
def State.pinsToLoad (s : State) (k : CoreId) (l : Launch) : List Nat :=
  l.image.pinned.filter (fun g => s.segState k l.vf l.image.coid g == .absent)

/-- Frames that the pin loads of a launch need on a core. -/
def State.pinNeed (s : State) (k : CoreId) (l : Launch) : Nat :=
  ((s.pinsToLoad k l).map (fun g => framesOf ((l.image.segLen g).getD 0))).foldl (· + ·) 0

/-- The pin load of a launch can be met at once on a core (R108): its own segments are not evicted for it. -/
def State.pinOk (s : State) (k : CoreId) (l : Launch) : Bool :=
  let own (e : SegEntry) : Bool := e.coid == l.image.coid && l.image.pinned.contains e.seg
  let free := ((s.core k).segs.map (fun e => if e.vf == l.vf && s.evictable k e && !own e then e.frames.length else 0)).foldl
    (· + ·) 0
  s.pinNeed k l == 0 || s.framesFit k l.vf (s.pinNeed k l) free

/-- The scratch of a team that has retired is still allocated on a core: others of its quad team stand in the quad (R76). -/
def State.peerScratch (s : State) (k : CoreId) : Bool :=
  s.teams.any (fun t => t.core == k && t.st == .retired && decide (0 < (s.packet t.launch).carve) &&
    s.teams.any (fun u => u.launch == t.launch && u.idx / (s.packet t.launch).qsize == t.idx / (s.packet t.launch).qsize && u.on u.core))

/-- A core admits a team of a launch (R76, R133, R164). -/
def State.coreAdmits (s : State) (v : Vf) (l : Launch) (k : CoreId) : Bool :=
  let p := l.packet
  let empty := (s.teamsOn k).isEmpty && !s.peerScratch k
  decide (s.sumOn k Packet.teamRegs + p.teamRegs ≤ 196608) && decide (s.sumOn k Packet.teamThreads + p.teamThreads ≤ 2048) &&
    (!p.stylus || decide (s.sumOn k Packet.teamSlots + p.teamSlots ≤ 512)) &&
    (empty || (p.carve == 0 && (s.core k).carve == 0)) &&
    (s.launchOn l.id k || s.pinOk k l) && v.diemask.getLsbD k.die

/-- n cores of a quad that take teams of a quad team, and how many of them have the launch's carve already; with `spread` those
with the most room come first. `ok` is a condition of its own on the quad. -/
def State.quadCores? (s : State) (v : Vf) (l : Launch) (n : Nat) (spread : Bool) (ok : List CoreId → Bool) (d j : Nat) :
    Option (List CoreId × Nat) :=
  let p := l.packet
  let cs := (quadOf d j).filter (s.coreAdmits v l)
  let same (k : CoreId) : Bool := (s.core k).carve == p.carve
  let pick := if spread then (cs.insertionSort (fun a b => s.coreRoom b p ≤ s.coreRoom a p)).take n
    else (cs.filter same ++ cs.filter (fun k => !same k)).take n
  if pick.length = n && ok (quadOf d j) then some ((quadOf d j).filter pick.contains, (pick.filter same).length) else none

/-- The cores for n teams of a quad team: the quad with the most cores of the launch's carve, then the lower die and the lower cores; the
teams go onto them in increasing order of the cores. R133 speaks of one team and one core. DESIGN CHOICE (log entry 14). -/
def State.chooseCores (s : State) (v : Vf) (l : Launch) (n : Nat) (spread : Bool) (ok : List CoreId → Bool) : Option (List CoreId) :=
  ((v.dies.flatMap (fun d => (List.range 13).filterMap (s.quadCores? v l n spread ok d))).foldl
    (fun (best : Option (List CoreId × Nat)) x => match best with
      | none => some x
      | some b => if b.2 < x.2 then some x else some b) none).map (fun x => x.1)

/-! ## Placing one team -/

/-- A core takes a carve setting (R166): the lines of the ways that pass to scratch are written back and dropped, and the victim
tags go (R140). -/
def State.setCarve (s : State) (k : CoreId) (carve : Nat) : State :=
  let c := s.core k
  if c.carve = carve then s
  else
    let ways := carveLines carve / 128
    let s := (c.l1.filter (fun x => decide (ways ≤ x.way))).foldl (fun s x => s.l1Clean k x.line (fun _ => true)) s
    let c := s.core k
    s.setCore { c with carve := carve, l1 := c.l1.filter (fun x => decide (x.way < ways)), victims := [] }

/-- The first team of a launch on a core: its segments are pinned, and loaded where they are absent (R108). -/
def State.pinLaunch (s : State) (k : CoreId) (l : Launch) (t : Nat) : State :=
  if s.launchOn l.id k then s
  else
    let load := s.pinsToLoad k l
    let need := s.pinNeed k l
    let s := (l.image.pinned.filter (fun g => !load.contains g)).foldl
      (fun s g => s.modSeg k l.vf l.image.coid g (fun e => { e with pins := e.pins ++ [l.id] })) s
    load.foldl (fun s g => s.startLoad k l.vf l.image.coid g ((l.image.segLen g).getD 0) l.id ⟨l.id, t, 0⟩ true [l.id])
      (s.evictFor k l.vf need 64)

/-- The crews on a core. -/
def State.crewsOn (s : State) (k : CoreId) : List Crew :=
  s.crews.filter (fun c => match s.team? c.id.launch c.id.team with
    | some t => t.on k
    | none => false)

/-- The quarter with the fewest of the crews given, the lower on a tie (R119). DEDUCED (log entry 22). -/
def leastQuarter (cs : List Crew) : Nat :=
  let n (q : Nat) : Nat := (cs.filter (fun c => c.quarter == q)).length
  [1, 2, 3].foldl (fun best q => if n q < n best then q else best) 0

/-- The crews seated on a core when a crew takes its seat: those of its own team follow in crew order (R202). -/
def State.seatedWith (s : State) (k : CoreId) (c : CrewId) : List Crew :=
  (s.crewsOn k).filter (fun x => !(x.id.launch == c.launch && x.id.team == c.team && decide (c.crew ≤ x.id.crew)))

/-- A crew becomes resident on a core: its quarter, its crew slot; it starts inactive (R119, R137, R202). -/
def State.seatCrew (s : State) (k : CoreId) (c : Crew) : State :=
  let here := s.seatedWith k c.id
  let used := here.map (fun x => x.slot)
  let slot := ((List.range 64).find? (fun i => !used.contains i)).getD 64
  let c := { c with
    quarter := leastQuarter here
    slot := slot
    active := false
    dueActivated := false
    grower := false
    seenEligible := false }
  { s with crews := upsert (fun x => x.id == c.id) c s.crews }

/-- A crew as a launch starts it (R137, R142). -/
def Crew.start (id : CrewId) (p : Packet) : Crew :=
  let m := p.lease == 0xFFFF
  { id := id, quarter := 0, slot := 0, lease := if m then min 32 (carveLines p.carve) else p.lease, measured := m, window := 0,
    lines := [], active := false, actStamp := 0, dueActivated := false, eligible := 0, seenEligible := false, due := false,
    dueStamp := 0, grower := false, stall := List.replicate 16 0, tags := [] }

/-- The threads of a team at their start values (R11, R18). -/
def Launch.newThreads (l : Launch) (t : Nat) : List Thread :=
  (List.range (l.packet.crews * 32)).map (fun i =>
    { Thread.start ⟨l.id, t, i⟩ l.image.entry l.packet.regs with
      phase := if i < l.packet.threads then .ready else .neverStarted })

/-- A team stands on its core: it runs once its pin loads are resident (R108). -/
def State.standTeam (s : State) (l t : Nat) : State :=
  match s.team? l t with
  | none => s
  | some tm => s.setTeam { tm with st := if s.pinsDone tm then .resident else .pinning }

/-- A team is placed on a core for the first time (R108, R119, R129, R133, R165, R202, R224, R251). -/
def State.placeTeam (s : State) (l : Launch) (t : Nat) (k : CoreId) : State :=
  match s.team? l.id t with
  | none => s
  | some tm =>
    let s := ((s.setCarve k l.packet.carve).pinLaunch k l t).nextGen k
    let s := s.setTeam { tm with core := k, st := .pinning, scratch := [] }
    let s := (List.range l.packet.crews).foldl (fun s c => s.seatCrew k (Crew.start ⟨l.id, t, c⟩ l.packet)) s
    let s := { s with
      others := s.others ++ l.newThreads t
      slots := if l.packet.stylus
        then s.slots ++ (List.range (l.packet.crews * 32)).map (fun i => CandSlot.start ⟨l.id, t, i⟩) else s.slots }
    let s := match s.launch? l.id with
      | none => s
      | some x => s.setLaunch { x with start := some (x.start.getD (s.vfTime l.vf).toNat) }
    (s.standTeam l.id t).triggerDecision k

/-! ## Placing a launch -/

/-- A launch whose teams may be placed (R129, R273). -/
def Launch.places (l : Launch) : Bool := l.stage == 1 && l.kill.isNone

/-- The pending teams of a launch, in index order. -/
def State.pendingTeams (s : State) (l : Nat) : List Nat :=
  (s.teams.filter (fun t => t.launch == l && t.st == .pending)).map (fun t => t.idx)

/-- Late replies a saved team still awaits (R284, R287). -/
def State.outstanding (s : State) (l t : Nat) : Nat :=
  ((s.threads.filter (fun x => x.id.launch == l && x.id.team == t)).map (fun x =>
    (x.queue.filter (fun e => e.st == .awaiting)).length)).foldl (· + ·) 0

/-- A saved team that may be placed again (R288). -/
def State.mayReturn (s : State) (t : Team) : Bool :=
  t.st == .swapped && (t.allowed || t.auto) && s.outstanding t.launch t.idx == 0

/-- Places the pending quad team that comes next (R118, R132, R133). -/
def State.placeNext (s : State) (v : Vf) (l : Launch) (spread : Bool) : Option State :=
  match s.pendingTeams l.id with
  | [] => none
  | t :: _ => (s.chooseCores v l l.packet.qsize spread (fun _ => true)).map (fun ks =>
      ((List.range ks.length).zip ks).foldl (fun s x => s.placeTeam l (t + x.1) x.2) s)

/-- Places the whole grid of a RESIDENT launch, or none of it (R132). -/
def State.placeGrid (s : State) (v : Vf) (l : Launch) (spread : Bool) : Nat → Option State
  | 0 => if (s.pendingTeams l.id).isEmpty then some s else none
  | n + 1 => if (s.pendingTeams l.id).isEmpty then some s
    else (s.placeNext v l spread).bind (fun s => s.placeGrid v l spread n)

/-- Places what can be placed of a launch in one event: a quad team, or a RESIDENT grid; a grid that does not fit by the preferences of
R133 is tried with the roomiest cores first, so that it is placed as soon as its whole grid fits (R132). DESIGN CHOICE (log entry 14). -/
def State.placeSome (s : State) (v : Vf) (l : Launch) : Option State :=
  if !l.packet.resident then s.placeNext v l false
  else match s.placeGrid v l false l.packet.grid with
    | some s => some s
    | none => s.placeGrid v l true l.packet.grid

/-- A launch stands before another in the order of placement: higher PRIO, then the earlier start (R132). -/
def Launch.before (a b : Launch) : Bool :=
  decide (b.packet.prio < a.packet.prio) || (a.packet.prio == b.packet.prio && decide (a.order < b.order))

/-- A launch holds back those after it: it has pending teams, and is no RESIDENT launch whose grid does not fit (R132). DEDUCED (log entry 14). -/
def State.holdsBack (s : State) (a : Launch) : Bool :=
  a.places && !(s.pendingTeams a.id).isEmpty && (!a.packet.resident || (match s.vf? a.vf with
    | some v => v.migctl == 0 && (s.placeSome v a).isSome
    | none => false))

/-- TEAM_PLACEMENT (R132, R133): the next pending quad team of a launch, or a RESIDENT grid, is placed where cores admit it. -/
def execTeamPlacement (l : Nat) (s : State) : Out :=
  match s.launch? l with
  | none => .next s
  | some x =>
    match s.vf? x.vf with
    | none => .next s
    | some v =>
      if !x.places || v.migctl != 0 || s.teams.any (fun t => t.launch == l && s.mayReturn t) ||
          s.launches.any (fun y => y.before x && s.holdsBack y) then .next s
      else .next ((s.placeSome v x).getD s)

/-! ## Work pieces -/

/-- The result none of R156. -/
def noPiece : List Word := [0, 0, 0, 8]

/-- The piece at iteration i of a range that ends at `stop`: its count and the words of its result (R134, R156). -/
def pieceAt (p : Packet) (i stop : Nat) : Nat × List Word :=
  let n := min p.p (min (stop - i) (p.kt - i % p.kt))
  let first := i % p.kt == 0
  let last := (i + n) % p.kt == 0 || i + n == p.iters
  (n, [BitVec.ofNat 32 (i / p.kt), BitVec.ofNat 32 (i % p.kt), BitVec.ofNat 32 n,
    BitVec.ofNat 32 ((if first then 1 else 0) + (if last then 2 else 0) + (if first && last then 0 else 4))])

/-- WORK takes its piece (R135). -/
def State.takeWork (s : State) (t : ThreadId) : State × List Word :=
  match s.launch? t.launch, s.team? t.launch t.team with
  | some l, some tm =>
    let p := l.packet
    if p.dist = 1 then
      if tm.next < tm.stop then
        let x := pieceAt p tm.next tm.stop
        (s.setTeam { tm with next := tm.next + x.1 }, x.2)
      else (s, noPiece)
    else if p.dist = 2 then
      if l.workNext < p.iters then
        let x := pieceAt p l.workNext p.iters
        (s.setLaunch { l with workNext := l.workNext + x.1 }, x.2)
      else (s, noPiece)
    else (s, noPiece)
  | _, _ => (s, noPiece)

/-- The victim of a STEAL: the greatest remainder, then the lower core, then the lower team (R136). DEDUCED (log entry 22). -/
def stealVictim (ts : List Team) : Option Team :=
  ts.foldl (fun best t => match best with
    | none => some t
    | some b =>
      let r (x : Team) : Nat := x.stop - x.next
      if r b < r t ∨ (r b = r t ∧ (coreNum t.core < coreNum b.core ∨ (t.core = b.core ∧ t.idx < b.idx))) then some t else some b)
    none

/-- STEAL takes half of a victim's range and the first piece of it (R136). -/
def State.takeSteal (s : State) (t : ThreadId) : State × List Word :=
  match s.launch? t.launch, s.team? t.launch t.team with
  | some l, some tm =>
    if l.packet.dist ≠ 1 ∨ tm.next < tm.stop then (s, noPiece)
    else
      let vs := s.teams.filter (fun x => x.launch == t.launch && x.idx != t.team && x.on x.core && x.core.die == tm.core.die &&
        decide (x.next + 2 ≤ x.stop))
      match stealVictim vs with
      | none => (s, noPiece)
      | some v =>
        let m := v.stop - (v.stop - v.next) / 2
        ((s.setTeam { v with stop := m }).setTeam { tm with next := m, stop := v.stop }).takeWork t
  | _, _ => (s, noPiece)

/-- A request of WORK or STEAL. -/
def Request.pieces (r : Request) : Bool :=
  match r.kind with
  | .work => true
  | .steal _ _ => true
  | _ => false

/-- The order in which STEALs are served at a die: cycle of arrival, clock value, core (R136). -/
def Request.stealKey (r : Request) : Nat × Nat × Nat :=
  match r.kind with
  | .steal c t => (t, c, coreNum r.core)
  | _ => (0, 0, 0)

/-- A STEAL comes before another. -/
def stealBefore (a b : Nat × Nat × Nat) : Bool :=
  decide (a.1 < b.1 ∨ (a.1 = b.1 ∧ (a.2.1 < b.2.1 ∨ (a.2.1 = b.2.1 ∧ a.2.2 < b.2.2))))

/-- A request of WORK or STEAL is the next to serve: a core's requests come in the order of their issue (R156), a die's STEALs in
the order of R136. -/
def State.pieceTurn (s : State) (r : Request) : Bool :=
  !((s.requests.takeWhile (fun x => x.id != r.id)).any (fun x => x.pieces && x.core == r.core)) &&
    (match r.kind with
     | .steal _ _ => !(s.requests.any (fun x => (match x.kind with
         | .steal _ _ => true
         | _ => false) && x.core.die == r.core.die && stealBefore x.stealKey r.stealKey))
     | _ => true)

/-- WORK_PIECE_SERVE (R134 to R136, R156): a distributor serves a WORK or a STEAL. Its clock moves once for each STEAL, to the greater of
its own and the sender's, plus 1, and the reply carries it: the spec says only that it keeps one in the same way. DESIGN CHOICE (log
entry 14). -/
def execWorkPieceServe (req : Nat) (s : State) : Out :=
  match s.requests.find? (fun r => r.id == req) with
  | none => .next s
  | some r =>
    if !s.pieceTurn r then .next s
    else match r.kind with
      | .work =>
        let x := s.takeWork r.t
        .next ((x.1.dropReq req).reply req r.t x.2)
      | .steal c _ =>
        let x := s.takeSteal r.t
        let d := x.1.die r.core.die
        let dl := max d.lamport c + 1
        let s := (x.1.setDie { d with lamport := dl }).dropReq req
        .next { s with replies := s.replies ++ [⟨req, r.t, x.2, false, dl⟩] }
      | _ => .next s

end Sys2Proof.Machine
end

