-- ==== Sys2Proof/Machine/Lease.lean ====
section
/-! DEFINITION. Readiness and bundles (R120 to R122, R141), stall counters (R142), and leases: the activation controller (R137 to
R140). -/

namespace Sys2Proof.Machine

/-! ## Ready threads -/

/-- Whether a thread's team stands on its core, ready to run. -/
def State.teamRuns (s : State) (t : ThreadId) : Bool :=
  match s.team? t.launch t.team with
  | some tm => tm.st == .resident
  | none => false

/-- A thread that would be ready if its crew were active (R120, R138): free to issue, or at a convergent word that can execute, or
waiting for a stylus pipeline that is free; its restored candidates have their pipelines (R242), and its restored bundle loads and engine
operations have begun again (R211, R290). -/
def State.readyBut (s : State) (t : Thread) : Bool :=
  s.teamRuns t.id && !s.pipesShort t.id && !s.restarting t.id && !s.reentering t.id && (match t.phase with
    | .ready => true
    | .waiting => (s.countedFor t).all (fun m => m.phase == .waiting && m.pc == t.pc && s.performed m.id)
    | .stalled 14 => s.pipeFree t
    | _ => false)

/-- The stall reason of a thread whose bundle load has begun again: 7 while that is stopped on a record, else 15 (R142, R290). -/
def State.restartReason (s : State) (t : ThreadId) : Nat :=
  if s.requests.any (fun r => r.t == t && (match r.kind with
    | .lduAgain _ _ _ rid _ => rid != 0
    | _ => false)) then 7 else 15

/-- A crew is active. -/
def State.crewActive (s : State) (c : CrewId) : Bool := ((s.crew? c).map (fun x => x.active)).getD false

/-- A ready thread (R120). -/
def State.readyThread (s : State) (t : Thread) : Bool := s.crewActive (crewOf t.id) && s.readyBut t

/-- A crew resident for the activation controller: on a core with a live thread (R137). -/
def State.residentCrews (s : State) (k : CoreId) : List Crew :=
  (s.crewsOn k).filter (fun c => !(s.liveMembers c.id).isEmpty)

/-- A crew one of whose threads would be ready if it were active (R138). -/
def State.crewEligible (s : State) (c : Crew) : Bool := (s.liveMembers c.id).any s.readyBut

/-! ## Bundles -/

/-- A quad's scheduler is being rebuilt: the crews of its cores do not issue, and no bundle forms (R283 step 1, R330). -/
def State.rebuilds (s : State) (k : CoreId) : Bool :=
  (s.die k.die).rebuilding.any (fun r => r.1 == k.core / 4 && decide (s.cycle < r.2))

/-- PRIO of a crew. -/
def State.crewPrio (s : State) (c : Crew) : Nat := (s.packet c.id.launch).prio

/-- The crews of a quarter with a ready thread. -/
def State.readyCrews (s : State) (k : CoreId) (q : Nat) : List Crew :=
  (s.residentCrews k).filter (fun c => c.quarter == q && c.active && (s.liveMembers c.id).any s.readyThread)

/-- The bundle of a quarter for a team and a pc (R121): up to 32 ready threads in crew and rank order. -/
def State.fillBundle (s : State) (k : CoreId) (q l t : Nat) (pc : Word) : Bundle :=
  let cs := ((s.readyCrews k q).filter (fun c => c.id.launch == l && c.id.team == t)).insertionSort
    (fun a b => a.id.crew ≤ b.id.crew)
  let ms := (cs.flatMap (fun c => ((s.liveMembers c.id).filter (fun m => s.readyThread m && m.pc == pc)).map (fun m => m.id))).take 32
  ⟨l, t, pc, ms, ms⟩

/-- The crew whose turn it is in a quarter: the highest PRIO, then the earliest activation, then the lower slot (R141). -/
def State.chooseCrew (s : State) (cs : List Crew) : Option Crew :=
  cs.foldl (fun best c => match best with
    | none => some c
    | some b =>
      let p := s.crewPrio c
      let r := s.crewPrio b
      if r < p ∨ (r = p ∧ (c.actStamp < b.actStamp ∨ (c.actStamp = b.actStamp ∧ c.slot < b.slot))) then some c else some b) none

/-- The bundle a quarter chooses at a reform boundary (R141). -/
def State.chooseBundle (s : State) (k : CoreId) (q : Nat) : Option Bundle :=
  let cs := s.readyCrews k q
  let fresh : Option Bundle := (s.chooseCrew cs).bind (fun c =>
    ((s.liveMembers c.id).find? s.readyThread).map (fun m => s.fillBundle k q c.id.launch c.id.team m.pc))
  match ((s.core k).bundles.getD q none) with
  | some b =>
    let prio := (s.packet b.launch).prio
    if b.members.any (fun m => ((s.thread? m).map s.readyThread).getD false) && cs.all (fun c => decide (s.crewPrio c ≤ prio))
    then some (s.fillBundle k q b.launch b.team b.pc) else fresh
  | none => fresh

/-- The threads of a core that are ready and in none of the bundles. -/
def State.leftOver (s : State) (k : CoreId) (bs : List (Option Bundle)) : List ThreadId :=
  ((s.residentCrews k).flatMap (fun c => ((s.liveMembers c.id).filter s.readyThread).map (fun t => t.id))).filter (fun t =>
    !bs.any (fun b => (b.map (fun b => b.formed.contains t)).getD false))

/-- Every quarter of a die's cores chooses its bundle, those of a quad that is being rebuilt apart (R330). -/
def State.reform (s : State) (d : Nat) : State :=
  { s with cores := s.cores.map (fun c =>
      if c.id.die == d then
        if s.rebuilds c.id then { c with bundles := [none, none, none, none], lost := [] }
        else
          let bs := (List.range 4).map (s.chooseBundle c.id)
          { c with bundles := bs, lost := s.leftOver c.id bs }
      else c) }

/-- The VFs with a team on a quad. -/
def State.vfsOnQuad (s : State) (d q : Nat) : List Nat :=
  ((s.teams.filter (fun t => t.on t.core && t.core.die == d && t.core.core / 4 == q)).map (fun t => launchVf t.launch)).dedup

/-- The scheduler reads a quad's crew tables: what is uncorrectable there is consumed by every VF with a team on the quad (R328,
R330). -/
def State.useCrewTable (s : State) (d q : Nat) : State :=
  (s.vfsOnQuad d q).foldl (fun s vf =>
    let k := ((s.teams.find? (fun t => t.on t.core && t.core.die == d && t.core.core / 4 == q && launchVf t.launch == vf)).map
      (fun t => t.core)).getD ⟨d, 4 * q⟩
    s.useStored vf k (fun f => match f with
      | .crewTable d' q' _ => d' == d && q' == q
      | _ => false)) s

/-- The threads that issue in a cycle: those of the bundles of a core's quarters that take no extra cycle for a bank conflict
(R165). -/
def Core.issued (c : Core) : List ThreadId :=
  ((List.range 4).zip c.bundles).flatMap (fun x =>
    if c.bankBusy.getD x.1 0 = 0 then (x.2.map (fun b => b.members)).getD [] else [])

/-- Whether a thread is of a bundle whose scratch accesses take an extra cycle (R142, R165). -/
def Core.conflicted (c : Core) (t : ThreadId) : Bool :=
  ((List.range 4).zip c.bundles).any (fun x =>
    c.bankBusy.getD x.1 0 != 0 && (x.2.map (fun b => b.members.contains t)).getD false)

/-- The extra cycles of a quarter for the scratch words its instruction has reached: one for each word of a bank beyond the first,
the banks of a slab side by side (R165). DEDUCED (log entry 22). -/
def bankDelay (ws : List (Nat × Nat × Nat)) (q : Nat) : Nat :=
  let mine := (ws.filter (fun w => w.1 == q)).dedup
  let same (a b : Nat × Nat × Nat) : Bool := a.2.1 == b.2.1 && a.2.2 / 4096 == b.2.2 / 4096 && a.2.2 % 32 == b.2.2 % 32
  (mine.map (fun w => (mine.filter (same w)).length - 1)).foldl max 0

/-- A core's bank conflicts at the end of a cycle (R165). -/
def Core.bankCycle (c : Core) : Core :=
  { c with
    bankWords := []
    bankBusy := (List.range 4).map (fun q =>
      let b := c.bankBusy.getD q 0
      if b = 0 then bankDelay c.bankWords q else b - 1) }

/-- The threads of a die's new bundles issue in this cycle. -/
def State.requeue (s : State) (d : Nat) : State :=
  { s with issueQ := s.issueQ.filter (fun t => (s.coreOf t.launch t.team).die != d) ++
      (s.cores.filter (fun c => c.id.die == d)).flatMap Core.issued }

/-- REFORM_BOUNDARY (R121, R141): in a cycle whose number is a multiple of 4 each quarter of a die forms its bundle. -/
def execReformBoundary (d : Nat) (s : State) : Out :=
  .next (if s.cycle % 4 = 0 then
    ((if s.flips.isEmpty && s.poison.isEmpty then s else (List.range 13).foldl (fun s q => s.useCrewTable d q) s).reform d).requeue d
  else s)

/-- A bundle keeps the threads whose pc equals that of its first thread, that are ready and did not leave it in this cycle (R122); a
crew that has been deactivated leaves it at the next reform boundary (R138). -/
def State.trimBundle (s : State) (b : Bundle) : Bundle :=
  let ts := b.members.filterMap s.thread?
  match ts with
  | [] => { b with members := [] }
  | t :: _ => { b with pc := t.pc, members := (ts.filter (fun x => x.pc == t.pc && s.readyBut x && x.since != s.cycle + 1)).map (fun x => x.id) }

/-! ## Stall counters -/

/-- A drain of a thread waits at its ADDST step for room in the ticket unit (R315). -/
def State.ticketWait (s : State) (t : ThreadId) : Bool :=
  s.ticketFull && s.engines.any (fun e => e.t == t && e.st == .addst && (s.packet t.launch).det)

/-- A team is off the issue for the whole of it: 6 while its pin loads run (R108), else 15. -/
def State.teamReason (s : State) (t : ThreadId) : Nat :=
  match s.team? t.launch t.team with
  | some tm => if tm.st == .pinning then 6 else 15
  | none => 15

/-- The stall reason of a thread that did not issue (R107, R108, R142, R208, R315). DEDUCED (log entry 22). -/
def State.stallReason (s : State) (t : Thread) : Nat :=
  match t.phase with
  | .switchParked => if s.ticketWait t.id then 9 else 1
  | .held => 2
  | .barrier _ _ _ => 3
  | .monitor => if s.watchHatched t then 5 else 4
  | .settling =>
    let k := s.coreOf t.id.launch t.id.team
    match (s.core k).segEntry (launchVf t.id.launch) (s.coidOf t.id.launch) (segOf t.pc) with
    | some e => if e.frec.isSome then 7 else 6
    | none => 6
  | .pageParked _ => 7
  | .backoff _ => 8
  | .stalled r => r
  | .ready =>
    if !s.teamRuns t.id then s.teamReason t.id
    else if s.pipesShort t.id then 14
    else if s.restarting t.id then s.restartReason t.id
    else if s.reentering t.id then 9
    else
      let c := s.core (s.coreOf t.id.launch t.id.team)
      if c.conflicted t.id then 12 else if c.lost.contains t.id then 10 else 11
  | _ => 15

/-- One more in a stall counter, saturating. -/
def Crew.countStall (c : Crew) (r : Nat) : Crew := { c with stall := c.stall.modify r (fun n => satAdd n 1) }

/-- The crew's team waits for the pin loads of its launch on its core (R108). -/
def State.crewPinning (s : State) (c : Crew) : Bool :=
  match s.team? c.id.launch c.id.team with
  | some t => t.st == .pinning
  | none => false

/-- A thread whose word has run has issued it, unless it waits to issue it still (R142). -/
def Phase.unissued : Phase → Bool
  | .switchParked => true
  | .stalled _ => true
  | .walking _ => true
  | .backoff _ => true
  | .pageParked _ => true
  | .debugStopped _ => true
  | _ => false

/-- A resident crew after a cycle: a stall count where it issued nothing (R142), 15 for every crew of a quad that is being rebuilt (R330); the end of its first issue after a due activation
(R138), its eligible-inactive count, its window (R140). -/
def State.crewCycle (s : State) (c : Crew) : Crew :=
  let mine := s.ran.filter (fun t => crewOf t == c.id && ((s.thread? t).map (fun x => !x.phase.unissued)).getD false)
  let c1 := if !mine.isEmpty then { c with dueActivated := false }
    else if s.rebuilds (s.coreOf c.id.launch c.id.team) then c.countStall 15
    else if s.crewPinning c then c.countStall 6
    else if !c.active then c.countStall 0
    else match (s.liveMembers c.id).find? (fun t => !mine.contains t.id) with
      | some t => c.countStall (s.stallReason t)
      | none => c
  let now := !c.active && s.crewEligible c
  { c1 with
    eligible := if now then c.eligible + 1 else c.eligible
    seenEligible := now
    window := if c.measured then c.window + 1 else c.window }

/-! ## Decisions -/

/-- The lease total of the active crews. -/
def leaseSum (cs : List Crew) : Nat := ((cs.filter (fun c => c.active)).map (fun c => c.lease)).foldl (· + ·) 0

/-- Changes one crew of a list. -/
def modCrew (id : CrewId) (f : Crew → Crew) (cs : List Crew) : List Crew := cs.map (fun c => if c.id == id then f c else c)

/-- A crew is activated as the most recent (R138, R202). -/
def activate (cs : List Crew) (id : CrewId) (due : Bool) : List Crew :=
  let n := (cs.map (fun c => c.actStamp)).foldl max 0 + 1
  modCrew id (fun c => { c with active := true, actStamp := n, eligible := 0, due := false, dueActivated := due }) cs

/-- A crew is deactivated. -/
def deactivate (cs : List Crew) (id : CrewId) : List Crew :=
  modCrew id (fun c => { c with active := false, dueActivated := false }) cs

/-- The first of a list by an order, the earlier on a tie. -/
def firstBy {α : Type} (lt : α → α → Bool) : List α → Option α
  | [] => none
  | x :: xs => match firstBy lt xs with
    | none => some x
    | some y => if lt y x then some y else some x

/-- Step 1 of a decision: crews give way while the leases overflow, the most recently activated first. -/
def overflowStep (l : Nat) : Nat → List Crew → List Crew
  | 0, cs => cs
  | n + 1, cs =>
    if leaseSum cs ≤ l then cs
    else match firstBy (fun a b => decide (b.actStamp < a.actStamp))
        (cs.filter (fun c => c.active && c.lease != 0 && !c.dueActivated && !c.grower)) with
      | none => cs
      | some c => overflowStep l n (deactivate cs c.id)

/-- Step 2 for one due crew: the crew active longest gives way where the leases would overflow. -/
def dueStep (l : Nat) (cs : List Crew) (c : Crew) : List Crew :=
  let gives := firstBy (fun a b => decide (a.actStamp < b.actStamp ∨ (a.actStamp = b.actStamp ∧ a.slot < b.slot)))
    (cs.filter (fun x => x.active && x.lease != 0 && !x.dueActivated))
  let cs := if l < leaseSum cs + c.lease then (match gives with
    | some x => deactivate cs x.id
    | none => cs) else cs
  activate cs c.id true

/-- Step 3 for one eligible inactive crew: one whose lease is 0 never waits for capacity (R139, R155). -/
def fillStep (l : Nat) (cs : List Crew) (c : Crew) : List Crew :=
  if c.lease = 0 ∨ leaseSum cs + c.lease ≤ l then activate cs c.id false else cs

/-- A decision of the activation controller over a core's resident crews (R138). DEDUCED (log entry 15). -/
def State.activation (s : State) (l : Nat) (cs : List Crew) : List Crew :=
  let cs := overflowStep l cs.length cs
  let dues := (cs.filter (fun c => c.due && !c.active)).insertionSort
    (fun a b => a.dueStamp < b.dueStamp ∨ (a.dueStamp = b.dueStamp ∧ a.slot ≤ b.slot))
  let cs := dues.foldl (dueStep l) cs
  let fill := (cs.filter (fun c => !c.active && s.crewEligible c)).insertionSort
    (fun a b => b.eligible < a.eligible ∨ (a.eligible = b.eligible ∧ a.slot ≤ b.slot))
  (fill.foldl (fillStep l) cs).map (fun c => { c with grower := false })

/-- ACTIVATION_DECISION (R138, R139, R202). -/
def execActivationDecision (k : CoreId) (s : State) : Out :=
  let c := s.core k
  if !c.deciding then .next s
  else
    let new := s.activation (carveLines c.carve) (s.residentCrews k)
    .next (State.setCore { s with crews := s.crews.map (fun x => (new.find? (fun y => y.id == x.id)).getD x) }
      { c with deciding := false })

/-- DUE_COUNT_EXPIRY (R138): an inactive crew has been eligible for 16,384 cycles. -/
def execDueCountExpiry (c : CrewId) (s : State) : Out :=
  match s.crew? c with
  | none => .next s
  | some w =>
    if w.active || w.due || w.eligible < 16384 || (s.liveMembers c).isEmpty || !(s.crewsOn (s.coreOf c.launch c.team)).contains w
    then .next s
    else .next ((s.setCrew { w with due := true, dueStamp := s.cycle }).triggerDecision (s.coreOf c.launch c.team))

/-- LEASE_WINDOW_EXPIRY (R140): a measured window has reached 65,536 cycles without an event, and the lease shrinks. -/
def execLeaseWindowExpiry (c : CrewId) (s : State) : Out :=
  match s.crew? c with
  | none => .next s
  | some w =>
    if !w.measured || w.window < 65536 then .next s
    else
      let k := s.coreOf c.launch c.team
      let l := min (max (w.lease - w.lease / 8) w.lines.length) (carveLines (s.core k).carve)
      let s := s.setCrew { w with
        lease := l
        window := 0
        lines := [] }
      let s := if w.active && decide (w.lease < l) then s.grow k c else s
      .next (if l = w.lease then s else s.triggerDecision k)

end Sys2Proof.Machine
end

