-- ==== Sys2Proof/Machine/Traps.lean ====
section
/-! DEFINITION. The events of traps: CREWDIV (R125, R158), the taking of a deferred trap (R269 to R272), the kill of a launch (R273) and
the end of a permit back-off (R276). -/

namespace Sys2Proof.Machine

/-! ## Crews that cannot progress -/

/-- The members that R125 and R158 judge: the group while a trap is being handled, else every live member (R272). -/
def State.judged (s : State) (c : CrewId) : List Thread :=
  let ms := s.liveMembers c
  let handling := ms.any (fun t => t.inHandler)
  ms.filter (fun t => !handling || t.inHandler)

/-- The waiting members of a crew that cannot progress, with TRAPINFO (R125, R158); none while it can. TRAPINFO[4:0] has no room for 32
addresses: their number counts mod 32. DESIGN CHOICE (log entry 15). -/
def State.crewdiv (s : State) (c : CrewId) : Option (List Thread × Nat) :=
  let ms := s.judged c
  let waiting := ms.filter (fun t => t.phase == .waiting)
  let places := (waiting.map (fun t => t.pc)).dedup.length
  let held := ms.any (fun t => t.phase == .held)
  if waiting.isEmpty || !ms.all (fun t => t.phase == .waiting || t.phase == .held || t.phase.blocked) then none
  else if held then some (waiting, places % 32 + 32)
  else if 2 ≤ places then some (waiting, places % 32)
  else none

/-- CREWDIV_DETECT (R125, R158): the waiting members of a crew that cannot progress fault together. -/
def execCrewdivDetect (c : CrewId) (s : State) : Out :=
  match if s.isSwapped c.launch c.team then none else s.crewdiv c with
  | none => .next s
  | some (ts, info) =>
    let no := s.nextId
    .next (ts.foldl (fun s t =>
      if t.inHandler then s.trapThread t.id 0x11 info 0 t.pc t.pc
      else s.modThread t.id (fun x => { x.trap 0x11 info 0 t.pc t.pc s.cycle with divNo := no })) s.fresh)

/-- TRAP_TAKEN (R268 to R272): the crew takes its deferred trap once every live member is stopped and the group's replies have
arrived. -/
def execTrapTaken (c : CrewId) (s : State) : Out :=
  .next (if s.trapReady c && ((s.team? c.launch c.team).map (fun t => t.st == .resident)).getD false then s.takeTrap c else s)

/-! ## Kills -/

/-- A thread that a kill stops (R273): its pending results are discarded. -/
def Thread.stop (t : Thread) (now : Nat) : Thread :=
  { t.enter .exited now with queue := [], watch := none, inHandler := false }

/-- What of a killed launch's requests is given up: those of which nothing but a result is left. -/
def Request.givenUp (r : Request) (l : Nat) : Bool :=
  r.t.launch == l && (match r.kind with
    | .load _ _ _ _ _ => true
    | .ldu _ _ _ _ _ => true
    | .lduAgain _ _ _ _ _ => true
    | .work => true
    | .steal _ _ => true
    | .launch _ _ _ _ => true
    | _ => false)

/-- An operation of the streamer or the Skiver that is stalled on a record: a save and a kill abandon it (R273, R283). -/
def EngineOp.abandoned (e : EngineOp) : Bool :=
  (match e.st with
   | .stalled r => r != 0
   | _ => false) &&
  (match e.kind with
   | .copy _ _ _ _ _ => true
   | .djob _ _ _ => true
   | _ => false)

/-- Another launch whose threads share a segment key. -/
def State.sharer (s : State) (l vf coid : Nat) : Option Nat :=
  (s.launches.find? (fun x => x.id != l && x.vf == vf && x.image.coid == coid)).map (fun x => x.id)

/-- A request whose asker goes: a settle request passes to another thread that stands in the segment, of those that `p` picks. -/
def State.inherit (s : State) (k : CoreId) (p : ThreadId → Bool) (r : LacerReq) : Option LacerReq :=
  if r.req ≠ 0 ∨ r.token then none
  else (s.threads.find? (fun t => p t.id && s.standsIn t k r.vf r.coid r.seg)).map (fun t =>
    { r with launch := t.id.launch, team := t.id.team, thread := t.id })

/-- The Lacer's work for a launch that is killed: its requests go, and what other launches share is theirs. -/
def State.leaveLacer (s : State) (l : Nat) : State :=
  s.cores.foldl (fun s c =>
    (s.setCore { s.core c.id with
        lacerW := c.lacerW.filter (fun w => w.launch != l)
        segs := c.segs.map (fun e =>
          if e.st == .loading && e.launch == l then
            (match s.sharer l e.vf e.coid with
             | some x => { e with launch := x }
             | none => { e with st := .absent, frames := [], words := [], pins := [], frec := none })
          else e) }).requeueLacer c.id
      (c.lacerQ.filterMap (fun r => if r.launch != l then some r else s.inherit c.id (fun t => t.launch != l) r))) s

/-- A placed team of a killed launch, not yet retired, ends with the time of the kill (R273); its tokens are released (R106). -/
def State.killTeam (s : State) (l now : Nat) (t : Team) : State :=
  if t.st == .pending || t.st == .retired then s
  else
    let s := s.setTeam { t with exitTime := now, stalls := s.stallSums l t.idx, tokens := [], image := none, late := [] }
    if t.on t.core then s.lacerStir t.core (launchVf l) else s

/-- The operations of a killed launch that are stalled on a record, or would have begun again after a restore, are given up (R273). -/
def State.dropEngines (s : State) (l : Nat) : State :=
  let gone := s.engines.filter (fun e => e.t.launch == l && (e.abandoned || e.st == .reissue))
  gone.foldl (fun s e => s.freeHatch e.no) { s with engines := s.engines.filter (fun e => !gone.contains e) }

/-- The teams of a launch that have nothing left to wait for retire. -/
def State.retireTeams (s : State) (l : Nat) : State :=
  ((s.teams.filter (fun t => t.launch == l && t.st != .pending)).foldl (fun s t => s.tryRetire l t.idx) s).stir

/-- The kill of a launch has its permit: every thread of it stops (R273). -/
def State.stopLaunch (s : State) (x : Launch) : State :=
  let l := x.id
  let now := (s.vfTime x.vf).toNat
  let s := (s.teams.filter (fun t => t.launch == l)).foldl (fun s t => s.killTeam l now t) s
  let s := s.mapThreads (fun t => if t.id.launch == l && t.live then t.stop s.cycle else t)
  let s := { s with
    requests := s.requests.filter (fun r => !r.givenUp l)
    replies := s.replies.filter (fun r => r.t.launch != l)
    slots := s.slots.filter (fun y => y.owner.launch != l) }
  let s := ((s.leaveLacer l).dropEngines l).setLaunch { x with killed := true, endTime := now }
  ((s.crews.filter (fun c => c.id.launch == l)).foldl (fun s c => s.crewLeave c.id) s).retireTeams l

/-- LAUNCH_KILL (R273, R276): a launch that is to be killed stops once a permit of the core where the kill arose is free; what of its
operations stalls on a record after that is given up too. -/
def execLaunchKill (l : Nat) (s : State) : Out :=
  match s.launch? l with
  | none => .next s
  | some x =>
    match x.kill with
    | none => .next s
    | some (_, k) =>
      if x.killed then .next (if s.engines.any (fun e => e.t.launch == l && e.abandoned) then (s.dropEngines l).retireTeams l else s)
      else if 24 ≤ k.die then .next (s.stopLaunch x)
      else if s.permitFree k then .next ((s.takePermit k).stopLaunch x)
      else .next s

/-! ## Back-off -/

/-- PERMIT_BACKOFF_EXPIRY (R276): a back-off is over and the thread issues its word again from its beginning. -/
def execPermitBackoffExpiry (t : ThreadId) (s : State) : Out :=
  match s.thread? t with
  | none => .next s
  | some x =>
    match x.phase with
    | .backoff wake => .next (if wake ≤ s.cycle then s.modThread t (fun y => { y with phase := .ready }) else s)
    | _ => .next s

end Sys2Proof.Machine
end

