-- ==== Sys2Proof/Machine/Faults.lean ====
section
/-! DEFINITION. Demand paging: the end of a walk (R77, R178), the writing of fault records (R277, R278, R280), RESUME (R279), and
the registers FQHEAD and INVALVA. -/

namespace Sys2Proof.Machine

/-! ## Walks -/

/-- The thread that started a walk finds no permit: it backs off from its word (R276). -/
def State.backOffStarter (s : State) (t : ThreadId) : State :=
  s.modThread t (fun x => match x.phase with
    | .walking _ => x.backOff s.cycle
    | _ => x)

/-- Whether a thread that waits for a walk to an address waits for this one (R178). -/
def State.onWalk (s : State) (w : Walk) (t : ThreadId) (va : Nat) : Bool :=
  (s.coreOf t.launch t.team).die == w.die && launchVf t.launch == w.vf && va / 4096 == w.va / 4096

/-- Every thread that waits for a walk parks under the record it has ended in (R77, R178). -/
def State.parkWalkers (s : State) (w : Walk) (rid : Nat) : State :=
  let ts := s.threads.filter (fun t => match t.phase with
    | .walking va => s.onWalk w t.id va
    | _ => false)
  let s := ts.foldl (fun s t => s.modThread t.id (fun x => match x.phase with
    | .walking va => { x.enter (.pageParked rid) s.cycle with parkClock := s.clock.toNat, parkVa := va }
    | _ => x)) s
  (ts.map (fun t => crewOf t.id)).dedup.foldl (fun s c => s.meetRelease c) s

/-- A walk has read its entries: it fills the TLBs and sets A and D, or its waiters park on a record of the invalid leaf, or, where no permit
is free, its starter waits and the others try again (R177, R178, R276). -/
def State.walkDone (s : State) (w : Walk) (v : Vf) : State :=
  match s.walk v w.va with
  | .leaf va size pa e ptes =>
    let x := leafEntry v.id va size pa e
    let set := w.setD && x.w && (x.host || s.validPa (pa + (w.va - va)))
    (((s.markPtes w.die set ptes).fillTlb w.core { x with d := x.d || set }).wakeWalks (s.onWalk w)).stir
  | .fault level =>
    match s.pendingRec w.die v.id w.va with
    | some r => (s.parkWalkers w r.rid).stir
    | none =>
      if s.permitFree w.core then
        let s := s.modThread w.starter (fun x => { x with backoffLen := 64 })
        let rid := s.nextId
        (((s.takePermit w.core).addRecord v.id w.va w.starter w.kind level w.core).parkWalkers w rid).stir
      else ((s.backOffStarter w.starter).wakeWalks (s.onWalk w)).stir

/-- PAGE_WALK_COMPLETE (R77, R177, R178, R276, R278, R297): a walk that can read its entries ends with a leaf, whose A and D are set and
which the TLBs take, or with one fault record: one that is pending for the page, else a new one. -/
def execPageWalkComplete (walk : Nat) (s : State) : Out :=
  match s.walks.find? (fun w => w.id == walk) with
  | none => .next s
  | some w =>
    let back := s
    let s := { s with walks := s.walks.filter (fun x => x.id != walk) }
    match s.vf? w.vf with
    | none => .next (s.wakeWalks (s.onWalk w)).stir
    | some v =>
      let s := s.flushWalk v w.va
      .next (if s.mayWalk w.die v w.va then (s.walked w.die v w.va).walkDone w v else back)

/-! ## The settling of a record -/

/-- How a record ends its waiters: RESUME with retry, RESUME with fail, or no record could be written (R279, R280). -/
inductive Settle where
  | retry | fail | unwritten
  deriving DecidableEq, Repr

/-- The trap of a thread that a record fails: PAGE at the address of its access, or RECORD (R267, R279, R280). -/
def State.failThread (s : State) (r : FRec) (how : Settle) (t : Thread) (va : Nat) : State :=
  match how with
  | .retry => s
  | .fail => s.trapThread t.id 0x07 (r.level + 16 * r.kind) (BitVec.ofNat 64 va) t.pc t.pc
  | .unwritten => s.trapThread t.id 0x12 r.kind (BitVec.ofNat 64 r.va) t.pc t.pc

/-- Threads parked for a page fault (R279): the access that has faulted is not judged by step 2 of R77 again, any other of its word is
(R290). -/
def State.settleParked (s : State) (r : FRec) (how : Settle) : State :=
  (s.threads.filter (fun t => t.phase == .pageParked r.rid)).foldl (fun s t =>
    if how = .retry then s.modThread t.id (fun x => { x with phase := .ready, debugPass := t.parkVa :: x.debugPass })
    else s.failThread r how t t.parkVa) s

/-- A debug-stopped thread (R275, R279). -/
def State.settleStopped (s : State) (r : FRec) (how : Settle) : State :=
  (s.threads.filter (fun t => t.phase == .debugStopped r.rid)).foldl (fun s t =>
    match how with
    | .retry => s.modThread t.id (fun x => { x with phase := .ready, debugPass := r.va :: x.debugPass })
    | .fail =>
      if r.stop.1 = 0x10 then s.trapThread t.id 0x10 0 0 t.pc (t.pc + 4)
      else s.trapThread t.id r.stop.1 r.stop.2 (BitVec.ofNat 64 r.va) t.pc t.pc
    | .unwritten => s.failThread r how t 0) s

/-- The EPROT end of an engine operation whose record is failed (R217, R222, R261, R279). -/
def State.failEng (s : State) (e : EngineOp) : State :=
  match e.kind with
  | .copy multi _ w rec sk =>
    s.finishEng e (copyStatus 0x55 (if multi || blkDir w == 0 || rec.isNone then 1 else 2)
      (sk.getD (if multi then s.skipMask e.t w else 0)))
  | .recfl _ => s
  | .dprog _ _ _ => s
  | .djob j x none => s.stopJob e j x 6
  | .djob _ _ (some _) => s.finishEng e (statusOf 0x61 2)
  | .task r _ _ =>
    let sat := ((s.chain? e.t.launch e.t.team r.chain).map (fun c => c.sat)).getD false
    match e.tile with
    | some t => s.readyAdd e t (taskStatus e 0x85 1 sat true)
    | none => s.endTask e (taskStatus e 0x85 1 sat true)

/-- Engine operations stalled on a record (R279): one that goes on tries again as if it had waited for a permit. -/
def State.settleEngines (s : State) (r : FRec) (how : Settle) : State :=
  (s.engines.filter (fun e => e.st == .stalled r.rid)).foldl (fun s e =>
    if how = .retry then s.setEng { e with st := .stalled 0 } else s.failEng e) s

/-- A CLOAD stalled on a record (R230, R279). -/
def State.settleLoads (s : State) (r : FRec) (how : Settle) : State :=
  s.slots.foldl (fun s x => match x.run, x.ops.head? with
    | none, some (.load req a c got rid) =>
      if rid == some r.rid then
        (if how = .retry then s.keepLoad x req a c got none else s.endLoad x req got 0x73 1 0)
      else s
    | _, _ => s) s

/-- A LAUNCH's copy stalled on a record (R279, R291). -/
def State.settleCopies (s : State) (r : FRec) (how : Settle) : State :=
  s.requests.foldl (fun s x => match x.kind with
    | .launch q a got rid =>
      if rid == r.rid then
        (if how = .retry then
          { s with requests := s.requests.map (fun y => if y.id == x.id then { y with kind := .launch q a got 0 } else y) }
         else (s.dropReq x.id).reply x.id x.t [statusOf 0x93 (if got.isNone then 1 else 2)])
      else s
    | _ => s) s

/-- A bundle load that a restore has begun again and that is stalled on a record (R279, R280, R290): it tries again, or ends in the trap
of its word once its team stands on a core. -/
def State.settleAgain (s : State) (r : FRec) (how : Settle) : State :=
  { s with requests := s.requests.map (fun (x : Request) => match x.kind with
      | .lduAgain ea pc pass rid none =>
        if rid == r.rid then { x with kind := .lduAgain ea pc pass 0 (match how with
          | .retry => none
          | .fail => some (if r.kind = 5 then (r.stop.1, r.stop.2, r.va) else (0x07, r.level + 16 * r.kind, pass.headD r.va))
          | .unwritten => some (0x12, r.kind, r.va)) } else x
      | _ => x) }

/-- Lacer loads stalled on a record (R107, R108, R110, R279, R280). -/
def State.settleLacer (s : State) (r : FRec) (how : Settle) : State :=
  s.cores.foldl (fun s c => c.segs.foldl (fun s e =>
    if e.frec != some r.rid then s
    else match how with
      | .retry => s.modSeg c.id e.vf e.coid e.seg (fun x => { x with frec := none })
      | .fail => s.abandonLoad c.id e (fun s t => s.failThread r how t r.va) 0x34 1 0x07
      | .unwritten => s.abandonLoad c.id e (fun s t => s.failThread r how t r.va) 0x34 2 0x12) s) s

/-- The front end waiting on a record (R347): an access goes on, or has failed with the detail of a kill. -/
def State.settleFront (s : State) (r : FRec) (how : Settle) : State :=
  let failed : Option (Nat × Nat) := match how with
    | .retry => none
    | .fail => some (r.va, 0x07)
    | .unwritten => some (r.va, 0x12)
  { s with
    vfs := s.vfs.map (fun v => { v with queues := v.queues.map (fun q =>
      if q.wait == some r.rid then { q with wait := none, fail := failed } else q) })
    launches := s.launches.map (fun l =>
      if l.wait == some r.rid then { l with wait := none, out := if failed.isSome then l.out.drop 1 else l.out } else l)
    intervals := s.intervals.map (fun i =>
      if i.wait == some r.rid then { i with wait := none, signals := if failed.isSome then i.signals.drop 1 else i.signals }
      else i) }

/-- The thread of a BARSPILL record that cannot be written (R280). -/
def State.settleSpill (s : State) (r : FRec) (how : Settle) : State :=
  if r.kind = 6 ∧ r.stop ≠ (0, 0) ∧ how = .unwritten then
    match s.thread? ⟨r.launch, r.team, r.thread⟩ with
    | some t => if t.live then s.failThread r how t 0 else s
    | none => s
  else s

/-- A record is settled: all its waiters go on or end, and it is pending no more (R279, R280). -/
def State.settle (s : State) (r : FRec) (how : Settle) : State :=
  let s := { s with records := s.records.filter (fun x => x.rid != r.rid) }
  let s := match r.seq, r.core with
    | none, some k => s.freePermit k
    | _, _ => s
  let s := ((s.settleParked r how).settleStopped r how).settleEngines r how
  let s := ((s.settleLoads r how).settleCopies r how).settleLacer r how
  (((s.settleFront r how).settleAgain r how).settleSpill r how).stir

/-! ## Records -/

/-- The bytes of a fault record (R278). -/
def FRec.bytes (r : FRec) (seq : Nat) : List Byte :=
  bytesOf 8 r.va ++ bytesOf 8 r.launch ++ bytesOf 4 r.team ++ bytesOf 2 r.thread ++ bytesOf 1 r.kind ++ bytesOf 1 r.level ++
    bytesOf 4 r.time ++ bytesOf 4 seq

/-- Whether a VF's fault queue is enabled (R277). -/
def Vf.faultsOn (v : Vf) : Bool := decide (1 ≤ v.fqlog ∧ v.fqlog ≤ 16)

/-- A record has been written to its slot: FQTAIL and the record count move, its permit is free, the interrupt and the trace record
follow (R276 to R278, R305, R326). A BARSPILL whose barrier is in place by now is pending no more. -/
def State.recordWritten (s : State) (v : Vf) (r : FRec) : State :=
  let n := (v.seqNo + 1) % 2 ^ 32
  let s := match s.vf? v.id with
    | none => s
    | some w => s.setVf { w with fqtail := w.fqtail + 1, seqNo := n }
  let gone (x : FRec) : Bool := x.rid == r.rid && r.kind == 6 && r.stop == (0, 0)
  let s := { s with records := s.records.filterMap (fun (x : FRec) =>
    if gone x then none else some (if x.rid == r.rid then { x with seq := some n } else x)) }
  let s := match r.core with
    | some k => s.freePermit k
    | none => s
  (s.interrupt v.id).trace 4 ((r.core.map (fun (k : CoreId) => k.die)).getD 0) r.launch r.team r.thread

/-- FAULT_RECORD_WRITE (R276 to R278, R280): the oldest record of a VF that is not written yet is written where its queue has room;
where it cannot be written at all its waiters end. -/
def execFaultRecordWrite (vf : Nat) (s : State) : Out :=
  match s.vf? vf, s.records.find? (fun r => r.vf == vf && r.seq.isNone) with
  | some v, some r =>
    if !v.faultsOn then .next (s.settle r .unwritten)
    else if (v.fqtail - v.fqhead).toNat ≥ 2 ^ v.fqlog then .next s
    else
      match s.partWrite v 0 (v.fqbase + 32 * (v.fqtail.toNat % 2 ^ v.fqlog)) 4 (r.bytes ((v.seqNo + 1) % 2 ^ 32)) with
      | .ok s _ => .next (s.recordWritten v r)
      | .fault s _ _ => .next (s.settle r .unwritten)
      | .deny s => .next (s.settle r .unwritten)
      | .wait s => .next s
  | _, _ => .next s

/-! ## What the host writes -/

/-- A master writes a VF's device memory, a queue TAIL or RESUME: the VF's launches cannot be rolled back any more (R331). -/
def State.masterTouch (s : State) (vf : Nat) : State :=
  { s with launches := s.launches.map (fun l => if l.vf == vf then { l with unrollable := true } else l) }

/-- RESUME (R277, R279): the host settles a pending record; any other write is ignored. -/
def execResume (vf : Nat) (v : DWord) (s : State) : Out :=
  let s := s.masterTouch vf
  let seq := v.toNat % 2 ^ 32
  match s.records.find? (fun r => r.vf == vf && r.seq == some seq) with
  | none => .next s
  | some r =>
    let how := v.toNat / 2 ^ 32 % 4
    .next (if how = 0 then s.settle r .retry else if how = 1 then s.settle r .fail else s)

/-- FQHEAD (R277, R280): the host has consumed records. -/
def execFqhead (vf : Nat) (v : Word) (s : State) : Out :=
  match s.vf? vf with
  | none => .next s
  | some x => .next (s.setVf { x with fqhead := v })

/-- Removes the translations that an INVALVA value names from a TLB (R178). -/
def dropTlb (vf va : Nat) (l : List TlbEntry) : List TlbEntry :=
  l.filter (fun e => !(e.vf == vf && (va == 0xFFFFFFFFFFFFFFFF || e.covers vf va)))

/-- The removal that an INVALVA write has started (R178). -/
def State.removeTlb (s : State) (v : Vf) : State :=
  match v.invalva with
  | none => s
  | some va => { s with
      cores := s.cores.map (fun c => { c with tlb := dropTlb v.id va c.tlb })
      dies := s.dies.map (fun d => { d with tlb := dropTlb v.id va d.tlb }) }

/-- INVALVA (R178): a removal starts; one still in progress is carried out first. -/
def execInvalva (vf : Nat) (va : DWord) (s : State) : Out :=
  match s.vf? vf with
  | none => .next s
  | some v => .next ((s.removeTlb v).setVf { v with invalva := some va.toNat })

/-- INVALVA_REMOVAL_COMPLETE (R178): no later access uses a removed translation, and INVALVA reads 0. -/
def execInvalvaRemovalComplete (vf : Nat) (s : State) : Out :=
  match s.vf? vf with
  | none => .next s
  | some v => .next ((s.removeTlb v).setVf { v with invalva := none })

end Sys2Proof.Machine
end

