-- ==== Sys2Proof/Machine/Flt.lean ====
section
/-! DEFINITION. The FLT words (major 2): R83 to R91. -/

namespace Sys2Proof.Machine

/-- An f32 word of shapes r, r, r. -/
def flt3 (sp : Bool) (d a b : Reg) (s : State) (f : BitVec 2 → Nat → Nat → FRes) : Out :=
  issue sp false [opD d, opA a, opB b] s (fun s =>
    let r := f s.cur.fpmode (s.cur.w a).toNat (s.cur.w b).toNat
    s.fpResult d r.word r.flags)

/-- An f32 word of shapes r, r, 0. -/
def flt2 (sp : Bool) (d a : Reg) (s : State) (f : BitVec 2 → Word → FRes) : Out :=
  issue sp false [opD d, opA a] s (fun s =>
    let r := f s.cur.fpmode (s.cur.w a)
    s.fpResult d r.word r.flags)

/-- An f32 comparison. -/
def fltCmp (sp : Bool) (d a b : Reg) (s : State) (rel : FVal → FVal → Bool) (quiet : Bool) : Out :=
  issue sp false [opD d, opA a, opB b] s (fun s =>
    let r := f32.compare rel quiet (s.cur.w a).toNat (s.cur.w b).toNat
    s.fpResult d [Word.ofBool r.1] r.2)

/-- An f64 word of shapes p, p, p; `rd` says that it reads D. -/
def dbl3 (rd sp : Bool) (d a b : Reg) (s : State) (f : BitVec 2 → Nat → Nat → Nat → FRes) : Out :=
  issue sp false [opX rd d 2, opA a 2, opB b 2] s (fun s =>
    let r := f s.cur.fpmode (s.cur.p d).toNat (s.cur.p a).toNat (s.cur.p b).toNat
    s.fpResult d r.pair r.flags)

/-- An f64 word of shapes p, p, 0. -/
def dbl2 (sp : Bool) (d a : Reg) (s : State) (f : BitVec 2 → Nat → FRes) : Out :=
  issue sp false [opD d 2, opA a 2] s (fun s =>
    let r := f s.cur.fpmode (s.cur.p a).toNat
    s.fpResult d r.pair r.flags)

/-- An f64 comparison. -/
def dblCmp (sp : Bool) (d a b : Reg) (s : State) (rel : FVal → FVal → Bool) (quiet : Bool) : Out :=
  issue sp false [opD d, opA a 2, opB b 2] s (fun s =>
    let r := f64.compare rel quiet (s.cur.p a).toNat (s.cur.p b).toNat
    s.fpResult d [Word.ofBool r.1] r.2)

/-- A packed word of shapes r, r, r; `rd` says that it reads D. -/
def flt2x (rd sp : Bool) (d a b : Reg) (s : State) (f : BitVec 2 → Nat → Nat → Nat → FRes) : Out :=
  issue sp false [opX rd d, opA a, opB b] s (fun s =>
    let r := packed (f s.cur.fpmode) (s.cur.w d) (s.cur.w a) (s.cur.w b)
    s.fpResult d [r.1] r.2)

/-- The relations of R89. -/
def FVal.le (a b : FVal) : Bool := a.lt b || a.eq b
def FVal.unordered (a b : FVal) : Bool := a.isNan || b.isNan

/-- 1.0 as an f32. -/
def oneF32 : Nat := 0x3F800000

/-- FADD (R85). -/
def execFadd (sp : Bool) (d a b : Reg) (s : State) : Out := flt3 sp d a b s f32.add

/-- FSUB (R85). -/
def execFsub (sp : Bool) (d a b : Reg) (s : State) : Out := flt3 sp d a b s f32.sub

/-- FMUL (R85). -/
def execFmul (sp : Bool) (d a b : Reg) (s : State) : Out := flt3 sp d a b s f32.mul

/-- FMA (R85): d + a × b. -/
def execFma (sp : Bool) (d a b : Reg) (s : State) : Out :=
  issue sp false [opR d, opA a, opB b] s (fun s =>
    let r := f32.fma s.cur.fpmode (s.cur.w d).toNat (s.cur.w a).toNat (s.cur.w b).toNat
    s.fpResult d r.word r.flags)

/-- FMIN (R87). -/
def execFmin (sp : Bool) (d a b : Reg) (s : State) : Out := flt3 sp d a b s (fun _ a b => f32.minMax false a b)

/-- FMAX (R87). -/
def execFmax (sp : Bool) (d a b : Reg) (s : State) : Out := flt3 sp d a b s (fun _ a b => f32.minMax true a b)

/-- FDIV (R85). -/
def execFdiv (sp : Bool) (d a b : Reg) (s : State) : Out := flt3 sp d a b s f32.div

/-- FSQRT (R85, R86). -/
def execFsqrt (sp : Bool) (d a : Reg) (s : State) : Out := flt2 sp d a s (fun rm a => f32.sqrt rm a.toNat)

/-- FRCP (R85, R86). -/
def execFrcp (sp : Bool) (d a : Reg) (s : State) : Out := flt2 sp d a s (fun rm a => f32.div rm oneF32 a.toNat)

/-- FRSQ (R85, R86). -/
def execFrsq (sp : Bool) (d a : Reg) (s : State) : Out := flt2 sp d a s (fun rm a => f32.rsqrt rm a.toNat)

/-- FEXP2 (R85, R86). -/
def execFexp2 (sp : Bool) (d a : Reg) (s : State) : Out := flt2 sp d a s exp2F32

/-- FLOG2 (R85, R86). -/
def execFlog2 (sp : Bool) (d a : Reg) (s : State) : Out := flt2 sp d a s log2F32

/-- FABS (R85). -/
def execFabs (sp : Bool) (d a : Reg) (s : State) : Out := flt2 sp d a s (fun _ a => signOp a (a &&& 0x7FFFFFFF))

/-- FNEG (R85). -/
def execFneg (sp : Bool) (d a : Reg) (s : State) : Out := flt2 sp d a s (fun _ a => signOp a (a ^^^ 0x80000000))

/-- FRINT (R85). -/
def execFrint (sp : Bool) (d a : Reg) (s : State) : Out := flt2 sp d a s (fun rm a => f32.rint rm a.toNat)

/-- FCLASS (R88). -/
def execFclass (sp : Bool) (d a : Reg) (s : State) : Out := flt2 sp d a s (fun _ a => ⟨(classF32 a).toNat, 0⟩)

/-- FSETEQ (R89). -/
def execFseteq (sp : Bool) (d a b : Reg) (s : State) : Out := fltCmp sp d a b s FVal.eq true

/-- FSETLT (R89). -/
def execFsetlt (sp : Bool) (d a b : Reg) (s : State) : Out := fltCmp sp d a b s FVal.lt false

/-- FSETLE (R89). -/
def execFsetle (sp : Bool) (d a b : Reg) (s : State) : Out := fltCmp sp d a b s FVal.le false

/-- FSETUN (R89). -/
def execFsetun (sp : Bool) (d a b : Reg) (s : State) : Out := fltCmp sp d a b s FVal.unordered true

/-- DADD (R90). -/
def execDadd (sp : Bool) (d a b : Reg) (s : State) : Out := dbl3 false sp d a b s (fun rm _ a b => f64.add rm a b)

/-- DSUB (R90). -/
def execDsub (sp : Bool) (d a b : Reg) (s : State) : Out := dbl3 false sp d a b s (fun rm _ a b => f64.sub rm a b)

/-- DMUL (R90). -/
def execDmul (sp : Bool) (d a b : Reg) (s : State) : Out := dbl3 false sp d a b s (fun rm _ a b => f64.mul rm a b)

/-- DFMA (R90). -/
def execDfma (sp : Bool) (d a b : Reg) (s : State) : Out := dbl3 true sp d a b s f64.fma

/-- DMIN (R87, R90). -/
def execDmin (sp : Bool) (d a b : Reg) (s : State) : Out := dbl3 false sp d a b s (fun _ _ a b => f64.minMax false a b)

/-- DMAX (R87, R90). -/
def execDmax (sp : Bool) (d a b : Reg) (s : State) : Out := dbl3 false sp d a b s (fun _ _ a b => f64.minMax true a b)

/-- DDIV (R90). -/
def execDdiv (sp : Bool) (d a b : Reg) (s : State) : Out := dbl3 false sp d a b s (fun rm _ a b => f64.div rm a b)

/-- DSQRT (R90). -/
def execDsqrt (sp : Bool) (d a : Reg) (s : State) : Out := dbl2 sp d a s f64.sqrt

/-- DRINT (R90). -/
def execDrint (sp : Bool) (d a : Reg) (s : State) : Out := dbl2 sp d a s f64.rint

/-- DSETEQ (R89). -/
def execDseteq (sp : Bool) (d a b : Reg) (s : State) : Out := dblCmp sp d a b s FVal.eq true

/-- DSETLT (R89). -/
def execDsetlt (sp : Bool) (d a b : Reg) (s : State) : Out := dblCmp sp d a b s FVal.lt false

/-- DSETLE (R89). -/
def execDsetle (sp : Bool) (d a b : Reg) (s : State) : Out := dblCmp sp d a b s FVal.le false

/-- HADD2 (R91). -/
def execHadd2 (sp : Bool) (d a b : Reg) (s : State) : Out := flt2x false sp d a b s (fun rm _ a b => f16.add rm a b)

/-- HMUL2 (R91). -/
def execHmul2 (sp : Bool) (d a b : Reg) (s : State) : Out := flt2x false sp d a b s (fun rm _ a b => f16.mul rm a b)

/-- HFMA2 (R91). -/
def execHfma2 (sp : Bool) (d a b : Reg) (s : State) : Out := flt2x true sp d a b s f16.fma

/-- BADD2 (R91). -/
def execBadd2 (sp : Bool) (d a b : Reg) (s : State) : Out := flt2x false sp d a b s (fun rm _ a b => bf16.add rm a b)

/-- BMUL2 (R91). -/
def execBmul2 (sp : Bool) (d a b : Reg) (s : State) : Out := flt2x false sp d a b s (fun rm _ a b => bf16.mul rm a b)

/-- BFMA2 (R91). -/
def execBfma2 (sp : Bool) (d a b : Reg) (s : State) : Out := flt2x true sp d a b s bf16.fma

end Sys2Proof.Machine
end

