-- ==== Sys2Proof/Machine/LaunchEnd.lean ====
section
/-! DEFINITION. LAUNCH_END: the steps at a launch's end (R130, R143, R347), with the report lists (R319 to R323). -/

namespace Sys2Proof.Machine

/-! ## The report -/

/-- An exit record (R130). -/
def Team.exitRecord (t : Team) : List Byte :=
  bytesOf 4 t.idx ++ bytesOf 1 t.core.die ++ bytesOf 1 t.core.core ++ bytesOf 2 (min t.swaps 0xFFFF) ++ bytesOf 8 t.exitTime ++
    (List.range 16).flatMap (fun i => bytesOf 4 (t.stalls.getD i 0))

/-- The teams of a launch that were placed, in index order. -/
def State.placedTeams (s : State) (l : Launch) : List Team :=
  (s.teams.filter (fun t => t.launch == l.id && t.st != .pending)).insertionSort (fun a b => a.idx ≤ b.idx)

/-- Whether a team's exit record fits the report (R130). -/
def Packet.recordFits (p : Packet) (t : Nat) : Bool := decide (64 + 80 * t + 80 ≤ p.repLen)

/-- The exit records that are written. -/
def State.exitRecords (s : State) (l : Launch) : List (Nat × List Byte) :=
  ((s.placedTeams l).filter (fun t => l.packet.recordFits t.idx)).map (fun t =>
    (l.packet.repAddr + 64 + 80 * t.idx, t.exitRecord))

/-- The report header at the end of a launch: +0 to +39, with the number of exit records that have been written (R130). Its start is
the time when the first team was placed; for a launch killed before that the spec gives none, and its end is taken. DESIGN CHOICE (log
entry 16). -/
def State.endHeader (s : State) (l : Launch) : List Byte :=
  headerBytes (if l.killed then 6 else 0) ((l.kill.map (fun k => k.1)).getD 0) l.id (l.start.getD l.endTime) l.endTime l.written
    ((s.placedTeams l).filter (fun t => !l.packet.recordFits t.idx)).length

/-- Whether a launch writes lists (R319). -/
def Packet.lists (p : Packet) : Bool := p.checked || p.impress

/-! ## The lists -/

/-- The ORDDEP entry of a counter, where it is listed (R320). -/
def Writer.entry (w : Writer) : Option (List Byte) :=
  if w.foreign || w.read || decide (2 ≤ w.count) then
    some (bytesOf 8 (w.line * 128) ++ bytesOf 4 w.first ++ bytesOf 4 (w.second.getD 0xFFFFFFFF) ++ bytesOf 1 w.count ++
      bytesOf 1 ((if w.read then 1 else 0) + (if w.foreign then 2 else 0)) ++ bytesOf 6 0)
  else none

/-- The ORDDEP list, in increasing physical address. -/
def Launch.orddep (l : Launch) : List (List Byte) :=
  (l.writers.insertionSort (fun a b => a.line ≤ b.line)).filterMap Writer.entry

/-- The violation list (R321). -/
def Launch.violationList (l : Launch) : List (List Byte) :=
  l.violations.map (fun v => bytesOf 8 v.1 ++ bytesOf 4 v.2.1 ++ bytesOf 2 v.2.2 ++ [1, 0])

/-- The leaves of a VF's table below a table at a level: first virtual byte, level, entry (R322). -/
def State.leaves (s : State) (v : Vf) : Nat → Nat → Nat → List (Nat × Nat × Nat)
  | level, t, va =>
    (List.range 512).flatMap (fun i =>
      let e := s.pte (t + 8 * i)
      let a := va + i * leafSize level
      if !pteBit e 0 || e / 2 ^ 60 != 0 then []
      else if pteBit e 1 then (if leafOk v level e then [(a, level, e)] else [])
      else match level with
        | 0 => []
        | l + 1 => if s.tableOk (ptePa e) then s.leaves v l (ptePa e) a else [])

/-- The hash of a granule: the fold of R233 over its words with st = 0 (R322). -/
def State.granuleHash (s : State) (pa : Nat) : Word × Word :=
  ((List.range 1024).map (fun i => BitVec.ofNat 32 (natOf (s.mem.getN (s.memKey false (pa + 4 * i)) 4)))).foldl
    (fun (r : Word × Word) w => foldSig r.1 r.2 w 0) (sigH0, sigL0)

/-- Whether a leaf is hashed: D set, no HOST page, no pod window, and its page clear of the report buffer (R322). -/
def State.hashed (s : State) (v : Vf) (p : Packet) (x : Nat × Nat × Nat) : Bool :=
  pteBit x.2.2 10 && !pteBit x.2.2 11 && ptePa x.2.2 / 2 ^ 48 != 2 &&
    (match s.walk v x.1 with
     | .leaf va size _ _ _ => !overlaps va size p.repAddr p.repLen
     | .fault _ => false)

/-- The impression list, in increasing virtual address (R322, R323). -/
def State.impressions (s : State) (v : Vf) (p : Packet) : List (List Byte) :=
  if !s.tableOk v.ptroot then []
  else ((s.leaves v 3 v.ptroot 0).filter (s.hashed v p)).flatMap (fun x =>
    (List.range (leafSize x.2.1 / 4096)).map (fun i =>
      let h := s.granuleHash (ptePa x.2.2 + 4096 * i)
      bytesOf 8 (x.1 + 4096 * i) ++ bytesOf 4 h.2.toNat ++ bytesOf 4 h.1.toNat))

/-- The entries of a list that fit a report of `n` bytes from an offset on, with their offsets, and how many do not. -/
def fitList (n : Nat) : Nat → List (List Byte) → List (Nat × List Byte) × Nat
  | _, [] => ([], 0)
  | at_, e :: es =>
    if at_ + e.length ≤ n then
      let r := fitList n (at_ + e.length) es
      ((at_, e) :: r.1, r.2)
    else ([], es.length + 1)

/-- The end of a list's written entries. -/
def listEnd (at_ : Nat) (r : List (Nat × List Byte)) : Nat := at_ + (r.map (fun x => x.2.length)).foldl (· + ·) 0

/-- The lists of a launch, and the header's +40 to +63 last (R143, R319). -/
def State.listWrites (s : State) (v : Vf) (l : Launch) : List (Nat × List Byte) :=
  let p := l.packet
  let o := 64 + 80 * p.grid
  let a := fitList p.repLen o (if p.checked then l.orddep else [])
  let b := fitList p.repLen (listEnd o a.1) l.violationList
  let c := fitList p.repLen (listEnd (listEnd o a.1) b.1) (if p.impress then s.impressions v p else [])
  (a.1 ++ b.1 ++ c.1).map (fun x : Nat × List Byte => (p.repAddr + x.1, x.2)) ++
    [(p.repAddr + 40, bytesOf 4 a.1.length ++ bytesOf 4 b.1.length ++ bytesOf 4 c.1.length ++
      bytesOf 4 (a.2 + b.2 + c.2) ++ bytesOf 4 l.uncounted.length ++ bytesOf 4 0)]

/-! ## The steps -/

/-- The team counter stands at the grid size; a killed launch's teams that were placed have all retired (R143, R273). -/
def State.endReady (s : State) (l : Launch) : Bool :=
  (l.kill.isNone || l.killed) && s.teams.all (fun t => t.launch != l.id || t.st == .retired || (l.killed && t.st == .pending))

/-- Everything the launch has written goes to package scope (R143 step 3). -/
def State.writeBackAll (s : State) : State :=
  let s := s.cores.foldl (fun s c => s.l1CleanAll c.id) s
  s.dies.foldl (fun s d => s.sendAll d.id (fun line => !podLine line)) s

/-- No written-back byte is still on its way. -/
def State.allApplied (s : State) : Bool := !(s.welt.any (fun m => m.toHome))

/-- Moves a launch to a stage with the writes of it. -/
def State.toStage (s : State) (l : Launch) (n : Nat) (out : List (Nat × List Byte)) : State :=
  s.setLaunch { l with stage := n, out := out }

/-- The next write of a launch's end; an exit record that is written is counted (R130, R143, R347). -/
def State.endWrite (s : State) (v : Vf) (l : Launch) (w : Nat × List Byte) : State :=
  match s.partWrite v l.id w.1 (w.2.length + 1) w.2 with
  | .ok s _ => s.setLaunch { (s.launch? l.id).getD l with
      out := l.out.drop 1
      written := if l.stage = 2 then l.written + 1 else l.written }
  | .fault s va lv =>
    let r := s.nextId
    (s.frontRecord v.id l.id va 1 lv).setLaunch { (s.launch? l.id).getD l with
      out := (va, restFrom w.1 va w.2) :: l.out.drop 1
      wait := some r }
  | .deny s => s.setLaunch { (s.launch? l.id).getD l with out := l.out.drop 1 }
  | .wait s => s

/-- The signal of a launch: held while its interval is open, else the next write (R143 step 4, R331). -/
def State.signalStep (s : State) (l : Launch) : State :=
  let p := l.packet
  if p.sigAddr = 0 then s.toStage l 6 []
  else if s.intervals.any (fun i => i.units.any (fun u => u.2.2.contains l.id)) then
    State.toStage { s with intervals := s.intervals.map (fun i =>
      if i.units.any (fun u => u.2.2.contains l.id) then { i with signals := i.signals ++ [(l.q, l.id, p.sigAddr, p.sigVal)] }
      else i) } l 6 []
  else s.toStage l 6 [(p.sigAddr, bytesOf 8 p.sigVal)]

/-- Everything of a launch leaves the state. -/
def State.forget (s : State) (l : Nat) : State :=
  { s with
    others := s.others.filter (fun t => t.id.launch != l)
    crews := s.crews.filter (fun c => c.id.launch != l)
    teams := s.teams.filter (fun t => t.launch != l)
    slots := s.slots.filter (fun x => x.owner.launch != l)
    barriers := s.barriers.filter (fun b => b.launch != l)
    arrivals := s.arrivals.filter (fun a => a.launch != l)
    deliveries := s.deliveries.filter (fun d => d.launch != l)
    launches := s.launches.filter (fun x => x.id != l) }

/-- The launch has ended: its queue takes the chained packet or is free, its tags and counters go (R143 step 5, R314, R318,
R326). A queue whose launch runs is not servable in the sense of R131: the wait of its head begins here. DESIGN CHOICE (log entry 16). -/
def State.finishLaunch (s : State) (l : Launch) : State :=
  let chain := if l.killed || l.packet.chain == 0 then none else some l.packet.chain
  let s := (s.modQueue l.vf l.q (fun x => { x with busy := none, chain := chain, since := s.clock.toNat })).traceEvent 3 0 l.id
  let s := if chain.isNone then s.endUnit l.vf l.q else s
  s.forget l.id

/-- LAUNCH_END (R130, R143, R319, R331, R347): the next step of a launch's end. -/
def execLaunchEnd (l : Nat) (s : State) : Out :=
  match s.launch? l with
  | none => .next s
  | some x =>
    match s.vf? x.vf with
    | none => .next s
    | some v =>
      if x.wait.isSome then .next s
      else if x.stage < 2 then
        .next (if s.endReady x then s.toStage x 2 (s.exitRecords x) else s)
      else match x.out with
        | w :: _ => .next (s.endWrite v x w)
        | [] =>
          match x.stage with
          | 2 => .next (if x.held.isEmpty then
              s.toStage x 3 [(x.packet.repAddr, s.endHeader x)] else s)
          | 3 =>
            let s := s.writeBackAll
            .next (s.toStage ((s.launch? l).getD x) 4 [])
          | 4 => .next (if !s.allApplied then s
              else s.toStage x 5 (if x.packet.lists then s.listWrites v x else [(x.packet.repAddr + 40, bytesOf 24 0)]))
          | 5 =>
            let s := match x.kill with
              | some (_, k) => if x.killed && k.die < 24 then s.freePermit k else s
              | none => s
            .next (s.signalStep x)
          | _ => .next (s.finishLaunch x)

end Sys2Proof.Machine
end

