-- ==== Sys2Proof/Machine/HostOps.lean ====
section
/-! DEFINITION. What the two host masters do: queue tails (R126), semaphores (R306), frame quotas (R100), the dies and the contract of
a VF (R307, R311), its destruction (R309), and the writes of registers that only hold what is written (R334 and the register
tables). -/

namespace Sys2Proof.Machine

/-! ## Queues -/

/-- QUEUE_TAIL (R126, R131, R331): a master advances a queue's TAIL; the wait of a new head starts. -/
def execQueueTail (vf q : Nat) (x : Word) (s : State) : Out :=
  .next ((s.masterTouch vf).modQueue vf q (fun y =>
    { y with tail := x, since := if y.head = y.tail then s.clock.toNat else y.since }))

/-! ## Semaphores -/

/-- The semaphores after the write of a value to one of them by a master (R306). -/
def semWrite (sems : List Nat) (m i v : Nat) : List Nat :=
  let x := sems.getD i 0
  if v = m + 1 ∧ x = 0 then sems.set i (m + 1) else if v = 0 ∧ x = m + 1 then sems.set i 0 else sems

/-- A write of a semaphore takes place: its completion returns the register's value after it to its writer (R306). -/
def Mgmt.semWrite (g : Mgmt) (m i v : Nat) : Mgmt :=
  let sems := Sys2Proof.Machine.semWrite g.sems m i v
  { g with sems := sems, semAnswer := g.semAnswer.set m (sems.getD i 0) }

/-- The other master's write that reaches the block in the same cycle, the next of the agenda: semaphore and value. -/
def otherSem (m : Nat) : List Event → Option (Nat × Nat)
  | .semAcquire m' i :: _ => if m' = 1 - m then some (i, m' + 1) else none
  | .semRelease m' i :: _ => if m' = 1 - m then some (i, 0) else none
  | .registerWrite (.sem m' i) v :: _ => if m' = 1 - m then some (i, v.toNat % 2 ^ 32) else none
  | _ => none

/-- A write to the semaphore block; of two in one cycle the master that lost the last tie goes first, master 0 on the first
(R306). DESIGN CHOICE (log entry 28). -/
def State.semBlock (s : State) (m i v : Nat) : State :=
  if 2 ≤ m ∨ !s.mgmt.powered then s else
  let g := s.mgmt
  match otherSem m s.agenda with
  | none => { s with mgmt := g.semWrite m i v }
  | some o =>
    let first := g.semLoser.getD 0
    let g := if first = m then (g.semWrite m i v).semWrite (1 - m) o.1 o.2 else (g.semWrite (1 - m) o.1 o.2).semWrite m i v
    { s with agenda := s.agenda.drop 1, mgmt := { g with semLoser := some (1 - first) } }

/-- SEM_ACQUIRE (R306). -/
def execSemAcquire (m i : Nat) (s : State) : Out := .next (s.semBlock m i (m + 1))

/-- SEM_RELEASE (R306). -/
def execSemRelease (m i : Nat) (s : State) : Out := .next (s.semBlock m i 0)

/-! ## VFs -/

/-- FRAME_QUOTA (R100): a VF's quota on a core; a setting that would take the sum of the quotas beyond 64 is refused. DESIGN CHOICE (log entry 28). -/
def execFrameQuota (vf : Nat) (k : CoreId) (n : Nat) (s : State) : Out :=
  match s.vf? vf with
  | none => .next s
  | some v =>
    let others := ((s.vfs.filter (fun x => x.id != vf)).map (fun x => s.quota k x.id)).foldl (· + ·) 0
    if 64 < others + n || decide (24 ≤ k.die) || decide (52 ≤ k.core) then .next s
    else .next ((s.setVf { v with quotas := v.quotas.filter (fun x => x.1 != k) ++ [(k, n)] }).lacerStir k vf)

/-- Bits set in a word. -/
def popWord (x : Word) : Nat := ((List.range 32).filter (fun i => x.getLsbD i)).length

/-- The dies a VF may use, by FEATURE1[16:12] (R307). -/
def diesOf (f1 : Word) : Nat := (f1.extractLsb' 12 5).toNat + 1

/-- DIEMASK (R311): the dies of a VF, before it has had a launch accepted. DESIGN CHOICE (log entry 28). -/
def execDiemask (vf : Nat) (x : Word) (s : State) : Out :=
  match s.vf? vf with
  | none => .next s
  | some v =>
    if popWord x ≠ diesOf v.feature1 || x.toNat ≥ 2 ^ 24 || v.accepted ≠ 0 || v.restored || s.teams.any (fun t => launchVf t.launch == vf)
    then .next s else .next (s.setVf { v with diemask := x })

/-- A VF as it is created (R126, R173, R275, R277, R282, R289, R300, R304, R307, R309 to R311). DESIGN CHOICE (log entry 1). -/
def Vf.fresh (vf : Nat) (f0 f1 : Word) : Vf :=
  { id := vf, feature0 := f0, feature1 := f1, diemask := BitVec.ofNat 32 (2 ^ diesOf f1 - 1), share := 1, taken := 0, quotas := [],
    ptroot := 0, queues := List.replicate 16 Queue.fresh, fqbase := 0, fqlog := 0, fqhead := 0, fqtail := 0, seqNo := 0,
    savebase := 0, savestride := 0, saveslots := 0, preempt := 0, dbgctl := 0, watches := List.replicate 4 ⟨0, 0, 0⟩, eyecmd := 0,
    eyebuf := 0, eyeBusy := none, replicas := [], migctl := 0, lcount := 0, migepoch := 0, vclkoff := 0, migtime := 0, invalva := none,
    accepted := 0, restored := false, groups := [], adopted := [] }

/-- The device memory of the package in bytes (R332). -/
def State.packageBytes (s : State) : Nat := 24 * (Config.hbmPerDie - (s.mgmt.burnlog + 1) / 2 * 2 ^ 20)

/-- VF_CREATE (R307, R309, R311): a VF is created with its contract; bits the part lacks, and memory it cannot hold, are refused. DESIGN CHOICE (log entry 28). -/
def execVfCreate (vf : Nat) (f0 f1 : Word) (s : State) : Out :=
  if !s.mgmt.powered || decide (64 ≤ vf) || (s.vf? vf).isSome || decide (2 ^ 11 ≤ f0.toNat) || decide (2 ^ 17 ≤ f1.toNat) ||
      decide (24 < diesOf f1) || decide (s.packageBytes < f1.toNat % 2 ^ 12 * 2 ^ 30)
  then .next s else .next { s with vfs := s.vfs ++ [Vf.fresh vf f0 f1] }

/-- Everything of a VF's threads and launches leaves the state. -/
def State.forgetVf (s : State) (vf : Nat) : State :=
  let mine (l : Nat) : Bool := launchVf l == vf
  let s := (s.records.filter (fun r => r.vf == vf && r.seq.isNone)).foldl (fun s r => match r.core with
    | some k => s.freePermit k
    | none => s) s
  let s := (s.launches.filter (fun l => l.vf == vf)).foldl (fun s l => s.forget l.id) s
  { s with
    requests := s.requests.filter (fun r => !mine r.t.launch)
    replies := s.replies.filter (fun r => !mine r.t.launch)
    engines := s.engines.filter (fun e => e.vf != vf)
    chains := s.chains.filter (fun c => !mine c.launch)
    drains := s.drains.filter (fun d => !mine d.launch)
    barriers := s.barriers.filter (fun b => b.vf != vf)
    records := s.records.filter (fun r => r.vf != vf)
    walks := s.walks.filter (fun w => w.vf != vf)
    intervals := s.intervals.filter (fun i => i.vf != vf)
    consumed := s.consumed.filter (fun c => c.1 != vf)
    cores := s.cores.map (fun (c : Core) =>
      { c with
        segs := c.segs.map (fun e => if e.vf == vf then { e with st := .absent, frames := [], words := [], pins := [], frec := none } else e)
        lacerQ := c.lacerQ.filter (fun r => r.vf != vf)
        lacerW := c.lacerW.filter (fun w => w.vf != vf)
        hatch := c.hatch.filter (fun h => !mine h.launch)
        recs := c.recs.filter (fun r => r.vf != vf)
        tlb := c.tlb.filter (fun e => e.vf != vf) })
    dies := s.dies.map (fun (d : Die) => { d with tlb := d.tlb.filter (fun e => e.vf != vf) })
    vfs := s.vfs.filter (fun v => v.id != vf) }

/-- VF_DESTROY (R309). -/
def execVfDestroy (vf : Nat) (s : State) : Out :=
  .next (if (s.vf? vf).isSome then (s.forgetVf vf).stir else s)

/-! ## Registers -/

/-- Changes a VF's registers. -/
def State.modVf (s : State) (vf : Nat) (f : Vf → Vf) : State :=
  match s.vf? vf with
  | none => s
  | some v => s.setVf (f v)

/-- The fields of PODCFG and of LGROUP (R302, R304). -/
def podFields (v : DWord) : Word := BitVec.ofNat 32 (v.toNat % 64 + v.toNat / 2 ^ 16 % 64 * 2 ^ 16)
def groupFields (v : DWord) : DWord :=
  BitVec.ofNat 64 (v.toNat % 2 ^ 38 + v.toNat / 2 ^ 40 % 64 * 2 ^ 40)

/-- A queue becomes, or may become, servable: the wait of its head starts (R131). -/
def Queue.restart (x : Queue) (now : Nat) : Queue := { x with since := now }

/-- REGISTER_WRITE (R100, R126, R131, R173, R275, R277, R282, R289, R300, R302, R304, R306, R309, R325, R334, R335): the register takes
the value written, of its width; refused where its rule says so, and before the host links are calibrated. -/
def execRegisterWrite (r : HostReg) (v : DWord) (s : State) : Out :=
  let n := v.toNat
  let w : Word := BitVec.ofNat 32 n
  let m := s.mgmt
  let watch (vf i : Nat) (f : WatchPoint → WatchPoint) : State := s.modVf vf (fun x => { x with watches := x.watches.modify i f })
  let queue (vf q : Nat) (f : Queue → Queue) : State := s.modQueue vf q (fun x => (f x).restart s.clock.toNat)
  .next (if !m.powered then s else match r with
    | .dlsize => if m.launched || decide (16 < n % 2 ^ 32) then s else { s with mgmt := { m with dlsize := n % 2 ^ 32 } }
    | .burnlog => if m.ready || decide (n % 2 ^ 32 < 16) || decide (4096 < n % 2 ^ 32) then s
        else { s with mgmt := { m with burnlog := n % 2 ^ 32 } }
    | .podcfg => { s with mgmt := { m with podcfg := podFields v } }
    | .trbase => { s with mgmt := { m with trbase := n } }
    | .trlog => { s with mgmt := { m with trlog := n % 256 } }
    | .trctl => { s with mgmt := { m with trctl := w &&& 3 } }
    | .trhead => { s with mgmt := { m with trhead := w } }
    | .share vf => if n = 0 || 255 < n then s else s.modVf vf (fun x => { x with share := n })
    | .ptroot vf => s.modVf vf (fun x => { x with ptroot := n / 4096 * 4096 })
    | .qbase vf q => queue vf q (fun x => { x with base := n })
    | .qlogsize vf q => queue vf q (fun x => { x with logsize := n % 256 })
    | .fqbase vf => s.modVf vf (fun x => { x with fqbase := n })
    | .fqlog vf => s.modVf vf (fun x => { x with fqlog := n % 256 })
    | .savebase vf => s.modVf vf (fun x => { x with savebase := n })
    | .savestride vf => s.modVf vf (fun x => { x with savestride := n % 2 ^ 32 })
    | .saveslots vf => s.modVf vf (fun x => { x with saveslots := n % 2 ^ 32 })
    | .dbgctl vf => s.modVf vf (fun x => { x with dbgctl := w &&& 1 })
    | .watchVa vf i => watch vf i (fun x => { x with va := n })
    | .watchLen vf i => watch vf i (fun x => { x with len := n % 2 ^ 32 })
    | .watchKinds vf i => watch vf i (fun x => { x with kinds := n % 4 })
    | .eyebuf vf => s.modVf vf (fun x => { x with eyebuf := n })
    | .lgroup vf q => s.modQueue vf q (fun x => { x with lgroup := groupFields v })
    | .replica vf i => if 256 ≤ i then s
        else s.modVf vf (fun x => { x with replicas := x.replicas.filter (fun y => y.1 != i) ++ [(i, w)] })
    | .lcount vf => s.modVf vf (fun x => { x with lcount := n })
    | .migepoch vf => s.modVf vf (fun x => { x with migepoch := w })
    | .sem i j => s.semBlock i j (n % 2 ^ 32))

end Sys2Proof.Machine
end

