-- ==== Sys2Proof/Machine/Imm.lean ====
section
/-! DEFINITION. The INTI and UIMM words (majors 1 and 4): R68, R69. -/

namespace Sys2Proof.Machine

/-- A word of shapes r, r and an immediate. -/
def aluI (sp : Bool) (d a : Reg) (s : State) (f : Word → Word) : Out :=
  issue sp false [opD d, opA a] s (fun s => s.result d [f (s.cur.w a)])

/-- A word of shape r and an 18-bit immediate: the result may depend on D and the pc. -/
def aluU (rd sp : Bool) (d : Reg) (s : State) (f : Word → Word → Word) : Out :=
  issue sp false [opX rd d] s (fun s => s.result d [f (s.cur.w d) s.cur.pc])

/-- ADDI (R68). -/
def execAddi (sp : Bool) (d a : Reg) (imm : BitVec 10) (s : State) : Out :=
  aluI sp d a s (fun a => a + sext10 imm)

/-- ANDI (R68). -/
def execAndi (sp : Bool) (d a : Reg) (imm : BitVec 10) (s : State) : Out :=
  aluI sp d a s (fun a => a &&& sext10 imm)

/-- ORI (R68). -/
def execOri (sp : Bool) (d a : Reg) (imm : BitVec 10) (s : State) : Out :=
  aluI sp d a s (fun a => a ||| sext10 imm)

/-- XORI (R68). -/
def execXori (sp : Bool) (d a : Reg) (imm : BitVec 10) (s : State) : Out :=
  aluI sp d a s (fun a => a ^^^ sext10 imm)

/-- SHLI (R68). -/
def execShli (sp : Bool) (d a : Reg) (imm : BitVec 5) (s : State) : Out :=
  aluI sp d a s (fun a => a <<< imm.toNat)

/-- SHRI (R68). -/
def execShri (sp : Bool) (d a : Reg) (imm : BitVec 5) (s : State) : Out :=
  aluI sp d a s (fun a => a >>> imm.toNat)

/-- SARI (R68). -/
def execSari (sp : Bool) (d a : Reg) (imm : BitVec 5) (s : State) : Out :=
  aluI sp d a s (fun a => a.sshiftRight (imm.toNat))

/-- SETLTI.s32 (R68). -/
def execSetltiS32 (sp : Bool) (d a : Reg) (imm : BitVec 10) (s : State) : Out :=
  aluI sp d a s (fun a => Word.ofBool (a.slt (sext10 imm)))

/-- LDS (R69). -/
def execLds (sp : Bool) (d : Reg) (imm : BitVec 18) (s : State) : Out :=
  aluU false sp d s (fun _ _ => sext18 imm)

/-- LDH (R69). -/
def execLdh (sp : Bool) (d : Reg) (imm : BitVec 18) (s : State) : Out :=
  aluU false sp d s (fun _ _ => zext18 imm <<< 14)

/-- ORL (R69). -/
def execOrl (sp : Bool) (d : Reg) (imm : BitVec 18) (s : State) : Out :=
  aluU true sp d s (fun d _ => d ||| zext18 imm)

/-- ADDPC (R69). -/
def execAddpc (sp : Bool) (d : Reg) (imm : BitVec 18) (s : State) : Out :=
  aluU false sp d s (fun _ pc => (pc &&& 0xFFFF0000) ||| ((pc + (sext18 imm <<< 2)) &&& 0xFFFF))

end Sys2Proof.Machine
end

