-- ==== Sys2Proof/Machine/Par.lean ====
section
/-! DEFINITION. The PAR words (major 11): R146 to R158. -/

namespace Sys2Proof.Machine

/-! ## The meeting register -/

/-- MEET (R147): MEET is written, then the pc moves on. -/
def execMeet (sp : Bool) (a : Reg) (s : State) : Out :=
  issue sp false [opA a] s (fun s =>
    ((s.setCur { s.cur with meet := s.cur.w a }).advance).meetRelease (crewOf s.cur.id))

/-- MEETQ (R147). -/
def execMeetq (sp : Bool) (d : Reg) (s : State) : Out :=
  issue sp false [opD d] s (fun s => s.result d [s.cur.meet])

/-! ## Crew exchange, votes, reductions and scans -/

/-- The A values of the counted members by rank; a rank that counts as exited has none (R124, R146). -/
def State.crewVals (s : State) (a : Reg) : List (Option Word) :=
  let ms := s.countedFor s.cur
  (List.range 32).map (fun r => (ms.find? (fun m => rankOf m.id == r)).map (fun m => m.w a))

/-- The value of a source rank; an exited one delivers 0 (R148). -/
def crewVal (vs : List (Option Word)) (r : Nat) : Word := (vs.getD r none).getD 0

/-- A convergent word of a value a, whose result a member computes from the crew's values and its own state. -/
def crewWord (sp : Bool) (ops : List Opnd) (d a : Reg) (s : State)
    (f : List (Option Word) → Thread → Word × BitVec 5) : Out :=
  issue sp false ops s (fun s => s.converge (fun s =>
    let vs := s.crewVals a
    s.convergeAll (fun t => let r := f vs t; (t.put d [r.1]).fpRaise r.2)))

/-- The low five bits of a register (R148). -/
def low5 (t : Thread) (b : Reg) : Nat := (t.w b).toNat % 32

/-- CSHFL (R148). -/
def execCshfl (sp : Bool) (d a b : Reg) (s : State) : Out :=
  crewWord sp [opD d, opA a, opB b] d a s (fun vs t => (crewVal vs (low5 t b), 0))

/-- CSHFLX (R148). -/
def execCshflx (sp : Bool) (d a b : Reg) (s : State) : Out :=
  crewWord sp [opD d, opA a, opB b] d a s (fun vs t => (crewVal vs (Nat.xor (rankOf t.id) (low5 t b)), 0))

/-- CUP (R148). -/
def execCup (sp : Bool) (d a b : Reg) (s : State) : Out :=
  crewWord sp [opD d, opA a, opB b] d a s (fun vs t =>
    (if rankOf t.id < low5 t b then t.w a else crewVal vs (rankOf t.id - low5 t b), 0))

/-- CDN (R148). -/
def execCdn (sp : Bool) (d a b : Reg) (s : State) : Out :=
  crewWord sp [opD d, opA a, opB b] d a s (fun vs t =>
    (if 31 < rankOf t.id + low5 t b then t.w a else crewVal vs (rankOf t.id + low5 t b), 0))

/-- CBCAST (R148): the source rank is the B value of the lowest-ranked live member. -/
def execCbcast (sp : Bool) (d a b : Reg) (s : State) : Out :=
  issue sp false [opD d, opA a, opB b] s (fun s => s.converge (fun s =>
    let vs := s.crewVals a
    let src := match s.countedFor s.cur with
      | [] => 0
      | m :: _ => low5 m b
    s.convergeAll (fun t => t.put d [crewVal vs src])))

/-- CVANY (R149). -/
def execCvany (sp : Bool) (d a : Reg) (s : State) : Out :=
  crewWord sp [opD d, opA a] d a s (fun vs _ => (Word.ofBool (vs.any (fun v => v.getD 0 != 0)), 0))

/-- CVALL (R149). -/
def execCvall (sp : Bool) (d a : Reg) (s : State) : Out :=
  crewWord sp [opD d, opA a] d a s (fun vs _ => (Word.ofBool (vs.all (fun v => v.getD 1 != 0)), 0))

/-- CBALLOT (R149). -/
def execCballot (sp : Bool) (d a : Reg) (s : State) : Out :=
  crewWord sp [opD d, opA a] d a s (fun vs _ =>
    (((List.range 32).zip vs).foldl (fun (m : Word) x =>
      if x.2.getD (0 : Word) != (0 : Word) then m ||| ((1 : Word) <<< x.1) else m) 0, 0))

/-- CRADD (R150). -/
def execCradd (sp : Bool) (d a : Reg) (s : State) : Out :=
  crewWord sp [opD d, opA a] d a s (fun vs _ => (vs.foldl (fun m v => m + v.getD 0) 0, 0))

/-- CRMIN.s32 (R150). -/
def execCrminS32 (sp : Bool) (d a : Reg) (s : State) : Out :=
  crewWord sp [opD d, opA a] d a s (fun vs _ =>
    (vs.foldl (fun m v => let x := v.getD 0x7FFFFFFF; if x.slt m then x else m) 0x7FFFFFFF, 0))

/-- CRMAX.s32 (R150). -/
def execCrmaxS32 (sp : Bool) (d a : Reg) (s : State) : Out :=
  crewWord sp [opD d, opA a] d a s (fun vs _ =>
    (vs.foldl (fun m v => let x := v.getD 0x80000000; if m.slt x then x else m) 0x80000000, 0))

/-- CSCAN (R150): the inclusive sum up to the member's rank. -/
def execCscan (sp : Bool) (d a : Reg) (s : State) : Out :=
  crewWord sp [opD d, opA a] d a s (fun vs t =>
    ((vs.take (rankOf t.id + 1)).foldl (fun m v => m + v.getD 0) 0, 0))

/-- One level of the tree: each pair of neighbours is added, the left one first, rounding RNE (R151). -/
def treeLevel : List Word → List Word × BitVec 5
  | x :: y :: r =>
    let z := f32.add 0 x.toNat y.toNat
    let w := treeLevel r
    (BitVec.ofNat 32 z.bits :: w.1, z.flags ||| w.2)
  | r => (r, 0)

/-- The levels of the tree, with the union of the flags its nodes raise (R151, R152). -/
def treeSum : Nat → List Word → Word × BitVec 5
  | 0, xs => (xs.headD 0, 0)
  | n + 1, xs =>
    let l := treeLevel xs
    let r := treeSum n l.1
    (r.1, l.2 ||| r.2)

/-- −0, which pads the tree (R151). -/
def negZero : Word := 0x80000000

/-- CRFADD (R151, R152). -/
def execCrfadd (sp : Bool) (d a : Reg) (s : State) : Out :=
  crewWord sp [opD d, opA a] d a s (fun vs _ => treeSum 5 (vs.map (fun v => v.getD negZero)))

/-- CSCANF (R151, R152): a member's own tree holds −0 beyond its rank. -/
def execCscanf (sp : Bool) (d a : Reg) (s : State) : Out :=
  crewWord sp [opD d, opA a] d a s (fun vs t =>
    treeSum 5 (((List.range 32).zip vs).map (fun x => if x.1 ≤ rankOf t.id then x.2.getD negZero else negZero)))

/-! ## Scratch and cluster accesses -/

/-- A scratch load of n bytes (R153). -/
def scratchLoad (n w : Nat) (sp : Bool) (d a : Reg) (s : State) : Out :=
  issue sp true [opD d w, opA a] s (fun s => s.loadThread (scratchAddr (s.cur.w a)) n 3 false d w)

/-- A scratch store of n bytes (R153). -/
def scratchStore (n w : Nat) (sp : Bool) (d a : Reg) (s : State) : Out :=
  issue sp false [opR d w, opA a] s (fun s =>
    s.storeThread (scratchAddr (s.cur.w a)) (bytesOf n (natOfWords (s.cur.words d w))) 3)

/-- SLD32 (R153). -/
def execSld32 (sp : Bool) (d a : Reg) (s : State) : Out := scratchLoad 4 1 sp d a s

/-- SST32 (R153). -/
def execSst32 (sp : Bool) (d a : Reg) (s : State) : Out := scratchStore 4 1 sp d a s

/-- SLD64 (R153). -/
def execSld64 (sp : Bool) (d a : Reg) (s : State) : Out := scratchLoad 8 2 sp d a s

/-- SST64 (R153). -/
def execSst64 (sp : Bool) (d a : Reg) (s : State) : Out := scratchStore 8 2 sp d a s

/-- Whether an address lies in the cluster aperture 0x2 (R154). -/
def inCluster (ea : DWord) : Bool := ea.extractLsb' 60 4 == 2

/-- QLD32 (R154): any aperture but 0x2 traps ADDR, after the alignment. -/
def execQld32 (sp : Bool) (d a : Reg) (s : State) : Out :=
  issue sp true [opD d, opA a 2] s (fun s =>
    let ea := s.cur.p a
    if ea.toNat % 4 = 0 && !inCluster ea then s.raise 0x06 1 ea else s.loadThread ea 4 3 false d 1)

/-- QST32 (R154). -/
def execQst32 (sp : Bool) (d a : Reg) (s : State) : Out :=
  issue sp false [opR d, opA a 2] s (fun s =>
    let ea := s.cur.p a
    if ea.toNat % 4 = 0 && !inCluster ea then s.raise 0x06 1 ea
    else s.storeThread ea (bytesOf 4 (s.cur.w d).toNat) 3)

/-! ## Leases -/

/-- Changes the lease of the issuing crew (R155). -/
def State.setLease (s : State) (lease : Nat → Nat → Nat) (measured : Bool) (a : Reg) : State :=
  let k := s.curCore
  let v := match s.countedFor s.cur with
    | [] => 0
    | m :: _ => (m.w a).toNat
  let l := lease v (carveLines (s.core k).carve)
  match s.crew? (crewOf s.cur.id) with
  | none => s
  | some w =>
    let s := s.setCrew { w with
      lease := l
      measured := measured
      window := if measured then 0 else w.window
      lines := if measured then [] else w.lines }
    (if w.active && decide (w.lease < l) then s.grow k w.id else s).triggerDecision k

/-- LEASE (R155). -/
def execLease (sp : Bool) (a : Reg) (s : State) : Out :=
  issue sp false [opA a] s (fun s => s.converge (fun s => (s.setLease min false a).convergeAll (fun t => t)))

/-- LEASEM (R155). -/
def execLeasem (sp : Bool) (a : Reg) (s : State) : Out :=
  issue sp false [opA a] s (fun s => s.converge (fun s =>
    (s.setLease (fun v l => if v = 0 then min 32 l else min v l) true a).convergeAll (fun t => t)))

/-! ## Work pieces, and the end of a thread -/

/-- WORK (R156): the request goes to the distributor. -/
def execWork (sp : Bool) (d : Reg) (s : State) : Out :=
  issue sp true [opD d 4] s (fun s => ((s.enqueue d 4).request s.nextId .work false).advance)

/-- STEAL (R136, R156): the core's clock rises and goes with the request. -/
def execSteal (sp : Bool) (d : Reg) (s : State) : Out :=
  issue sp true [opD d 4] s (fun s =>
    let c := s.core s.curCore
    let s := s.setCore { c with lamport := c.lamport + 1 }
    ((s.enqueue d 4).request s.nextId (.steal (c.lamport + 1) s.cycle) false).advance)

/-- EXIT (R157): the thread parks until its queue is empty, then ends. -/
def execExit (_sp : Bool) (s : State) : Out := issue true false [] s (fun s => s.endThread)

end Sys2Proof.Machine
end

