-- ==== Sys2Proof/Machine/Image.lean ====
section
/-! DEFINITION. The save image of a team (R284 to R286): its bytes, and what a restore reads from them. -/

namespace Sys2Proof.Machine

/-! ## Sizes -/

/-- Bytes of a thread record. -/
def threadBytes (p : Packet) : Nat := 512 + 4 * p.regs

/-- The open chains of a team. -/
def State.teamChains (s : State) (l t : Nat) : List Chain := s.chains.filter (fun c => c.launch == l && c.team == t)

/-- The crews of a team. -/
def State.teamCrews (s : State) (l t : Nat) : List Crew :=
  (s.crews.filter (fun c => c.id.launch == l && c.id.team == t)).insertionSort (fun a b => a.id.crew ≤ b.id.crew)

/-- Bytes of an accumulator element: 8 for N8 and FP64, 4 otherwise. -/
def accBytes (f : Nat) : Nat := if f = 0 ∨ f = 4 then 8 else 4

/-! ## The bytes of an image -/

/-- A little-endian signed number of n bytes. -/
def intBytes (n : Nat) (x : Int) : List Byte := bytesOf n (x % 2 ^ (8 * n)).toNat

/-- The number that n bytes stand for as a signed one. -/
def intOf (bs : List Byte) : Int :=
  let n := natOf bs
  if 2 ^ (8 * bs.length - 1) ≤ n then (n : Int) - 2 ^ (8 * bs.length) else n

/-- The state code of a phase (R285). -/
def Phase.code : Phase → Nat
  | .neverStarted => 11
  | .ready => 0
  | .switchParked => 1
  | .held => 2
  | .waiting => 3
  | .barrier _ _ _ => 4
  | .monitor => 5
  | .settling => 6
  | .walking _ => 0
  | .pageParked _ => 7
  | .faulted => 8
  | .debugStopped _ => 9
  | .stalled _ => 0
  | .backoff _ => 0
  | .exited => 10

/-- The sequence number of a pending record, 0 before it is written. -/
def State.recSeq (s : State) (rid : Nat) : Nat := ((s.records.find? (fun r => r.rid == rid)).bind (fun r => r.seq)).getD 0

/-- The wait field of a thread record (R285). -/
def State.waitField (s : State) (t : Thread) : Nat :=
  match t.phase with
  | .pageParked rid => s.recSeq rid
  | .debugStopped rid => s.recSeq rid
  | .barrier scope id noted => id % 16 + 16 * (scope % 8) + 65536 * (noted.getD 0)
  | _ => 0

/-- A queue entry (R285). -/
def QEntry.bytes (e : QEntry) : List Byte :=
  bytesOf 2 e.base ++ bytesOf 1 e.width ++ bytesOf 1 (match e.st with
    | .awaiting => 0
    | .held => 1
    | .reissue => 2) ++ bytesOf 4 0 ++ bytesOf 16 (natOfWords e.val)

/-- A thread record (R285). -/
def State.threadRecord (s : State) (t : Thread) : List Byte :=
  let w (x : Word) : List Byte := bytesOf 4 x.toNat
  let state := t.phase.code + (if t.inHandler then 16 else 0) + (if t.released then 32 else 0)
  let flags := t.fpmode.toNat + 2 ^ 8 * t.fpflags.toNat + 2 ^ 16 * t.intflags.toNat
  w t.pc ++ w t.lk ++ w t.meet ++ w t.tlk ++ w t.tmeet ++ bytesOf 2 t.winbase ++ bytesOf 1 state ++ bytesOf 1 t.queue.length ++
    bytesOf 4 flags ++ w t.clockLatch ++ w t.trapcode ++ w t.trappc ++ w t.trapinfo ++ w t.trapmask ++
    bytesOf 8 t.trapaddr.toNat ++ bytesOf 4 (s.waitField t) ++ bytesOf 68 0 ++ t.queue.flatMap QEntry.bytes ++
    bytesOf (24 * (16 - t.queue.length)) 0 ++ t.regs.flatMap w

/-- The thread area. -/
def State.threadArea (s : State) (l t : Nat) : List Byte :=
  (List.range (s.packet l).threads).flatMap (fun i => match s.thread? ⟨l, t, i⟩ with
    | some x => s.threadRecord x
    | none => bytesOf (threadBytes (s.packet l)) 0)

/-- A candidate slot (R286). -/
def CandSlot.bytes (x : CandSlot) : List Byte :=
  let w (v : Word) : List Byte := bytesOf 4 v.toNat
  let r := x.run.getD ⟨0, List.replicate 16 0, 0, 0, 0⟩
  x.buffer.flatMap w ++ x.sandbox ++ r.regs.flatMap w ++ bytesOf 1 x.n ++ bytesOf 1 (if x.run.isSome then 1 else 0) ++
    bytesOf 1 r.pc ++ bytesOf 1 0 ++ w x.h ++ w x.l ++ bytesOf 4 r.fuel ++ bytesOf 4 r.used ++ bytesOf 12 0

/-- The candidate area. -/
def State.candArea (s : State) (l t : Nat) : List Byte :=
  let p := s.packet l
  if !p.stylus then []
  else (List.range (p.crews * 32)).flatMap (fun i => match s.slot? ⟨l, t, i⟩ with
    | some x => x.bytes
    | none => bytesOf 416 0)

/-- The lease record of a crew (R286). -/
def Crew.leaseBytes (c : Crew) : List Byte :=
  bytesOf 2 c.lease ++ bytesOf 1 (if c.measured then 1 else 0) ++ bytesOf 1 0 ++ bytesOf 4 c.window ++ bytesOf 2 c.lines.length ++
    bytesOf 2 c.tags.length ++ bytesOf 4 0 ++ c.tags.flatMap (fun line => bytesOf 8 (line * 128))

/-- An open chain (R286). -/
def Chain.bytes (c : Chain) : List Byte :=
  let n := accBytes c.fmt
  bytesOf 1 c.id ++ bytesOf 1 c.fmt ++ bytesOf 2 c.m ++ intBytes 2 (c.e.getD 0) ++
    bytesOf 2 ((if c.e.isSome then 1 else 0) + (if c.sat then 2 else 0)) ++ bytesOf 8 (n * c.acc.length) ++
    c.acc.flatMap (intBytes n)

/-- A drain program's 80 bytes. -/
def DrainProg.bytes (p : DrainProg) : List Byte :=
  p.consts.flatMap (fun w => bytesOf 4 w.toNat) ++ (List.range 8).flatMap (fun i => bytesOf 2 (p.steps.getD i 0).toNat)

/-- The drain table of a quad team (R286). -/
def State.drainArea (s : State) (l t : Nat) : List Byte :=
  let p := s.packet l
  if t % p.qsize ≠ 0 then []
  else
    let ps := ((s.drains.find? (fun d => d.launch == l && d.quad == t / p.qsize)).map (fun d => d.progs)).getD []
    let mask := ((List.range 16).map (fun i => if ps.any (fun x => x.1 == i) then 2 ^ i else 0)).foldl (· + ·) 0
    bytesOf 4 mask ++ bytesOf 12 0 ++ (List.range 16).flatMap (fun i => match ps.find? (fun x => x.1 == i) with
      | some x => x.2.bytes
      | none => bytesOf 80 0)

/-- The six areas of a team's image: threads, scratch, candidates, leases, chains, drain table. DEDUCED (log entry 25). -/
def State.areas (s : State) (tm : Team) : List (List Byte) :=
  let l := tm.launch
  let t := tm.idx
  [s.threadArea l t, tm.scratch.getN 0 (s.packet l).carveBytes, s.candArea l t,
   (s.teamCrews l t).flatMap Crew.leaseBytes, (s.teamChains l t).flatMap Chain.bytes, s.drainArea l t]

/-- The offsets of areas that follow one another, 0 where one is absent. -/
def areaOffsets : Nat → List (List Byte) → List Nat
  | _, [] => []
  | at_, a :: as => (if a.isEmpty then 0 else at_) :: areaOffsets (at_ + a.length) as

/-- The header of an image (R284). -/
def State.imageHeader (s : State) (tm : Team) (length : Nat) (offs : List Nat) : List Byte :=
  let p := s.packet tm.launch
  let handling := s.threads.any (fun x => x.id.launch == tm.launch && x.id.team == tm.idx && x.inHandler)
  let pad (n : Nat) (b : List Byte) : List Byte := (b ++ bytesOf n 0).take n
  bytesOf 2 1 ++ bytesOf 2 ((if p.stylus then 1 else 0) + (if handling then 2 else 0) + (if tm.auto then 4 else 0)) ++
    bytesOf 4 length ++ bytesOf 8 tm.launch ++ bytesOf 4 tm.idx ++ bytesOf 2 p.threads ++ bytesOf 1 p.crews ++
    bytesOf 1 (tm.idx % p.qsize) ++ bytesOf 2 p.regs ++ bytesOf 2 p.carve ++ bytesOf 2 (s.outstanding tm.launch tm.idx) ++
    bytesOf 2 0 ++ bytesOf 8 (s.vfTime (launchVf tm.launch)).toNat ++ offs.flatMap (bytesOf 4) ++
    pad 64 (tm.tokens.flatMap (fun x => bytesOf 2 x.1 ++ bytesOf 1 x.2 ++ bytesOf 1 0)) ++
    pad 128 (tm.stash.flatMap (fun m => bytesOf 4 m.off ++ bytesOf 4 m.len ++ bytesOf 8 m.va)) ++ bytesOf 256 0

/-- The image of a team. -/
def State.imageBytes (s : State) (tm : Team) : List Byte :=
  let as := s.areas tm
  let body := as.flatten
  s.imageHeader tm (512 + body.length) (areaOffsets 512 as) ++ body

/-! ## What a restore reads -/

/-- A queue entry as its image has it: a reply that is held lands, one that is not stays awaited (R287, R288). -/
def QEntry.fromImage (e : QEntry) (b : List Byte) : QEntry :=
  { e with
    base := fieldAt b 0 2
    width := fieldAt b 2 1
    st := if fieldAt b 3 1 = 1 then .held else e.st
    val := if fieldAt b 3 1 = 1 then wordsOf (fieldAt b 2 1) (fieldAt b 8 16) else e.val }

/-- A thread as its record has it (R285); one that a failed fault record has made faulted since the save keeps the trap registers of that
trap (R281, R288). -/
def Thread.fromImage (t : Thread) (b : List Byte) : Thread :=
  let failed : Bool := t.phase == .faulted && fieldAt b 22 1 % 16 != 8
  let w (o : Nat) : Word := BitVec.ofNat 32 (fieldAt b o 4)
  let flags := fieldAt b 24 4
  { t with
    pc := w 0
    lk := w 4
    meet := w 8
    tlk := w 12
    tmeet := w 16
    winbase := fieldAt b 20 2
    inHandler := fieldAt b 22 1 / 16 % 2 == 1
    released := fieldAt b 22 1 / 32 % 2 == 1
    fpmode := BitVec.ofNat 2 flags
    fpflags := BitVec.ofNat 5 (flags / 2 ^ 8)
    intflags := BitVec.ofNat 2 (flags / 2 ^ 16)
    clockLatch := w 28
    trapcode := if failed then t.trapcode else w 32
    trappc := if failed then t.trappc else w 36
    trapinfo := if failed then t.trapinfo else w 40
    trapmask := w 44
    trapaddr := if failed then t.trapaddr else BitVec.ofNat 64 (fieldAt b 48 8)
    queue := ((List.range t.queue.length).zip t.queue).map (fun x : Nat × QEntry => x.2.fromImage ((b.drop (128 + 24 * x.1)).take 24))
    regs := (List.range t.regs.length).map (fun i => w (512 + 4 * i)) }

/-- A candidate slot as its image has it (R242, R286). -/
def CandSlot.fromImage (x : CandSlot) (b : List Byte) : CandSlot :=
  let ws (o n : Nat) : List Word := (List.range n).map (fun i => BitVec.ofNat 32 (fieldAt b (o + 4 * i) 4))
  { x with
    buffer := ws 0 64
    sandbox := (b.drop 256).take 64
    n := fieldAt b 384 1
    h := BitVec.ofNat 32 (fieldAt b 388 4)
    l := BitVec.ofNat 32 (fieldAt b 392 4)
    run := x.run.map (fun r => { r with
      regs := ws 320 16
      pc := fieldAt b 386 1
      fuel := fieldAt b 396 4
      used := fieldAt b 400 4 }) }

/-- The crews of a team as the lease area has them (R140, R286); m stands for the lines a crew has touched. -/
def leasesFrom : List Crew → List Byte → List Crew
  | [], _ => []
  | c :: cs, b =>
    let n := fieldAt b 10 2
    { c with
      lease := fieldAt b 0 2
      measured := fieldAt b 2 1 % 2 == 1
      window := fieldAt b 4 4
      lines := c.lines.take (fieldAt b 8 2)
      tags := (List.range n).map (fun i => fieldAt b (16 + 8 * i) 8 / 128) } :: leasesFrom cs (b.drop (16 + 8 * n))

/-- The chains of a team as the chain area has them (R266, R286). -/
def chainsFrom : List Chain → List Byte → List Chain
  | [], _ => []
  | c :: cs, b =>
    let len := fieldAt b 8 8
    let f := fieldAt b 1 1
    let n := accBytes f
    let num (bs : List Byte) : Int := if f = 0 then intOf bs else (natOf bs : Int)
    { c with
      id := fieldAt b 0 1
      fmt := f
      m := fieldAt b 2 2
      e := if fieldAt b 6 1 % 2 = 1 then some (intOf ((b.drop 4).take 2)) else none
      sat := fieldAt b 6 1 / 2 % 2 == 1
      acc := (List.range (len / n)).map (fun i => num ((b.drop (16 + n * i)).take n)) } :: chainsFrom cs (b.drop (16 + len))

/-- The drain programs of a quad team as their area has them. -/
def progsFrom (b : List Byte) : List (Nat × DrainProg) :=
  (List.range 16).filterMap (fun i =>
    if fieldAt b 0 4 / 2 ^ i % 2 = 1 then some (i, drainProg ((b.drop (16 + 80 * i)).take 80)) else none)

/-- The bytes of an area of an image, by its number in R284. -/
def areaOf (b : List Byte) (i : Nat) : List Byte := b.drop (fieldAt b (40 + 4 * i) 4)

/-- Explicit tokens and stash mappings as the header has them (R109, R172, R284). -/
def tokensFrom (b : List Byte) : List (Nat × Nat) :=
  (List.range 16).filterMap (fun i =>
    let n := fieldAt b (66 + 4 * i) 1
    if n = 0 then none else some (fieldAt b (64 + 4 * i) 2, n))
def stashFrom (b : List Byte) : List StashMap :=
  (List.range 8).filterMap (fun i =>
    let n := fieldAt b (132 + 16 * i) 4
    if n = 0 then none else some ⟨fieldAt b (128 + 16 * i) 4, n, fieldAt b (136 + 16 * i) 8, [], []⟩)

/-- A team and all that is its own, as its image has them (R288). -/
def State.readImage (s : State) (tm : Team) (b : List Byte) : State :=
  let l := tm.launch
  let t := tm.idx
  let p := s.packet l
  let th := areaOf b 0
  let mine (i : ThreadId) : Bool := i.launch == l && i.team == t
  let s := s.setTeam { tm with
    tokens := tokensFrom b
    stash := stashFrom b
    scratch := if p.carve = 0 then [] else Memory.putN [] 0 ((areaOf b 1).take p.carveBytes) }
  let s := s.mapThreads (fun x => if mine x.id && decide (x.id.lin < p.threads)
    then x.fromImage ((th.drop (x.id.lin * threadBytes p)).take (threadBytes p)) else x)
  let s := { s with slots := s.slots.map (fun x => if mine x.owner
    then x.fromImage (((areaOf b 2).drop (416 * x.owner.lin)).take 416) else x) }
  let s := (leasesFrom (s.teamCrews l t) (areaOf b 3)).foldl State.setCrew s
  let cs := chainsFrom (s.teamChains l t) (areaOf b 4)
  let s := { s with chains := s.chains.filter (fun c => !(c.launch == l && c.team == t)) ++ cs }
  if t % p.qsize ≠ 0 then s
  else
    let q := t / p.qsize
    let ps := progsFrom (areaOf b 5)
    let rest := s.drains.filter (fun d => !(d.launch == l && d.quad == q))
    { s with drains := if ps.isEmpty then rest else rest ++ [⟨l, q, ps⟩] }

end Sys2Proof.Machine
end

