-- ==== Sys2Proof/Machine/Preempt.lean ====
section
/-! DEFINITION. Pre-emption (R281 to R283, R287, R288), the moving of Eyelet entries (R289), and live migration (R309, R310). -/

namespace Sys2Proof

/-- What the package holds of a launch that has come to it with its VF, its names given out from a number on (R309). UNVERIFIED (log
entry 37). -/
opaque Config.carried : Nat → Nat → Option Machine.Carried

end Sys2Proof

namespace Sys2Proof.Machine

/-! ## Saving -/

/-- The teams of a quad team. -/
def State.quadTeams (s : State) (l q : Nat) : List Team :=
  s.teams.filter (fun t => t.launch == l && t.idx / (s.packet l).qsize == q)

/-- Whether an id belongs to a quad team. -/
def State.inQuad (s : State) (l q : Nat) (t : ThreadId) : Bool := t.launch == l && t.team / (s.packet l).qsize == q

/-- A quad team starts to be saved: its teams on cores stop at an instruction boundary (R283 steps 1 and 2). -/
def State.beginSave (s : State) (l q : Nat) (auto : Bool) : State :=
  { s with teams := s.teams.map (fun t =>
      if t.launch == l && t.idx / (s.packet l).qsize == q && (t.st == .resident || t.st == .pinning)
      then { t with st := .saving, auto := auto } else t) }

/-- The quad teams of a launch with a team on a core. -/
def State.quadsOn (s : State) (l : Nat) : List Nat :=
  ((s.teams.filter (fun t => t.launch == l && (t.st == .resident || t.st == .pinning))).map (fun t =>
    t.idx / (s.packet l).qsize)).dedup

/-- Every resident team of a launch is pre-empted. -/
def State.preemptLaunch (s : State) (l : Nat) : State := (s.quadsOn l).foldl (fun s q => s.beginSave l q false) s

/-- PREEMPT (R282, R283): the host pre-empts every resident team of a launch. -/
def execPreempt (vf : Nat) (l : DWord) (s : State) : Out :=
  match s.vf? vf with
  | none => .next s
  | some v =>
    let s := s.setVf { v with preempt := 1 }
    .next ((if launchVf l.toNat = vf then s.preemptLaunch l.toNat else s).preemptDone vf)

/-- AUTO_SWAP_OUT (R281, R312): the part may swap out a quad team one of whose teams has been stopped on a page fault for 1 ms. DESIGN CHOICE (log entry 4). -/
def execAutoSwapOut (l team : Nat) (s : State) : Out :=
  let p := s.packet l
  let ts := s.threads.filter (fun t => t.id.launch == l && t.id.team == team && t.live)
  let task := s.engines.any (fun e => e.t.launch == l && e.t.team == team && (match e.kind, e.st with
    | .task _ _ _, .stalled _ => true
    | _, _ => false))
  let long := ts.any (fun t => (match t.phase with
    | .pageParked _ => true
    | _ => false) && decide (t.parkClock + 1000000 ≤ s.clock.toNat))
  if ((s.team? l team).map (fun t => t.st == .resident)).getD false && ts.all (fun t => t.phase.stopped) && long && !task && !p.det
  then .next (s.beginSave l (team / p.qsize) true) else .next s

/-- An operation that a save abandons runs again from its beginning after the restore, a copy under the record of its issue, a job that
failed its card at issue with the code it earned then (R222, R283). -/
def EngineOp.again (e : EngineOp) : EngineOp :=
  { e with
    st := .reissue
    pos := 0
    kind := match e.kind with
      | .copy multi h w rec _ => .copy multi h w rec none
      | .djob j _ r => .djob j ⟨0, 0, 0, 0, 0⟩ (r.filter (fun x => x.2 == 1 || x.2 == 2))
      | k => k }

/-- Step 3 of R283 for a quad team: the operations of the streamer and the Skiver that are stalled on a record are abandoned. -/
def State.abandonEngines (s : State) (l q : Nat) : State :=
  let gone := s.engines.filter (fun e => s.inQuad l q e.t && e.abandoned)
  gone.foldl (fun s e => (s.setEng e.again).freeHatch e.no) s

/-- Step 4 of R283: overlay words still queued end with EROOM, settle requests go. -/
def State.clearLacer (s : State) (l q : Nat) : State :=
  let mine (r : LacerReq) : Bool := s.inQuad l q ⟨r.launch, r.team, 0⟩
  s.cores.foldl (fun s c =>
    let s := s.requeueLacer c.id (c.lacerQ.filterMap (fun r => if mine r then s.inherit c.id (fun t => !s.inQuad l q t) r else some r))
    (c.lacerQ.filter (fun r => mine r && r.req != 0)).foldl (fun s r => s.endOverlay r.waits 0x31 0) s) s

/-- Replies that have arrived are held in their entries (R283, R285); those an acquire follows come late (R287). -/
def State.holdReplies (s : State) (l q : Nat) : State :=
  (s.replies.filter (fun r => s.inQuad l q r.t && !r.acq)).foldl (fun s r =>
    State.modThread { s with replies := s.replies.filter (fun x => x.req != r.req) } r.t (fun t => t.hold r.req r.val)) s

/-- Whether nothing of a quad team is left that its save has to wait for: its operations have retired or are abandoned, no load of an
overlay word of its is under way, and the bytes its dies have sent home are applied. -/
def State.saveReady (s : State) (l q : Nat) : Bool :=
  s.engines.all (fun e => !s.inQuad l q e.t || e.st == .reissue) &&
  s.cores.all (fun c => c.lacerW.all (fun w => !(w.launch == l && w.team / (s.packet l).qsize == q))) &&
  (s.quadTeams l q).all (fun t => t.st != .saving || s.sentApplied t.core.die)

/-- A bundle load, which a restore begins again (R285, R290). -/
def Request.isLdu (r : Request) : Bool :=
  match r.kind with
  | .ldu _ _ _ _ _ => true
  | .lduAgain _ _ _ _ _ => true
  | _ => false

/-- Entries whose word the restore starts again: a CLOAD, a CRUN, an LDU, an abandoned operation (R242, R283, R285). -/
def State.reissues (s : State) (req : Nat) : Bool :=
  s.engines.any (fun e => e.req == req) ||
  s.slots.any (fun x => x.ops.any (fun o => match o with
    | .load r _ _ _ _ => r == req
    | .run r _ _ => r == req) || (x.run.map (fun r => r.req)) == some req) ||
  s.requests.any (fun r => r.id == req && r.isLdu)

/-- A thread as the save leaves it: its monitor is released (R192), what is to be issued again is marked. -/
def State.saveThread (s : State) (t : Thread) : Thread :=
  { t with
    watch := none
    queue := t.queue.map (fun e => if e.st == .awaiting && s.reissues e.req then { e with st := .reissue } else e) }

/-- The image slots of a VF in use, and the lowest n free ones (R282). -/
def State.freeSlots (s : State) (v : Vf) (n : Nat) : List Nat :=
  let used := s.teams.filterMap (fun t => if launchVf t.launch == v.id then t.image else none)
  (((List.range (used.length + n)).filter (fun i => !used.contains i)).filter (fun i => decide (i < v.saveslots))).take n

/-- Where the images of teams lie in their slots, as far as that translates; an image that does not fit is denied. -/
def State.imagePlaces (s : State) (v : Vf) : List (Team × Nat) → State × List (List (GAddr × Nat)) × PartEnd
  | [] => (s, [], .done)
  | (t, slot) :: rest =>
    let n := (s.imageBytes t).length
    if v.savestride < n then (s, [], .deny)
    else match s.partPlaces v t.launch (v.savebase + slot * v.savestride) true (n + 1) n with
      | (s, ps, .done) =>
        let (s, r, e) := s.imagePlaces v rest
        (s, ps :: r, e)
      | (s, _, e) => (s, [], e)

/-- Writes the images of teams to their slots: all of them, or none where one does not fit or cannot be written yet or at all. -/
def State.writeImages (s : State) (v : Vf) (ts : List (Team × Nat)) : IoRes :=
  match s.imagePlaces v ts with
  | (s, ps, .done) => .ok ((ts.zip ps).foldl (fun s x =>
      (s.setTeam { (s.team? x.1.1.launch x.1.1.idx).getD x.1.1 with image := some x.1.2 }).partPut x.2 (s.imageBytes x.1.1)) s) []
  | (s, _, e) => e.answer s []

/-- A team whose image is written leaves its core (R109, R140, R283 step 6, R288). -/
def State.leaveCore (s : State) (t : Team) : State :=
  let k := t.core
  let s := (s.teamCrews t.launch t.idx).foldl (fun s c => s.setCrew { c with
    active := false
    dueActivated := false
    due := false
    eligible := 0
    seenEligible := false
    grower := false }) s
  let c := s.core k
  let s := s.setCore { c with victims := c.victims.filter (fun v => !(v.2.launch == t.launch && v.2.team == t.idx)) }
  let s := match s.team? t.launch t.idx with
    | none => s
    | some x => s.setTeam { x with st := .swapped, swaps := x.swaps + 1, allowed := false }
  (((s.unpin t.launch k).nextGen k).lacerStir k (launchVf t.launch)).triggerDecision k

/-- The victim tags of a crew go into its save (R140). -/
def State.takeTags (s : State) (t : Team) : State :=
  (s.teamCrews t.launch t.idx).foldl (fun s c => s.setCrew { c with
    tags := ((s.core t.core).victims.filter (fun v => v.2 == c.id)).map (fun v => v.1) }) s

/-- A thread goes on from its saved state (R192, R285, R288). -/
def Thread.resumeSaved (t : Thread) : Thread :=
  { t with
    phase := match t.phase with
      | .monitor => .ready
      | .stalled _ => .ready
      | .walking _ => .ready
      | .backoff _ => .ready
      | p => p
    queue := t.queue.map (fun e => if e.st == .reissue then { e with st := .awaiting } else e) }

/-- A live thread of a team that goes on resumes through R105 (R109, R288): one that settles goes on where its segment is resident;
where it is absent, one that is free to issue settles, and one that is blocked has the segment asked for and settles when it is free to
issue (`State.turn`). -/
def State.resettle (s : State) (k : CoreId) (x : Thread) : State :=
  let here := s.segState k (launchVf x.id.launch) (s.coidOf x.id.launch) (segOf x.pc) == .resident
  match x.phase with
  | .settling =>
    if here then (s.modThread x.id (fun y => y.goto x.pc (s.inCode x.id.launch x.pc))).meetRelease (crewOf x.id)
    else s.settleReq x.id x.pc
  | .ready =>
    if here then s else ((s.modThread x.id (fun y => y.enter .settling s.cycle)).meetRelease (crewOf x.id)).settleReq x.id x.pc
  | .waiting =>
    if here then s else ((s.modThread x.id (fun y => y.enter .settling s.cycle)).meetRelease (crewOf x.id)).settleReq x.id x.pc
  | _ =>
    if s.segState k (launchVf x.id.launch) (s.coidOf x.id.launch) (segOf x.pc) == .absent then s.settleReq x.id x.pc else s

/-- The threads of a team and its candidates go on (R242, R288); its abandoned operations enter their engines again of themselves
(`State.reenter`). -/
def State.resumeTeam (s : State) (l t : Nat) (k : CoreId) : State :=
  let mine (i : ThreadId) : Bool := i.launch == l && i.team == t
  let s := s.mapThreads (fun x => if mine x.id then x.resumeSaved else x)
  (s.threads.filter (fun x => mine x.id && x.live)).foldl (fun s x => s.resettle k x) s

/-- A quad team is not saved: its teams go on where they stand (R282). DEDUCED (log entry 25). -/
def State.refuseSave (s : State) (vf l q : Nat) : State :=
  let ts := (s.quadTeams l q).filter (fun t => t.st == .saving)
  let s := ts.foldl (fun s t =>
    let s := (s.teamCrews l t.idx).foldl (fun s c => s.setCrew { c with tags := [] }) s
    (s.setTeam { t with st := if s.pinsDone t then .resident else .pinning, auto := false }).resumeTeam l t.idx t.core) s
  match s.vf? vf with
  | none => s
  | some v => if ts.any (fun t => !t.auto) then s.setVf { v with preempt := 2 } else s

/-- A quad team's CLOADs that have not completed start from nothing at the restore (R242). -/
def CandSlot.saved (x : CandSlot) : CandSlot :=
  { x with ops := x.ops.map (fun o => match o with
      | .load req a c _ _ => .load req a c [] none
      | o => o) }

/-- The images of a quad team are written and its teams leave their cores; or it is refused, or waits to be written (R282, R283 steps 5
and 6). -/
def State.saveQuad (s : State) (v : Vf) (l q : Nat) : State :=
  let ts := (s.quadTeams l q).filter (fun t => t.st == .saving)
  let s := { s with slots := s.slots.map (fun (x : CandSlot) => if s.inQuad l q x.owner then x.saved else x) }
  let s := s.mapThreads (fun (t : Thread) => if s.inQuad l q t.id then s.saveThread t else t)
  let s := ts.foldl (fun (s : State) (t : Team) => (s.stashCleanTeam l t.idx).takeTags t) s
  let ts := (s.quadTeams l q).filter (fun t => t.st == .saving)
  let slots := s.freeSlots v ts.length
  if slots.length < ts.length then s.refuseSave v.id l q
  else match s.writeImages v (ts.zip slots) with
    | .ok s _ => (ts.foldl (fun (s : State) (t : Team) => s.leaveCore t) s).stir
    | .wait s => s
    | .fault s _ _ => s.refuseSave v.id l q
    | .deny s => s.refuseSave v.id l q

/-- SAVE_COMPLETE (R31, R282, R283): a quad team's save goes on: what its threads have written leaves the core and the die, pod-window
bytes with it, so that they find it wherever they are restored; once nothing of the quad team runs any more, its images are written and
it gives up its cores. -/
def execSaveComplete (l quad : Nat) (s : State) : Out :=
  match s.vf? (launchVf l), s.launch? l with
  | some v, some x =>
    let ts := (s.quadTeams l quad).filter (fun t => t.st == .saving)
    if ts.isEmpty || x.kill.isSome then .next (s.preemptDone v.id)
    else
      let s := (((s.abandonEngines l quad).clearLacer l quad).holdReplies l quad)
      let s := ts.foldl (fun s t => s.releaseActs l t.idx 5) s
      .next (if s.saveReady l quad then (s.saveQuad v l quad).preemptDone v.id else s)
  | _, _ => .next s

/-! ## Late replies -/

/-- The place of an entry in a saved team's image (R285). -/
def State.entryVa (s : State) (v : Vf) (tm : Team) (t : ThreadId) (i : Nat) : Nat :=
  v.savebase + tm.image.getD 0 * v.savestride + 512 + t.lin * threadBytes (s.packet t.launch) + 128 + 24 * i

/-- LATE_REPLY_WRITE (R136, R287): a reply that arrives after the save goes into its entry of the image, and the header's count falls. -/
def execLateReplyWrite (req : Nat) (s : State) : Out :=
  match s.replies.find? (fun r => r.req == req) with
  | none => .next s
  | some r =>
    if !s.isSwapped r.t.launch r.t.team then .next s
    else
      let i := ((s.thread? r.t).bind (fun t => t.queue.findIdx? (fun e => e.req == req)))
      let got (s : State) : State := State.modThread { s.takeClock r with replies := s.replies.filter (fun x => x.req != req) } r.t
        (fun t => t.hold req r.val)
      match s.vf? (launchVf r.t.launch), s.team? r.t.launch r.t.team, ((got s).thread? r.t).bind (fun t => i.bind (fun i =>
          (t.queue[i]?).map (fun e => (i, e)))) with
      | some v, some tm, some x =>
        let (s, ps, e) := s.partPlaces v r.t.launch (s.entryVa v tm r.t x.1) true 2 24
        if e == .wait then .next s
        else
          let (s, ps', e') := s.partPlaces v r.t.launch (v.savebase + tm.image.getD 0 * v.savestride + 28) true 2 2
          if e' == .wait then .next s
          else
            let s := got s
            .next ((s.partPut ps x.2.bytes).partPut ps' (bytesOf 2 (s.outstanding r.t.launch r.t.team)))
      | _, _, _ => .next (got s)

/-! ## Restoring -/

/-- A team of a launch that has come with its VF: one that was saved may return, its scratch to be read from its image (R309). -/
def Team.carried (t : Team) : Team :=
  { t with
    core := ⟨24, 0⟩
    scratch := []
    allowed := true
    st := match t.st with
      | .retired => .retired
      | .pending => .pending
      | _ => .swapped }

/-- A saved launch that has come with its VF, and all that is its own, is taken over (R309 step 6). -/
def State.adopt (s : State) (v : Vf) (l : Nat) (c : Carried) : State :=
  let mine (t : ThreadId) : Bool := t.launch == l
  let s := s.setVf { v with adopted := v.adopted ++ [l] }
  { s with
    launches := s.launches ++ [{ c.launch with id := l, vf := v.id }]
    teams := s.teams ++ (c.teams.filter (fun t => t.launch == l)).map Team.carried
    others := s.others ++ c.threads.filter (fun t => mine t.id)
    crews := s.crews ++ c.crews.filter (fun x => x.id.launch == l)
    slots := s.slots ++ c.slots.filter (fun x => mine x.owner)
    chains := s.chains ++ c.chains.filter (fun x => x.launch == l)
    drains := s.drains ++ c.drains.filter (fun x => x.launch == l)
    engines := s.engines ++ (c.engines.filter (fun e => mine e.t)).map (fun e => { e with vf := v.id, core := ⟨24, 0⟩, st := .reissue })
    requests := s.requests ++ (c.requests.filter (fun r => mine r.t && r.isLdu)).map (fun r => { r with vf := v.id, core := ⟨24, 0⟩ })
    records := s.records ++ (c.records.filter (fun r => r.launch == l)).map (fun r => { r with vf := v.id, core := none })
    nextId := max s.nextId c.nextId }

/-- A launch that the VF had accepted before it came to this package, and that has not been allowed again here: its number is within
the count that LCOUNT brought (R129, R309). -/
def Vf.mayAdopt (v : Vf) (l : Nat) : Bool :=
  launchVf l == v.id && decide (1 ≤ l % 2 ^ 58 ∧ l % 2 ^ 58 + v.accepted ≤ v.lcount) && !v.adopted.contains l

/-- A saved launch is taken over as the package holds it. -/
def State.takeOver (s : State) (v : Vf) (l : Nat) : State :=
  match Config.carried l s.nextId with
  | some c => s.adopt v l c
  | none => s

/-- The saved teams of a launch may return (R288). -/
def State.allow (s : State) (l : Nat) : State :=
  { s with teams := s.teams.map (fun t => if t.launch == l && t.st == .swapped then { t with allowed := true } else t) }

/-- RESTOREL (R282, R288, R309): a launch's pre-empted teams may be placed again; a saved launch that has come with its VF is taken over
first. DEDUCED (log entries 25 and 37). -/
def execRestorel (vf : Nat) (l : DWord) (s : State) : Out :=
  .next (if launchVf l.toNat ≠ vf then s
    else match s.vf? vf, s.launch? l.toNat with
      | some v, none => if v.mayAdopt l.toNat then s.takeOver v l.toNat else s.allow l.toNat
      | _, _ => s.allow l.toNat)

/-- Free accumulator slots of a quad's gravers (R257, R288). -/
def State.freeAccs (s : State) (ks : List CoreId) : Nat :=
  8 - (s.chains.filter (fun c => ks.contains c.graver && !s.isSwapped c.launch c.team)).length

/-- A restored team takes its explicit tokens again; segments that are absent are asked for (R105, R109). Where no thread has settled on
such a load, a record of it names thread 0 of the team: R107 names none for a load that a token asks for. DESIGN CHOICE (log entry
29). -/
def State.retakeTokens (s : State) (l : Launch) (t : Nat) (k : CoreId) : State :=
  match s.team? l.id t with
  | none => s
  | some tm => tm.tokens.foldl (fun s x =>
      if s.segState k l.vf l.image.coid x.1 == .absent then
        let c := s.core k
        s.setCore { c with lacerQ := c.lacerQ ++ [⟨l.id, t, l.vf, l.image.coid, x.1, ⟨l.id, t, 0⟩, 0, true, s.cycle⟩] }
      else s) s

/-- The chains of a restored team take slots of its new quad (R257, R266). -/
def State.bindChains (s : State) (l t : Nat) (k : CoreId) : State :=
  (s.teamChains l t).foldl (fun s c => match s.chooseGraver k [] with
    | some (g, i) => s.setChain { c with graver := g, slot := i }
    | none => s) { s with chains := s.chains.map (fun c =>
      if c.launch == l && c.team == t then { c with graver := ⟨24, 0⟩, slot := 2 } else c) }

/-- The tags a returning team brings with it become victims of the core's, as the oldest, and the oldest go first (R140). The image keeps
an age order for each crew alone: those of a higher crew count as older. DESIGN CHOICE (log entry 22). -/
def State.bringTags (s : State) (k : CoreId) (c : Crew) : State :=
  let x := s.core k
  let tags := c.tags.map (fun line => (line, c.id)) ++ x.victims
  s.setCore { x with victims := tags.drop (tags.length - 512) }

/-- A returning team's bundle loads begin again at their first step on its new core (R288, R290). -/
def State.moveRequests (s : State) (l t : Nat) (k : CoreId) : State :=
  { s with requests := s.requests.map (fun (r : Request) =>
      if r.t.launch == l && r.t.team == t then (match r.kind with
        | .ldu ea pc _ _ _ => { r with kind := .lduAgain ea pc [] 0 none, core := k }
        | .lduAgain _ _ _ _ _ => { r with core := k }
        | _ => r) else r) }

/-- A saved team stands on a core again, whose caches keep nothing older than what its threads have written (R31, R109, R140, R172, R242,
R266, R288). -/
def State.restoreTeam (s : State) (l : Launch) (t : Nat) (k : CoreId) : State :=
  match s.team? l.id t with
  | none => s
  | some tm =>
    let s := ((s.setCarve k l.packet.carve).pinLaunch k l t).nextGen k
    let s := s.setTeam { tm with core := k, st := .pinning, image := none, allowed := false, auto := false }
    let s := s.acquireActs l.id t 5
    let cs := s.teamCrews l.id t
    let s := cs.foldl (fun s c => s.bringTags k c) s
    let s := cs.foldl (fun s c => s.seatCrew k { c with lease := min c.lease (carveLines l.packet.carve), tags := [] }) s
    let s := { s with slots := s.slots.map (fun (x : CandSlot) =>
      if x.owner.launch == l.id && x.owner.team == t then { x with pipes := 0, wait := s.cycle + 1 } else x) }
    let s := ((s.retakeTokens l t k).bindChains l.id t k).resumeTeam l.id t k
    let s := s.moveRequests l.id t k
    (s.standTeam l.id t).triggerDecision k

/-- What the threads of a team have read and written reaches its new die: the writes its old die has seen are applied there (R31,
R297). DEDUCED (log entry 25). -/
def State.caughtUp (s : State) (old new : Nat) : Bool :=
  old == new || covers (s.die new).v (vmax (s.die old).v (s.die old).h)

/-- The image of a saved team, read at home. -/
def State.imageOf (s : State) (v : Vf) (tm : Team) : IoRes :=
  let a := v.savebase + tm.image.getD 0 * v.savestride
  match s.partRead v tm.launch a 2 8 with
  | .ok s h =>
    let n := fieldAt h 4 4
    if v.savestride < n then .deny s else s.partRead v tm.launch a (n + 1) n
  | r => r

/-- The images of teams are read and taken over, one after another. -/
def State.readImages (s : State) (v : Vf) : List Team → IoRes
  | [] => .ok s []
  | t :: ts => match s.imageOf v t with
    | .ok s b => (s.readImage t b).readImages v ts
    | r => r

/-- The first of the words that REDTO deliveries have brought to a team while it was out goes into its scratch. -/
def State.landWord (s : State) (l t : Nat) (x : Nat × Word) : State :=
  let s := s.writeScratch l t x.1 (bytesOf 4 x.2.toNat)
  match s.team? l t with
  | none => s
  | some tm => s.setTeam { tm with late := tm.late.drop 1 }

/-- What REDTO deliveries have brought to a team while it was out goes into its scratch, in order, touching its stash lines, once it stands
on a core; the team runs from then on (R108, R172, R194, R199). -/
def State.landLate (s : State) (l t : Nat) : State :=
  match s.team? l t with
  | none => s
  | some tm =>
    if tm.late.isEmpty then s
    else match s.tryAll tm.late (fun s x => (s.stashTouch l t x.1).andThen (fun s _ => .ok (s.landWord l t x) ())) with
      | .ok s _ => (s.startPinned tm.core).triggerDecision tm.core
      | .wait s => s

/-- The teams of a quad team that take a core each where it is placed again: those that are saved, and those that have retired, whose
scratch its peers may reach (R76). -/
def State.returning (s : State) (l q : Nat) : List Team :=
  (s.quadTeams l q).filter (fun t => t.st == .swapped || (t.st == .retired && decide (0 < (s.packet l).carve)))

/-- The teams of a quad team take their cores again. -/
def State.returnTo (s : State) (l : Launch) (ts : List (Team × CoreId)) : State :=
  (ts.map (fun x => x.1.idx)).foldl (fun s t => s.landLate l.id t)
    (ts.foldl (fun s x => if x.1.st == .retired then s.setTeam { x.1 with core := x.2 } else s.restoreTeam l x.1.idx x.2) s)

/-- A VF has had a team placed on the package (R310). -/
def State.noteRestored (s : State) (vf : Nat) : State :=
  match s.vf? vf with
  | none => s
  | some v => s.setVf { v with restored := true }

/-- A team that stands on a core again has words delivered to it while it was out that are not in its scratch yet. -/
def Team.landing (t : Team) : Bool := t.st == .pinning && !t.late.isEmpty

/-- TEAM_RESTORE (R199, R288): a saved quad team is placed again and restored from its images; what was delivered to it while it was out
follows into its scratch. -/
def execTeamRestore (l quad : Nat) (s : State) : Out :=
  match s.vf? (launchVf l), s.launch? l with
  | some v, some x =>
    let ts := (s.quadTeams l quad).filter (fun t => t.st == .swapped)
    let due := (s.quadTeams l quad).filter Team.landing
    if !due.isEmpty then .next (due.foldl (fun s t => s.landLate l t.idx) s).stir
    else if ts.isEmpty || !ts.all s.mayReturn || x.kill.isSome || v.migctl ≠ 0 then .next s
    else
      let chains := (ts.map (fun t => (s.teamChains l t.idx).length)).foldl (· + ·) 0
      let all := s.returning l quad
      match s.chooseCores v x all.length false (fun ks => decide (chains ≤ s.freeAccs ks) &&
          (match ks with
           | k :: _ => ts.all (fun t => s.caughtUp t.core.die k.die)
           | [] => false)) with
      | none => .next s
      | some ks =>
        match s.readImages v ts with
        | .ok s' _ => .next (((s'.returnTo x (all.zip ks)).noteRestored v.id).stir.checkDies l).barrierLeave
        | .wait s' => .next s'
        | .fault _ _ _ => .next s
        | .deny _ => .next s
  | _, _ => .next s

/-! ## Eyelet entries -/

/-- A VF's EYECMD reads a value: its move is over (R289). -/
def State.setEyecmd (s : State) (vf n : Nat) : State :=
  match s.vf? vf with
  | none => s
  | some v => s.setVf { v with eyecmd := n, eyeBusy := none }

/-- A move of an entry is still to be made: EYECMD reads busy (R289). -/
def State.holdEyecmd (s : State) (vf : Nat) (fill : Bool) (k : CoreId) (entry : Nat) : State :=
  match s.vf? vf with
  | none => s
  | some v => s.setVf { v with eyecmd := 1, eyeBusy := some (fill, k, entry) }

/-- Whether the owner of a barrier is swapped out. -/
def State.ownerOut (s : State) (b : Barrier) : Bool :=
  s.teams.any (fun t => t.launch == b.launch && t.st == .swapped &&
    (if b.scope = 1 then t.idx == b.owner else t.idx / (s.packet b.launch).qsize == b.owner))

/-- The 32-byte image of an Eyelet entry (R289). -/
def Barrier.bytes (b : Barrier) : List Byte :=
  bytesOf 8 b.launch ++ bytesOf 4 b.owner ++ bytesOf 1 b.scope ++ bytesOf 1 b.id ++ bytesOf 2 b.phase ++ bytesOf 4 (b.e.getD 0) ++
    bytesOf 4 b.c ++ bytesOf 8 0

/-- EYELET_SPILL (R289): an entry of the VF whose owner is swapped out moves to memory, and its place is free for others; anything else
is refused. -/
def execEyeletSpill (vf : Nat) (k : CoreId) (entry : Nat) (s : State) : Out :=
  match s.vf? vf, s.barriers.find? (fun b => b.inTable k && b.entry == entry) with
  | some v, some b =>
    if b.vf ≠ vf || !s.ownerOut b then .next (s.setEyecmd vf 2)
    else match s.partWrite v 0 v.eyebuf 4 b.bytes with
      | .ok s _ => .next (((s.setBarrier { b with spilled := true }).setEyecmd vf 0).stir)
      | .wait s => .next (s.holdEyecmd vf false k entry)
      | .fault s _ _ => .next (s.setEyecmd vf 2)
      | .deny s => .next (s.setEyecmd vf 2)
  | _, _ => .next (s.setEyecmd vf 2)

/-- The barrier of an entry image for a core's table entry. -/
def barrierFrom (b : List Byte) (k : CoreId) (entry : Nat) : Barrier :=
  let l := fieldAt b 0 8
  let e := fieldAt b 16 4
  { vf := launchVf l, launch := l, scope := fieldAt b 12 1, owner := fieldAt b 8 4, id := fieldAt b 13 1,
    e := if e = 0 then none else some e, c := fieldAt b 20 4, phase := fieldAt b 14 2, core := k, entry := entry, spilled := false,
    clock := [] }

/-- EYELET_FILL (R289): an entry comes back from memory into a free entry of a core's table; a full table refuses it. Every use that
waits for it goes on. Where the entry named is in use the first free one is taken. DESIGN CHOICE (log entry 36). -/
def execEyeletFill (vf : Nat) (k : CoreId) (entry : Nat) (s : State) : Out :=
  match s.vf? vf, s.eyeletFree k with
  | some v, some i =>
    let i := if s.barriers.any (fun b => b.inTable k && b.entry == entry) then i else entry % 64
    match s.partRead v 0 v.eyebuf 4 32 with
    | .ok s b =>
      let x := barrierFrom b k i
      if x.vf ≠ vf || !(x.scope == 1 || x.scope == 2) then .next (s.setEyecmd vf 2)
      else .next ((((s.setBarrier x).setEyecmd vf 0).endSpill x.launch x.scope x.owner x.id).stir.checkBarrier x.launch x.scope x.owner
        x.id).barrierLeave
    | .wait s => .next (s.holdEyecmd vf true k entry)
    | .fault s _ _ => .next (s.setEyecmd vf 2)
    | .deny s => .next (s.setEyecmd vf 2)
  | _, _ => .next (s.setEyecmd vf 2)

/-! ## Live migration -/

/-- MIGCTL (R309): 1 stops the VF's queues and pre-empts every resident team of it. -/
def execMigctl (vf : Nat) (x : Word) (s : State) : Out :=
  match s.vf? vf with
  | none => .next s
  | some v =>
    let on := x = 1
    let s := s.setVf { v with migctl := if on then 1 else 0 }
    .next (if on then (s.launches.filter (fun l => l.vf == vf)).foldl (fun s l => s.preemptLaunch l.id) s else s)

/-- Whether a VF has come to rest (R309 step 2). -/
def State.quiesced (s : State) (vf : Nat) : Bool :=
  s.teams.all (fun t => launchVf t.launch != vf || (!t.on t.core && s.outstanding t.launch t.idx == 0)) &&
    s.engines.all (fun e => e.vf != vf || e.st == .reissue) &&
    s.barriers.all (fun b => b.vf != vf || decide (2 < b.scope) || b.spilled)

/-- MIGRATION_QUIESCED (R309, R310): MIGCTL reads 2 and MIGTIME takes the VF's time. -/
def execMigrationQuiesced (vf : Nat) (s : State) : Out :=
  match s.vf? vf with
  | none => .next s
  | some v => .next (if v.migctl = 1 && s.quiesced vf then s.setVf { v with migctl := 2, migtime := s.vfTime vf } else s)

/-- VTIME (R310): the VF's clock offset on the target, refused once a launch of the VF has been accepted there or a team of it placed. -/
def execVtime (vf : Nat) (x : DWord) (s : State) : Out :=
  match s.vf? vf with
  | none => .next s
  | some v => .next (if v.accepted = 0 && !v.restored then s.setVf { v with vclkoff := x - s.clock + 1 } else s)

end Sys2Proof.Machine
end

