-- ==== Sys2Proof/Machine/Reliability.lean ====
section
/-! DEFINITION. Single faults (R327, R328), replays and rebuilds (R329, R330), checkpoint intervals and rollback (R331), voltages
(R333), throttling and trace capture (R325, R336), power-on (R335), and a master's writes of device memory (R331). -/

namespace Sys2Proof.Machine

/-! ## Intervals -/

/-- The units of a VF's intervals, in start order. -/
def State.allUnits (s : State) (vf : Nat) : List RunUnit :=
  (s.intervals.filter (fun i => i.vf == vf)).flatMap (fun i => i.units)

/-- Whether a unit has ended: it has started, its launches have ended, and its queue's chain does not go on in it (R331). -/
def State.unitEnded (s : State) (v : Vf) (u : RunUnit) : Bool :=
  !u.2.2.isEmpty && u.2.2.all (fun l => (s.launch? l).isNone) &&
    ((v.queue u.1).chain.isNone ||
      (((s.allUnits v.id).filter (fun x => x.1 == u.1 && !x.2.2.isEmpty)).getLast?.map (fun x => x.2.1)) != some u.2.1)

/-- Changes the oldest interval of a VF. -/
def modOldest (vf : Nat) (f : Interval → Interval) : List Interval → List Interval
  | [] => []
  | i :: is => if i.vf == vf then f i :: is else i :: modOldest vf f is

/-- The oldest interval of a VF is closed: it goes. -/
def dropOldest (vf : Nat) : List Interval → List Interval
  | [] => []
  | i :: is => if i.vf == vf then is else i :: dropOldest vf is

/-- The held signals of the oldest interval of a VF are written in order; a page fault holds the rest up (R331, R347). -/
def State.writeSignals (s : State) (v : Vf) : List (Nat × Nat × Nat × Nat) → State
  | [] => { s with intervals := dropOldest v.id s.intervals }
  | x :: rest =>
    let step (s : State) : State := { s with intervals := modOldest v.id (fun i => { i with signals := rest }) s.intervals }
    match s.partWrite v x.2.1 x.2.2.1 9 (bytesOf 8 x.2.2.2) with
    | .fault s va lv =>
      let r := s.nextId
      let s := s.frontRecord v.id x.2.1 va 1 lv
      { s with intervals := modOldest v.id (fun i => { i with signals := x :: rest, wait := some r }) s.intervals }
    | .ok s _ => (step s).writeSignals v rest
    | .deny s => (step s).writeSignals v rest
    | .wait s => s

/-- The ECC check of every line that an interval's launches have written, whether the log had room for it or not: what is uncorrectable is
consumed (R331). -/
def State.checkLines (s : State) (vf : Nat) (i : Interval) : State :=
  (i.log.map (fun e => e.1) ++ i.unlogged).foldl (fun s line => s.consumeAt vf ⟨24, 0⟩ (line * 128) 128) s

/-- INTERVAL_CLOSE (R331): the oldest interval of a VF closes once its last unit has ended; its held signals are written once its earlier
writes have passed their check. -/
def execIntervalClose (vf : Nat) (s : State) : Out :=
  match s.vf? vf, s.intervals.find? (fun i => i.vf == vf) with
  | some v, some i =>
    if !(i.wait.isNone && i.units.all (s.unitEnded v)) then .next s
    else
      let s := s.checkLines vf i
      .next (if s.consumed.any (fun c => c.1 == vf) then s else s.writeSignals v i.signals)
  | _, _ => .next s

/-! ## Rollback -/

/-- The open intervals of a VF, oldest first: one that is writing its signals is open no more. -/
def State.openIntervals (s : State) (vf : Nat) : List Interval := s.intervals.filter (fun i => i.vf == vf && i.wait.isNone)

/-- Two places lie in one protected word: 64 bits, or a burst of 32 bytes of HBM (R328). -/
def sameWord : FaultLoc → FaultLoc → Bool
  | .memory a _, .memory b _ => a / 32 == b / 32
  | .register t i _, .register u j _ => t == u && i / 2 == j / 2
  | .scratch l t a _, .scratch m u b _ => l == m && t == u && a / 8 == b / 8
  | .code k e a _, .code l f b _ => k == l && e == f && a / 8 == b / 8
  | .candidate t a _, .candidate u b _ => t == u && a / 8 == b / 8
  | .eyelet k e a, .eyelet l f b => k == l && e == f && a / 64 == b / 64
  | .crewTable d q a, .crewTable e r b => d == e && q == r && a / 64 == b / 64
  | .l1 k n a _, .l1 l m b _ => k == l && n == m && a / 8 == b / 8
  | .l2 d n a _, .l2 e m b _ => d == e && n == m && a / 8 == b / 8
  | .l2tag d n a, .l2tag e m b => d == e && n == m && a / 64 == b / 64
  | _, _ => false

/-- The line of memory that a stored place holds bytes of, at home or in a cache; a place of any other store is of none. -/
def faultLine : FaultLoc → Option Nat
  | .memory a _ => some (a / 128)
  | .l1 _ n _ _ => some n
  | .l2 _ n _ _ => some n
  | .l2tag _ n _ => some n
  | _ => none

/-- Two places are of the same line, wherever its bytes were found; of a store that holds no line, of one protected word (R331). -/
def sameLine (a b : FaultLoc) : Bool :=
  match faultLine a, faultLine b with
  | some m, some n => m == n
  | none, none => sameWord a b
  | _, _ => false

/-- The bytes a copy keeps when a rollback drops what the context has written and the lines of its logs. -/
def keptBytes (mine : Bool) (logged : Bool) (bs : List CByte) : List CByte :=
  if logged then [] else if mine then bs.filter (fun b => !b.dirty) else bs

/-- The home slice that a numbered request is on its way to (R295). -/
def Request.goesTo (r : Request) : Option GAddr :=
  if r.tag.isEmpty then none else
  match r.kind with
  | .atomic _ _ _ (.glob g) _ _ => some g
  | .redto _ (.glob g) _ _ _ _ => some g
  | .sc _ g _ _ _ => some g
  | .proof _ g _ _ _ _ => some g
  | _ => none

/-- What the context has under way is dropped: writes not yet performed, engine operations, requests and replies. A numbered write
keeps its number and writes nothing, so that every die can go on applying what follows it (R296). A way of a cache that has lost every byte
is invalid (R167, R170). -/
def State.dropUnderWay (s : State) (vf : Nat) (lines : List Nat) : State :=
  let mine (t : ThreadId) : Bool := launchVf t.launch == vf
  let s := s.requests.foldl (fun s r => match mine r.t, r.goesTo with
    | true, some g => s.addMsg r.core.die r.tag (homeOf g.pa) g [] true false
    | _, _ => s) s
  let gone := s.engines.filter (fun e => e.vf == vf)
  let s := { s with
    requests := s.requests.filter (fun r => !mine r.t)
    replies := s.replies.filter (fun r => !mine r.t)
    engines := s.engines.filter (fun e => e.vf != vf)
    chains := s.chains.filter (fun c => launchVf c.launch != vf)
    welt := s.welt.map (fun m => if m.g.vf == vf then { m with bytes := [] } else m)
    teams := s.teams.map (fun (t : Team) => if launchVf t.launch == vf then { t with stash := [], image := none } else t)
    cores := s.cores.map (fun (c : Core) => { c with l1 := (c.l1.map (fun l =>
      { l with bytes := keptBytes (l.g.vf == vf) (lines.contains l.line) l.bytes })).filter (fun l => !l.bytes.isEmpty) })
    dies := s.dies.map (fun (d : Die) => { d with l2 := (d.l2.map (fun l =>
      { l with bytes := keptBytes (l.g.vf == vf) (lines.contains l.line) l.bytes })).filter (fun l =>
        homeOf (l.line * 128) == d.id || !l.bytes.isEmpty) }) }
  gone.foldl (fun s e => s.freeHatch e.no) s

/-- A launch of a context that is rolled back stops as for a kill, and goes (R331). -/
def State.stopAndForget (s : State) (x : Launch) : State :=
  let s := match x.kill with
    | some (_, k) => if x.killed && k.die < 24 then s.freePermit k else s
    | none => s
  (s.stopLaunch x).forget x.id

/-- Restores a logged line (R331). -/
def State.restoreLine (s : State) (e : Nat × List Byte) : State :=
  State.renewStored { s with mem := s.mem.putN (e.1 * 128) e.2 } (fun f => match f with
    | .memory pa _ => pa / 128 == e.1
    | _ => false)

/-- A queue goes back to its earliest packet whose unit is to run again (R331). -/
def rewindQueue (us : List RunUnit) (q : Nat) (x : Queue) : Queue :=
  match us.find? (fun u => u.1 == q) with
  | none => x
  | some u => { x with head := u.2.1, busy := none, chain := none, wait := none, memo := [], fail := none, out := [] }

/-- The context of a VF is rolled back over its open intervals (R331, R326). DEDUCED (log entry 26). -/
def State.rollback (s : State) (v : Vf) (bad : FaultLoc) : State :=
  let is := s.openIntervals v.id
  let us := is.flatMap (fun i => i.units)
  let log := is.reverse.flatMap (fun i => i.log)
  let at_ := s.faultDomain bad
  let s := s.dropUnderWay v.id (log.map (fun e => e.1))
  let s := (s.launches.filter (fun x => x.vf == v.id)).foldl State.stopAndForget s
  let s := log.foldl State.restoreLine s
  let s := match s.vf? v.id with
    | none => s
    | some w => s.setVf { w with queues := ((List.range 16).zip w.queues).map (fun (y : Nat × Queue) => rewindQueue us y.1 y.2) }
  let again : Interval :=
    ⟨v.id, us.map (fun u => (u.1, u.2.1, [])), true, [], [], [], none, bad :: is.flatMap (fun i => i.bad)⟩
  let s : State := { s with intervals := s.intervals.filter (fun (i : Interval) => !(i.vf == v.id && i.wait.isNone)) ++
    (if us.isEmpty then [] else [again]) }
  ((s.preemptDone v.id).traceEvent 5 at_.1 (Config.rollbackName s.mgmt.trtail.toNat)).stir

/-- Whether a VF's context may be rolled back for a place (R331). -/
def State.rollable (s : State) (vf : Nat) (bad : FaultLoc) : Bool :=
  s.launches.all (fun l => l.vf != vf || !l.unrollable) &&
    !((s.openIntervals vf).any (fun i => i.bad.any (sameLine bad)))

/-- The running launches of a VF are killed with detail 0x0E (R331). -/
def State.killContext (s : State) (vf : Nat) (k : CoreId) : State :=
  (s.launches.filter (fun l => l.vf == vf)).foldl (fun s l => s.killLaunch l.id 0x0E k) s

/-- UNCORRECTABLE_CONSUMED (R268, R273, R328, R331): the context that has consumed uncorrectable data is rolled back, or its launches are
killed, from the core of the access that has consumed it. -/
def execUncorrectableConsumed (vf : Nat) (s : State) : Out :=
  match s.vf? vf, s.consumed.find? (fun c => c.1 == vf) with
  | some v, some c =>
    let s := { s with consumed := s.consumed.filter (fun c => c.1 != vf) }
    .next (if s.rollable vf c.2.2 then s.rollback v c.2.2 else s.killContext vf c.2.1)
  | _, _ => .next s

/-! ## Single faults -/

/-- Two places of one word that its code corrects together: the same bit, or bits of one 4-bit symbol of HBM (R328). -/
def sameSymbol : FaultLoc → FaultLoc → Bool
  | .memory a i, .memory b j => a == b && i / 4 == j / 4
  | a, b => a == b

/-- The places of the word of a place, as reads name them. -/
def wordOf (f : FaultLoc) : List FaultLoc :=
  match f with
  | .memory a b => (List.range 32).map (fun i => .memory (a / 32 * 32 + i) b)
  | .register t i b => [.register t (i / 2 * 2) b, .register t (i / 2 * 2 + 1) b]
  | .scratch l t a b => (List.range 8).map (fun i => .scratch l t (a / 8 * 8 + i) b)
  | .code k e a b => [.code k e (a / 8 * 8) b, .code k e (a / 8 * 8 + 4) b]
  | .candidate t a b => (List.range 8).map (fun i => .candidate t (a / 8 * 8 + i) b)
  | .l1 k n a b => (List.range 8).map (fun i => .l1 k n (a / 8 * 8 + i) b)
  | .l2 d n a b => (List.range 8).map (fun i => .l2 d n (a / 8 * 8 + i) b)
  | x => [x]

/-- Every single fault that no read has found is corrected in place and counted (R327, R333). -/
def State.scrub (s : State) : State :=
  s.flips.foldl (fun s f => s.countErr (s.faultDomain f).1 (s.faultDomain f).2) { s with flips := [] }

/-- SINGLE_FAULT (R327, R328): a stored bit flips. Alone in its word it will be corrected; with another the word is poisoned. -/
def execSingleFault (loc : FaultLoc) (s : State) : Out :=
  .next (if s.poison.any (sameWord loc) then s
    else if s.flips.any (fun f => sameWord loc f && !sameSymbol loc f) then
      { s with flips := s.flips.filter (fun f => !sameWord loc f), poison := s.poison ++ wordOf loc }
    else if s.flips.contains loc then { s with flips := s.flips.filter (fun f => f != loc) }
    else { s with flips := s.flips ++ [loc] })

/-- TIMING_REPLAY (R329): a quarter repeats a cycle; a second late transition in the repeated cycle is uncorrectable data consumed by
the bundle. -/
def execTimingReplay (k : CoreId) (quarter : Nat) (s : State) : Out :=
  let c := s.core k
  if c.replays.contains (quarter, s.cycle) then
    .next (match (c.bundles.getD quarter none).bind (fun b => b.members.head?.map (fun t => (b.launch, t))) with
      | none => s
      | some (l, t) => s.consume (launchVf l) k (.register t 0 0))
  else .next ((s.countErr k.die (k.core / 4)).setCore { c with replays := c.replays.filter (fun r => r.1 != quarter) ++ [(quarter, s.cycle)] })

/-- SCHEDULER_REBUILD (R330): the crews of a quad stop at an instruction boundary and its scheduler is rebuilt from the crew tables, in
at most 4,096 cycles. DEDUCED (log entry 26). -/
def execSchedulerRebuild (die quad : Nat) (s : State) : Out :=
  let on (k : CoreId) : Bool := k.die == die && k.core / 4 == quad
  let s := s.useCrewTable die quad
  let d := s.die die
  let s := s.setDie { d with
    rebuilding := d.rebuilding.filter (fun r => r.1 != quad) ++ [(quad, s.cycle + min (Config.rebuildCycles s.cycle) 4096)] }
  .next { s with
    issueQ := s.issueQ.filter (fun t => !on (s.coreOf t.launch t.team))
    cores := s.cores.map (fun (c : Core) => if on c.id then { c with bundles := [none, none, none, none] } else c) }

/-! ## Voltages -/

/-- A domain after an evaluation, with `nominal` its steps from the floor to nominal voltage (R333). -/
def VDomain.evaluate (x : VDomain) (nominal : Nat) : VDomain :=
  if 64 < x.errs then
    { steps := min (x.steps + 1) nominal, errs := 0, good := 0, bad := if nominal ≤ x.steps then x.bad + 1 else 0, evals := x.evals + 1 }
  else if x.errs ≤ 32 then
    (if x.good + 1 = 1024 then { steps := x.steps - 1, errs := 0, good := 0, bad := 0, evals := x.evals + 1 }
     else { steps := x.steps, errs := 0, good := x.good + 1, bad := 0, evals := x.evals + 1 })
  else { steps := x.steps, errs := 0, good := 0, bad := 0, evals := x.evals + 1 }

/-- VOLTAGE_EVALUATION (R333): a domain is evaluated once per 1,000,000 CLOCK counts. -/
def execVoltageEvaluation (die dom : Nat) (s : State) : Out :=
  let d := s.die die
  match d.doms[dom]? with
  | none => .next s
  | some x =>
    if s.clock.toNat < (x.evals + 1) * 1000000 then .next s
    else
      let y := x.evaluate (Config.nominalSteps die dom)
      let s := s.setDie { d with doms := d.doms.set dom y }
      .next (if y.bad = 8 then State.interrupt { s with mgmt := { s.mgmt with predFail := true } } 64 else s)

/-! ## Throttling and capture -/

/-- THROTTLE_START (R325, R326, R336): a die's arithmetic clock falls by 100 MHz; the first step is a trace event, and starts capture
where that is armed. -/
def execThrottleStart (die : Nat) (s : State) : Out :=
  let d := s.die die
  let s' := s.setDie { d with throttled := true, slow := min (d.slow + 1) 20 }
  .next (if d.throttled then s'
    else State.traceEvent { s' with mgmt := { s'.mgmt with capturing := s'.mgmt.capturing || s'.mgmt.trctl.getLsbD 0 } } 0 die 0)

/-- THROTTLE_END (R325, R326, R336): the cause clears and the die's clock returns. -/
def execThrottleEnd (die : Nat) (s : State) : Out :=
  let d := s.die die
  if !d.throttled then .next s
  else
    let s := s.setDie { d with throttled := false, slow := 0 }
    .next (State.traceEvent { s with mgmt := { s.mgmt with throttleEnd := s.clock.toNat } } 1 die 0)

/-- TRACE_CAPTURE_STOP (R325): capture stops 1,000,000 CLOCK counts after the last throttle end. -/
def execTraceCaptureStop (s : State) : Out :=
  .next (if s.mgmt.capturing && s.dies.all (fun d => !d.throttled) && decide (s.mgmt.throttleEnd + 1000000 ≤ s.clock.toNat)
    then { s with mgmt := { s.mgmt with capturing := false } } else s)

/-! ## Power-on -/

/-- MSTATUS as the masters read it (R334). -/
def Mgmt.mstatus (g : Mgmt) : Word :=
  BitVec.ofNat 32 ((if g.ready then 1 else 0) + (if g.calfail then 2 else 0) + (if g.memInit then 4 else 0) +
    (if g.predFail then 8 else 0) + 256 * (g.failing % 256))

/-- An element that calibration may find failing: die × 8 + its kind, of five (R334). -/
def calElement (e : Nat) : Bool := decide (e / 8 < 24 ∧ e % 8 < 5)

/-- POWER_ON (R334, R335): calibration; where an element fails, READY is never set, else memory initialisation starts. -/
def execPowerOn (failing : Option Nat) (s : State) : Out :=
  .next (if s.mgmt.powered then s
    else match failing with
      | some e => if calElement e then { s with mgmt := { s.mgmt with powered := true, calfail := true, failing := e } } else s
      | none => { s with mgmt := { s.mgmt with powered := true, memInit := true } })

/-- MEMORY_INIT_COMPLETE (R19, R201, R306, R335): all device memory is zero, READY is set, CLOCK counts from 0; host memory and other
packages' keep their bytes. -/
def execMemoryInitComplete (s : State) : Out :=
  .next (if s.mgmt.memInit then
      { s with mem := s.mem.filter (fun (c : Host.Cell) => decide (24 ≤ homeOf c.1)), cores := [], dies := [], flips := [], poison := [], cycle := 0, clock := 0
               mgmt := { s.mgmt with memInit := false, ready := true, semLoser := none } }
    else s)

/-! ## Masters -/

/-- A master's write of device memory: made, or the first of those that wait (R297). -/
def State.masterWrite (s : State) (v : Vf) (x : Nat × Nat × Nat × List Byte) (rest : List (Nat × Nat × Nat × List Byte)) : State :=
  let left (s : State) (w : List (Nat × Nat × Nat × List Byte)) : State := { s with mgmt := { s.mgmt with writes := w } }
  match (s.masterTouch v.id).partWrite v 0 x.2.2.1 (x.2.2.2.length + 1) x.2.2.2 with
  | .ok s _ => left s rest
  | .fault s _ _ => left s rest
  | .deny s => left s rest
  | .wait s => left s (x :: rest)

/-- MASTER_MEMORY_WRITE (R331): a master writes bytes of a VF's device memory; writes that have to wait stay in order. -/
def execMasterMemoryWrite (m vf va : Nat) (bs : List Byte) (s : State) : Out :=
  let x := (m, vf, va, bs)
  match s.mgmt.writes with
  | [] => (match s.vf? vf with
    | none => .next s
    | some v => if 2 ≤ m then .next s else .next (s.masterWrite v x []))
  | y :: ys =>
    if y = x then (match s.vf? vf with
      | none => .next { s with mgmt := { s.mgmt with writes := ys } }
      | some v => .next (s.masterWrite v x ys))
    else if 2 ≤ m then .next s
    else .next { s with mgmt := { s.mgmt with writes := y :: ys ++ [x] } }

end Sys2Proof.Machine
end

