-- ==== Sys2Proof/Machine/Sys.lean ====
section
/-! DEFINITION. The SYS words of one thread (major 14): NOP, RDS, WRS, WIN, TRAP, TRET, BKPT (R16 to R20, R73 to R75,
R274, R275), the reserved hints (R56), and the fate of a word that fails at fetch (R59 to R61, R345). -/

namespace Sys2Proof.Machine

/-! ## Special registers -/

/-- An index split by extents, fastest first (R18). -/
def splitIndex (i : Nat) (n : Nat × Nat × Nat) : Nat × Nat × Nat :=
  (i % n.1, i / n.1 % n.2.1, i / n.1 / n.2.1)

/-- The value of a trap register: 0 outside a trap handler (R16, R271). -/
def Thread.trapReg (t : Thread) (v : Word) : Word := if t.inHandler then v else 0

/-- The value of a special register (R16 to R20). Undefined bits and the reserved selectors read 0. -/
def State.special (s : State) (sel : Nat) : Word :=
  let t := s.cur
  let p := s.pk
  let k := s.curCore
  let v := s.vf? (launchVf t.id.launch)
  let w (x : Nat) : Word := BitVec.ofNat 32 x
  let ti := splitIndex t.id.lin p.ntid
  let gi := splitIndex t.id.team p.nteam
  match sel with
  | 0 => w ti.1
  | 1 => w ti.2.1
  | 2 => w ti.2.2
  | 3 => w p.ntid.1
  | 4 => w p.ntid.2.1
  | 5 => w p.ntid.2.2
  | 6 => w gi.1
  | 7 => w gi.2.1
  | 8 => w gi.2.2
  | 9 => w p.nteam.1
  | 10 => w p.nteam.2.1
  | 11 => w p.nteam.2.2
  | 12 => w (crewOf t.id).crew
  | 13 => w (rankOf t.id)
  | 14 => w (t.id.team % p.qsize)
  | 15 => w p.qsize
  | 16 => w k.core
  | 17 => w k.die
  | 18 => w t.id.launch
  | 19 => w (t.id.launch / 2 ^ 32)
  | 20 => DWord.lo (s.vfTime (launchVf t.id.launch))
  | 21 => t.clockLatch
  | 22 => t.fpmode.zeroExtend 32
  | 23 => t.fpflags.zeroExtend 32
  | 24 => t.intflags.zeroExtend 32
  | 25 => w t.winbase
  | 26 => w t.regs.length
  | 27 => t.lk
  | 28 => w p.carve
  | 29 => match s.crew? (crewOf t.id) with
    | some c => w (c.lease % 65536 + if c.measured then 65536 else 0)
    | none => 0
  | 30 => (v.map (fun x => x.feature0)).getD 0
  | 31 => (v.map (fun x => x.feature1)).getD 0
  | 32 => 0x03000000 ||| Config.stepping.zeroExtend 32
  | 33 => (v.map (fun x => x.migepoch)).getD 0
  | 34 => w p.nbv
  | 35 => p.flags &&& 0x7FF
  | 36 => t.trapReg t.trapcode
  | 37 => t.trapReg t.trappc
  | 38 => t.trapReg t.trapmask
  | 39 => t.trapReg t.trapinfo
  | 40 => t.trapReg (DWord.lo t.trapaddr)
  | 41 => t.trapReg (DWord.hi t.trapaddr)
  | n =>
    if 64 ≤ n then ((s.launch? t.id.launch).bind (fun l => l.consts[n - 64]?)).getD 0
    else if 48 ≤ n then w (((s.crew? (crewOf t.id)).bind (fun c => c.stall[n - 48]?)).getD 0)
    else 0

/-- RDS (R16, R74). RDS of CLOCKLO also fills the clock latch (R19). -/
def execRds (sp : Bool) (d : Reg) (sel : BitVec 7) (s : State) : Out :=
  issue sp false [opD d] s (fun s =>
    if 42 ≤ sel.toNat ∧ sel.toNat ≤ 47 then s.raise 0x01 6 0
    else
      let x := s.special sel.toNat
      let s := if sel = 20 then
          s.setCur { s.cur with clockLatch := DWord.hi (s.vfTime (launchVf s.cur.id.launch)) } else s
      s.result d [x])

/-- WRS (R16, R20, R74): the defined bits of a writable register. -/
def execWrs (sp : Bool) (a : Reg) (sel : BitVec 7) (s : State) : Out :=
  issue sp false [opA a] s (fun s =>
    let x := s.cur.w a
    if sel = 22 then (s.setCur { s.cur with fpmode := x.extractLsb' 0 2 }).advance
    else if sel = 23 then (s.setCur { s.cur with fpflags := x.extractLsb' 0 5 }).advance
    else if sel = 24 then (s.setCur { s.cur with intflags := x.extractLsb' 0 2 }).advance
    else if sel = 27 then (s.setCur { s.cur with lk := x }).advance
    else s.raise 0x01 6 0)

/-- Whether a window base keeps the invariant of R13 under an allocation (R73). -/
def windowOk (v alloc : Nat) : Bool := v == 0 || (v % 16 == 0 && decide (v + 128 ≤ alloc))

/-- WIN (R73). -/
def execWin (sp : Bool) (a : Reg) (s : State) : Out :=
  issue sp false [opA a] s (fun s =>
    let v := (s.cur.w a).toNat
    if windowOk v s.cur.regs.length then (s.setCur { s.cur with winbase := v }).advance
    else s.raise 0x02 v 0)

/-! ## NOP and the reserved hints -/

/-- NOP (R75). -/
def execNop (sp : Bool) (s : State) : Out := issue sp false [] s (fun s => s.advance)

/-- A reserved hint (R56): a NOP whose fields are ignored. -/
def execReservedHint (sp : Bool) (_f : BitVec 5) (_d _a _b : Reg) (s : State) : Out :=
  issue sp false [] s (fun s => s.advance)

/-! ## Traps -/

/-- TRAP (R274): the resume address is the next word's, TRAPPC + 4 as R267 gives it. From a word at offset 0xFFFC, where R34 knows no next
word, it is that sum all the same, the first address of the next segment id. DESIGN CHOICE (log entry 10). -/
def execTrap (sp : Bool) (b : BitVec 7) (s : State) : Out :=
  issue sp false [] s (fun s =>
    s.trapThread s.cur.id (0x80 + b.toNat) 0 0 s.cur.pc (s.cur.pc + 4))

/-- THE RETURN FROM A TRAP (R274), of a group member whose target has passed its checks: LK and MEET take their saved
values and the member leaves the handler. -/
def State.trapReturn (s : State) (tgt : Word) : State :=
  let t := s.cur
  (s.setCur { t with lk := t.tlk, meet := t.tmeet, inHandler := false }).transferRel tgt
    (t.relTrap && tgt == t.trappc)

/-- TRET (R274). -/
def execTret (sp : Bool) (s : State) : Out :=
  issue sp false [] s (fun s =>
    if !s.cur.inHandler then s.raise 0x01 8 0
    else match s.badTarget s.cur.lk with
      | some c => s.raise 0x04 c (s.cur.lk.zeroExtend 64)
      | none => s.trapReturn s.cur.lk)

/-- BKPT (R274, R275): a debug stop where debug is enabled, which completes once RESUME lets it; else a trap, whose resume address is as
TRAP's. -/
def execBkpt (sp : Bool) (s : State) : Out :=
  issue sp false [] s (fun s =>
    if !s.cur.debugPass.isEmpty then s.advance
    else
      let v := launchVf s.cur.id.launch
      if ((s.vf? v).map (fun x => x.dbgctl.getLsbD 0)).getD false then s.debugStop v (Config.recordVa s.nextId) 0x10 0
      else s.trapThread s.cur.id 0x10 0 0 s.cur.pc (s.cur.pc + 4))

/-- ILLEGAL_WORD_FETCH (R59 to R61, R345): the word in turn fails a check that depends on it alone, or the pc has
fallen through to the segment's length, which is reported on the word before. -/
def execIllegalWordFetch (f : FetchFault) (s : State) : Out :=
  match f with
  | .illegal r => .next (s.raise 0x01 r 0)
  | .codebound =>
    let pc := s.cur.pc - 4
    .next (s.trapThread s.cur.id 0x04 1 (BitVec.ofNat 64 (offOf s.cur.pc)) pc pc)

end Sys2Proof.Machine
end

