-- ==== Sys2Proof/Machine/Dispatch.lean ====
section
/-! DEFINITION. The ONE dispatch: an arm for every constructor of `Instr`, each a direct call of its meaning. -/

namespace Sys2Proof.Machine

/-- What each of the part's steps does to the state. -/
def exec (i : Instr) (s : State) : Host.Outcome State Fault Refusal :=
  match i with
  | .add sp d a b => Sys2Proof.Machine.execAdd sp d a b s
  | .sub sp d a b => Sys2Proof.Machine.execSub sp d a b s
  | .mullo sp d a b => Sys2Proof.Machine.execMullo sp d a b s
  | .mulhiS32 sp d a b => Sys2Proof.Machine.execMulhiS32 sp d a b s
  | .mulhiN32 sp d a b => Sys2Proof.Machine.execMulhiN32 sp d a b s
  | .mulwS32 sp d a b => Sys2Proof.Machine.execMulwS32 sp d a b s
  | .mulwN32 sp d a b => Sys2Proof.Machine.execMulwN32 sp d a b s
  | .mad sp d a b => Sys2Proof.Machine.execMad sp d a b s
  | .divS32 sp d a b => Sys2Proof.Machine.execDivS32 sp d a b s
  | .divN32 sp d a b => Sys2Proof.Machine.execDivN32 sp d a b s
  | .remS32 sp d a b => Sys2Proof.Machine.execRemS32 sp d a b s
  | .remN32 sp d a b => Sys2Proof.Machine.execRemN32 sp d a b s
  | .and sp d a b => Sys2Proof.Machine.execAnd sp d a b s
  | .or sp d a b => Sys2Proof.Machine.execOr sp d a b s
  | .xor sp d a b => Sys2Proof.Machine.execXor sp d a b s
  | .andn sp d a b => Sys2Proof.Machine.execAndn sp d a b s
  | .orn sp d a b => Sys2Proof.Machine.execOrn sp d a b s
  | .shl sp d a b => Sys2Proof.Machine.execShl sp d a b s
  | .shr sp d a b => Sys2Proof.Machine.execShr sp d a b s
  | .sar sp d a b => Sys2Proof.Machine.execSar sp d a b s
  | .rotl sp d a b => Sys2Proof.Machine.execRotl sp d a b s
  | .rotr sp d a b => Sys2Proof.Machine.execRotr sp d a b s
  | .minS32 sp d a b => Sys2Proof.Machine.execMinS32 sp d a b s
  | .minN32 sp d a b => Sys2Proof.Machine.execMinN32 sp d a b s
  | .maxS32 sp d a b => Sys2Proof.Machine.execMaxS32 sp d a b s
  | .maxN32 sp d a b => Sys2Proof.Machine.execMaxN32 sp d a b s
  | .sad sp d a b => Sys2Proof.Machine.execSad sp d a b s
  | .sel sp d a b => Sys2Proof.Machine.execSel sp d a b s
  | .seteq sp d a b => Sys2Proof.Machine.execSeteq sp d a b s
  | .setne sp d a b => Sys2Proof.Machine.execSetne sp d a b s
  | .setltS32 sp d a b => Sys2Proof.Machine.execSetltS32 sp d a b s
  | .setltN32 sp d a b => Sys2Proof.Machine.execSetltN32 sp d a b s
  | .setleS32 sp d a b => Sys2Proof.Machine.execSetleS32 sp d a b s
  | .setleN32 sp d a b => Sys2Proof.Machine.execSetleN32 sp d a b s
  | .clz sp d a => Sys2Proof.Machine.execClz sp d a s
  | .popc sp d a => Sys2Proof.Machine.execPopc sp d a s
  | .brev sp d a => Sys2Proof.Machine.execBrev sp d a s
  | .bfxS32 sp d a b => Sys2Proof.Machine.execBfxS32 sp d a b s
  | .bfxN32 sp d a b => Sys2Proof.Machine.execBfxN32 sp d a b s
  | .bfi sp d a b => Sys2Proof.Machine.execBfi sp d a b s
  | .add64 sp d a b => Sys2Proof.Machine.execAdd64 sp d a b s
  | .sub64 sp d a b => Sys2Proof.Machine.execSub64 sp d a b s
  | .shl64 sp d a b => Sys2Proof.Machine.execShl64 sp d a b s
  | .shr64 sp d a b => Sys2Proof.Machine.execShr64 sp d a b s
  | .sar64 sp d a b => Sys2Proof.Machine.execSar64 sp d a b s
  | .seteq64 sp d a b => Sys2Proof.Machine.execSeteq64 sp d a b s
  | .setlt64S sp d a b => Sys2Proof.Machine.execSetlt64S sp d a b s
  | .setlt64N sp d a b => Sys2Proof.Machine.execSetlt64N sp d a b s
  | .mad64N32 sp d a b => Sys2Proof.Machine.execMad64N32 sp d a b s
  | .mad64S32 sp d a b => Sys2Proof.Machine.execMad64S32 sp d a b s
  | .mov sp d a => Sys2Proof.Machine.execMov sp d a s
  | .mov64 sp d a => Sys2Proof.Machine.execMov64 sp d a s
  | .addi sp d a imm => Sys2Proof.Machine.execAddi sp d a imm s
  | .andi sp d a imm => Sys2Proof.Machine.execAndi sp d a imm s
  | .ori sp d a imm => Sys2Proof.Machine.execOri sp d a imm s
  | .xori sp d a imm => Sys2Proof.Machine.execXori sp d a imm s
  | .shli sp d a imm => Sys2Proof.Machine.execShli sp d a imm s
  | .shri sp d a imm => Sys2Proof.Machine.execShri sp d a imm s
  | .sari sp d a imm => Sys2Proof.Machine.execSari sp d a imm s
  | .setltiS32 sp d a imm => Sys2Proof.Machine.execSetltiS32 sp d a imm s
  | .fadd sp d a b => Sys2Proof.Machine.execFadd sp d a b s
  | .fsub sp d a b => Sys2Proof.Machine.execFsub sp d a b s
  | .fmul sp d a b => Sys2Proof.Machine.execFmul sp d a b s
  | .fma sp d a b => Sys2Proof.Machine.execFma sp d a b s
  | .fmin sp d a b => Sys2Proof.Machine.execFmin sp d a b s
  | .fmax sp d a b => Sys2Proof.Machine.execFmax sp d a b s
  | .fdiv sp d a b => Sys2Proof.Machine.execFdiv sp d a b s
  | .fsqrt sp d a => Sys2Proof.Machine.execFsqrt sp d a s
  | .frcp sp d a => Sys2Proof.Machine.execFrcp sp d a s
  | .frsq sp d a => Sys2Proof.Machine.execFrsq sp d a s
  | .fexp2 sp d a => Sys2Proof.Machine.execFexp2 sp d a s
  | .flog2 sp d a => Sys2Proof.Machine.execFlog2 sp d a s
  | .fabs sp d a => Sys2Proof.Machine.execFabs sp d a s
  | .fneg sp d a => Sys2Proof.Machine.execFneg sp d a s
  | .frint sp d a => Sys2Proof.Machine.execFrint sp d a s
  | .fclass sp d a => Sys2Proof.Machine.execFclass sp d a s
  | .fseteq sp d a b => Sys2Proof.Machine.execFseteq sp d a b s
  | .fsetlt sp d a b => Sys2Proof.Machine.execFsetlt sp d a b s
  | .fsetle sp d a b => Sys2Proof.Machine.execFsetle sp d a b s
  | .fsetun sp d a b => Sys2Proof.Machine.execFsetun sp d a b s
  | .dadd sp d a b => Sys2Proof.Machine.execDadd sp d a b s
  | .dsub sp d a b => Sys2Proof.Machine.execDsub sp d a b s
  | .dmul sp d a b => Sys2Proof.Machine.execDmul sp d a b s
  | .dfma sp d a b => Sys2Proof.Machine.execDfma sp d a b s
  | .dmin sp d a b => Sys2Proof.Machine.execDmin sp d a b s
  | .dmax sp d a b => Sys2Proof.Machine.execDmax sp d a b s
  | .ddiv sp d a b => Sys2Proof.Machine.execDdiv sp d a b s
  | .dsqrt sp d a => Sys2Proof.Machine.execDsqrt sp d a s
  | .drint sp d a => Sys2Proof.Machine.execDrint sp d a s
  | .dseteq sp d a b => Sys2Proof.Machine.execDseteq sp d a b s
  | .dsetlt sp d a b => Sys2Proof.Machine.execDsetlt sp d a b s
  | .dsetle sp d a b => Sys2Proof.Machine.execDsetle sp d a b s
  | .hadd2 sp d a b => Sys2Proof.Machine.execHadd2 sp d a b s
  | .hmul2 sp d a b => Sys2Proof.Machine.execHmul2 sp d a b s
  | .hfma2 sp d a b => Sys2Proof.Machine.execHfma2 sp d a b s
  | .badd2 sp d a b => Sys2Proof.Machine.execBadd2 sp d a b s
  | .bmul2 sp d a b => Sys2Proof.Machine.execBmul2 sp d a b s
  | .bfma2 sp d a b => Sys2Proof.Machine.execBfma2 sp d a b s
  | .cvtF32S32 sp d a => Sys2Proof.Machine.execCvtF32S32 sp d a s
  | .cvtF32N32 sp d a => Sys2Proof.Machine.execCvtF32N32 sp d a s
  | .cvtS32F32 sp d a => Sys2Proof.Machine.execCvtS32F32 sp d a s
  | .cvtN32F32 sp d a => Sys2Proof.Machine.execCvtN32F32 sp d a s
  | .cvtF64F32 sp d a => Sys2Proof.Machine.execCvtF64F32 sp d a s
  | .cvtF32F64 sp d a => Sys2Proof.Machine.execCvtF32F64 sp d a s
  | .cvtF64S32 sp d a => Sys2Proof.Machine.execCvtF64S32 sp d a s
  | .cvtS32F64 sp d a => Sys2Proof.Machine.execCvtS32F64 sp d a s
  | .cvtF64S64 sp d a => Sys2Proof.Machine.execCvtF64S64 sp d a s
  | .cvtS64F64 sp d a => Sys2Proof.Machine.execCvtS64F64 sp d a s
  | .cvtF64N64 sp d a => Sys2Proof.Machine.execCvtF64N64 sp d a s
  | .cvtN64F64 sp d a => Sys2Proof.Machine.execCvtN64F64 sp d a s
  | .packF16 sp d a b => Sys2Proof.Machine.execPackF16 sp d a b s
  | .packBf16 sp d a b => Sys2Proof.Machine.execPackBf16 sp d a b s
  | .unpkF16 sp d a => Sys2Proof.Machine.execUnpkF16 sp d a s
  | .unpkBf16 sp d a => Sys2Proof.Machine.execUnpkBf16 sp d a s
  | .sext8 sp d a => Sys2Proof.Machine.execSext8 sp d a s
  | .sext16 sp d a => Sys2Proof.Machine.execSext16 sp d a s
  | .qntN8 sp d a b => Sys2Proof.Machine.execQntN8 sp d a b s
  | .dqntN8 sp d a b => Sys2Proof.Machine.execDqntN8 sp d a b s
  | .lds sp d imm => Sys2Proof.Machine.execLds sp d imm s
  | .ldh sp d imm => Sys2Proof.Machine.execLdh sp d imm s
  | .orl sp d imm => Sys2Proof.Machine.execOrl sp d imm s
  | .addpc sp d imm => Sys2Proof.Machine.execAddpc sp d imm s
  | .beqz sp a off => Sys2Proof.Machine.execBeqz sp a off s
  | .bnez sp a off => Sys2Proof.Machine.execBnez sp a off s
  | .bltz sp a off => Sys2Proof.Machine.execBltz sp a off s
  | .bgez sp a off => Sys2Proof.Machine.execBgez sp a off s
  | .bgtz sp a off => Sys2Proof.Machine.execBgtz sp a off s
  | .blez sp a off => Sys2Proof.Machine.execBlez sp a off s
  | .bra sp off => Sys2Proof.Machine.execBra sp off s
  | .jmp sp off => Sys2Proof.Machine.execJmp sp off s
  | .call sp off => Sys2Proof.Machine.execCall sp off s
  | .ld8S sp pol d a off => Sys2Proof.Machine.execLd8S sp pol d a off s
  | .ld8N sp pol d a off => Sys2Proof.Machine.execLd8N sp pol d a off s
  | .ld16S sp pol d a off => Sys2Proof.Machine.execLd16S sp pol d a off s
  | .ld16N sp pol d a off => Sys2Proof.Machine.execLd16N sp pol d a off s
  | .ld32 sp pol d a off => Sys2Proof.Machine.execLd32 sp pol d a off s
  | .ld64 sp pol d a off => Sys2Proof.Machine.execLd64 sp pol d a off s
  | .ld128 sp pol d a off => Sys2Proof.Machine.execLd128 sp pol d a off s
  | .st8 sp pol d a off => Sys2Proof.Machine.execSt8 sp pol d a off s
  | .st16 sp pol d a off => Sys2Proof.Machine.execSt16 sp pol d a off s
  | .st32 sp pol d a off => Sys2Proof.Machine.execSt32 sp pol d a off s
  | .st64 sp pol d a off => Sys2Proof.Machine.execSt64 sp pol d a off s
  | .st128 sp pol d a off => Sys2Proof.Machine.execSt128 sp pol d a off s
  | .aadd sp sc d a b => Sys2Proof.Machine.execAadd sp sc d a b s
  | .aadd64 sp sc d a b => Sys2Proof.Machine.execAadd64 sp sc d a b s
  | .aminS32 sp sc d a b => Sys2Proof.Machine.execAminS32 sp sc d a b s
  | .aminN32 sp sc d a b => Sys2Proof.Machine.execAminN32 sp sc d a b s
  | .amaxS32 sp sc d a b => Sys2Proof.Machine.execAmaxS32 sp sc d a b s
  | .amaxN32 sp sc d a b => Sys2Proof.Machine.execAmaxN32 sp sc d a b s
  | .aand sp sc d a b => Sys2Proof.Machine.execAand sp sc d a b s
  | .aor sp sc d a b => Sys2Proof.Machine.execAor sp sc d a b s
  | .axor sp sc d a b => Sys2Proof.Machine.execAxor sp sc d a b s
  | .axchg sp sc d a b => Sys2Proof.Machine.execAxchg sp sc d a b s
  | .axchg64 sp sc d a b => Sys2Proof.Machine.execAxchg64 sp sc d a b s
  | .acas sp sc d a b => Sys2Proof.Machine.execAcas sp sc d a b s
  | .acas64 sp sc d a b => Sys2Proof.Machine.execAcas64 sp sc d a b s
  | .afadd sp sc d a b => Sys2Proof.Machine.execAfadd sp sc d a b s
  | .afadd64 sp sc d a b => Sys2Proof.Machine.execAfadd64 sp sc d a b s
  | .aincw sp sc d a b => Sys2Proof.Machine.execAincw sp sc d a b s
  | .fence sp kind sc => Sys2Proof.Machine.execFence sp kind sc s
  | .ldsc sp d a => Sys2Proof.Machine.execLdsc sp d a s
  | .stsc sp a b => Sys2Proof.Machine.execStsc sp a b s
  | .cassc sp d a b => Sys2Proof.Machine.execCassc sp d a b s
  | .waitcEq sp d a b => Sys2Proof.Machine.execWaitcEq sp d a b s
  | .waitcNe sp d a b => Sys2Proof.Machine.execWaitcNe sp d a b s
  | .waitcGeS32 sp d a b => Sys2Proof.Machine.execWaitcGeS32 sp d a b s
  | .waitcGeN32 sp d a b => Sys2Proof.Machine.execWaitcGeN32 sp d a b s
  | .waitcLtS32 sp d a b => Sys2Proof.Machine.execWaitcLtS32 sp d a b s
  | .waitcLtN32 sp d a b => Sys2Proof.Machine.execWaitcLtN32 sp d a b s
  | .redtoAdd sp d a b => Sys2Proof.Machine.execRedtoAdd sp d a b s
  | .redtoFadd sp d a b => Sys2Proof.Machine.execRedtoFadd sp d a b s
  | .redtoMinS32 sp d a b => Sys2Proof.Machine.execRedtoMinS32 sp d a b s
  | .redtoMaxS32 sp d a b => Sys2Proof.Machine.execRedtoMaxS32 sp d a b s
  | .redtoOr sp d a b => Sys2Proof.Machine.execRedtoOr sp d a b s
  | .bar sp a sc => Sys2Proof.Machine.execBar sp a sc s
  | .bara sp a sc => Sys2Proof.Machine.execBara sp a sc s
  | .barw sp a sc => Sys2Proof.Machine.execBarw sp a sc s
  | .barinit sp d a sc => Sys2Proof.Machine.execBarinit sp d a sc s
  | .meet sp a => Sys2Proof.Machine.execMeet sp a s
  | .meetq sp d => Sys2Proof.Machine.execMeetq sp d s
  | .cshfl sp d a b => Sys2Proof.Machine.execCshfl sp d a b s
  | .cshflx sp d a b => Sys2Proof.Machine.execCshflx sp d a b s
  | .cup sp d a b => Sys2Proof.Machine.execCup sp d a b s
  | .cdn sp d a b => Sys2Proof.Machine.execCdn sp d a b s
  | .cbcast sp d a b => Sys2Proof.Machine.execCbcast sp d a b s
  | .cvany sp d a => Sys2Proof.Machine.execCvany sp d a s
  | .cvall sp d a => Sys2Proof.Machine.execCvall sp d a s
  | .cballot sp d a => Sys2Proof.Machine.execCballot sp d a s
  | .cradd sp d a => Sys2Proof.Machine.execCradd sp d a s
  | .crfadd sp d a => Sys2Proof.Machine.execCrfadd sp d a s
  | .crminS32 sp d a => Sys2Proof.Machine.execCrminS32 sp d a s
  | .crmaxS32 sp d a => Sys2Proof.Machine.execCrmaxS32 sp d a s
  | .cscan sp d a => Sys2Proof.Machine.execCscan sp d a s
  | .cscanf sp d a => Sys2Proof.Machine.execCscanf sp d a s
  | .sld32 sp d a => Sys2Proof.Machine.execSld32 sp d a s
  | .sst32 sp d a => Sys2Proof.Machine.execSst32 sp d a s
  | .sld64 sp d a => Sys2Proof.Machine.execSld64 sp d a s
  | .sst64 sp d a => Sys2Proof.Machine.execSst64 sp d a s
  | .qld32 sp d a => Sys2Proof.Machine.execQld32 sp d a s
  | .qst32 sp d a => Sys2Proof.Machine.execQst32 sp d a s
  | .lease sp a => Sys2Proof.Machine.execLease sp a s
  | .leasem sp a => Sys2Proof.Machine.execLeasem sp a s
  | .work sp d => Sys2Proof.Machine.execWork sp d s
  | .steal sp d => Sys2Proof.Machine.execSteal sp d s
  | .exit sp => Sys2Proof.Machine.execExit sp s
  | .copy sp d a b => Sys2Proof.Machine.execCopy sp d a b s
  | .copym sp d a b => Sys2Proof.Machine.execCopym sp d a b s
  | .recfl sp d a => Sys2Proof.Machine.execRecfl sp d a s
  | .task sp d a => Sys2Proof.Machine.execTask sp d a s
  | .dprog sp d a b => Sys2Proof.Machine.execDprog sp d a b s
  | .djob sp d a => Sys2Proof.Machine.execDjob sp d a s
  | .ovld sp d a => Sys2Proof.Machine.execOvld sp d a s
  | .ovtok sp d a => Sys2Proof.Machine.execOvtok sp d a s
  | .ovrel sp a => Sys2Proof.Machine.execOvrel sp a s
  | .ovq sp d a => Sys2Proof.Machine.execOvq sp d a s
  | .smap sp d a b => Sys2Proof.Machine.execSmap sp d a b s
  | .sunmap sp d a => Sys2Proof.Machine.execSunmap sp d a s
  | .cload sp d a b => Sys2Proof.Machine.execCload sp d a b s
  | .crun sp d a b => Sys2Proof.Machine.execCrun sp d a b s
  | .sinit sp => Sys2Proof.Machine.execSinit sp s
  | .sfold sp a b => Sys2Proof.Machine.execSfold sp a b s
  | .sget sp d => Sys2Proof.Machine.execSget sp d s
  | .proof sp d a b => Sys2Proof.Machine.execProof sp d a b s
  | .proofq sp d a => Sys2Proof.Machine.execProofq sp d a s
  | .nop sp => Sys2Proof.Machine.execNop sp s
  | .rds sp d b => Sys2Proof.Machine.execRds sp d b s
  | .wrs sp a b => Sys2Proof.Machine.execWrs sp a b s
  | .win sp a => Sys2Proof.Machine.execWin sp a s
  | .jr sp a => Sys2Proof.Machine.execJr sp a s
  | .callx sp a => Sys2Proof.Machine.execCallx sp a s
  | .ret sp => Sys2Proof.Machine.execRet sp s
  | .trap sp b => Sys2Proof.Machine.execTrap sp b s
  | .tret sp => Sys2Proof.Machine.execTret sp s
  | .bkpt sp => Sys2Proof.Machine.execBkpt sp s
  | .launch sp d a b => Sys2Proof.Machine.execLaunch sp d a b s
  | .ldu sp d a => Sys2Proof.Machine.execLdu sp d a s
  | .ocall sp b => Sys2Proof.Machine.execOcall sp b s
  | .pref sp a => Sys2Proof.Machine.execPref sp a s
  | .reservedHint sp f d a b => Sys2Proof.Machine.execReservedHint sp f d a b s
  | .illegalWordFetch f => Sys2Proof.Machine.execIllegalWordFetch f s
  | .reformBoundary die => Sys2Proof.Machine.execReformBoundary die s
  | .longLatencyReply req => Sys2Proof.Machine.execLongLatencyReply req s
  | .switchPointLeave t => Sys2Proof.Machine.execSwitchPointLeave t s
  | .crewdivDetect c => Sys2Proof.Machine.execCrewdivDetect c s
  | .trapTaken c => Sys2Proof.Machine.execTrapTaken c s
  | .launchKill l => Sys2Proof.Machine.execLaunchKill l s
  | .permitBackoffExpiry t => Sys2Proof.Machine.execPermitBackoffExpiry t s
  | .lacerLoadDecision k => Sys2Proof.Machine.execLacerLoadDecision k s
  | .segmentLoadComplete k entry => Sys2Proof.Machine.execSegmentLoadComplete k entry s
  | .ovfullTimeout k => Sys2Proof.Machine.execOvfullTimeout k s
  | .packetServe vf q => Sys2Proof.Machine.execPacketServe vf q s
  | .teamPlacement l => Sys2Proof.Machine.execTeamPlacement l s
  | .launchEnd l => Sys2Proof.Machine.execLaunchEnd l s
  | .activationDecision k => Sys2Proof.Machine.execActivationDecision k s
  | .dueCountExpiry c => Sys2Proof.Machine.execDueCountExpiry c s
  | .leaseWindowExpiry c => Sys2Proof.Machine.execLeaseWindowExpiry c s
  | .l1WritebackTimer k line => Sys2Proof.Machine.execL1WritebackTimer k line s
  | .pageWalkComplete walk => Sys2Proof.Machine.execPageWalkComplete walk s
  | .faultRecordWrite vf => Sys2Proof.Machine.execFaultRecordWrite vf s
  | .atomicPerform req => Sys2Proof.Machine.execAtomicPerform req s
  | .scAccessPerform req => Sys2Proof.Machine.execScAccessPerform req s
  | .scClockPublish k => Sys2Proof.Machine.execScClockPublish k s
  | .monitorReread t => Sys2Proof.Machine.execMonitorReread t s
  | .waitcPollTimer t => Sys2Proof.Machine.execWaitcPollTimer t s
  | .redtoDelivery req => Sys2Proof.Machine.execRedtoDelivery req s
  | .barrierArrival arr => Sys2Proof.Machine.execBarrierArrival arr s
  | .workPieceServe req => Sys2Proof.Machine.execWorkPieceServe req s
  | .engineOpBegin op => Sys2Proof.Machine.execEngineOpBegin op s
  | .engineRetire op => Sys2Proof.Machine.execEngineRetire op s
  | .skiverJobStop op => Sys2Proof.Machine.execSkiverJobStop op s
  | .cobblerDispatch op => Sys2Proof.Machine.execCobblerDispatch op s
  | .eslotTimeout op => Sys2Proof.Machine.execEslotTimeout op s
  | .addOnStorePerform op => Sys2Proof.Machine.execAddOnStorePerform op s
  | .ticketTileApply l => Sys2Proof.Machine.execTicketTileApply l s
  | .candidateStop t => Sys2Proof.Machine.execCandidateStop t s
  | .proofPerform req => Sys2Proof.Machine.execProofPerform req s
  | .proofqPerform req => Sys2Proof.Machine.execProofqPerform req s
  | .writeApply msg => Sys2Proof.Machine.execWriteApply msg s
  | .remoteRequestServe req => Sys2Proof.Machine.execRemoteRequestServe req s
  | .remoteLineSendTimer die line => Sys2Proof.Machine.execRemoteLineSendTimer die line s
  | .autoSwapOut l team => Sys2Proof.Machine.execAutoSwapOut l team s
  | .lateReplyWrite req => Sys2Proof.Machine.execLateReplyWrite req s
  | .teamRestore l quad => Sys2Proof.Machine.execTeamRestore l quad s
  | .migrationQuiesced vf => Sys2Proof.Machine.execMigrationQuiesced vf s
  | .intervalClose vf => Sys2Proof.Machine.execIntervalClose vf s
  | .uncorrectableConsumed vf => Sys2Proof.Machine.execUncorrectableConsumed vf s
  | .timingReplay k quarter => Sys2Proof.Machine.execTimingReplay k quarter s
  | .schedulerRebuild die quad => Sys2Proof.Machine.execSchedulerRebuild die quad s
  | .voltageEvaluation die dom => Sys2Proof.Machine.execVoltageEvaluation die dom s
  | .throttleStart die => Sys2Proof.Machine.execThrottleStart die s
  | .throttleEnd die => Sys2Proof.Machine.execThrottleEnd die s
  | .traceCaptureStop => Sys2Proof.Machine.execTraceCaptureStop s
  | .powerOn failing => Sys2Proof.Machine.execPowerOn failing s
  | .memoryInitComplete => Sys2Proof.Machine.execMemoryInitComplete s
  | .queueTail vf q v => Sys2Proof.Machine.execQueueTail vf q v s
  | .resume vf v => Sys2Proof.Machine.execResume vf v s
  | .fqhead vf v => Sys2Proof.Machine.execFqhead vf v s
  | .invalva vf va => Sys2Proof.Machine.execInvalva vf va s
  | .preempt vf l => Sys2Proof.Machine.execPreempt vf l s
  | .restorel vf l => Sys2Proof.Machine.execRestorel vf l s
  | .eyeletSpill vf k entry => Sys2Proof.Machine.execEyeletSpill vf k entry s
  | .eyeletFill vf k entry => Sys2Proof.Machine.execEyeletFill vf k entry s
  | .migctl vf v => Sys2Proof.Machine.execMigctl vf v s
  | .vtime vf v => Sys2Proof.Machine.execVtime vf v s
  | .semAcquire m j => Sys2Proof.Machine.execSemAcquire m j s
  | .semRelease m j => Sys2Proof.Machine.execSemRelease m j s
  | .frameQuota vf k n => Sys2Proof.Machine.execFrameQuota vf k n s
  | .diemask vf v => Sys2Proof.Machine.execDiemask vf v s
  | .vfCreate vf f0 f1 => Sys2Proof.Machine.execVfCreate vf f0 f1 s
  | .vfDestroy vf => Sys2Proof.Machine.execVfDestroy vf s
  | .registerWrite r v => Sys2Proof.Machine.execRegisterWrite r v s
  | .masterMemoryWrite m vf va bs => Sys2Proof.Machine.execMasterMemoryWrite m vf va bs s
  | .singleFault loc => Sys2Proof.Machine.execSingleFault loc s
  | .invalvaRemovalComplete vf => Sys2Proof.Machine.execInvalvaRemovalComplete vf s
  | .saveComplete l quad => Sys2Proof.Machine.execSaveComplete l quad s

end Sys2Proof.Machine
end

