-- ==== Sys2Proof/Machine/Events.lean ====
section
/-! DEFINITION. Running an event of the agenda: the same meaning that `exec` gives its row of the opcode table. -/

namespace Sys2Proof.Machine

/-- Runs an event. -/
def Event.run (e : Event) (s : State) : Out :=
  match e with
  | .reformBoundary die => execReformBoundary die s
  | .longLatencyReply req => execLongLatencyReply req s
  | .switchPointLeave t => execSwitchPointLeave t s
  | .crewdivDetect c => execCrewdivDetect c s
  | .trapTaken c => execTrapTaken c s
  | .launchKill l => execLaunchKill l s
  | .permitBackoffExpiry t => execPermitBackoffExpiry t s
  | .lacerLoadDecision k => execLacerLoadDecision k s
  | .segmentLoadComplete k entry => execSegmentLoadComplete k entry s
  | .ovfullTimeout k => execOvfullTimeout k s
  | .packetServe vf q => execPacketServe vf q s
  | .teamPlacement l => execTeamPlacement l s
  | .launchEnd l => execLaunchEnd l s
  | .activationDecision k => execActivationDecision k s
  | .dueCountExpiry c => execDueCountExpiry c s
  | .leaseWindowExpiry c => execLeaseWindowExpiry c s
  | .l1WritebackTimer k line => execL1WritebackTimer k line s
  | .pageWalkComplete walk => execPageWalkComplete walk s
  | .faultRecordWrite vf => execFaultRecordWrite vf s
  | .atomicPerform req => execAtomicPerform req s
  | .scAccessPerform req => execScAccessPerform req s
  | .scClockPublish k => execScClockPublish k s
  | .monitorReread t => execMonitorReread t s
  | .waitcPollTimer t => execWaitcPollTimer t s
  | .redtoDelivery req => execRedtoDelivery req s
  | .barrierArrival arr => execBarrierArrival arr s
  | .workPieceServe req => execWorkPieceServe req s
  | .engineOpBegin op => execEngineOpBegin op s
  | .engineRetire op => execEngineRetire op s
  | .skiverJobStop op => execSkiverJobStop op s
  | .cobblerDispatch op => execCobblerDispatch op s
  | .eslotTimeout op => execEslotTimeout op s
  | .addOnStorePerform op => execAddOnStorePerform op s
  | .ticketTileApply l => execTicketTileApply l s
  | .candidateStop t => execCandidateStop t s
  | .proofPerform req => execProofPerform req s
  | .proofqPerform req => execProofqPerform req s
  | .writeApply msg => execWriteApply msg s
  | .remoteRequestServe req => execRemoteRequestServe req s
  | .remoteLineSendTimer die line => execRemoteLineSendTimer die line s
  | .autoSwapOut l team => execAutoSwapOut l team s
  | .lateReplyWrite req => execLateReplyWrite req s
  | .teamRestore l quad => execTeamRestore l quad s
  | .migrationQuiesced vf => execMigrationQuiesced vf s
  | .intervalClose vf => execIntervalClose vf s
  | .uncorrectableConsumed vf => execUncorrectableConsumed vf s
  | .timingReplay k quarter => execTimingReplay k quarter s
  | .schedulerRebuild die quad => execSchedulerRebuild die quad s
  | .voltageEvaluation die dom => execVoltageEvaluation die dom s
  | .throttleStart die => execThrottleStart die s
  | .throttleEnd die => execThrottleEnd die s
  | .traceCaptureStop => execTraceCaptureStop s
  | .powerOn failing => execPowerOn failing s
  | .memoryInitComplete => execMemoryInitComplete s
  | .queueTail vf q v => execQueueTail vf q v s
  | .resume vf v => execResume vf v s
  | .fqhead vf v => execFqhead vf v s
  | .invalva vf va => execInvalva vf va s
  | .preempt vf l => execPreempt vf l s
  | .restorel vf l => execRestorel vf l s
  | .eyeletSpill vf k entry => execEyeletSpill vf k entry s
  | .eyeletFill vf k entry => execEyeletFill vf k entry s
  | .migctl vf v => execMigctl vf v s
  | .vtime vf v => execVtime vf v s
  | .semAcquire m i => execSemAcquire m i s
  | .semRelease m i => execSemRelease m i s
  | .frameQuota vf k n => execFrameQuota vf k n s
  | .diemask vf v => execDiemask vf v s
  | .vfCreate vf f0 f1 => execVfCreate vf f0 f1 s
  | .vfDestroy vf => execVfDestroy vf s
  | .registerWrite r v => execRegisterWrite r v s
  | .masterMemoryWrite m vf va bs => execMasterMemoryWrite m vf va bs s
  | .singleFault loc => execSingleFault loc s
  | .invalvaRemovalComplete vf => execInvalvaRemovalComplete vf s
  | .saveComplete l quad => execSaveComplete l quad s

end Sys2Proof.Machine
end

