-- ==== Sys2Proof/Machine/Load.lean ====
section
/-! DEFINITION. A program as it stands once loaded, launched and placed: what placing an instruction under the fetch of a package
without one takes. No step of the machine uses it. -/

namespace Sys2Proof.Machine

/-- The launch a placed word belongs to: launch 1 of VF 0. -/
def loadedPacket : Packet :=
  { Packet.zero with flags := 8, regs := 128, carve := 16, lease := 0, ntid := (1, 1, 1), nteam := (1, 1, 1), qsize := 1 }

/-- Its image: one segment of 4 KiB. -/
def loadedImage : Image := { base := 0, rev := 0x0300, coid := 1, segs := [(0, 4096)], entry := 0, trap := none }

/-- Its thread. -/
def loadedThread : ThreadId := ⟨1, 0, 0⟩

/-- The resident segment with a word at a place: NOPs elsewhere. -/
def loadedSegment (pos : Nat) (w : Word) : SegEntry :=
  { st := .resident, vf := 0, coid := 1, seg := 0, frames := [0], pins := [1], stamp := 0,
    words := (List.replicate 1024 (0x70000000 : Word)).set pos w, launch := 1, va := 0, len := 4096, owner := loadedThread, named := true, frec := none }

/-- The one crew of the loaded team. -/
def loadedCrew : Crew :=
  { id := ⟨1, 0, 0⟩, quarter := 0, slot := 0, lease := 0, measured := false, window := 0, lines := [], active := true, actStamp := 1,
    dueActivated := false, eligible := 0, seenEligible := false, due := false, dueStamp := 0, grower := false, stall := List.replicate 16 0, tags := [] }

/-- The package with a launch of one thread placed on core 0 of die 0, at offset 8 of its one segment. -/
def State.loadProgram (s : State) : State :=
  { s with
    mgmt := { s.mgmt with powered := true, ready := true, memInit := false }
    vfs := [{ Vf.fresh 0 0x7FF 0 with quotas := [(⟨0, 0⟩, 64)], lcount := 1, accepted := 1 }]
    launches := [{ Launch.fresh 1 0 0 1 loadedPacket loadedImage none with start := some 0 }]
    teams := [{ Team.start 1 loadedPacket 0 with st := .resident }]
    crews := [loadedCrew]
    slots := [CandSlot.start loadedThread]
    cores := [{ Core.fresh ⟨0, 0⟩ with carve := 16, segs := [loadedSegment 2 0x70000000] }]
    cur := Thread.start loadedThread 8 128
    others := [] }

/-- Puts a word where the thread in turn fetches, makes it the next to issue and ready, and lets nothing come before it. -/
def State.placeWord (s : State) (w : Word) : State :=
  let t := s.cur
  let k := s.curCore
  let s := s.modSeg k (launchVf t.id.launch) (s.coidOf t.id.launch) (segOf t.pc) (fun e =>
    { e with st := .resident, words := e.words.set (offOf t.pc / 4) w })
  { s with cur := { t with phase := .ready }, agenda := [], issueQ := [t.id], consumed := [] }

/-- Stores a word under the next fetch. -/
def State.loadWord (s : State) (w : Word) : State :=
  (if (s.launch? s.cur.id.launch).isSome then s else s.loadProgram).placeWord w

end Sys2Proof.Machine
end

