-- ==== Sys2Proof/Machine/Tick.lean ====
section
/-! DEFINITION. What step is made of: a thread's turn (R34, R59, R121, R122, R328, R345), the end of a cycle (R19, R121, R122, R138,
R140, R142, R223), and the events that may take place of themselves in a cycle. -/

namespace Sys2Proof.Machine

/-! ## A thread's turn -/

/-- What comes of a thread's turn: an instruction to run, nothing to run, or a state that is none. -/
inductive Turn where
  | run (i : Instr) (s : State)
  | pass (s : State)
  | stop (f : Fault)

/-- Makes a thread the one in turn. -/
def State.focus (s : State) (t : ThreadId) : State :=
  if s.cur.id == t then s
  else match s.others.find? (fun x => x.id == t) with
    | none => s
    | some x => { s with cur := x, others := s.others.map (fun y => if y.id == t then s.cur else y) }

/-- A thread of a bundle issues only where its pc is the bundle's (R121, R122). -/
def State.atBundle (s : State) (x : Thread) : Bool :=
  (s.core (s.coreOf x.id.launch x.id.team)).bundles.all (fun b => match b with
    | some b => !b.members.contains x.id || b.pc == x.pc
    | none => true)

/-- The thread may issue: it is ready but for its crew's deactivation since the bundle was formed, at its bundle's pc, its quad's
scheduler stands, and its context has no uncorrectable data to be dealt with (R120, R121, R138, R330, R331). -/
def State.mayIssue (s : State) (x : Thread) : Bool :=
  s.readyBut x && s.atBundle x && !s.rebuilds (s.coreOf x.id.launch x.id.team) &&
    !s.consumed.any (fun c => c.1 == launchVf x.id.launch)

/-- A stored code word is read (R328). -/
def State.useCode (s : State) (k : CoreId) (vf coid : Nat) (pc : Word) : State :=
  let c := s.core k
  s.useStored vf k (fun f => match f with
    | .code k' e o _ => k' == k && o / 4 == offOf pc / 4 && ((c.segs[e]?).map (fun x => x.is vf coid (segOf pc))).getD false
    | _ => false)

/-- What a fetched word stands for: steps 1 to 5 of R59. -/
def State.fetched (s : State) (k : CoreId) : Instr :=
  match s.fetch k s.cur.id.launch s.cur.pc with
  | none => .illegalWordFetch .codebound
  | some w => match decodeWord w with
    | .ok i => i
    | .error f => .illegalWordFetch f

/-- The turn of a thread that is to issue in this cycle: the word at its pc is fetched from its core's resident segment and judged; a
thread whose segment is not resident settles (R105). DEDUCED (log entry 8). -/
def State.turn (s : State) (t : ThreadId) : Turn :=
  match s.thread? t with
  | none => .pass s
  | some x =>
    if !s.mayIssue x then .pass s
    else if (s.launch? t.launch).isNone then .stop .noLaunch
    else
      let s := s.focus t
      let k := s.curCore
      let vf := launchVf t.launch
      let co := s.coidOf t.launch
      if s.segState k vf co (segOf x.pc) != .resident then .pass ((s.settleReq t x.pc).blockCur .settling)
      else
        let s := s.useCode k vf co x.pc
        if s.consumed.any (fun c => c.1 == vf) then .pass s else .run (s.fetched k) { s with ran := s.ran ++ [t] }

/-! ## Events that may take place -/

/-- For each thread. -/
def Thread.events (t : Thread) : List Event :=
  match t.phase with
  | .switchParked => [.switchPointLeave t.id]
  | .backoff _ => [.permitBackoffExpiry t.id]
  | .monitor => [.monitorReread t.id, .waitcPollTimer t.id]
  | _ => []

/-- For each request in flight. -/
def Request.events (r : Request) : List Event :=
  match r.kind with
  | .atomic _ _ _ _ _ _ => [.atomicPerform r.id]
  | .redto _ _ _ _ _ _ => [.atomicPerform r.id]
  | .sc _ _ _ _ _ => [.scAccessPerform r.id]
  | .work => [.workPieceServe r.id]
  | .steal _ _ => [.workPieceServe r.id]
  | .proof false _ _ _ _ _ => [.proofPerform r.id]
  | .proof true _ _ _ _ _ => [.proofqPerform r.id]
  | .load _ _ _ _ _ => [.remoteRequestServe r.id]
  | .fill _ => [.remoteRequestServe r.id]
  | .ldu _ _ _ _ _ => [.remoteRequestServe r.id]
  | .lduAgain _ _ _ _ _ => [.remoteRequestServe r.id]
  | .launch _ _ _ _ => [.remoteRequestServe r.id]
  | .unit => []

/-- For each engine operation. -/
def EngineOp.events (e : EngineOp) : List Event :=
  match e.kind with
  | .task _ _ _ => [.cobblerDispatch e.no, .eslotTimeout e.no, .addOnStorePerform e.no, .engineRetire e.no]
  | .djob _ _ _ => [.engineOpBegin e.no, .skiverJobStop e.no, .engineRetire e.no]
  | _ => [.engineOpBegin e.no, .engineRetire e.no]

/-- For each crew. -/
def Crew.events (c : Crew) : List Event :=
  Event.crewdivDetect c.id :: Event.trapTaken c.id ::
    List.append (if 16384 ≤ c.eligible then [.dueCountExpiry c.id] else [])
      (if 65536 ≤ c.window then [.leaseWindowExpiry c.id] else [])

/-- The loads under way in the entries of a core's resident segment table. -/
def Core.loadEvents (c : Core) : List Event :=
  ((List.range c.segs.length).zip c.segs).filterMap (fun (e : Nat × SegEntry) =>
    if e.2.st == .loading then some (Event.segmentLoadComplete c.id e.1) else none)

/-- The dirty lines of a core's L1 that have come due (R168). -/
def Core.l1Events (c : Core) (now : Nat) : List Event :=
  c.l1.filterMap (fun (l : L1Line) =>
    if decide (l.dirtied + 16384 ≤ now) && l.bytes.any (fun b => b.dirty) then some (Event.l1WritebackTimer c.id l.line) else none)

/-- For each core. -/
def State.coreEvents (s : State) (c : Core) : List Event :=
  List.flatten [
    if c.lacerQ.isEmpty then [] else [Event.lacerLoadDecision c.id, Event.ovfullTimeout c.id],
    c.loadEvents,
    c.l1Events s.cycle,
    if decide (c.scPublished + 256 ≤ s.clock.toNat) || s.requests.any (fun r => match r.kind with
        | .sc _ _ _ _ _ => true
        | _ => false) then [Event.scClockPublish c.id] else []]

/-- For each die. -/
def State.dieEvents (s : State) (d : Die) : List Event :=
  d.l2.filterMap (fun l => if decide (l.dirtied + 65536 ≤ s.cycle) && l.bytes.any (fun b => b.dirty)
    then some (Event.remoteLineSendTimer d.id l.line) else none)

/-- For each domain of each die that is due for its evaluation (R333). -/
def State.voltageEvents (s : State) : List Event :=
  if s.clock.toNat < 1000000 then []
  else (List.range 24).flatMap (fun (d : Nat) => ((List.range 14).zip (s.die d).doms).filterMap (fun (x : Nat × VDomain) =>
    if decide ((x.2.evals + 1) * 1000000 ≤ s.clock.toNat) then some (Event.voltageEvaluation d x.1) else none))

/-- For each launch. -/
def Launch.events (l : Launch) : List Event :=
  if l.held.isEmpty then [.launchKill l.id, .teamPlacement l.id, .launchEnd l.id]
  else [.launchKill l.id, .teamPlacement l.id, .ticketTileApply l.id, .launchEnd l.id]

/-- For each launch queue with something to serve. -/
def Vf.queueEvents (v : Vf) : List Event :=
  ((List.range 16).zip v.queues).filterMap (fun (x : Nat × Queue) =>
    if x.2.busy.isSome || x.2.chain.isSome || !x.2.out.isEmpty || x.2.waiting then some (Event.packetServe v.id x.1) else none)

/-- For each VF. -/
def Vf.events (v : Vf) : List Event :=
  List.flatten [
    [Event.faultRecordWrite v.id],
    v.queueEvents,
    if v.invalva.isSome then [Event.invalvaRemovalComplete v.id] else [],
    match v.eyeBusy with
    | none => []
    | some x => [if x.1 then Event.eyeletFill v.id x.2.1 x.2.2 else Event.eyeletSpill v.id x.2.1 x.2.2],
    if v.migctl = 1 then [Event.migrationQuiesced v.id] else [],
    [Event.intervalClose v.id]]

/-- The quad team of a team: its launch and its index. -/
def State.quadOf (s : State) (t : Team) : Nat × Nat := (t.launch, t.idx / (s.packet t.launch).qsize)

/-- For each quad team that is being saved, stands saved, or is being restored. -/
def State.quadEvents (s : State) : List Event :=
  List.append
    ((((s.teams.filter (fun t => t.st == .saving)).map s.quadOf).dedup).map (fun (x : Nat × Nat) => Event.saveComplete x.1 x.2))
    ((((s.teams.filter (fun t => (t.st == .swapped && (t.allowed || t.auto)) || t.landing)).map s.quadOf).dedup).map
      (fun (x : Nat × Nat) => Event.teamRestore x.1 x.2))

/-- The events that may take place in a cycle of a package that runs, each to be tried once; the bundles are formed last. DESIGN CHOICE (log entry 4). -/
def State.events (s : State) : List Event :=
  List.flatten [
    s.consumed.map (fun c => Event.uncorrectableConsumed c.1),
    s.walks.map (fun w => Event.pageWalkComplete w.id),
    s.welt.map (fun m => Event.writeApply m.id),
    s.requests.flatMap Request.events,
    s.deliveries.map (fun d => Event.redtoDelivery d.id),
    s.arrivals.map (fun a => Event.barrierArrival a.id),
    s.engines.flatMap EngineOp.events,
    (s.slots.filter (fun x => x.run.isSome || !x.ops.isEmpty)).map (fun x => Event.candidateStop x.owner),
    s.replies.map (fun r => if s.isSwapped r.t.launch r.t.team then Event.lateReplyWrite r.req else Event.longLatencyReply r.req),
    s.cores.flatMap s.coreEvents,
    s.dies.flatMap s.dieEvents,
    s.voltageEvents,
    s.threads.flatMap Thread.events,
    s.crews.flatMap Crew.events,
    s.quadEvents,
    s.vfs.flatMap Vf.events,
    s.launches.flatMap Launch.events,
    s.cores.map (fun c => Event.activationDecision c.id),
    if s.mgmt.capturing then [Event.traceCaptureStop] else [],
    if s.barriers.any (fun b => (s.groupOf b).isSome) then [Event.barrierArrival 0] else [],
    match s.mgmt.writes with
    | [] => []
    | x :: _ => [Event.masterMemoryWrite x.1 x.2.1 x.2.2.1 x.2.2.2],
    if s.cycle % 4 = 0 then ((s.cores.map (fun c => c.id.die)).dedup).map (fun d => Event.reformBoundary d) else []]

/-! ## The end of a cycle -/

/-- Every crew after the cycle (R138, R140, R142). -/
def State.crewsAfter (s : State) : List Crew :=
  s.crews.map (fun c =>
    let k := s.coreOf c.id.launch c.id.team
    if (s.residentCrews k).any (fun x => x.id == c.id) then s.crewCycle c else c)

/-- The cores on which a crew has issued for the first time since a due activation, or has become eligible: a decision follows (R138). -/
def State.decisionsDue (s : State) (after : List Crew) : List CoreId :=
  (s.crews.filter (fun c => after.any (fun x => x.id == c.id && ((c.dueActivated && !x.dueActivated) || (!c.seenEligible && x.seenEligible))))).map
    (fun c => s.coreOf c.id.launch c.id.team)

/-- A core after the cycle: its bundles keep the threads that have stayed together, and a decision that has come due is to be made. -/
def State.coreAfter (s : State) (due : List CoreId) (c : Core) : Core :=
  { c.bankCycle with
    bundles := c.bundles.map (fun b => b.map s.trimBundle)
    deciding := c.deciding || due.contains c.id }

/-- Each running candidate of a resident team that has its pipeline executes an instruction (R223, R226, R242). -/
def State.slotsAfter (s : State) : List CandSlot :=
  s.slots.map (fun x => if s.teamRuns x.owner && decide (x.runs ≤ x.pipes) then x.advance else x)

/-- A cycle ends and the next begins (R19, R121): nothing counts before READY; every 1,000,000 CLOCK counts the single faults that no
read has found are corrected (R327). R19 lets the arithmetic cycles that pass between two
CLOCK counts differ from die to die; here all dies step together, and one cycle count and one Config.clockCounts serve them all. DESIGN
CHOICE (log entry 5). -/
def State.endCycle (s : State) : State :=
  if !s.mgmt.ready then { s with agenda := [.powerOn none, .memoryInitComplete] }
  else
    let after := s.crewsAfter
    let due := s.decisionsDue after
    let s := { s with crews := after, slots := s.slotsAfter }
    let counts := Config.clockCounts s.cycle
    let s := { s with
      cores := s.cores.map (s.coreAfter due)
      cycle := s.cycle + 1
      ran := []
      clock := if counts then s.clock + 1 else s.clock }
    let s := if counts && s.clock.toNat % 1000000 == 0 then s.scrub else s
    { s with agenda := s.events, issueQ := s.cores.flatMap Core.issued }

end Sys2Proof.Machine
end

