-- ==== Sys2Proof/Machine/Step.lean ====
section
/-! DEFINITION. One step of the package: the next event of the agenda; else the turn of the next thread that issues in this cycle; else
the end of the cycle. -/

namespace Sys2Proof.Machine

/-- One step. DESIGN CHOICE (log entries 3 and 4). -/
def step (s : State) : Host.Outcome State Fault Refusal :=
  match s.agenda with
  | e :: rest => e.run { s with agenda := rest }
  | [] =>
    match s.issueQ with
    | t :: rest =>
      (match State.turn { s with issueQ := rest } t with
       | .run i s' => exec i s'
       | .pass s' => .next s'
       | .stop f => .fault f)
    | [] => .next s.endCycle

/-- The state with an instruction of the opcode table stored where `step` fetches next, and all that this takes: where no program
stands, a loaded one with a thread of it in turn (log entry 3). -/
def State.withFetchWord (s : State) (_nbits w : Nat) : State := s.loadWord (BitVec.ofNat 32 w)

end Sys2Proof.Machine
end

