-- ==== Sys2Proof/Safety.lean ====
section
/-! DEFINITION. What counts as a safe run, in the terms claims use: no step stops, and the invariants that every step keeps. -/

namespace Sys2Proof.Machine

/-- The outcome is a next state that meets a condition. -/
def nextWith (p : State → Prop) : Host.Outcome State Fault Refusal → Prop
  | .next s => p s
  | _ => False

/-- A run of n steps in which no step stops and every state meets a condition. -/
def State.safeFor (p : State → Prop) : Nat → State → Prop
  | 0, s => p s
  | n + 1, s => p s ∧ nextWith (State.safeFor p n) (step s)

/-! ## What moving, parking and trapping leave as it is -/

/-- What a thread carries from word to word: all of it but where it stands, what it waits for, and its trap registers. -/
def Thread.carries (x u : Thread) : Prop :=
  u.id = x.id ∧ u.regs = x.regs ∧ u.winbase = x.winbase ∧ u.queue = x.queue ∧ u.lk = x.lk ∧ u.meet = x.meet ∧ u.fpmode = x.fpmode ∧
    u.fpflags = x.fpflags ∧ u.intflags = x.intflags ∧ u.clockLatch = x.clockLatch ∧ u.tlk = x.tlk ∧ u.tmeet = x.tmeet ∧
    u.inHandler = x.inHandler ∧ u.trapmask = x.trapmask ∧ u.arrivals = x.arrivals ∧ u.backoffLen = x.backoffLen

/-- The rest of the state, but for its threads and what is decided about its launches. -/
def State.sameRest (s t : State) : Prop :=
  t.crews = s.crews ∧ t.teams = s.teams ∧ t.slots = s.slots ∧ t.cores = s.cores ∧ t.dies = s.dies ∧ t.vfs = s.vfs ∧ t.mem = s.mem ∧
    t.requests = s.requests ∧ t.replies = s.replies ∧ t.engines = s.engines ∧ t.chains = s.chains ∧ t.drains = s.drains ∧
    t.barriers = s.barriers ∧ t.arrivals = s.arrivals ∧ t.deliveries = s.deliveries ∧ t.records = s.records ∧ t.walks = s.walks ∧
    t.welt = s.welt ∧ t.intervals = s.intervals ∧ t.flips = s.flips ∧ t.poison = s.poison ∧ t.consumed = s.consumed ∧ t.mgmt = s.mgmt ∧
    t.cycle = s.cycle ∧ t.clock = s.clock ∧ t.issueQ = s.issueQ ∧ t.ran = s.ran ∧ t.agenda = s.agenda ∧ t.nextId = s.nextId

/-- Nothing has happened but that threads have moved, parked or trapped: each carries what it carried. -/
def State.calm (s t : State) : Prop :=
  s.sameRest t ∧ s.cur.carries t.cur ∧ ∀ id x, s.thread? id = some x → ∃ u, t.thread? id = some u ∧ x.carries u

end Sys2Proof.Machine
end

