-- ==== Sys2Proof/Certificates/Slice0/Obligations.lean ====
section
/-! DEFINITION. The statements of this model, in the order of OBLIGATIONS.json, each with the rules of the spec its docstring names.
What they are written with comes first: short names for when a word issues, for what a next state holds, and for what a rule computes. -/

namespace Sys2Proof.Machine

/-! ## What the statements are written with -/

/-- The registers r to r + n − 1 lie in the thread's allocation (R13). -/
abbrev State.fits (s : State) (r : Reg) (n : Nat) : Prop := s.cur.winbase + r.toNat + n ≤ s.cur.regs.length

/-- A fixed-latency word with switch-point bit `sp` issues: it does not park (R24), and no single fault stands (R328). -/
abbrev State.issues (s : State) (sp : Bool) : Prop := (sp = true → s.cur.queue = []) ∧ s.flips = [] ∧ s.poison = []

/-- A long-latency word with switch-point bit `sp` issues: its thread has a free entry too (R21, R24). -/
abbrev State.issuesLong (s : State) (sp : Bool) : Prop := s.issues sp ∧ s.cur.queue.length < 16

/-- The instruction completes: the words `vs` stand in the registers from `d` on, and the pc has moved past the word. -/
abbrev Gives (i : Instr) (s : State) (d : Reg) (vs : List Word) : Prop := exec i s = .next (s.result d vs)

/-- The same, with integer flags raised. -/
abbrev GivesFlags (i : Instr) (s : State) (d : Reg) (v : Word) (fl : BitVec 2) : Prop := exec i s = .next (s.intResult d [v] fl)

/-- The truth value 1 or 0 of a comparison. -/
abbrev truth (p : Prop) [Decidable p] : Word := if p then 1 else 0

/-- The instruction completes with a floating-point result of one register: its bits stand in `d`, its flags are raised, and the pc
has moved past the word. -/
abbrev GivesFp (i : Instr) (s : State) (d : Reg) (r : FRes) : Prop := exec i s = .next (s.fpResult d [BitVec.ofNat 32 r.bits] r.flags)

/-- The same with a result of a pair. -/
abbrev GivesFp64 (i : Instr) (s : State) (d : Reg) (r : FRes) : Prop :=
  exec i s = .next (s.fpResult d (pairWords (BitVec.ofNat 64 r.bits)) r.flags)

/-- The same with a truth value and the NV flag of a comparison of two values of a format: `n` says for which NaNs. -/
abbrev GivesTruth (i : Instr) (s : State) (d : Reg) (p : Prop) [Decidable p] (nv : Prop) [Decidable nv] : Prop :=
  exec i s = .next (s.fpResult d [truth p] (if nv then fNV else 0))

/-- R93: the integer a value converts to in a mode, with the flag it raises: NaN, below the range, above it, or within it. -/
abbrev Converts (f : Fmt) (lo hi : Int) (rm : BitVec 2) (a : Nat) (r : Int) (fl : BitVec 5) : Prop :=
  match f.read a with
  | .nan _ => r = 0 ∧ fl = fNV
  | .inf true => r = lo ∧ fl = fNV
  | .inf false => r = hi ∧ fl = fNV
  | .fin neg m e =>
    let v := toIntegral rm neg m e
    (v.1 < lo → r = lo ∧ fl = fNV) ∧ (hi < v.1 → r = hi ∧ fl = fNV) ∧
      (lo ≤ v.1 → v.1 ≤ hi → r = v.1 ∧ fl = if v.2 then fNX else 0)

/-- R27: the exponent and fraction fields of bits of a format, and their sign. -/
abbrev Fmt.exOf (f : Fmt) (b : Nat) : Nat := b / 2 ^ f.fw % 2 ^ f.ew
abbrev Fmt.frOf (f : Fmt) (b : Nat) : Nat := b % 2 ^ f.fw
abbrev Fmt.minus (f : Fmt) (b : Nat) : Prop := b / 2 ^ (f.ew + f.fw) % 2 = 1

/-- R27, R29: an infinity, a NaN, and a signalling one. -/
abbrev Fmt.isInf (f : Fmt) (b : Nat) : Prop := f.exOf b = 2 ^ f.ew - 1 ∧ f.frOf b = 0
abbrev Fmt.isNaN (f : Fmt) (b : Nat) : Prop := f.exOf b = 2 ^ f.ew - 1 ∧ f.frOf b ≠ 0
abbrev Fmt.isSNaN (f : Fmt) (b : Nat) : Prop := f.isNaN b ∧ f.frOf b < 2 ^ (f.fw - 1)

/-- R27: the exponent of the smallest normal number of a format. -/
abbrev Fmt.emin (f : Fmt) : Int := 2 - 2 ^ (f.ew - 1)

/-- R27: bits of a format stand for the number y. -/
abbrev Fmt.holds (f : Fmt) (b : Nat) (y : ℝ) : Prop :=
  f.exOf b ≠ 2 ^ f.ew - 1 ∧
  y = (-1) ^ (b / 2 ^ (f.ew + f.fw) % 2) * (if f.exOf b = 0 then (f.frOf b : ℝ) / 2 ^ f.fw * (2 : ℝ) ^ f.emin
    else (1 + (f.frOf b : ℝ) / 2 ^ f.fw) * (2 : ℝ) ^ (f.emin + f.exOf b - 1))

/-- The greatest finite number of a format, and the number that would follow it. -/
abbrev Fmt.greatest (f : Fmt) (y : ℝ) : Prop := y = (2 - 1 / 2 ^ f.fw) * (2 : ℝ) ^ (f.emin + 2 ^ f.ew - 3)
abbrev Fmt.next (f : Fmt) (y : ℝ) : Prop := y = 2 * (2 : ℝ) ^ (f.emin + 2 ^ f.ew - 3)

/-- R28, R30: a result is the non-zero number x rounded once in a mode (0 to nearest, 1 toward zero, 2 up, 3 down), with its flags. -/
abbrev Rounds (f : Fmt) (rm : BitVec 2) (x : ℝ) (r : FRes) : Prop :=
  ∃ great next : ℝ, f.greatest great ∧ f.next next ∧
  let least : ℝ := (2 : ℝ) ^ f.emin
  let away : Prop := rm = 2 ∧ 0 < x ∨ rm = 3 ∧ x < 0
  let toward : Prop := rm ≠ 0 ∧ ¬ away
  let large : Prop := rm = 0 ∧ (great + next) / 2 ≤ |x| ∨ away ∧ great < |x| ∨ toward ∧ next ≤ |x|
  let tiny : Prop := rm = 0 ∧ |x| < least * (1 - 1 / 2 ^ (f.fw + 2)) ∨ away ∧ |x| ≤ least * (1 - 1 / 2 ^ (f.fw + 1)) ∨ toward ∧ |x| < least
  r.bits < 2 ^ (f.ew + f.fw + 1) ∧ (f.minus r.bits ↔ x < 0) ∧
  (large ∧ ¬ toward → f.isInf r.bits) ∧
  (¬ (large ∧ ¬ toward) → ∃ y, f.holds r.bits y ∧
    (rm = 0 → ∀ b z, f.holds b z → |x - y| ≤ |x - z| ∧ (|x - y| = |x - z| → z ≠ y → r.bits % 2 = 0)) ∧
    (rm = 1 → |y| ≤ |x| ∧ ∀ b z, f.holds b z → |z| ≤ |x| → |z| ≤ |y|) ∧
    (rm = 2 → x ≤ y ∧ ∀ b z, f.holds b z → x ≤ z → y ≤ z) ∧
    (rm = 3 → y ≤ x ∧ ∀ b z, f.holds b z → z ≤ x → z ≤ y)) ∧
  (r.flags.getLsbD 0 = true ↔ ¬ f.holds r.bits x) ∧ (r.flags.getLsbD 1 = true ↔ tiny ∧ ¬ f.holds r.bits x) ∧
  (r.flags.getLsbD 2 = true ↔ large) ∧ r.flags.getLsbD 3 = false ∧ r.flags.getLsbD 4 = false

/-- A result that no rounding touches: the canonical NaN with NV where `nv` (R29), an infinity, a zero, with a flag. -/
abbrev GivesNaN (f : Fmt) (nv : Prop) (r : FRes) : Prop :=
  r.bits = (2 ^ f.ew - 1) * 2 ^ f.fw + 2 ^ (f.fw - 1) ∧ (nv → r.flags = 16) ∧ (¬ nv → r.flags = 0)
abbrev GivesInf (f : Fmt) (neg : Prop) (fl : BitVec 5) (r : FRes) : Prop :=
  r.bits < 2 ^ (f.ew + f.fw + 1) ∧ f.isInf r.bits ∧ (f.minus r.bits ↔ neg) ∧ r.flags = fl
abbrev GivesZero (f : Fmt) (neg : Prop) (r : FRes) : Prop :=
  (neg → r.bits = 2 ^ (f.ew + f.fw)) ∧ (¬ neg → r.bits = 0) ∧ r.flags = 0

/-- R85, R90: the integer n is x rounded to an integral value in a mode. -/
abbrev Integral (rm : BitVec 2) (x : ℝ) (n : Int) : Prop :=
  (rm = 0 → |x - n| ≤ 1 / 2 ∧ (|x - n| = 1 / 2 → n % 2 = 0)) ∧ (rm = 1 → 0 ≤ n * x ∧ |(n : ℝ)| ≤ |x| ∧ |x| < |(n : ℝ)| + 1) ∧
  (rm = 2 → x ≤ n ∧ n < x + 1) ∧ (rm = 3 → n ≤ x ∧ x < n + 1)

/-- The four formats of R27. -/
abbrev formats : List Fmt := [f16, bf16, f32, f64]

/-- R70: the target of the transfer at the pc with word offset `off`. -/
abbrev State.aim (s : State) (off : Int) : Int := offOf s.cur.pc + off * 4

/-- R70, R71, R345: a taken transfer stands at its target, or traps CODEBOUND cause 2 with the target's offset. -/
abbrev Jumps (i : Instr) (s t : State) (off : Int) : Prop :=
  (0 ≤ s.aim off → s.aim off < s.curLen → exec i s = .next (t.goto (codeAddr (segOf s.cur.pc) (s.aim off).toNat))) ∧
  ((s.aim off < 0 ∨ (s.curLen : Int) ≤ s.aim off) → exec i s = .next (s.raise 0x04 2 (BitVec.ofInt 64 (s.aim off))))

/-- R70: a branch jumps where its condition holds, and else moves past its word. -/
abbrev BranchesOn (i : Instr) (s : State) (off : Int) (c : Prop) : Prop := (c → Jumps i s s off) ∧ (¬ c → exec i s = .next s.advance)

/-- R72: what the checks of an indirect target find: its cause, where it fails. -/
abbrev State.checksTarget (s : State) (tgt : Word) : Option Nat :=
  if tgt.toNat % 4 ≠ 0 then some 3
  else match s.segLen s.cur.id.launch (tgt.toNat / 65536) with
    | none => some 4
    | some n => if n ≤ tgt.toNat % 65536 then some 5 else none

/-- R72, R345: an indirect transfer to `tgt`, which links where `call`. -/
abbrev TransfersTo (i : Instr) (s : State) (tgt : Word) (call : Bool) : Prop :=
  (∀ c, s.checksTarget tgt = some c → exec i s = .next (s.raise 0x04 c (tgt.zeroExtend 64))) ∧
  (s.checksTarget tgt = none → call = true → offOf s.cur.pc + 4 = s.curLen →
    exec i s = .next (s.raise 0x04 6 (BitVec.ofNat 64 s.curLen))) ∧
  (s.checksTarget tgt = none → (call = true → offOf s.cur.pc + 4 ≠ s.curLen) →
    exec i s = .next ((if call then s.setCur { s.cur with lk := s.cur.pc + 4 } else s).transfer tgt))

/-- R124, R145: every member counted stands at the convergent word of the thread in turn, and its earlier accesses have been performed. -/
abbrev State.meets (s : State) : Prop :=
  ∀ m ∈ s.countedFor s.cur, (m.id = s.cur.id ∨ (m.phase = .waiting ∧ m.pc = s.cur.pc)) ∧ s.performed m.id = true

/-- R34, R345: a member has moved past its word, or has fallen through the end of its segment's last possible word: the offset 0xFFFC
has no next one, and that the trap is taken as the word completes there is log entry 10 (DEDUCED). -/
abbrev Moved (s : State) (m u : Thread) : Prop :=
  if offOf s.cur.pc = 0xFFFC then u.phase = .faulted ∧ u.pc = m.pc else u.pc = s.cur.pc + 4

/-- The registers of a thread, its special registers and its results pending. -/
abbrev Thread.held (x : Thread) : List Word × Nat × List Word × List QEntry × BitVec 2 × BitVec 5 × BitVec 2 × Bool × List Word × DWord :=
  (x.regs, x.winbase, [x.lk, x.meet, x.tlk, x.tmeet, x.clockLatch], x.queue, x.fpmode, x.fpflags, x.intflags, x.inHandler,
    [x.trapcode, x.trappc, x.trapinfo, x.trapmask], x.trapaddr)

/-- The frame of a word that moves on: no register and no special register of another thread changes, and of its own thread's special
registers none but the trap registers of a fall past the last word (R345). -/
abbrev Kept (s t : State) : Prop :=
  let x := s.cur
  let u := t.cur
  u.id = x.id ∧ u.regs.length = x.regs.length ∧ u.winbase = x.winbase ∧ u.lk = x.lk ∧ u.meet = x.meet ∧ u.tlk = x.tlk ∧ u.tmeet = x.tmeet ∧
    u.fpmode = x.fpmode ∧ u.fpflags = x.fpflags ∧ u.intflags = x.intflags ∧ u.clockLatch = x.clockLatch ∧ u.inHandler = x.inHandler ∧
    u.trapmask = x.trapmask ∧ (offOf x.pc ≠ 0xFFFC → u.trapcode = x.trapcode ∧ u.trapinfo = x.trapinfo ∧ u.trapaddr = x.trapaddr ∧
      u.trappc = x.trappc) ∧
    ∀ id, id ≠ x.id → (t.thread? id).map (fun y => (y.pc, y.held)) = (s.thread? id).map (fun y => (y.pc, y.held))

/-- R124, R146: a convergent word waits until every member counted stands at it; then it writes a result into register d of each of
them, and changes no register of any other thread. -/
abbrev CrewGives (i : Instr) (s : State) (d : Reg) (v : Thread → Word) (fl : Thread → BitVec 5 := fun _ => 0) : Prop :=
  (¬ s.meets → exec i s = .next (s.blockCur .waiting)) ∧
  (s.meets → ∃ t, exec i s = .next t ∧ t.mem = s.mem ∧ t.teams = s.teams ∧
    (∀ m ∈ s.countedFor s.cur, ∃ u, t.thread? m.id = some u ∧ u.regs = putWords m.regs (m.idx d) [v m] ∧
      u.fpflags = m.fpflags ||| fl m ∧ u.intflags = m.intflags ∧ Moved s m u) ∧
    (∀ id, (∀ m ∈ s.countedFor s.cur, m.id ≠ id) → (t.thread? id).map (fun u => u.regs) = (s.thread? id).map (fun u => u.regs)))

/-- The value a member of a rank delivers; none where no such member is counted. -/
abbrev State.delivers (s : State) (a : Reg) (r : Nat) : Option Word :=
  ((s.countedFor s.cur).find? (fun m => rankOf m.id == r)).map (fun m => m.w a)

/-- R151: node k of level n of the balanced tree over the leaves x, left operand first, with the flags raised below it. -/
def treeNode (x : Nat → Word) : Nat → Nat → Word × BitVec 5
  | 0, k => (x k, 0)
  | n + 1, k =>
    let l := treeNode x n (2 * k)
    let r := treeNode x n (2 * k + 1)
    let z := f32.add 0 l.1.toNat r.1.toNat
    (BitVec.ofNat 32 z.bits, l.2 ||| r.2 ||| z.flags)

/-- R4: the number bytes stand for, least significant first. -/
abbrev numberOf (bs : List Byte) : Nat := bs.foldr (fun b x => b.toNat + 256 * x) 0

/-- R78: the registers an n-byte load writes: one, sign- or zero-extended, for 1, 2 and 4 bytes; n / 4 for 8 and 16. -/
abbrev loaded (n : Nat) (sgn : Bool) (bs : List Byte) : List Word :=
  let x := numberOf bs
  if n ≤ 4 then [BitVec.ofInt 32 (if sgn = true ∧ 2 ^ (8 * n - 1) ≤ x then (x : Int) - 2 ^ (8 * n) else x)]
  else (List.range (n / 4)).map (fun k => BitVec.ofNat 32 (x / 2 ^ (32 * k)))

/-- R79: the bytes an n-byte store takes from the registers from `d` on. -/
abbrev stored (n : Nat) (t : Thread) (d : Reg) : List Byte :=
  (List.range n).map (fun i => BitVec.ofNat 8 ((t.wAt d (i / 4)).toNat / 256 ^ (i % 4)))

/-- R76, R154: an access of n bytes at the generic address `ea` lies in the scratch of team `u` at `off`, inside the carve: the
thread's own through aperture 0x1, or that of a peer of its quad through aperture 0x2. -/
abbrev State.lies (s : State) (ea : DWord) (n u off : Nat) : Prop :=
  off + n ≤ s.pk.carveBytes ∧ off < 2 ^ 32 ∧
  ((u = s.cur.id.team ∧ ea.toNat = 2 ^ 60 + off) ∨
   ∃ r, r < s.pk.qsize ∧ r < 16 ∧ u = s.cur.id.team / s.pk.qsize * s.pk.qsize + r ∧ ea.toNat = 2 ^ 61 + r * 2 ^ 32 + off)

/-- Nothing keeps a scratch access waiting: no Crosshatch entry stalls it (R208), no earlier request of its thread works on the same
bytes (R31), and the team has stashed nothing (R172). -/
abbrev State.open_ (s : State) (u off n : Nat) (write : Bool) : Prop :=
  s.hatched s.cur.id.launch u off n write = false ∧ s.unorderedScr u off n = false ∧
    ∃ m, s.team? s.cur.id.launch u = some m ∧ m.stash = []

/-- A byte of the scratch of a team of the thread's launch. -/
abbrev State.scratchByte (s : State) (u k : Nat) : Option Byte := (s.team? s.cur.id.launch u).map (fun m => m.scratch.get k)

/-- R22, R78: the load completes: it has one entry at the end of its queue, and the reply with its bytes is on its way. -/
abbrev LoadsBytes (i : Instr) (s : State) (d : Reg) (n w : Nat) (sgn : Bool) (bs : List Byte) : Prop :=
  ∃ t, exec i s = .next t ∧ Moved s s.cur t.cur ∧ Kept s t ∧ t.cur.regs = s.cur.regs ∧ t.mem = s.mem ∧
    t.cur.queue = s.cur.queue ++ [⟨s.nextId, s.cur.idx d, w, .awaiting, []⟩] ∧
    t.replies = s.replies ++ [⟨s.nextId, s.cur.id, loaded n sgn bs, false, 0⟩]

/-- R79: the store to scratch completes: the bytes stand there, and no other byte of scratch or memory has changed. -/
abbrev StoresScratch (i : Instr) (s : State) (u off : Nat) (bs : List Byte) : Prop :=
  ∃ t, exec i s = .next t ∧ Moved s s.cur t.cur ∧ Kept s t ∧ t.cur.regs = s.cur.regs ∧ t.cur.queue = s.cur.queue ∧ t.mem = s.mem ∧
    ∀ x k, t.scratchByte x k = if x = u ∧ off ≤ k ∧ k < off + bs.length then bs[k - off]? else s.scratchByte x k

/-- The LD words with their access sizes, destination widths and signs (R49, R78). -/
abbrev loads (sp : Bool) (pol : BitVec 2) (d a : Reg) (o : BitVec 8) : List (Instr × Nat × Nat × Bool) :=
  [(.ld8S sp pol d a o, 1, 1, true), (.ld8N sp pol d a o, 1, 1, false), (.ld16S sp pol d a o, 2, 1, true),
   (.ld16N sp pol d a o, 2, 1, false), (.ld32 sp pol d a o, 4, 1, false), (.ld64 sp pol d a o, 8, 2, false),
   (.ld128 sp pol d a o, 16, 4, false)]

/-- The ST words with their access sizes and source widths (R49, R79). -/
abbrev stores (sp : Bool) (pol : BitVec 2) (d a : Reg) (o : BitVec 8) : List (Instr × Nat × Nat) :=
  [(.st8 sp pol d a o, 1, 1), (.st16 sp pol d a o, 2, 1), (.st32 sp pol d a o, 4, 1), (.st64 sp pol d a o, 8, 2),
   (.st128 sp pol d a o, 16, 4)]

/-- R76: the effective address of an LD or ST. -/
abbrev State.ea (s : State) (a : Reg) (o : BitVec 8) (n : Nat) : DWord := s.cur.p a + BitVec.ofInt 64 (o.toInt * n)

/-- R77, R185, R275: the checks of a global access of n bytes at `va` pass: its VF is there, no watchpoint covers it, the translation
`e` is held, permits the access, and names memory; a store or an atomic finds D set. -/
abbrev State.grants (s : State) (va n : Nat) (k : AccKind) (hostOk : Bool) (v : Vf) (e : TlbEntry) : Prop :=
  s.vf? (launchVf s.cur.id.launch) = some v ∧ (s.cur.debugPass.contains va = true ∨ v.watched va n k.writes = none) ∧
    s.tlbFind s.curCore v va = some e ∧ (k.reads = true → e.r = true) ∧ (k.writes = true → e.w = true ∧ e.d = true) ∧
    (e.host = true → hostOk = true) ∧ (e.host = false → s.validPa (e.pa + (va - e.va)) = true)

/-- The translated address of an access of the thread in turn, under the cap of its POL (R80). -/
abbrev State.target (s : State) (v : Vf) (e : TlbEntry) (va cap : Nat) : GAddr :=
  s.gaddr v s.cur.id.launch s.cur.id.team e va cap

/-- R49, R80: the cap a POL sets on the page's policy. -/
abbrev capOf (pol : BitVec 2) : Nat := if pol = 1 then 1 else if pol = 2 then 0 else 3

/-- The team of the thread in turn has stashed nothing; no team has. -/
abbrev State.unstashed (s : State) : Prop := ∃ m, s.team? s.cur.id.launch s.cur.id.team = some m ∧ m.stash = []
abbrev State.stashless (s : State) : Prop := s.unstashed ∧ ∀ m ∈ s.teams, m.stash = []

/-- The ATOM words (R50): the operation, the widths of D and of B. -/
abbrev atoms (sp : Bool) (sc : BitVec 2) (d a b : Reg) : List (Instr × AtomOp × Nat × Nat) :=
  [(.aadd sp sc d a b, .add, 1, 1), (.aadd64 sp sc d a b, .add64, 2, 2), (.aminS32 sp sc d a b, .minS, 1, 1),
   (.aminN32 sp sc d a b, .minN, 1, 1), (.amaxS32 sp sc d a b, .maxS, 1, 1), (.amaxN32 sp sc d a b, .maxN, 1, 1),
   (.aand sp sc d a b, .and, 1, 1), (.aor sp sc d a b, .or, 1, 1), (.axor sp sc d a b, .xor, 1, 1),
   (.axchg sp sc d a b, .xchg, 1, 1), (.axchg64 sp sc d a b, .xchg64, 2, 2), (.acas sp sc d a b, .cas, 1, 2),
   (.acas64 sp sc d a b, .cas64, 2, 4), (.afadd sp sc d a b, .fadd, 1, 1), (.afadd64 sp sc d a b, .fadd64, 2, 2),
   (.aincw sp sc d a b, .incw, 1, 1)]

/-- The REDTO words (R193). -/
abbrev redtos (sp : Bool) (d a b : Reg) : List (Instr × AtomOp) :=
  [(.redtoAdd sp d a b, .add), (.redtoFadd sp d a b, .fadd), (.redtoMinS32 sp d a b, .minS), (.redtoMaxS32 sp d a b, .maxS),
   (.redtoOr sp d a b, .or)]

/-- The B operand of an atomic: a register, a pair, and the second pair of four registers. -/
abbrev Thread.bVal (t : Thread) (b : Reg) (wb : Nat) : DWord := if wb = 1 then (t.w b).zeroExtend 64 else t.p b
abbrev Thread.cVal (t : Thread) (b : Reg) (wb : Nat) : DWord := if wb = 4 then Word.pair (t.wAt b 2) (t.wAt b 3) else 0

/-- R183, R187: where an atomic on a global address is performed: in the core's L1, or else at its home slice. -/
abbrev inL1 (g : GAddr) (sc : Nat) : Bool := sc == 0 && decide (2 ≤ g.cache) && !g.repl && !g.checked
abbrev atHome (g : GAddr) (sc : Nat) : Bool := decide (2 ≤ sc) || g.repl || g.checked

/-- The caches of the thread in turn hold nothing, and nothing is stashed. -/
abbrev State.cleared (s : State) : Prop := (s.core s.curCore).l1 = [] ∧ (s.die s.curCore.die).l2 = [] ∧ s.stashless

/-- Nothing dirty and nothing stashed is left to a release of the thread in turn, and all it has sent has been applied (R188). -/
abbrev State.released_ (s : State) (scope : Nat) : Prop := s.cleared ∧ s.releaseDone s.cur.id scope = true

/-- R299: the L a core stamps its next SC access with. -/
abbrev State.nextStamp (s : State) : Nat := max ((s.core s.curCore).scClock + 1) s.clock.toNat

/-- R189, R299: an SC access is stamped and sent to its home slice. -/
abbrev SendsSc (i : Instr) (s : State) (f : Nat) (g : GAddr) (b c : Word) (d : Option Reg) : Prop :=
  ∃ t q, exec i s = .next t ∧ Moved s s.cur t.cur ∧ Kept s t ∧ t.cur.regs = s.cur.regs ∧ t.requests = s.requests ++ [q] ∧ q.t = s.cur.id ∧
    q.kind = .sc f g b c ((s.nextStamp * 64 + s.package) * 2048 + (s.curCore.die * 52 + s.curCore.core)) ∧
    (t.core s.curCore).scClock = s.nextStamp ∧
    t.cur.queue = s.cur.queue ++ (d.map (fun r => (⟨q.id, s.cur.idx r, 1, .awaiting, []⟩ : QEntry))).toList

/-- The WAITC words with their conditions (R190). -/
abbrev waits (sp : Bool) (d a b : Reg) : List (Instr × Nat) :=
  [(.waitcEq sp d a b, 4), (.waitcNe sp d a b, 5), (.waitcGeS32 sp d a b, 6), (.waitcGeN32 sp d a b, 7), (.waitcLtS32 sp d a b, 8),
   (.waitcLtN32 sp d a b, 9)]

/-- The word of a team's scratch; the word of memory. -/
abbrev State.scratchWord (s : State) (u off : Nat) : Word :=
  BitVec.ofNat 32 (numberOf ((List.range 4).map (fun k => (s.scratchByte u (off + k)).getD 0)))
abbrev State.memWord (s : State) (pa : Nat) : Word := BitVec.ofNat 32 (numberOf ((List.range 4).map (fun k => s.mem.get (pa + k))))

/-- R134: the count of the piece at iteration i of a range that ends at `stop`, and the four words of its result (R156). -/
abbrev pieceCount (p : Packet) (i stop : Nat) : Nat := min p.p (min (stop - i) (p.kt - i % p.kt))
abbrev pieceWords (p : Packet) (i stop : Nat) : List Word :=
  let n := pieceCount p i stop
  let first := i % p.kt = 0
  let last := (i + n) % p.kt = 0 ∨ i + n = p.iters
  [BitVec.ofNat 32 (i / p.kt), BitVec.ofNat 32 (i % p.kt), BitVec.ofNat 32 n,
   BitVec.ofNat 32 ((if first then 1 else 0) + (if last then 2 else 0) + (if first ∧ last then 0 else 4))]

/-- A long-latency word issues: its entry of w registers stands in the queue under the name n, and the thread moves past the word. -/
abbrev IssuesEntry (s t : State) (n : Nat) (d : Reg) (w : Nat) : Prop :=
  Moved s s.cur t.cur ∧ Kept s t ∧ t.cur.regs = s.cur.regs ∧ t.cur.queue = s.cur.queue ++ [⟨n, s.cur.idx d, w, .awaiting, []⟩]

/-- A long-latency word sends a request. -/
abbrev SendsRequest (i : Instr) (s : State) (d : Reg) (w : Nat) (k : ReqKind) : Prop :=
  ∃ t q, exec i s = .next t ∧ IssuesEntry s t q.id d w ∧ t.requests = s.requests ++ [q] ∧ q.t = s.cur.id ∧ q.kind = k

/-- A long-latency word whose results are ready at once. -/
abbrev AnswersWith (i : Instr) (s : State) (d : Reg) (vs : List Word) (p : State → Prop) : Prop :=
  ∃ t n, exec i s = .next t ∧ IssuesEntry s t n d vs.length ∧ t.replies = s.replies ++ [⟨n, s.cur.id, vs, false, 0⟩] ∧ p t

/-- The request served has a piece for its answer, with the clock its reply carries; every other request and every thread stands. -/
abbrev HandsOut (s : State) (r : Request) (vs : List Word) (clock : Nat) (p : State → Prop) : Prop :=
  ∃ t, exec (.workPieceServe r.id) s = .next t ∧ t.replies = s.replies ++ [⟨r.id, r.t, vs, false, clock⟩] ∧
    t.requests = s.requests.filter (fun x => x.id != r.id) ∧ t.mem = s.mem ∧
    t.threads.map (fun x => (x.id, x.pc, x.regs, x.queue)) = s.threads.map (fun x => (x.id, x.pc, x.regs, x.queue)) ∧ p t

/-- R136: a team from which a STEAL of team m may take. -/
abbrev State.victim (s : State) (m x : Team) : Prop :=
  x ∈ s.teams ∧ x.launch = m.launch ∧ x.idx ≠ m.idx ∧ x.on x.core = true ∧ x.core.die = m.core.die ∧ x.next + 2 ≤ x.stop

/-- R203, R207: an engine operation stands in its engine's queue with its entry and its Crosshatch entries, and the thread moves on. -/
abbrev StartsOp (i : Instr) (s : State) (d : Reg) (kind : EngKind) (st : EngState) (rs : List Range) (status : Word := 0) : Prop :=
  ∃ t e, exec i s = .next t ∧ IssuesEntry s t e.no d 1 ∧ t.mem = s.mem ∧ t.engines = s.engines ++ [e] ∧ e.req = e.no ∧ e.t = s.cur.id ∧
    e.core = s.curCore ∧ e.kind = kind ∧ e.st = st ∧ e.status = status ∧
    ∀ r ∈ rs, (⟨s.cur.id.launch, r.team, r.lo, r.hi, r.write, e.no⟩ : Hatch) ∈ (t.core (s.coreOf s.cur.id.launch r.team)).hatch

/-- The word stands, unissued, under a stall reason (R142). -/
abbrev StallsFor (i : Instr) (s : State) (reason : Nat) : Prop := exec i s = .next (s.parkCur (.stalled reason))

/-- Every core has room for n Crosshatch entries (R207). -/
abbrev State.roomy (s : State) (n : Nat) : Prop := ∀ k, (s.core k).hatch.length + n ≤ 48

/-- A range of n bytes from `off` of the issuing team's scratch can be read now: no operation in flight covers it, and nothing is
stashed (R172, R209). -/
abbrev State.readable (s : State) (off n : Nat) : Prop :=
  s.hatched s.cur.id.launch s.cur.id.team off n false = false ∧ s.unorderedScr s.cur.id.team off n = false ∧ s.unstashed

/-- The n bytes of the issuing team's scratch from `off`. -/
abbrev State.scratchRange (s : State) (off n : Nat) : List Byte := (List.range n).map (fun k => (s.scratchByte s.cur.id.team (off + k)).getD 0)

/-- A status word: code and detail (R110, R219, R265). -/
abbrev codeWord (code detail : Nat) : Word := BitVec.ofNat 32 (code + 256 * detail)

/-- The operation has finished with this status (R203). -/
abbrev State.finished (s : State) (no : Nat) (status : Word) : Prop := (s.eng? no).map (fun x => (x.st, x.status)) = some (.done, status)

/-- R217: a translation `x` of `va` is held for an operation, and permits it; the place of the bytes is global memory homed on the die
of its core, cached and stashed nowhere, and nothing is wrong with it. -/
abbrev State.permits (s : State) (e : EngineOp) (va cap : Nat) (write : Bool) (v : Vf) (x : TlbEntry) : Prop :=
  let g := s.gaddr v e.t.launch e.t.team x va cap
  s.vf? (launchVf e.t.launch) = some v ∧ s.tlbFind e.core v va = some x ∧ x.host = false ∧ s.validPa (x.pa + (va - x.va)) = true ∧
    (if write then x.w = true ∧ x.d = true else x.r = true) ∧ homeOf g.pa = e.core.die ∧ e.core.die < 24 ∧ g.repl = false ∧ g.cache = 0 ∧
    g.checked = false ∧ g.det = false ∧ (s.core e.core).l1 = []

/-- R217: the translation held of `va` denies the operation its access. -/
abbrev State.denies (s : State) (e : EngineOp) (va : Nat) (write : Bool) : Prop :=
  ∃ v x, s.vf? (launchVf e.t.launch) = some v ∧ s.tlbFind e.core v va = some x ∧ (if write then x.w = false else x.r = false)

/-- Nothing is stashed, and no single fault stands (R172, R328). -/
abbrev State.sound (s : State) : Prop := (∀ m ∈ s.teams, m.stash = []) ∧ s.flips = [] ∧ s.poison = []

/-- A copy that begins finds this record: its word looked it up, or its core holds it (R213). -/
abbrev State.records? (s : State) (e : EngineOp) (multi : Bool) (h : Nat) (w : List Word) (b : List Byte) : Prop :=
  e.kind = .copy multi h w (some b) none ∨
    (e.kind = .copy multi h w none none ∧ ∃ r, (s.core e.core).recEntry (launchVf e.t.launch) h = some r ∧ r.bytes = b)

/-- R221: a token of a stream as (bytes of a literal, distance, length of a copy), and its own bytes. -/
abbrev tokenBytes (t : List Byte × Nat × Nat) : List Byte :=
  if t.1 = [] then [BitVec.ofNat 8 (125 + t.2.2), BitVec.ofNat 8 (t.2.1 % 256), BitVec.ofNat 8 (t.2.1 / 256)]
  else BitVec.ofNat 8 (t.1.length - 1) :: t.1

/-- R221: the bytes written once a token has been decoded after the bytes `out`, with a dictionary. -/
abbrev tokenOut (dict out : List Byte) (t : List Byte × Nat × Nat) : List Byte :=
  (List.range t.2.2).foldl (fun o _ =>
    o ++ [if t.2.1 ≤ o.length then o.getD (o.length - t.2.1) 0 else dict.getD (dict.length + o.length - t.2.1) 0]) (out ++ t.1)

/-- R221: a token of a literal or of a copy whose distance reaches no byte before the dictionary. -/
abbrev tokenOk (dict out : List Byte) (t : List Byte × Nat × Nat) : Prop :=
  (1 ≤ t.1.length ∧ t.1.length ≤ 128 ∧ t.2 = (0, 0)) ∨
    (t.1 = [] ∧ 3 ≤ t.2.2 ∧ t.2.2 ≤ 129 ∧ 1 ≤ t.2.1 ∧ t.2.1 < 65536 ∧ t.2.1 ≤ out.length + dict.length)

/-- R221: the bytes a stream of tokens writes. -/
abbrev streamOut (dict : List Byte) (ts : List (List Byte × Nat × Nat)) : List Byte := ts.foldl (tokenOut dict) []

/-- Byte k of a team's scratch. -/
abbrev State.scrByte (s : State) (l t k : Nat) : Option Byte := (s.team? l t).map (fun m => m.scratch.get k)

/-- R98, R111: the segment an overlay word names, its length, and its state on the core of the thread in turn. -/
abbrev State.segNamed (s : State) (a : Reg) : Nat := (s.cur.w a).toNat / 65536
abbrev State.stateOf (s : State) (seg : Nat) : SegState := s.segState s.curCore (launchVf s.cur.id.launch) (s.coidOf s.cur.id.launch) seg

/-- R110: a status word of an overlay word, with the frames of a segment of the length given. -/
abbrev overlayWord (code detail len : Nat) : Word := BitVec.ofNat 32 (code + 256 * detail + 65536 * ((len + 4095) / 4096))

/-- R111: an overlay word waits for a load: its entry stands in the queue, and p holds of the state reached. -/
abbrev WaitsForSegment (i : Instr) (s : State) (d : Reg) (p : State → Nat → Prop) : Prop :=
  ∃ t n, exec i s = .next t ∧ IssuesEntry s t n d 1 ∧ t.mem = s.mem ∧ p t n

/-- R225: the thread in turn has the slot x, and its launch has STYLUS. -/
abbrev State.hasSlot (s : State) (x : CandSlot) : Prop := s.slot? s.cur.id = some x ∧ s.pk.stylus = true

/-- R234, R235: the virtual address of a signature's bucket. -/
abbrev bucketOf (p : Packet) (h l : Word) : Nat :=
  p.proof + (l.toNat % 65536 % 24 * 2 ^ p.proofB + (h ^^^ l).toNat % 2 ^ p.proofB) * 128

/-- R227: a word of the candidate subset and the registers that its fields name. -/
abbrev CandidateWord (i : Instr) (rs : List Reg) : Prop :=
  (∃ sp d a b, rs = [d, a, b] ∧ i ∈ [Instr.add sp d a b, .sub sp d a b, .mullo sp d a b, .divS32 sp d a b, .remS32 sp d a b, .and sp d a b,
    .or sp d a b, .xor sp d a b, .shl sp d a b, .shr sp d a b, .sar sp d a b, .minS32 sp d a b, .maxS32 sp d a b, .sel sp d a b,
    .seteq sp d a b, .setltS32 sp d a b, .fadd sp d a b, .fsub sp d a b, .fmul sp d a b, .fma sp d a b, .fmin sp d a b, .fmax sp d a b,
    .fsetlt sp d a b]) ∨
  (∃ sp d a, rs = [d, a] ∧ i ∈ [Instr.mov sp d a, .fabs sp d a, .fneg sp d a, .sld32 sp d a, .sst32 sp d a]) ∨
  (∃ sp d a k, rs = [d, a] ∧ i ∈ [Instr.addi sp d a k, .andi sp d a k, .ori sp d a k, .xori sp d a k, .setltiS32 sp d a k]) ∨
  (∃ sp d a k, rs = [d, a] ∧ i ∈ [Instr.shli sp d a k, .shri sp d a k, .sari sp d a k]) ∨ (∃ sp d k, rs = [d] ∧ i = .lds sp d k) ∨
  (∃ sp a k, rs = [a] ∧ i ∈ [Instr.beqz sp a k, .bnez sp a k, .bltz sp a k, .bgez sp a k]) ∨ (∃ sp k, rs = [] ∧ i = .bra sp k) ∨
  (∃ sp, rs = [] ∧ i ∈ [Instr.exit sp, .nop sp])

/-- The 128 bytes of a bucket, its live entries of a run tag, and the first one of them that matches a signature (R235, R236). -/
abbrev State.bucket (s : State) (pa : Nat) : List Byte := (List.range 128).map (fun k => s.mem.get (pa + k))
abbrev liveEntries (b : List Byte) (tag : Nat) : List ProofEntry := ((List.range 8).map (proofEntry b)).filter (fun e => e.tag == tag)
abbrev matches_ (b : List Byte) (tag : Nat) (h l : Word) (i : Nat) : Prop :=
  i < 8 ∧ (proofEntry b i).tag = tag ∧ (proofEntry b i).h = h.toNat ∧ (proofEntry b i).l = l.toNat

/-- R347: the part's own access of a VF to `va` translates to `g`, with A and D set already: at most the horizon of die 0 has moved
since (R297). -/
abbrev State.partHolds (s : State) (v : Vf) (l va : Nat) (ds : List Die) (g : GAddr) : Prop :=
  s.partAddr v l va true = ({ s with dies := ds }, some g, .done)

/-- R295, R347: bytes that the part has written stand at `a` in memory, or are on their way there from die 0. -/
abbrev PartWrote (s t : State) (a : Nat) (bs : List Byte) : Prop :=
  ((homeOf a = 0 ∨ 24 ≤ homeOf a) → ∀ k, some (t.mem.get k) = if a ≤ k ∧ k < a + bs.length then bs[k - a]? else some (s.mem.get k)) ∧
  (homeOf a ≠ 0 → homeOf a < 24 → t.mem = s.mem ∧ ∃ m ∈ t.welt, m.src = 0 ∧ m.toHome = true ∧ m.dst = homeOf a ∧ m.g.pa = a / 128 * 128 ∧
    m.bytes.map (fun b => b.2) = bs ∧ m.bytes.map (fun b => b.1) = (List.range bs.length).map (fun i => a % 128 + i))

/-- R126, R127: a field of a packet, a flag, and what its extents come to. -/
abbrev packetNum (b : List Byte) (off n : Nat) : Nat := numberOf ((b.drop off).take n)
abbrev packetFlag (b : List Byte) (i : Nat) : Prop := packetNum b 4 4 / 2 ^ i % 2 = 1
abbrev packetThreads (b : List Byte) : Nat := packetNum b 28 2 * packetNum b 30 1 * packetNum b 31 1
abbrev packetCrews (b : List Byte) : Nat := (packetThreads b + 31) / 32
abbrev packetGrid (b : List Byte) : Nat := packetNum b 32 4 * packetNum b 36 2 * packetNum b 38 2

/-- R128: the conditions of step 1, in the order of their details. -/
abbrev PacketForm (b : List Byte) : Prop :=
  let n := packetNum b
  n 0 2 = 1 ∧ n 2 2 = 0 ∧ n 4 4 < 2 ^ 11 ∧ n 27 1 = 0 ∧ n 76 4 = 0 ∧ n 113 15 = 0 ∧ n 8 8 % 256 = 0 ∧ n 40 8 % 256 = 0 ∧ n 48 8 % 8 = 0 ∧
    n 64 8 % 64 = 0 ∧ 64 ≤ n 72 4 ∧ n 96 8 % 128 = 0 ∧ (packetFlag b 3 ∨ n 104 8 = 0 ∧ n 112 1 = 0)
abbrev PacketExtents (b : List Byte) : Prop :=
  let n := packetNum b
  1 ≤ n 19 1 ∧ n 19 1 ≤ 4 ∧ 1 ≤ packetThreads b ∧ packetThreads b ≤ 1024 ∧ 1 ≤ packetGrid b ∧ packetGrid b % n 19 1 = 0 ∧ n 26 1 < packetCrews b
abbrev PacketWork (b : List Byte) : Prop :=
  let n := packetNum b
  let dist := n 4 4 % 4
  dist ≠ 3 ∧ (dist = 0 → n 80 8 = 0 ∧ n 88 4 = 0 ∧ n 92 4 = 0) ∧ (dist ≠ 0 → n 88 4 ≠ 0 ∧ n 92 4 ≠ 0) ∧ (dist = 1 → packetFlag b 2)
abbrev PacketNbv (b : List Byte) : Prop := packetNum b 18 1 = 1 ∨ packetNum b 18 1 = 2
abbrev PacketProof (b : List Byte) : Prop :=
  let n := packetNum b
  packetFlag b 3 → n 112 1 ≤ 24 ∧ (n 104 8 = 0 ∨ n 104 8 % 128 = 0 ∧ n 104 8 < 2 ^ 48)
abbrev PacketFeatures (v : Vf) (b : List Byte) : Prop :=
  (packetFlag b 3 → v.feature0.getLsbD 2) ∧ (packetFlag b 4 → v.feature0.getLsbD 3) ∧ (packetFlag b 5 ∨ packetFlag b 6 → v.feature0.getLsbD 4) ∧
    v.feature0.getLsbD (7 + packetNum b 18 1)
abbrev PacketDet (b : List Byte) : Prop := packetFlag b 4 → packetFlag b 2

/-- R128: the conditions of steps 2 and 3, and of step 4 in the order of their details. -/
abbrev PacketMenu (b : List Byte) : Prop := packetNum b 22 2 ∈ [0, 16, 32, 48, 64, 96, 128, 160, 192, 224, 256]
abbrev PacketRegs (b : List Byte) : Prop := packetNum b 20 2 % 32 = 0 ∧ 32 ≤ packetNum b 20 2 ∧ packetNum b 20 2 ≤ 512
abbrev PacketRoom (b : List Byte) : Prop := packetCrews b * 32 * packetNum b 20 2 ≤ 196608
abbrev PacketSlots (b : List Byte) : Prop := packetFlag b 3 → packetCrews b * 32 ≤ 512
abbrev PacketLease (b : List Byte) : Prop := packetNum b 24 2 = 0xFFFF ∨ packetNum b 24 2 ≤ (320 - packetNum b 22 2) * 8
abbrev State.PinFrames (s : State) (v : Vf) (i : Image) : Prop :=
  ∃ k : CoreId, k.die < 24 ∧ v.diemask.getLsbD k.die ∧ k.core < 52 ∧ i.pinFrames ≤ s.quota k v.id

/-- Bytes that the front end has asked for at an address, and those it still lacks (R347); none are asked for where the length is 0. -/
abbrev HasRead (rd : Nat → Nat → Option (List Byte)) (va n : Nat) (b : List Byte) : Prop :=
  b.length = n ∧ (n ≠ 0 → rd va n = some b)
abbrev LacksRead (rd : Nat → Nat → Option (List Byte)) (va n : Nat) : Prop := n ≠ 0 ∧ rd va n = none

/-- R113: the records of an object's notes, type, payload and padding, laid out one after another. -/
abbrev NotesAre (recs : List (Nat × List Byte × List Byte)) (b : List Byte) : Prop :=
  (∀ r ∈ recs, r.1 < 2 ^ 32 ∧ r.2.1.length < 2 ^ 32 ∧ r.2.2.length < 8 ∧ (r.2.1.length + r.2.2.length) % 8 = 0) ∧
    b = recs.flatMap (fun r => bytesOf 4 r.1 ++ bytesOf 4 r.2.1.length ++ r.2.1 ++ r.2.2)

/-- What a word of fixed latency may change: n registers from `d` on, the flags named, where its thread stands, and what the rest of
its crew does about its meeting; nothing else of any state. -/
abbrev ChangesOnly (s : State) (d : Reg) (n : Nat) (ints fps : Bool) (i : Instr) : Prop :=
  ∀ t, exec i s = .next t → s.sameRest t ∧
    (∀ id x, id ≠ s.cur.id → s.thread? id = some x → ∃ u, t.thread? id = some u ∧ x.carries u) ∧
    s.cur.carries { t.cur with
      regs := s.cur.regs
      intflags := if ints then s.cur.intflags else t.cur.intflags
      fpflags := if fps then s.cur.fpflags else t.cur.fpflags } ∧
    t.cur.regs.length = s.cur.regs.length ∧
    ∀ k, (k < s.cur.winbase + d.toNat ∨ s.cur.winbase + d.toNat + n ≤ k) → t.cur.regs[k]? = s.cur.regs[k]?

/-- Device memory and every team's scratch are in canonical form: addresses strictly rise, and no byte that reads 0 is listed. -/
abbrev State.memoryCanonical (s : State) : Prop := s.mem.wf = true ∧ ∀ m ∈ s.teams, m.scratch.wf = true

/-- R13, R37, R41 to R56: every word with register operands, with the registers its D, A and B cover (0: no register). -/
abbrev registerForms (sp : Bool) (d a b : Reg) (pol sc : BitVec 2) (imm : BitVec 10) (sh : BitVec 5) (big : BitVec 18) (sel : BitVec 7)
    (off : BitVec 8) (br : BitVec 17) (bs : BitVec 3) : List (Nat × Nat × Nat × List Instr) :=
  [(1, 1, 1, [.add sp d a b, .sub sp d a b, .mullo sp d a b, .mulhiS32 sp d a b, .mulhiN32 sp d a b, .mad sp d a b, .divS32 sp d a b,
      .divN32 sp d a b, .remS32 sp d a b, .remN32 sp d a b, .and sp d a b, .or sp d a b, .xor sp d a b, .andn sp d a b, .orn sp d a b,
      .shl sp d a b, .shr sp d a b, .sar sp d a b, .rotl sp d a b, .rotr sp d a b, .minS32 sp d a b, .minN32 sp d a b, .maxS32 sp d a b,
      .maxN32 sp d a b, .sad sp d a b, .sel sp d a b, .seteq sp d a b, .setne sp d a b, .setltS32 sp d a b, .setltN32 sp d a b,
      .setleS32 sp d a b, .setleN32 sp d a b, .bfxS32 sp d a b, .bfxN32 sp d a b, .bfi sp d a b, .fadd sp d a b, .fsub sp d a b,
      .fmul sp d a b, .fma sp d a b, .fmin sp d a b, .fmax sp d a b, .fdiv sp d a b, .fseteq sp d a b, .fsetlt sp d a b,
      .fsetle sp d a b, .fsetun sp d a b, .hadd2 sp d a b, .hmul2 sp d a b, .hfma2 sp d a b, .badd2 sp d a b, .bmul2 sp d a b,
      .bfma2 sp d a b, .packF16 sp d a b, .packBf16 sp d a b, .qntN8 sp d a b, .dqntN8 sp d a b, .cshfl sp d a b, .cshflx sp d a b,
      .cup sp d a b, .cdn sp d a b, .cbcast sp d a b, .dprog sp d a b]),
    (1, 1, 0, [.clz sp d a, .popc sp d a, .brev sp d a, .mov sp d a, .sext8 sp d a, .sext16 sp d a, .fsqrt sp d a, .frcp sp d a, .frsq sp d a,
      .fexp2 sp d a, .flog2 sp d a, .fabs sp d a, .fneg sp d a, .frint sp d a, .fclass sp d a, .cvtF32S32 sp d a, .cvtF32N32 sp d a,
      .cvtS32F32 sp d a, .cvtN32F32 sp d a, .cvany sp d a, .cvall sp d a, .cballot sp d a, .cradd sp d a, .crfadd sp d a,
      .crminS32 sp d a, .crmaxS32 sp d a, .cscan sp d a, .cscanf sp d a, .sld32 sp d a, .sst32 sp d a, .task sp d a, .ovld sp d a,
      .ovtok sp d a, .ovq sp d a, .sunmap sp d a, .addi sp d a imm, .andi sp d a imm, .ori sp d a imm, .xori sp d a imm,
      .setltiS32 sp d a imm, .shli sp d a sh, .shri sp d a sh, .sari sp d a sh, .barinit sp d a bs]),
    (2, 1, 1, [.mulwS32 sp d a b, .mulwN32 sp d a b, .mad64N32 sp d a b, .mad64S32 sp d a b]),
    (2, 2, 2, [.add64 sp d a b, .sub64 sp d a b, .dadd sp d a b, .dsub sp d a b, .dmul sp d a b, .dfma sp d a b, .dmin sp d a b, .dmax sp d a b,
      .ddiv sp d a b, .aadd64 sp sc d a b, .axchg64 sp sc d a b, .afadd64 sp sc d a b]),
    (2, 2, 4, [.acas64 sp sc d a b]),
    (2, 2, 1, [.shl64 sp d a b, .shr64 sp d a b, .sar64 sp d a b, .redtoAdd sp d a b, .redtoFadd sp d a b, .redtoMinS32 sp d a b,
      .redtoMaxS32 sp d a b, .redtoOr sp d a b, .proof sp d a b]),
    (1, 2, 2, [.seteq64 sp d a b, .setlt64S sp d a b, .setlt64N sp d a b, .dseteq sp d a b, .dsetlt sp d a b, .dsetle sp d a b, .cassc sp d a b,
      .smap sp d a b, .acas sp sc d a b]),
    (1, 2, 1, [.launch sp d a b, .cload sp d a b, .waitcEq sp d a b, .waitcNe sp d a b, .waitcGeS32 sp d a b, .waitcGeN32 sp d a b,
      .waitcLtS32 sp d a b, .waitcLtN32 sp d a b, .aadd sp sc d a b, .aminS32 sp sc d a b, .aminN32 sp sc d a b, .amaxS32 sp sc d a b,
      .amaxN32 sp sc d a b, .aand sp sc d a b, .aor sp sc d a b, .axor sp sc d a b, .axchg sp sc d a b, .afadd sp sc d a b,
      .aincw sp sc d a b]),
    (2, 2, 0, [.mov64 sp d a, .dsqrt sp d a, .drint sp d a, .cvtF64S64 sp d a, .cvtS64F64 sp d a, .cvtF64N64 sp d a, .cvtN64F64 sp d a,
      .ldu sp d a, .proofq sp d a, .ld64 sp pol d a off, .st64 sp pol d a off]),
    (2, 1, 0, [.cvtF64F32 sp d a, .cvtF64S32 sp d a, .unpkF16 sp d a, .unpkBf16 sp d a, .sld64 sp d a, .sst64 sp d a]),
    (1, 2, 0, [.cvtF32F64 sp d a, .cvtS32F64 sp d a, .ldsc sp d a, .qld32 sp d a, .qst32 sp d a, .recfl sp d a, .djob sp d a,
      .ld8S sp pol d a off, .ld8N sp pol d a off, .ld16S sp pol d a off, .ld16N sp pol d a off, .ld32 sp pol d a off,
      .st8 sp pol d a off, .st16 sp pol d a off, .st32 sp pol d a off]),
    (4, 2, 0, [.ld128 sp pol d a off, .st128 sp pol d a off]),
    (1, 2, 8, [.copy sp d a b, .copym sp d a b]),
    (2, 4, 1, [.crun sp d a b]),
    (1, 0, 0, [.lds sp d big, .ldh sp d big, .orl sp d big, .addpc sp d big, .meetq sp d, .rds sp d sel]),
    (2, 0, 0, [.sget sp d]),
    (4, 0, 0, [.work sp d, .steal sp d]),
    (0, 1, 0, [.beqz sp a br, .bnez sp a br, .bltz sp a br, .bgez sp a br, .bgtz sp a br, .blez sp a br, .meet sp a, .lease sp a, .leasem sp a,
      .ovrel sp a, .win sp a, .jr sp a, .callx sp a, .bar sp a bs, .bara sp a bs, .barw sp a bs, .wrs sp a sel]),
    (0, 2, 0, [.pref sp a]),
    (0, 1, 1, [.sfold sp a b]),
    (0, 2, 1, [.stsc sp a b]),
    (0, 0, 1, [.ocall sp b])]

/-- R249: the bits a number format has after one run is added: `q` before, `r` after, `a k` and `b k` the operand bits of the
products present, in format `f`; the accumulator has format `g`. -/
abbrev AddsRun (f g : Fmt) (n : Nat) (present : Nat → Prop) (a b : Nat → Nat) (q r : Nat) : Prop :=
  let zero (x : Nat) : Prop := f.exOf x = 0 ∧ f.frOf x = 0
  let neg (k : Nat) : Prop := ¬ (f.minus (a k) ↔ f.minus (b k))
  let bad (k : Nat) : Prop := f.isNaN (a k) ∨ f.isNaN (b k) ∨ f.isInf (a k) ∧ zero (b k) ∨ zero (a k) ∧ f.isInf (b k)
  let inf (k : Nat) : Prop := ¬ bad k ∧ (f.isInf (a k) ∨ f.isInf (b k))
  let up : Prop := (∃ k < n, present k ∧ inf k ∧ ¬ neg k) ∨ g.isInf q ∧ ¬ g.minus q
  let down : Prop := (∃ k < n, present k ∧ inf k ∧ neg k) ∨ g.isInf q ∧ g.minus q
  let nan : Prop := (∃ k < n, present k ∧ bad k) ∨ g.isNaN q ∨ up ∧ down
  (nan → r = (2 ^ g.ew - 1) * 2 ^ g.fw + 2 ^ (g.fw - 1)) ∧
  (¬ nan → up ∨ down → GivesInf g down 0 ⟨r, 0⟩) ∧
  (∀ (y : ℝ) (z : Nat → ℝ), ¬ nan → ¬ up → ¬ down → g.holds q y →
    (∀ k < n, present k → ∃ u v, f.holds (a k) u ∧ f.holds (b k) v ∧ z k = u * v) → (∀ k < n, ¬ present k → z k = 0) →
    let sum := y + ((List.range n).map z).sum
    (sum ≠ 0 → ∃ fl, Rounds g 0 sum ⟨r, fl⟩) ∧
    (sum = 0 → GivesZero g (g.minus q ∧ (∃ k < n, present k) ∧ ∀ k < n, present k → z k = 0 ∧ neg k) ⟨r, 0⟩))

/-- Where a task's destination lies in scratch or cluster: the team, and the offset in its scratch (R255, R261). -/
abbrev drainsTo (p : Packet) (t : Nat) (r : TaskRec) (u off : Nat) : Prop :=
  aperture p (BitVec.ofNat 64 r.dest) 1 = .scr off ∧ u = t ∨
    ∃ q, aperture p (BitVec.ofNat 64 r.dest) 1 = .clu q off ∧ u = quadPeer p t q

/-- R260: the elements x of a drain as bytes, read from the destination on: es bytes each, or p planes. -/
abbrev LaidOut (c : Chain) (r : TaskRec) (o : Nat × Nat) (x : Nat → Nat → Nat) (byte : Nat → Option Byte) : Prop :=
  ∀ i < c.m, ∀ j < tileN c.fmt,
    (o.1 = 0 → ∀ k < o.2, byte (i * r.dpitch + j * o.2 + k) = some (BitVec.ofNat 8 (x i j / 256 ^ k))) ∧
    (o.1 ≠ 0 → ∀ q < o.1, ∃ b, byte (i * r.dpitch + q * (tileN c.fmt / 8) + j / 8) = some b ∧
      (b.getLsbD (j % 8) = true ↔ x i j / 2 ^ (7 - q) % 2 = 1))

/-- R4: the number of n bytes from offset o of a list of bytes. -/
abbrev numAt (b : List Byte) (o n : Nat) : Nat := numberOf ((b.drop o).take n)

/-- R285: the state code of a thread. -/
abbrev stateCode (p : Phase) (n : Nat) : Prop :=
  match p with
  | .ready => n = 0
  | .switchParked => n = 1
  | .held => n = 2
  | .waiting => n = 3
  | .barrier _ _ _ => n = 4
  | .monitor => n = 5
  | .settling => n = 6
  | .pageParked _ => n = 7
  | .faulted => n = 8
  | .debugStopped _ => n = 9
  | .exited => n = 10
  | .neverStarted => n = 11
  | .walking _ => n = 0
  | .stalled _ => n = 0
  | .backoff _ => n = 0

/-- R285: the wait field of a thread. -/
abbrev State.waitOf (s : State) (p : Phase) (n : Nat) : Prop :=
  let seq (rid : Nat) : Prop := ∀ r q, s.records.find? (fun x => x.rid == rid) = some r → r.seq = some q → q < 2 ^ 32 → n = q
  match p with
  | .pageParked rid => seq rid
  | .debugStopped rid => seq rid
  | .barrier scope id noted => n = id % 16 + 16 * (scope % 8) + 65536 * (noted.getD 0 % 65536)
  | _ => n = 0

/-- What is a team's own has the sizes and ranges that R12, R20, R140, R225, R245 and R262 give it, and its image is shorter than 2^32 bytes. -/
abbrev State.imageable (s : State) (m : Team) : Prop :=
  let p := s.packet m.launch
  let mine (i : ThreadId) : Prop := i.launch = m.launch ∧ i.team = m.idx
  s.team? m.launch m.idx = some m ∧ (s.imageBytes m).length < 2 ^ 32 ∧
  (∀ i x, mine i → s.thread? i = some x → x.regs.length = p.regs ∧ x.winbase < 2 ^ 16 ∧ x.queue.length ≤ 16 ∧
    ∀ e ∈ x.queue, e.base < 2 ^ 16 ∧ e.width < 256 ∧ e.val.length ≤ 4 ∧ (e.st = .held → e.val.length = e.width)) ∧
  (∀ x ∈ s.slots, mine x.owner → p.stylus = true ∧ x.owner.lin < p.crews * 32 ∧ x.buffer.length = 64 ∧ x.sandbox.length = 64 ∧ x.n < 256 ∧
    ∀ r, x.run = some r → r.regs.length = 16 ∧ r.pc < 256 ∧ r.fuel < 2 ^ 32 ∧ r.used < 2 ^ 32) ∧
  (s.crews.map (fun c => c.id)).Nodup ∧
  (∀ c ∈ s.teamCrews m.launch m.idx, c.lease < 2 ^ 16 ∧ c.window < 2 ^ 32 ∧ c.lines.length < 2 ^ 16 ∧ c.tags.length < 2 ^ 16 ∧ ∀ x ∈ c.tags, x < 2 ^ 57) ∧
  (∀ c ∈ s.teamChains m.launch m.idx, c.id < 256 ∧ c.fmt < 256 ∧ c.m < 2 ^ 16 ∧ c.acc.length < 2 ^ 32 ∧
    (∀ e, c.e = some e → -2 ^ 15 ≤ e ∧ e < 2 ^ 15) ∧ ∀ a ∈ c.acc, if c.fmt = 0 then -2 ^ 63 ≤ a ∧ a < 2 ^ 63 else 0 ≤ a ∧ a < if c.fmt = 4 then 2 ^ 64 else 2 ^ 32) ∧
  (∀ d ∈ s.drains, d.launch = m.launch → d.quad = m.idx / p.qsize → (d.progs.map (fun x => x.1)).Nodup ∧
    ∀ x ∈ d.progs, x.1 < 16 ∧ x.2.consts.length = 16 ∧ x.2.steps.length ≤ 8 ∧ ∀ w ∈ x.2.steps, w.toNat / 4096 ≠ 0) ∧
  m.tokens.length ≤ 16 ∧ (∀ x ∈ m.tokens, x.1 < 2 ^ 16 ∧ 1 ≤ x.2 ∧ x.2 < 256) ∧
  m.stash.length ≤ 8 ∧ ∀ x ∈ m.stash, x.off < 2 ^ 32 ∧ 1 ≤ x.len ∧ x.len < 2 ^ 32 ∧ x.va < 2 ^ 64

/-- R284: the header of a team's image. -/
abbrev State.HasHeader (s : State) (m : Team) (b : List Byte) : Prop :=
  let l := m.launch
  let p := s.packet l
  (numAt b 0 2 = 1 ∧ (numAt b 2 2 % 2 = 1 ↔ p.stylus = true) ∧
    (numAt b 2 2 / 2 % 2 = 1 ↔ ∃ x ∈ s.threads, x.id.launch = l ∧ x.id.team = m.idx ∧ x.inHandler = true) ∧
    numAt b 2 2 / 4 = if m.auto then 1 else 0) ∧
  (numAt b 4 4 = b.length ∧ numAt b 8 8 = l % 2 ^ 64 ∧ numAt b 16 4 = m.idx % 2 ^ 32 ∧ numAt b 20 2 = p.threads % 2 ^ 16) ∧
  (numAt b 22 1 = p.crews % 2 ^ 8 ∧ numAt b 23 1 = m.idx % p.qsize % 2 ^ 8 ∧ numAt b 24 2 = p.regs % 2 ^ 16 ∧ numAt b 26 2 = p.carve % 2 ^ 16) ∧
  (numAt b 28 2 = s.outstanding l m.idx % 2 ^ 16 ∧ numAt b 30 2 = 0 ∧ numAt b 32 8 = (s.vfTime (launchVf l)).toNat ∧ numAt b 256 256 = 0) ∧
  (∀ i < 16, (∀ x, m.tokens[i]? = some x → numAt b (64 + 4 * i) 2 = x.1 ∧ numAt b (66 + 4 * i) 1 = x.2 ∧ numAt b (67 + 4 * i) 1 = 0) ∧
    (m.tokens[i]? = none → numAt b (64 + 4 * i) 4 = 0)) ∧
  (∀ i < 8, (∀ x, m.stash[i]? = some x →
      numAt b (128 + 16 * i) 4 = x.off ∧ numAt b (132 + 16 * i) 4 = x.len ∧ numAt b (136 + 16 * i) 8 = x.va) ∧
    (m.stash[i]? = none → numAt b (128 + 16 * i) 16 = 0))

/-- R285: a queue entry at an offset of an image. -/
abbrev QEntry.HasBytes (e : QEntry) (b : List Byte) (q : Nat) : Prop :=
  (numAt b q 2 = e.base ∧ numAt b (q + 2) 1 = e.width ∧ numAt b (q + 4) 4 = 0) ∧
  (e.st = .awaiting → numAt b (q + 3) 1 = 0) ∧ (e.st = .held → numAt b (q + 3) 1 = 1) ∧ (e.st = .reissue → numAt b (q + 3) 1 = 2) ∧
  ∀ j < 4, numAt b (q + 8 + 4 * j) 4 = (e.val.getD j 0).toNat

/-- R285: a thread's record at an offset of an image. -/
abbrev State.HasThread (s : State) (x : Thread) (b : List Byte) (o : Nat) : Prop :=
  (numAt b o 4 = x.pc.toNat ∧ numAt b (o + 4) 4 = x.lk.toNat ∧ numAt b (o + 8) 4 = x.meet.toNat ∧ numAt b (o + 12) 4 = x.tlk.toNat) ∧
  (numAt b (o + 16) 4 = x.tmeet.toNat ∧ numAt b (o + 20) 2 = x.winbase ∧ stateCode x.phase (numAt b (o + 22) 1 % 16)) ∧
  (numAt b (o + 22) 1 / 16 = (if x.inHandler then 1 else 0) + if x.released then 2 else 0) ∧
  (numAt b (o + 23) 1 = x.queue.length ∧ numAt b (o + 28) 4 = x.clockLatch.toNat ∧
    numAt b (o + 24) 4 = x.fpmode.toNat + 2 ^ 8 * x.fpflags.toNat + 2 ^ 16 * x.intflags.toNat) ∧
  (numAt b (o + 32) 4 = x.trapcode.toNat ∧ numAt b (o + 36) 4 = x.trappc.toNat ∧ numAt b (o + 40) 4 = x.trapinfo.toNat) ∧
  (numAt b (o + 44) 4 = x.trapmask.toNat ∧ numAt b (o + 48) 8 = x.trapaddr.toNat ∧ s.waitOf x.phase (numAt b (o + 56) 4) ∧ numAt b (o + 60) 68 = 0) ∧
  (∀ k < 16, (∀ e, x.queue[k]? = some e → e.HasBytes b (o + 128 + 24 * k)) ∧
    (x.queue[k]? = none → numAt b (o + 128 + 24 * k) 24 = 0)) ∧
  ∀ k < x.regs.length, numAt b (o + 512 + 4 * k) 4 = (x.regs.getD k 0).toNat

/-- R286: a candidate slot, a crew's lease record, an open chain and a drain program at an offset of an image. -/
abbrev CandSlot.HasBytes (x : CandSlot) (b : List Byte) (o : Nat) : Prop :=
  (∀ k < 64, numAt b (o + 4 * k) 4 = (x.buffer.getD k 0).toNat ∧ b[o + 256 + k]? = some (x.sandbox.getD k 0)) ∧
  (numAt b (o + 384) 1 = x.n ∧ numAt b (o + 387) 1 = 0 ∧ numAt b (o + 388) 4 = x.h.toNat ∧ numAt b (o + 392) 4 = x.l.toNat) ∧
  numAt b (o + 404) 12 = 0 ∧ (x.run = none → numAt b (o + 385) 1 = 0) ∧
  ∀ r, x.run = some r → (numAt b (o + 385) 1 = 1 ∧ numAt b (o + 386) 1 = r.pc ∧ numAt b (o + 396) 4 = r.fuel ∧ numAt b (o + 400) 4 = r.used) ∧
    ∀ k < 16, numAt b (o + 320 + 4 * k) 4 = (r.regs.getD k 0).toNat
abbrev Crew.HasBytes (c : Crew) (b : List Byte) (o : Nat) : Prop :=
  (numAt b o 2 = c.lease ∧ (numAt b (o + 2) 1 = if c.measured then 1 else 0) ∧ numAt b (o + 3) 1 = 0 ∧ numAt b (o + 4) 4 = c.window) ∧
  (numAt b (o + 8) 2 = c.lines.length ∧ numAt b (o + 10) 2 = c.tags.length ∧ numAt b (o + 12) 4 = 0) ∧
  ∀ k x, c.tags[k]? = some x → numAt b (o + 16 + 8 * k) 8 = 128 * x
abbrev Chain.HasBytes (c : Chain) (b : List Byte) (o : Nat) : Prop :=
  let es : Nat := if c.fmt = 0 ∨ c.fmt = 4 then 8 else 4
  (numAt b o 1 = c.id ∧ numAt b (o + 1) 1 = c.fmt ∧ numAt b (o + 2) 2 = c.m ∧ Int.ofNat (numAt b (o + 4) 2) = c.e.getD 0 % 2 ^ 16) ∧
  (numAt b (o + 6) 2 = (if c.e.isSome then 1 else 0) + if c.sat then 2 else 0) ∧ numAt b (o + 8) 8 = es * c.acc.length ∧
  ∀ k a, c.acc[k]? = some a → Int.ofNat (numAt b (o + 16 + es * k) es) = a % 2 ^ (8 * es)
abbrev DrainProg.HasBytes (p : DrainProg) (b : List Byte) (o : Nat) : Prop :=
  (∀ k < 16, numAt b (o + 4 * k) 4 = (p.consts.getD k 0).toNat) ∧ ∀ k < 8, numAt b (o + 64 + 2 * k) 2 = (p.steps.getD k 0).toNat

/-- Nothing is under way and nothing is cached at the core and the die of the thread in turn; no byte is stashed and no fault stands. -/
abbrev State.idle (s : State) : Prop :=
  s.welt = [] ∧ s.requests = [] ∧ (s.core s.curCore).l1 = [] ∧ (s.die s.curCore.die).l2 = [] ∧ s.curCore.die < 24 ∧
    (s.die s.curCore.die).v.length = 24 ∧ s.sound

/-- R297: a die's clock covers what die d has seen and what it has written. -/
abbrev State.covered (s : State) (h d : Nat) : Prop :=
  ∀ i < 24, (s.die d).h.getD i 0 ≤ (s.die h).v.getD i 0 ∧ (s.die d).v.getD i 0 ≤ (s.die h).v.getD i 0

/-- R296: a home is ready for the next write of die d. -/
abbrev State.nextOf (s : State) (h d : Nat) : Prop :=
  (s.die h).v.getD d 0 = (s.die d).v.getD d 0 ∧ ∀ i < 24, i ≠ d → (s.die d).v.getD i 0 ≤ (s.die h).v.getD i 0

/-- The bytes of an address homed at another die, of a page that is neither replicated nor in a checked launch. -/
abbrev State.distant (s : State) (g : GAddr) : Prop :=
  g.repl = false ∧ g.checked = false ∧ g.det = false ∧ homeOf g.pa ≠ s.curCore.die ∧ homeOf g.pa < 24

/-- R186: the number at an address, and the bytes an atomic leaves there. -/
abbrev atomOld (m : Memory) (a n : Nat) : Nat := numberOf ((List.range n).map (fun k => m.get (a + k)))
abbrev atomWords (old n : Nat) : List Word := (List.range (n / 4)).map (fun k => BitVec.ofNat 32 (old / 2 ^ (32 * k)))
abbrev atomByte (op : AtomOp) (old : Nat) (b c : DWord) (k : Nat) : Byte := BitVec.ofNat 8 ((op.apply (BitVec.ofNat 64 old) b c).toNat / 256 ^ k)
abbrev opSize (op : AtomOp) : Nat := if op ∈ [.add64, .xchg64, .cas64, .fadd64] then 8 else 4

/-- The bytes of a cached line from an offset on that an access of n bytes finds, all of them held. -/
abbrev heldBytes (bs : List CByte) (off n : Nat) (old : Nat) : Prop :=
  (∀ k < n, (byteAt bs (off + k)).isSome = true) ∧ old = numberOf ((List.range n).map (fun k => ((byteAt bs (off + k)).map (fun x => x.val)).getD 0))

end Sys2Proof.Machine

open Sys2Proof Sys2Proof.Machine

/-- R65: the words that write one register from two registers, and from D too. R65: CLZ, POPC and BREV, with what makes their results right. R65: the words that write a pair, and the comparisons of pairs. -/
def Obligations.IntegerWordsGiveTheirResults : Prop :=
  (∀ (s : State) (sp : Bool) (d a b : Reg), s.issues sp → s.fits d 1 → s.fits a 1 → s.fits b 1 →
     let x := s.cur.w a
     let y := s.cur.w b
     let z := s.cur.w d
     Gives (.add sp d a b) s d [BitVec.ofNat 32 (x.toNat + y.toNat)] ∧
     Gives (.sub sp d a b) s d [BitVec.ofInt 32 (x.toNat - y.toNat)] ∧
     Gives (.mullo sp d a b) s d [BitVec.ofNat 32 (x.toNat * y.toNat)] ∧
     Gives (.mulhiS32 sp d a b) s d [BitVec.ofInt 32 (x.toInt * y.toInt / 2 ^ 32)] ∧
     Gives (.mulhiN32 sp d a b) s d [BitVec.ofNat 32 (x.toNat * y.toNat / 2 ^ 32)] ∧
     Gives (.mad sp d a b) s d [BitVec.ofNat 32 (z.toNat + x.toNat * y.toNat)] ∧
     Gives (.and sp d a b) s d [x &&& y] ∧
     Gives (.or sp d a b) s d [x ||| y] ∧
     Gives (.xor sp d a b) s d [x ^^^ y] ∧
     Gives (.andn sp d a b) s d [x &&& ~~~y] ∧
     Gives (.orn sp d a b) s d [x ||| ~~~y] ∧
     Gives (.shl sp d a b) s d [BitVec.ofNat 32 (x.toNat * 2 ^ (y.toNat % 32))] ∧
     Gives (.shr sp d a b) s d [BitVec.ofNat 32 (x.toNat / 2 ^ (y.toNat % 32))] ∧
     Gives (.sar sp d a b) s d [BitVec.ofInt 32 (x.toInt / 2 ^ (y.toNat % 32))] ∧
     Gives (.rotl sp d a b) s d [x <<< (y.toNat % 32) ||| x >>> (32 - y.toNat % 32)] ∧
     Gives (.rotr sp d a b) s d [x >>> (y.toNat % 32) ||| x <<< (32 - y.toNat % 32)] ∧
     Gives (.minS32 sp d a b) s d [if x.toInt ≤ y.toInt then x else y] ∧
     Gives (.minN32 sp d a b) s d [if x.toNat ≤ y.toNat then x else y] ∧
     Gives (.maxS32 sp d a b) s d [if y.toInt ≤ x.toInt then x else y] ∧
     Gives (.maxN32 sp d a b) s d [if y.toNat ≤ x.toNat then x else y] ∧
     Gives (.sad sp d a b) s d [BitVec.ofNat 32 (z.toNat + ((x.toNat : Int) - y.toNat).natAbs)] ∧
     Gives (.sel sp d a b) s d [if z = 0 then y else x] ∧
     Gives (.seteq sp d a b) s d [truth (x = y)] ∧
     Gives (.setne sp d a b) s d [truth (x ≠ y)] ∧
     Gives (.setltS32 sp d a b) s d [truth (x.toInt < y.toInt)] ∧
     Gives (.setltN32 sp d a b) s d [truth (x.toNat < y.toNat)] ∧
     Gives (.setleS32 sp d a b) s d [truth (x.toInt ≤ y.toInt)] ∧
     Gives (.setleN32 sp d a b) s d [truth (x.toNat ≤ y.toNat)] ∧
     Gives (.mov sp d a) s d [x]) ∧
  ((∀ (s : State) (sp : Bool) (d a : Reg), s.issues sp → s.fits d 1 → s.fits a 1 →
     let x := s.cur.w a
     Gives (.clz sp d a) s d [leadingZeros x] ∧
     Gives (.popc sp d a) s d [BitVec.ofNat 32 ((List.range 32).countP (fun k => x.getLsbD k))] ∧
     Gives (.brev sp d a) s d [bitReverse x]) ∧
   (∀ x : Word, leadingZeros x = 32 ↔ x = 0) ∧
   (∀ x : Word, x ≠ 0 → 2 ^ (31 - (leadingZeros x).toNat) ≤ x.toNat ∧ x.toNat < 2 ^ (32 - (leadingZeros x).toNat)) ∧
   (∀ (x : Word) (i : Nat), i < 32 → (bitReverse x).getLsbD i = x.getLsbD (31 - i))) ∧
  (∀ (s : State) (sp : Bool) (d a b : Reg), s.issues sp →
     let x := s.cur.w a
     let y := s.cur.w b
     let p := s.cur.p a
     let q := s.cur.p b
     let r := s.cur.p d
     (s.fits d 2 → s.fits a 1 → s.fits b 1 →
       Gives (.mulwS32 sp d a b) s d (pairWords (BitVec.ofInt 64 (x.toInt * y.toInt))) ∧
       Gives (.mulwN32 sp d a b) s d (pairWords (BitVec.ofNat 64 (x.toNat * y.toNat))) ∧
       Gives (.mad64S32 sp d a b) s d (pairWords (r + BitVec.ofInt 64 (x.toInt * y.toInt))) ∧
       Gives (.mad64N32 sp d a b) s d (pairWords (r + BitVec.ofNat 64 (x.toNat * y.toNat)))) ∧
     (s.fits d 2 → s.fits a 2 → s.fits b 2 →
       Gives (.add64 sp d a b) s d (pairWords (BitVec.ofNat 64 (p.toNat + q.toNat))) ∧
       Gives (.sub64 sp d a b) s d (pairWords (BitVec.ofInt 64 (p.toNat - q.toNat)))) ∧
     (s.fits d 2 → s.fits a 2 → s.fits b 1 →
       Gives (.shl64 sp d a b) s d (pairWords (BitVec.ofNat 64 (p.toNat * 2 ^ (y.toNat % 64)))) ∧
       Gives (.shr64 sp d a b) s d (pairWords (BitVec.ofNat 64 (p.toNat / 2 ^ (y.toNat % 64)))) ∧
       Gives (.sar64 sp d a b) s d (pairWords (BitVec.ofInt 64 (p.toInt / 2 ^ (y.toNat % 64))))) ∧
     (s.fits d 1 → s.fits a 2 → s.fits b 2 →
       Gives (.seteq64 sp d a b) s d [truth (p = q)] ∧
       Gives (.setlt64S sp d a b) s d [truth (p.toInt < q.toInt)] ∧
       Gives (.setlt64N sp d a b) s d [truth (p.toNat < q.toNat)]) ∧
     (s.fits d 2 → s.fits a 2 → Gives (.mov64 sp d a) s d (pairWords p)))

/-- R66: quotient, remainder and flag of every division. -/
def Obligations.DivisionsGiveQuotientRemainderAndFlag : Prop :=
  ∀ (s : State) (sp : Bool) (d a b : Reg), s.issues sp → s.fits d 1 → s.fits a 1 → s.fits b 1 →
    let x := s.cur.w a
    let y := s.cur.w b
    (y = 0 →
      GivesFlags (.divS32 sp d a b) s d 0xFFFFFFFF iDZ ∧ GivesFlags (.divN32 sp d a b) s d 0xFFFFFFFF iDZ ∧
      GivesFlags (.remS32 sp d a b) s d x iDZ ∧ GivesFlags (.remN32 sp d a b) s d x iDZ) ∧
    (x = 0x80000000 → y = 0xFFFFFFFF →
      GivesFlags (.divS32 sp d a b) s d 0x80000000 iOV ∧ GivesFlags (.remS32 sp d a b) s d 0 iOV) ∧
    (y ≠ 0 → ¬ (x = 0x80000000 ∧ y = 0xFFFFFFFF) →
      ∃ q r : Int, x.toInt = q * y.toInt + r ∧ r.natAbs < y.toInt.natAbs ∧ (r = 0 ∨ (0 < r ↔ 0 < x.toInt)) ∧
        GivesFlags (.divS32 sp d a b) s d (BitVec.ofInt 32 q) 0 ∧ GivesFlags (.remS32 sp d a b) s d (BitVec.ofInt 32 r) 0) ∧
    (y ≠ 0 →
      GivesFlags (.divN32 sp d a b) s d (BitVec.ofNat 32 (x.toNat / y.toNat)) 0 ∧
      GivesFlags (.remN32 sp d a b) s d (BitVec.ofNat 32 (x.toNat % y.toNat)) 0)

/-- R67: the bits of an extracted and of an inserted field. -/
def Obligations.BitFieldWordsMoveTheField : Prop :=
  (∀ (s : State) (sp : Bool) (d a b : Reg), s.issues sp → s.fits d 1 → s.fits a 1 → s.fits b 1 →
    let x := s.cur.w a
    let y := s.cur.w b
    Gives (.bfxN32 sp d a b) s d [BitVec.ofNat 32 (fieldOf x y)] ∧
    Gives (.bfxS32 sp d a b) s d [fieldSigned x y] ∧
    Gives (.bfi sp d a b) s d [fieldInsert (s.cur.w d) x y]) ∧
  (∀ (z x y : Word), let p := y.toNat % 32
    let n := min (y.toNat / 256 % 64) (32 - p)
    ∀ i, i < 32 →
      ((BitVec.ofNat 32 (fieldOf x y)).getLsbD i = (decide (i < n) && x.getLsbD (p + i))) ∧
      ((fieldSigned x y).getLsbD i = (if i < n then x.getLsbD (p + i) else n != 0 && x.getLsbD (p + n - 1))) ∧
      ((fieldInsert z x y).getLsbD i = (if p ≤ i ∧ i < p + n then x.getLsbD (i - p) else z.getLsbD i)))

/-- R68, R69: the immediate forms and the constants. -/
def Obligations.ImmediateWordsGiveTheirResults : Prop :=
  (∀ (s : State) (sp : Bool) (d a : Reg) (i : BitVec 10) (k : BitVec 5) (u : BitVec 18), s.issues sp → s.fits d 1 →
    (s.fits a 1 →
      let x := s.cur.w a
      Gives (.addi sp d a i) s d [BitVec.ofInt 32 (x.toNat + i.toInt)] ∧
      Gives (.andi sp d a i) s d [x &&& BitVec.ofInt 32 i.toInt] ∧
      Gives (.ori sp d a i) s d [x ||| BitVec.ofInt 32 i.toInt] ∧
      Gives (.xori sp d a i) s d [x ^^^ BitVec.ofInt 32 i.toInt] ∧
      Gives (.shli sp d a k) s d [BitVec.ofNat 32 (x.toNat * 2 ^ k.toNat)] ∧
      Gives (.shri sp d a k) s d [BitVec.ofNat 32 (x.toNat / 2 ^ k.toNat)] ∧
      Gives (.sari sp d a k) s d [BitVec.ofInt 32 (x.toInt / 2 ^ k.toNat)] ∧
      Gives (.setltiS32 sp d a i) s d [truth (x.toInt < i.toInt)]) ∧
    Gives (.lds sp d u) s d [BitVec.ofInt 32 u.toInt] ∧
    Gives (.ldh sp d u) s d [BitVec.ofNat 32 (u.toNat * 2 ^ 14)] ∧
    Gives (.orl sp d u) s d [s.cur.w d ||| BitVec.ofNat 32 u.toNat] ∧
    Gives (.addpc sp d u) s d [BitVec.ofNat 32 (segOf s.cur.pc * 2 ^ 16 + ((offOf s.cur.pc + u.toInt * 4) % 2 ^ 16).toNat)]) ∧
  (∀ w : Word, w.toNat / 2 ^ 27 % 16 = 1 → w.toNat / 2 ^ 24 % 8 ∈ [4, 5, 6] → w.toNat / 2 ^ 5 % 32 ≠ 0 → decodeWord w = .error (.illegal 4))

/-- R85, R86: the f32 arithmetic, at the mode FPMODE holds. R90: the f64 arithmetic. R27 to R30, R84 to R86, R90, R92, R93: what the operations of a format compute: the exact result rounded once, its flags, and the
results for NaNs, infinities and zeros. R85, R86: what FEXP2 and FLOG2 compute: the power of two and the logarithm, rounded once. -/
def Obligations.FloatWordsGiveTheirResults : Prop :=
  (∀ (s : State) (sp : Bool) (d a b : Reg), s.issues sp → s.fits d 1 → s.fits a 1 →
     let rm := s.cur.fpmode
     let x := s.cur.w a
     let y := s.cur.w b
     (s.fits b 1 →
       GivesFp (.fadd sp d a b) s d (f32.add rm x.toNat y.toNat) ∧
       GivesFp (.fsub sp d a b) s d (f32.sub rm x.toNat y.toNat) ∧
       GivesFp (.fmul sp d a b) s d (f32.mul rm x.toNat y.toNat) ∧
       GivesFp (.fma sp d a b) s d (f32.fma rm (s.cur.w d).toNat x.toNat y.toNat) ∧
       GivesFp (.fdiv sp d a b) s d (f32.div rm x.toNat y.toNat)) ∧
     GivesFp (.fsqrt sp d a) s d (f32.sqrt rm x.toNat) ∧
     GivesFp (.frcp sp d a) s d (f32.div rm 0x3F800000 x.toNat) ∧
     GivesFp (.frsq sp d a) s d (f32.rsqrt rm x.toNat) ∧
     GivesFp (.fexp2 sp d a) s d (exp2F32 rm x) ∧
     GivesFp (.flog2 sp d a) s d (log2F32 rm x) ∧
     GivesFp (.frint sp d a) s d (f32.rint rm x.toNat)) ∧
  (∀ (s : State) (sp : Bool) (d a b : Reg), s.issues sp → s.fits d 2 → s.fits a 2 →
     let rm := s.cur.fpmode
     let x := (s.cur.p a).toNat
     let y := (s.cur.p b).toNat
     (s.fits b 2 →
       GivesFp64 (.dadd sp d a b) s d (f64.add rm x y) ∧
       GivesFp64 (.dsub sp d a b) s d (f64.sub rm x y) ∧
       GivesFp64 (.dmul sp d a b) s d (f64.mul rm x y) ∧
       GivesFp64 (.dfma sp d a b) s d (f64.fma rm (s.cur.p d).toNat x y) ∧
       GivesFp64 (.ddiv sp d a b) s d (f64.div rm x y)) ∧
     GivesFp64 (.dsqrt sp d a) s d (f64.sqrt rm x) ∧
     GivesFp64 (.drint sp d a) s d (f64.rint rm x)) ∧
  (∀ (f : Fmt) (rm : BitVec 2) (a b : Nat), f ∈ formats → a < 2 ^ (f.ew + f.fw + 1) → b < 2 ^ (f.ew + f.fw + 1) →
     let nan := f.isNaN
     let inf := f.isInf
     let neg := f.minus
     let differ : Prop := ¬ (neg a ↔ neg b)
     (nan a ∨ nan b → GivesNaN f (f.isSNaN a ∨ f.isSNaN b) (f.add rm a b) ∧ GivesNaN f (f.isSNaN a ∨ f.isSNaN b) (f.mul rm a b) ∧
       GivesNaN f (f.isSNaN a ∨ f.isSNaN b) (f.div rm a b)) ∧
     f.sub rm a b = f.add rm a (if b < 2 ^ (f.ew + f.fw) then b + 2 ^ (f.ew + f.fw) else b - 2 ^ (f.ew + f.fw)) ∧
     (inf a → inf b → (differ → GivesNaN f True (f.add rm a b)) ∧ (¬ differ → GivesInf f (neg a) 0 (f.add rm a b)) ∧
       GivesInf f differ 0 (f.mul rm a b) ∧ GivesNaN f True (f.div rm a b)) ∧
     (∀ y, inf a → f.holds b y → GivesInf f (neg a) 0 (f.add rm a b) ∧ GivesInf f differ 0 (f.div rm a b) ∧
       (y = 0 → GivesNaN f True (f.mul rm a b)) ∧ (y ≠ 0 → GivesInf f differ 0 (f.mul rm a b))) ∧
     (∀ x, f.holds a x → inf b → GivesInf f (neg b) 0 (f.add rm a b) ∧ GivesZero f differ (f.div rm a b) ∧
       (x = 0 → GivesNaN f True (f.mul rm a b)) ∧ (x ≠ 0 → GivesInf f differ 0 (f.mul rm a b))) ∧
     (∀ x y, f.holds a x → f.holds b y →
       (x + y = 0 → GivesZero f (differ ∧ rm = 3 ∨ ¬ differ ∧ neg a) (f.add rm a b)) ∧ (x + y ≠ 0 → Rounds f rm (x + y) (f.add rm a b)) ∧
       (x * y = 0 → GivesZero f differ (f.mul rm a b)) ∧ (x * y ≠ 0 → Rounds f rm (x * y) (f.mul rm a b)) ∧
       (y = 0 → x = 0 → GivesNaN f True (f.div rm a b)) ∧ (y = 0 → x ≠ 0 → GivesInf f differ 8 (f.div rm a b)) ∧
       (y ≠ 0 → x = 0 → GivesZero f differ (f.div rm a b)) ∧ (y ≠ 0 → x ≠ 0 → Rounds f rm (x / y) (f.div rm a b))) ∧
     (∀ d, d < 2 ^ (f.ew + f.fw + 1) →
       let prod : Prop := differ
       let away : Prop := inf a ∧ (∃ y, f.holds b y ∧ y = 0) ∨ (∃ x, f.holds a x ∧ x = 0) ∧ inf b
       (nan a ∨ nan b → GivesNaN f (f.isSNaN a ∨ f.isSNaN b ∨ f.isSNaN d) (f.fma rm d a b)) ∧
       (away → GivesNaN f True (f.fma rm d a b)) ∧
       (¬ nan a → ¬ nan b → ¬ away → nan d → GivesNaN f (f.isSNaN d) (f.fma rm d a b)) ∧
       (¬ nan a → ¬ nan b → ¬ away → (inf a ∨ inf b) →
         (inf d → ¬ (prod ↔ neg d) → GivesNaN f True (f.fma rm d a b)) ∧ (inf d → (prod ↔ neg d) → GivesInf f prod 0 (f.fma rm d a b)) ∧
         (∀ z, f.holds d z → GivesInf f prod 0 (f.fma rm d a b))) ∧
       (∀ x y, f.holds a x → f.holds b y → (inf d → GivesInf f (neg d) 0 (f.fma rm d a b)) ∧
         ∀ z, f.holds d z → (x * y + z = 0 → GivesZero f ((prod ↔ neg d) ∧ neg d ∨ ¬ (prod ↔ neg d) ∧ rm = 3) (f.fma rm d a b)) ∧
           (x * y + z ≠ 0 → Rounds f rm (x * y + z) (f.fma rm d a b)))) ∧
     (nan a → GivesNaN f (f.isSNaN a) (f.sqrt rm a) ∧ GivesNaN f (f.isSNaN a) (f.rsqrt rm a) ∧ GivesNaN f (f.isSNaN a) (f.rint rm a) ∧
       ∀ g ∈ formats, GivesNaN g (f.isSNaN a) (convert f g rm a)) ∧
     (inf a → (neg a → GivesNaN f True (f.sqrt rm a) ∧ GivesNaN f True (f.rsqrt rm a)) ∧
       (¬ neg a → GivesInf f False 0 (f.sqrt rm a) ∧ GivesZero f False (f.rsqrt rm a)) ∧ f.rint rm a = ⟨a, 0⟩ ∧
       ∀ g ∈ formats, GivesInf g (neg a) 0 (convert f g rm a)) ∧
     (∀ x, f.holds a x →
       (x = 0 → GivesZero f (neg a) (f.sqrt rm a) ∧ GivesInf f (neg a) 8 (f.rsqrt rm a) ∧
         ∀ g ∈ formats, GivesZero g (neg a) (convert f g rm a)) ∧
       (x < 0 → GivesNaN f True (f.sqrt rm a) ∧ GivesNaN f True (f.rsqrt rm a)) ∧
       (0 < x → Rounds f rm (Real.sqrt x) (f.sqrt rm a) ∧ Rounds f rm (1 / Real.sqrt x) (f.rsqrt rm a)) ∧
       (x ≠ 0 → ∀ g ∈ formats, Rounds g rm x (convert f g rm a)) ∧
       (∃ n : Int, Integral rm x n ∧ f.holds (f.rint rm a).bits n ∧ (f.rint rm a).bits < 2 ^ (f.ew + f.fw + 1) ∧
         (neg (f.rint rm a).bits ↔ neg a) ∧ ((n : ℝ) = x → (f.rint rm a).flags = 0) ∧ ((n : ℝ) ≠ x → (f.rint rm a).flags = 1)) ∧
       (∃ m k, f.read a = .fin (decide (f.minus a)) m k ∧ Integral rm x (toIntegral rm (decide (f.minus a)) m k).1 ∧
         ((toIntegral rm (decide (f.minus a)) m k).2 = true ↔ ((toIntegral rm (decide (f.minus a)) m k).1 : ℝ) ≠ x))) ∧
     (∀ v k : Int, ∀ zneg : Bool, (v = 0 → GivesZero f (zneg = true) (f.roundInt rm zneg v k)) ∧
       (v ≠ 0 → Rounds f rm ((v : ℝ) * (2 : ℝ) ^ k) (f.roundInt rm zneg v k)))) ∧
  (∀ (rm : BitVec 2) (a : Word),
     let f := f32
     let b := a.toNat
     let power := exp2F32 rm a
     let log := log2F32 rm a
     (f.isNaN b → GivesNaN f (f.isSNaN b) power ∧ GivesNaN f (f.isSNaN b) log) ∧
     (f.isInf b → (f.minus b → GivesZero f False power ∧ GivesNaN f True log) ∧
       (¬ f.minus b → GivesInf f False 0 power ∧ GivesInf f False 0 log)) ∧
     (∀ x, f.holds b x →
       (x = 0 → power = ⟨0x3F800000, 0⟩ ∧ GivesInf f True 8 log) ∧
       (x ≠ 0 → Rounds f rm ((2 : ℝ) ^ x) power) ∧
       (x < 0 → GivesNaN f True log) ∧
       (x = 1 → log = ⟨0, 0⟩) ∧
       (0 < x → x ≠ 1 → Rounds f rm (Real.logb 2 x) log)))

/-- R85, R88: FABS, FNEG and FCLASS by the class of their operand. R89: the comparisons of f32 and f64 values. -/
def Obligations.SignClassAndTruthOfFloats : Prop :=
  (∀ (s : State) (sp : Bool) (d a : Reg), s.issues sp → s.fits d 1 → s.fits a 1 →
     let x := s.cur.w a
     let e := x.toNat / 2 ^ 23 % 2 ^ 8
     let m := x.toNat % 2 ^ 23
     let sign := x.toNat / 2 ^ 31
     ((e = 255 ∧ m ≠ 0) →
       let nv : BitVec 5 := if m < 2 ^ 22 then fNV else 0
       exec (.fabs sp d a) s = .next (s.fpResult d [0x7FC00000] nv) ∧
       exec (.fneg sp d a) s = .next (s.fpResult d [0x7FC00000] nv)) ∧
     (¬ (e = 255 ∧ m ≠ 0) →
       exec (.fabs sp d a) s = .next (s.fpResult d [BitVec.ofNat 32 (x.toNat % 2 ^ 31)] 0) ∧
       exec (.fneg sp d a) s = .next (s.fpResult d [x ^^^ 0x80000000] 0)) ∧
     exec (.fclass sp d a) s = .next (s.fpResult d [BitVec.ofNat 32 (16 * sign +
       (if e = 0 then (if m = 0 then 0 else 1) else if e < 255 then 2 else if m = 0 then 3 else if 2 ^ 22 ≤ m then 4 else 5))] 0)) ∧
  (∀ (s : State) (sp : Bool) (d a b : Reg), s.issues sp → s.fits d 1 →
     (s.fits a 1 → s.fits b 1 →
       let x := f32.read (s.cur.w a).toNat
       let y := f32.read (s.cur.w b).toNat
       GivesTruth (.fseteq sp d a b) s d (x.eq y) (x.isSig || y.isSig) ∧
       GivesTruth (.fsetlt sp d a b) s d (x.lt y) (x.isNan || y.isNan) ∧
       GivesTruth (.fsetle sp d a b) s d (x.lt y || x.eq y) (x.isNan || y.isNan) ∧
       GivesTruth (.fsetun sp d a b) s d (x.isNan || y.isNan) (x.isSig || y.isSig)) ∧
     (s.fits a 2 → s.fits b 2 →
       let x := f64.read (s.cur.p a).toNat
       let y := f64.read (s.cur.p b).toNat
       GivesTruth (.dseteq sp d a b) s d (x.eq y) (x.isSig || y.isSig) ∧
       GivesTruth (.dsetlt sp d a b) s d (x.lt y) (x.isNan || y.isNan) ∧
       GivesTruth (.dsetle sp d a b) s d (x.lt y || x.eq y) (x.isNan || y.isNan)))

/-- R87: the least and the greatest number, and what a NaN gives. -/
def Obligations.MinimumAndMaximumChooseTheNumber : Prop :=
  (∀ (s : State) (sp : Bool) (d a b : Reg), s.issues sp →
    (s.fits d 1 → s.fits a 1 → s.fits b 1 →
      GivesFp (.fmin sp d a b) s d (f32.minMax false (s.cur.w a).toNat (s.cur.w b).toNat) ∧
      GivesFp (.fmax sp d a b) s d (f32.minMax true (s.cur.w a).toNat (s.cur.w b).toNat)) ∧
    (s.fits d 2 → s.fits a 2 → s.fits b 2 →
      GivesFp64 (.dmin sp d a b) s d (f64.minMax false (s.cur.p a).toNat (s.cur.p b).toNat) ∧
      GivesFp64 (.dmax sp d a b) s d (f64.minMax true (s.cur.p a).toNat (s.cur.p b).toNat))) ∧
  (∀ (f : Fmt) (mx : Bool) (a b : Nat),
    let x := f.read a
    let y := f.read b
    let r := f.minMax mx a b
    (r.bits = (if x.isNan && y.isNan then f.nanBits else if x.isNan then b else if y.isNan then a else r.bits)) ∧
    (r.flags = if x.isSig || y.isSig then fNV else 0) ∧
    (x.isNan = false → y.isNan = false → (r.bits = a ∨ r.bits = b) ∧
      (x.lt y = true → r.bits = if mx then b else a) ∧ (y.lt x = true → r.bits = if mx then a else b) ∧
      (x.eq y = true → x.negative = true → y.negative = false → r.bits = if mx then b else a) ∧
      (x.eq y = true → x.negative = false → y.negative = true → r.bits = if mx then a else b)))

/-- R91, R94, R95: packed halves, and the words that move values between f32 and the 16-bit formats. -/
def Obligations.PackedWordsWorkOnEachHalf : Prop :=
  ∀ (s : State) (sp : Bool) (d a b : Reg), s.issues sp → s.fits a 1 →
    let rm := s.cur.fpmode
    let x := (s.cur.w a).toNat
    let y := (s.cur.w b).toNat
    let z := (s.cur.w d).toNat
    let two (g : Nat → Nat → Nat → FRes) (i : Instr) : Prop :=
      let lo := g (z % 65536) (x % 65536) (y % 65536)
      let hi := g (z / 65536) (x / 65536) (y / 65536)
      exec i s = .next (s.fpResult d [BitVec.ofNat 32 (lo.bits + 65536 * hi.bits)] (lo.flags ||| hi.flags))
    (s.fits d 1 → s.fits b 1 →
      two (fun _ x y => f16.add rm x y) (.hadd2 sp d a b) ∧
      two (fun _ x y => f16.mul rm x y) (.hmul2 sp d a b) ∧
      two (fun z x y => f16.fma rm z x y) (.hfma2 sp d a b) ∧
      two (fun _ x y => bf16.add rm x y) (.badd2 sp d a b) ∧
      two (fun _ x y => bf16.mul rm x y) (.bmul2 sp d a b) ∧
      two (fun z x y => bf16.fma rm z x y) (.bfma2 sp d a b)) ∧
    (s.fits d 1 → s.fits b 1 → ∀ f i, (f, i) ∈ [(f16, Instr.packF16 sp d a b), (bf16, .packBf16 sp d a b)] →
      let lo := convert f32 f rm x
      let hi := convert f32 f rm y
      exec i s = .next (s.fpResult d [BitVec.ofNat 32 (lo.bits + 65536 * hi.bits)] (lo.flags ||| hi.flags))) ∧
    (s.fits d 2 → ∀ f i, (f, i) ∈ [(f16, Instr.unpkF16 sp d a), (bf16, .unpkBf16 sp d a)] →
      let lo := convert f f32 rm (x % 65536)
      let hi := convert f f32 rm (x / 65536)
      exec i s = .next (s.fpResult d [BitVec.ofNat 32 lo.bits, BitVec.ofNat 32 hi.bits] (lo.flags ||| hi.flags))) ∧
    (s.fits d 1 →
      Gives (.sext8 sp d a) s d [BitVec.ofInt 32 ((x : Int) + 128 - (x + 128) / 256 * 256 - 128)] ∧
      Gives (.sext16 sp d a) s d [BitVec.ofInt 32 ((x : Int) + 32768 - (x + 32768) / 65536 * 65536 - 32768)])

/-- R92, R93, R96: the conversions. -/
def Obligations.ConversionsGiveTheirResults : Prop :=
  ∀ (s : State) (sp : Bool) (d a b : Reg), s.issues sp →
    let rm := s.cur.fpmode
    let x := s.cur.w a
    let p := s.cur.p a
    let e := ((s.cur.w b).truncate 8 : BitVec 8).toInt
    (s.fits d 1 → s.fits a 1 →
      GivesFp (.cvtF32S32 sp d a) s d (f32.roundInt rm false x.toInt 0) ∧
      GivesFp (.cvtF32N32 sp d a) s d (f32.roundInt rm false x.toNat 0) ∧
      (∃ r fl, Converts f32 (-2 ^ 31) (2 ^ 31 - 1) rm x.toNat r fl ∧
        exec (.cvtS32F32 sp d a) s = .next (s.fpResult d [BitVec.ofInt 32 r] fl)) ∧
      (∃ r fl, Converts f32 0 (2 ^ 32 - 1) rm x.toNat r fl ∧
        exec (.cvtN32F32 sp d a) s = .next (s.fpResult d [BitVec.ofInt 32 r] fl))) ∧
    (s.fits d 2 → s.fits a 1 →
      GivesFp64 (.cvtF64F32 sp d a) s d (convert f32 f64 rm x.toNat) ∧
      GivesFp64 (.cvtF64S32 sp d a) s d (f64.roundInt rm false x.toInt 0)) ∧
    (s.fits d 1 → s.fits a 2 →
      GivesFp (.cvtF32F64 sp d a) s d (convert f64 f32 rm p.toNat) ∧
      (∃ r fl, Converts f64 (-2 ^ 31) (2 ^ 31 - 1) rm p.toNat r fl ∧
        exec (.cvtS32F64 sp d a) s = .next (s.fpResult d [BitVec.ofInt 32 r] fl))) ∧
    (s.fits d 2 → s.fits a 2 →
      GivesFp64 (.cvtF64S64 sp d a) s d (f64.roundInt rm false p.toInt 0) ∧
      GivesFp64 (.cvtF64N64 sp d a) s d (f64.roundInt rm false p.toNat 0) ∧
      (∃ r fl, Converts f64 (-2 ^ 63) (2 ^ 63 - 1) rm p.toNat r fl ∧
        exec (.cvtS64F64 sp d a) s = .next (s.fpResult d (pairWords (BitVec.ofInt 64 r)) fl)) ∧
      (∃ r fl, Converts f64 0 (2 ^ 64 - 1) rm p.toNat r fl ∧
        exec (.cvtN64F64 sp d a) s = .next (s.fpResult d (pairWords (BitVec.ofInt 64 r)) fl))) ∧
    (s.fits d 1 → s.fits a 1 → s.fits b 1 →
      (∃ r fl, exec (.qntN8 sp d a b) s = .next (s.fpResult d [BitVec.ofInt 32 r] fl) ∧ -128 ≤ r ∧ r ≤ 127 ∧
        (∀ neg m k, f32.read x.toNat = .fin neg m k →
          let v := toIntegral rm neg m (k - e)
          (v.1 < -128 → r = -128 ∧ fl = fNV) ∧ (127 < v.1 → r = 127 ∧ fl = fNV) ∧
            (-128 ≤ v.1 → v.1 ≤ 127 → r = v.1 ∧ fl = if v.2 then fNX else 0)) ∧
        (∀ neg, f32.read x.toNat = .inf neg → r = (if neg then -128 else 127) ∧ fl = fNV) ∧
        (∀ sig, f32.read x.toNat = .nan sig → r = 0 ∧ fl = fNV)) ∧
      GivesFp (.dqntN8 sp d a b) s d (f32.roundInt rm false ((x.truncate 8 : BitVec 8).toInt) e))

/-- R70, R71: the branches, JMP and CALL. R72, R103, R105, R274: a transfer stands at its target where the target's segment is resident, and else settles there. -/
def Obligations.BranchesAndJumpsReachTheirTargets : Prop :=
  (∀ (s : State) (sp : Bool) (a : Reg) (off : BitVec 17) (far : BitVec 25), s.issues sp →
     (s.fits a 1 →
       let t := (s.cur.w a).toInt
       BranchesOn (.beqz sp a off) s off.toInt (t = 0) ∧
       BranchesOn (.bnez sp a off) s off.toInt (t ≠ 0) ∧
       BranchesOn (.bltz sp a off) s off.toInt (t < 0) ∧
       BranchesOn (.bgez sp a off) s off.toInt (0 ≤ t) ∧
       BranchesOn (.bgtz sp a off) s off.toInt (0 < t) ∧
       BranchesOn (.blez sp a off) s off.toInt (t ≤ 0)) ∧
     Jumps (.bra sp off) s s off.toInt ∧
     Jumps (.jmp sp far) s s far.toInt ∧
     (offOf s.cur.pc + 4 ≠ s.curLen → Jumps (.call sp far) s (s.setCur { s.cur with lk := s.cur.pc + 4 }) far.toInt) ∧
     (offOf s.cur.pc + 4 = s.curLen →
       (0 ≤ s.aim far.toInt → s.aim far.toInt < s.curLen → exec (.call sp far) s = .next (s.raise 0x04 6 (BitVec.ofNat 64 s.curLen))) ∧
       ((s.aim far.toInt < 0 ∨ (s.curLen : Int) ≤ s.aim far.toInt) →
         exec (.call sp far) s = .next (s.raise 0x04 2 (BitVec.ofInt 64 (s.aim far.toInt)))))) ∧
  (∀ (s : State) (pc : Word),
     let k := s.curCore
     let vf := launchVf s.cur.id.launch
     let co := s.coidOf s.cur.id.launch
     let t := s.transfer pc
     (segOf pc = segOf s.cur.pc → t = s.goto pc) ∧
     (segOf pc ≠ segOf s.cur.pc → s.segState k vf co (segOf pc) = .resident →
       t.cur.pc = pc ∧ t.cur.regs = s.cur.regs ∧ t.cur.lk = s.cur.lk ∧ (t.cur.phase = .ready ∨ t.cur.phase = .held) ∧
       (∀ e, (t.core k).segEntry vf co (segOf pc) = some e → e.st = .resident ∧ e.stamp = s.cycle)) ∧
     (segOf pc ≠ segOf s.cur.pc → s.segState k vf co (segOf pc) ≠ .resident →
       t.cur.pc = pc ∧ t.cur.regs = s.cur.regs ∧ t.cur.lk = s.cur.lk ∧ t.cur.phase = .settling ∧
       (s.segState k vf co (segOf pc) ≠ .loading →
         ∃ r ∈ (t.core k).lacerQ, r.vf = vf ∧ r.coid = co ∧ r.seg = segOf pc ∧ r.req = 0)))

/-- R72, R117: JR, CALLX, RET and OCALL. -/
def Obligations.IndirectTransfersAreCheckedThenMade : Prop :=
  ∀ (s : State) (sp : Bool) (a : Reg), s.issues sp →
    TransfersTo (.ret sp) s s.cur.lk false ∧
    (s.fits a 1 →
      TransfersTo (.jr sp a) s (s.cur.w a) false ∧
      TransfersTo (.callx sp a) s (s.cur.w a) true ∧
      (∀ v, s.vf? (launchVf s.cur.id.launch) = some v →
        (v.feature0.getLsbD 10 = true → TransfersTo (.ocall sp a) s (BitVec.ofNat 32 ((s.cur.w a).toNat % 65536 * 65536)) true) ∧
        (v.feature0.getLsbD 10 = false → exec (.ocall sp a) s = .next (s.raise 0x01 9 0))))

/-- R16 to R20, R56, R73 to R75, R147: the words of special registers, the window, MEET, and NOP. R16, R17: what each selector reads. -/
def Obligations.SpecialRegisterWordsGiveTheirResults : Prop :=
  (∀ (s : State) (sp : Bool) (d a b : Reg) (f : BitVec 5) (sel : BitVec 7), s.issues sp →
     exec (.nop sp) s = .next s.advance ∧
     exec (.reservedHint sp f d a b) s = .next s.advance ∧
     (s.fits d 1 →
       Gives (.meetq sp d) s d [s.cur.meet] ∧
       (sel ≠ 20 → (sel.toNat < 42 ∨ 47 < sel.toNat) → Gives (.rds sp d sel) s d [s.special sel.toNat]) ∧
       exec (.rds sp d 20) s = .next (State.result
         (s.setCur { s.cur with clockLatch := BitVec.ofNat 32 ((s.vfTime (launchVf s.cur.id.launch)).toNat / 2 ^ 32) }) d
         [BitVec.ofNat 32 ((s.vfTime (launchVf s.cur.id.launch)).toNat % 2 ^ 32)]) ∧
       (42 ≤ sel.toNat → sel.toNat ≤ 47 → exec (.rds sp d sel) s = .next (s.raise 0x01 6 0))) ∧
     (s.fits a 1 →
       let x := s.cur.w a
       exec (.meet sp a) s = .next (State.meetRelease (State.advance (s.setCur { s.cur with meet := x })) (crewOf s.cur.id)) ∧
       exec (.wrs sp a 22) s = .next (State.advance (s.setCur { s.cur with fpmode := BitVec.ofNat 2 x.toNat })) ∧
       exec (.wrs sp a 23) s = .next (State.advance (s.setCur { s.cur with fpflags := BitVec.ofNat 5 x.toNat })) ∧
       exec (.wrs sp a 24) s = .next (State.advance (s.setCur { s.cur with intflags := BitVec.ofNat 2 x.toNat })) ∧
       exec (.wrs sp a 27) s = .next (State.advance (s.setCur { s.cur with lk := x })) ∧
       (sel ∉ [22, 23, 24, 27] → exec (.wrs sp a sel) s = .next (s.raise 0x01 6 0)) ∧
       ((x = 0 ∨ (x.toNat % 16 = 0 ∧ x.toNat + 128 ≤ s.cur.regs.length)) →
         exec (.win sp a) s = .next (State.advance (s.setCur { s.cur with winbase := x.toNat }))) ∧
       (¬ (x = 0 ∨ (x.toNat % 16 = 0 ∧ x.toNat + 128 ≤ s.cur.regs.length)) → exec (.win sp a) s = .next (s.raise 0x02 x.toNat 0)))) ∧
  (∀ (s : State) (c : Crew) (v : Vf) (l : Launch), s.crew? (crewOf s.cur.id) = some c → s.vf? (launchVf s.cur.id.launch) = some v →
     s.launch? s.cur.id.launch = some l →
     let x := s.cur
     let p := l.packet
     let r (i : Nat) : Nat := (s.special i).toNat
     let reads (i n : Nat) : Prop := r i = n % 2 ^ 32
     (x.id.lin < p.ntid.1 * p.ntid.2.1 * p.ntid.2.2 → p.ntid.1 * p.ntid.2.1 * p.ntid.2.2 ≤ 1024 →
       r 0 < p.ntid.1 ∧ r 1 < p.ntid.2.1 ∧ r 2 < p.ntid.2.2 ∧ x.id.lin = r 0 + p.ntid.1 * (r 1 + p.ntid.2.1 * r 2) ∧
       x.id.lin = 32 * r 12 + r 13 ∧ r 13 < 32) ∧
     (x.id.team < p.nteam.1 * p.nteam.2.1 * p.nteam.2.2 → p.nteam.1 * p.nteam.2.1 * p.nteam.2.2 < 2 ^ 32 →
       r 6 < p.nteam.1 ∧ r 7 < p.nteam.2.1 ∧ r 8 < p.nteam.2.2 ∧
       x.id.team = r 6 + p.nteam.1 * (r 7 + p.nteam.2.1 * r 8)) ∧
     (1 ≤ p.qsize → p.qsize ≤ 4 → r 14 < p.qsize ∧ ∃ q, x.id.team = p.qsize * q + r 14) ∧
     reads 3 p.ntid.1 ∧ reads 4 p.ntid.2.1 ∧ reads 5 p.ntid.2.2 ∧ reads 9 p.nteam.1 ∧ reads 10 p.nteam.2.1 ∧ reads 11 p.nteam.2.2 ∧
     reads 15 p.qsize ∧ reads 16 s.curCore.core ∧ reads 17 s.curCore.die ∧ reads 18 x.id.launch ∧ reads 19 (x.id.launch / 2 ^ 32) ∧
     reads 20 (s.vfTime v.id).toNat ∧ reads 21 x.clockLatch.toNat ∧ reads 22 x.fpmode.toNat ∧ reads 23 x.fpflags.toNat ∧
     reads 24 x.intflags.toNat ∧ reads 25 x.winbase ∧ reads 26 x.regs.length ∧ reads 27 x.lk.toNat ∧ reads 28 p.carve ∧
     reads 29 (c.lease % 2 ^ 16 + if c.measured = true then 2 ^ 16 else 0) ∧ reads 30 v.feature0.toNat ∧ reads 31 v.feature1.toNat ∧
     r 32 / 2 ^ 16 = 0x0300 ∧ reads 33 v.migepoch.toNat ∧ reads 34 p.nbv ∧ reads 35 (p.flags.toNat % 2 ^ 11) ∧
     (∀ y ∈ [(36, x.trapcode.toNat), (37, x.trappc.toNat), (38, x.trapmask.toNat), (39, x.trapinfo.toNat), (40, x.trapaddr.toNat % 2 ^ 32),
       (41, x.trapaddr.toNat / 2 ^ 32)], r y.1 = if x.inHandler = true then y.2 else 0) ∧
     (∀ i < 16, reads (48 + i) (c.stall.getD i 0)) ∧ (∀ i < 64, r (64 + i) = ((l.consts[i]?).getD 0).toNat))

/-- R274, R345, R61: TRAP, TRET, BKPT, and the words that fail at fetch; R267, R269, R272: a trap makes its thread faulted with its trap registers set, and in a handler kills the launch. The VA of the fault record of a BKPT debug stop is the free value Config.recordVa: log entry 19 (DESIGN CHOICE), not R274 or R275; the plain sum TRAPPC + 4 as the resume address at offset 0xFFFC is log entry 10 (DESIGN CHOICE). -/
def Obligations.TrapWordsSetTheTrapRegistersAndReturn : Prop :=
  (∀ (s : State) (sp : Bool) (b : BitVec 7) (r : Nat), s.issues sp →
     let fault (code info : Nat) (addr : DWord) (at_ resume : Word) := s.trapThread s.cur.id code info addr at_ resume
     exec (.trap sp b) s = .next (fault (0x80 + b.toNat) 0 0 s.cur.pc (s.cur.pc + 4)) ∧
     (s.cur.debugPass = [] → (∀ v, s.vf? (launchVf s.cur.id.launch) = some v → v.dbgctl.getLsbD 0 = false) →
       exec (.bkpt sp) s = .next (fault 0x10 0 0 s.cur.pc (s.cur.pc + 4))) ∧
     (s.cur.debugPass = [] → (∃ v, s.vf? (launchVf s.cur.id.launch) = some v ∧ v.dbgctl.getLsbD 0 = true) →
       exec (.bkpt sp) s = .next (s.debugStop (launchVf s.cur.id.launch) (Config.recordVa s.nextId) 0x10 0)) ∧
     (s.cur.debugPass ≠ [] → exec (.bkpt sp) s = .next s.advance) ∧
     (s.cur.inHandler = false → exec (.tret sp) s = .next (s.raise 0x01 8 0)) ∧
     (s.cur.inHandler = true → ∀ c, s.checksTarget s.cur.lk = some c → exec (.tret sp) s = .next (s.raise 0x04 c (s.cur.lk.zeroExtend 64))) ∧
     (s.cur.inHandler = true → s.checksTarget s.cur.lk = none →
       exec (.tret sp) s = .next (State.transferRel
         (s.setCur { s.cur with lk := s.cur.tlk, meet := s.cur.tmeet, inHandler := false }) s.cur.lk
         (s.cur.relTrap && s.cur.lk == s.cur.trappc))) ∧
     exec (.illegalWordFetch (.illegal r)) s = .next (s.raise 0x01 r 0) ∧
     exec (.illegalWordFetch .codebound) s = .next (fault 0x04 1 (BitVec.ofNat 64 (s.cur.pc.toNat % 65536)) (s.cur.pc - 4) (s.cur.pc - 4))) ∧
  (∀ (s : State) (code info : Nat) (addr : DWord) (at_ resume : Word),
     let t := s.trapThread s.cur.id code info addr at_ resume
     t.cur.phase = .faulted ∧ t.cur.pc = s.cur.pc ∧ t.cur.regs = s.cur.regs ∧ t.cur.queue = s.cur.queue ∧ t.cur.lk = s.cur.lk ∧
     t.cur.meet = s.cur.meet ∧ t.cur.winbase = s.cur.winbase ∧ t.cur.fpmode = s.cur.fpmode ∧ t.cur.fpflags = s.cur.fpflags ∧
     t.cur.intflags = s.cur.intflags ∧ t.cur.clockLatch = s.cur.clockLatch ∧ t.cur.tlk = s.cur.tlk ∧ t.cur.tmeet = s.cur.tmeet ∧
     t.cur.trapmask = s.cur.trapmask ∧ t.cur.inHandler = s.cur.inHandler ∧ t.cur.released = s.cur.released ∧
     (∀ id, id ≠ s.cur.id → (t.thread? id).map (fun y => (y.pc, y.held)) = (s.thread? id).map (fun y => (y.pc, y.held))) ∧
     t.mem = s.mem ∧ t.teams = s.teams ∧ t.cores = s.cores ∧
     (s.cur.inHandler = false →
       t.cur.trapcode = BitVec.ofNat 32 code ∧ t.cur.trappc = at_ ∧ t.cur.trapinfo = BitVec.ofNat 32 info ∧ t.cur.trapaddr = addr ∧
       t.cur.resume = resume ∧ t.launches = s.launches) ∧
     (s.cur.inHandler = true →
       t.cur.trapcode = s.cur.trapcode ∧
       ∀ l, s.launch? s.cur.id.launch = some l → l.kill = none →
         (t.launch? s.cur.id.launch).map (fun x => x.kill) = some (some (0x100 + code, s.curCore))))

/-- R269 to R271: the group of a crew's trap enters the handler, once the crew is stopped and the group's replies have come. R125, R158: the waiting members of a crew that cannot progress fault together with CREWDIV. -/
def Obligations.FaultedCrewsEnterTheHandler : Prop :=
  (∀ (s : State) (c : CrewId),
     let ms := s.liveMembers c
     let g := trapGroup ms
     (s.trapReady c = true ↔ (∀ m ∈ ms, m.inHandler = false ∧ m.phase.stopped = true) ∧ (∃ m ∈ ms, m.phase = .faulted) ∧
       ∀ m ∈ g, ∀ e ∈ m.queue, e.st = .held) ∧
     (∀ r, ms.find? (fun m => m.phase == .faulted) = some r → r.trapcode ≠ 0x11 → ∀ m ∈ ms,
       (m ∈ g ↔ m.phase = .faulted ∧ m.trapcode = r.trapcode ∧ m.trappc = r.trappc)) ∧
     (∀ r, ms.find? (fun m => m.phase == .faulted) = some r → r.trapcode = 0x11 → ∀ m ∈ ms,
       (m ∈ g ↔ m.phase = .faulted ∧ m.trapcode = 0x11 ∧ m.divNo = r.divNo)) ∧
     (s.trapReady c = true → (∃ tm, s.team? c.launch c.team = some tm ∧ tm.st = .resident) → ∀ l, s.launch? c.launch = some l →
       (∀ entry, l.image.trap = some entry → ∃ t, exec (.trapTaken c) s = .next t ∧ t.mem = s.mem ∧
         (∀ m ∈ g, ∃ u, t.thread? m.id = some u ∧ u.pc = entry ∧ u.lk = m.resume ∧ u.meet = 2 ∧ u.tlk = m.lk ∧ u.tmeet = m.meet ∧
           (∀ k < 32, u.trapmask.getLsbD k = true ↔ ∃ x ∈ g, rankOf x.id = k) ∧ u.queue = [] ∧ u.regs = m.queue.foldl (fun rs e => putWords rs e.base e.val) m.regs ∧
           u.inHandler = true ∧ u.phase = .ready ∧ u.trapcode = m.trapcode ∧ u.trappc = m.trappc) ∧
         (∀ id, (∀ m ∈ g, m.id ≠ id) → t.thread? id = s.thread? id)) ∧
       (l.image.trap = none → l.kill = none → ∀ r, ms.find? (fun m => m.phase == .faulted) = some r →
         ∃ t, exec (.trapTaken c) s = .next t ∧ t.cur = s.cur ∧ t.others = s.others ∧
           (t.launch? c.launch).map (fun x => x.kill) = some (some (r.trapcode.toNat, s.coreOf c.launch c.team))))) ∧
  (∀ (s : State) (c : CrewId),
     let ms := s.liveMembers c
     let places := ((ms.filter (fun m => m.phase == .waiting)).map (fun m => m.pc)).dedup.length
     s.isSwapped c.launch c.team = false →
     (∀ m ∈ ms, m.inHandler = false ∧ (m.phase = .waiting ∨ m.phase = .held ∨ m.phase.blocked = true)) →
     (∃ m ∈ ms, m.phase = .waiting) → ((∃ m ∈ ms, m.phase = .held) ∨ 2 ≤ places) →
     ∃ t, exec (.crewdivDetect c) s = .next t ∧ t.mem = s.mem ∧
       ∀ m ∈ ms, m.phase = .waiting → ∃ u, t.thread? m.id = some u ∧ u.phase = .faulted ∧ u.trapcode = 0x11 ∧ u.trappc = m.pc ∧
         u.resume = m.pc ∧ u.divNo = s.nextId ∧ u.trapaddr = 0 ∧ u.regs = m.regs ∧
         u.trapinfo = BitVec.ofNat 32 (places % 32 + if ms.any (fun m => m.phase == .held) then 32 else 0))

/-- R273, R276: a launch that is to be killed stops once a permit is free, and a back-off ends. -/
def Obligations.KillsStopTheirThreads : Prop :=
  (∀ (s : State) (l d : Nat) (k : CoreId) (x : Launch), s.launch? l = some x → x.kill = some (d, k) → x.killed = false →
    (24 ≤ k.die ∨ s.permitFree k = true) →
    ∃ t, exec (.launchKill l) s = .next t ∧ (t.launch? l).map (fun x => x.killed) = some true ∧
      (∀ u ∈ t.threads, u.id.launch = l → u.live = false) ∧ (∀ r ∈ t.replies, r.t.launch ≠ l) ∧
      (∀ y ∈ t.slots, y.owner.launch ≠ l)) ∧
  (∀ (s : State) (id : ThreadId) (x : Thread) (wake : Nat), s.thread? id = some x → x.phase = .backoff wake → wake ≤ s.cycle →
    ∃ t, exec (.permitBackoffExpiry id) s = .next t ∧ t.thread? id = some { x with phase := .ready } ∧ t.mem = s.mem)

/-- R22, R24: a reply is held in its entry, and a thread at a switch point lands its results in issue order. -/
def Obligations.RepliesAreHeldThenLand : Prop :=
  (∀ (s : State) (req : Nat) (r : Reply) (x : Thread), s.replies.find? (fun r => r.req == req) = some r → r.acq = false →
    s.isSwapped r.t.launch r.t.team = false → s.thread? r.t = some x →
    ∃ t, exec (.longLatencyReply req) s = .next t ∧ (∀ y ∈ t.replies, y.req ≠ req) ∧
      ∃ u, t.thread? r.t = some u ∧ u.regs = x.regs ∧
        u.queue = x.queue.map (fun e => if e.req = req then { e with st := .held, val := r.val } else e)) ∧
  (∀ (s : State) (id : ThreadId) (x : Thread), s.thread? id = some x → x.phase = .switchParked → (∀ e ∈ x.queue, e.st = .held) →
    s.isSwapped id.launch id.team = false →
    ∃ t, exec (.switchPointLeave id) s = .next t ∧ t.mem = s.mem ∧
      ∃ u, t.thread? id = some u ∧ u.queue = [] ∧ u.phase = .ready ∧ u.pc = x.pc ∧
        u.regs = x.queue.foldl (fun rs e => putWords rs e.base e.val) x.regs)

/-- R148: the words that exchange values in a crew. R149 to R152: votes, reductions and scans. -/
def Obligations.CrewWordsCombineValues : Prop :=
  (∀ (s : State) (sp : Bool) (d a b : Reg), s.issues sp → s.fits d 1 → s.fits a 1 → s.fits b 1 →
     let from_ (r : Nat) : Word := (s.delivers a r).getD 0
     let k (m : Thread) : Nat := (m.w b).toNat % 32
     CrewGives (.cshfl sp d a b) s d (fun m => from_ (k m)) ∧
     CrewGives (.cshflx sp d a b) s d (fun m => from_ (rankOf m.id ^^^ k m)) ∧
     CrewGives (.cup sp d a b) s d (fun m => if rankOf m.id < k m then m.w a else from_ (rankOf m.id - k m)) ∧
     CrewGives (.cdn sp d a b) s d (fun m => if 31 < rankOf m.id + k m then m.w a else from_ (rankOf m.id + k m)) ∧
     (∀ m0 ms, s.countedFor s.cur = m0 :: ms → CrewGives (.cbcast sp d a b) s d (fun _ => from_ (k m0)))) ∧
  (∀ (s : State) (sp : Bool) (d a : Reg), s.issues sp → s.fits d 1 → s.fits a 1 →
     let ms := s.countedFor s.cur
     let leaf (k : Nat) : Word := (s.delivers a k).getD 0x80000000
     CrewGives (.cvany sp d a) s d (fun _ => truth (∃ m ∈ ms, m.w a ≠ 0)) ∧
     CrewGives (.cvall sp d a) s d (fun _ => truth (∀ m ∈ ms, m.w a ≠ 0)) ∧
     CrewGives (.cballot sp d a) s d (fun _ => BitVec.ofNat 32 (ms.map (fun m => if m.w a = 0 then 0 else 2 ^ rankOf m.id)).sum) ∧
     CrewGives (.cradd sp d a) s d (fun _ => BitVec.ofNat 32 (ms.map (fun m => (m.w a).toNat)).sum) ∧
     CrewGives (.cscan sp d a) s d (fun u =>
       BitVec.ofNat 32 ((ms.filter (fun m => rankOf m.id ≤ rankOf u.id)).map (fun m => (m.w a).toNat)).sum) ∧
     (∃ v, CrewGives (.crminS32 sp d a) s d (fun _ => v) ∧ (∀ m ∈ ms, v.toInt ≤ (m.w a).toInt) ∧ (ms ≠ [] → ∃ m ∈ ms, v = m.w a)) ∧
     (∃ v, CrewGives (.crmaxS32 sp d a) s d (fun _ => v) ∧ (∀ m ∈ ms, (m.w a).toInt ≤ v.toInt) ∧ (ms ≠ [] → ∃ m ∈ ms, v = m.w a)) ∧
     CrewGives (.crfadd sp d a) s d (fun _ => (treeNode leaf 5 0).1) (fun _ => (treeNode leaf 5 0).2) ∧
     (let below (u : Thread) (k : Nat) : Word := if k ≤ rankOf u.id then leaf k else 0x80000000
      CrewGives (.cscanf sp d a) s d (fun u => (treeNode (below u) 5 0).1) (fun u => (treeNode (below u) 5 0).2)))

/-- R155: LEASE and LEASEM, once the crew meets at them. R137 to R140: what a decision, a full due count and a full window make of a core's crews. -/
def Obligations.LeasesDecideActivation : Prop :=
  (∀ (s : State) (sp : Bool) (a : Reg) (w : Crew) (m0 : Thread) (ms : List Thread), s.issues sp → s.fits a 1 → s.meets →
     s.crew? (crewOf s.cur.id) = some w → s.countedFor s.cur = m0 :: ms →
     let v := (m0.w a).toNat
     let l := (320 - (s.core s.curCore).carve) * 8
     (∃ t c, exec (.lease sp a) s = .next t ∧ t.crew? (crewOf s.cur.id) = some c ∧ c.lease = min v l ∧ c.measured = false ∧
       (t.core s.curCore).deciding = true ∧ t.mem = s.mem ∧ ∀ m ∈ m0 :: ms, ∃ u, t.thread? m.id = some u ∧ u.regs = m.regs ∧ Moved s m u) ∧
     (∃ t c, exec (.leasem sp a) s = .next t ∧ t.crew? (crewOf s.cur.id) = some c ∧ c.lease = (if v = 0 then min 32 l else min v l) ∧
       c.measured = true ∧ c.window = 0 ∧ c.lines = [] ∧ (t.core s.curCore).deciding = true ∧ t.mem = s.mem ∧
       ∀ m ∈ m0 :: ms, ∃ u, t.thread? m.id = some u ∧ u.regs = m.regs ∧ Moved s m u)) ∧
  ((∀ (s : State) (k : CoreId),
     let l := carveLines (s.core k).carve
     let was := s.residentCrews k
     ((s.core k).deciding = false → exec (.activationDecision k) s = .next s) ∧
     ((s.core k).deciding = true → (s.crews.map (fun c => c.id)).Nodup →
       ∃ t, exec (.activationDecision k) s = .next t ∧ t.mem = s.mem ∧ t.threads = s.threads ∧ (t.core k).deciding = false ∧
         t.crews.map (fun c => (c.id, c.lease, c.measured)) = s.crews.map (fun c => (c.id, c.lease, c.measured)) ∧
         (∀ x ∈ was, x.due = true → x.active = false → ∃ y ∈ t.crews, y.id = x.id ∧ y.active = true ∧ y.due = false ∧ y.dueActivated = true) ∧
         ((∀ x ∈ was, x.due = false) →
           let now := t.residentCrews k
           (leaseSum now ≤ l ∨ ∀ y ∈ now, y.active = true → y.lease ≠ 0 → y.dueActivated = true ∨ ∃ x ∈ was, x.id = y.id ∧ x.grower = true) ∧
           (leaseSum was ≤ l → ∀ x ∈ was, x.active = true → ∃ y ∈ now, y.id = x.id ∧ y.active = true) ∧
           (∀ y ∈ now, y.active = false → s.crewEligible y = true → y.lease ≠ 0 ∧ l < leaseSum now + y.lease) ∧
           (∀ x ∈ was, x.lease = 0 → (x.active = true ∨ s.crewEligible x = true) → ∃ y ∈ now, y.id = x.id ∧ y.active = true) ∧
           (∀ x ∈ was, x.active = false → s.crewEligible x = false → ∃ y ∈ now, y.id = x.id ∧ y.active = false)))) ∧
   (∀ (s : State) (w : Crew), s.crew? w.id = some w →
     ((w.active = true ∨ w.due = true ∨ w.eligible < 16384) → exec (.dueCountExpiry w.id) s = .next s) ∧
     (w.active = false → w.due = false → 16384 ≤ w.eligible → s.liveMembers w.id ≠ [] → w ∈ s.crewsOn (s.coreOf w.id.launch w.id.team) →
       ∃ t, exec (.dueCountExpiry w.id) s = .next t ∧ t.mem = s.mem ∧ t.threads = s.threads ∧
         t.crew? w.id = some { w with due := true, dueStamp := s.cycle } ∧ (t.core (s.coreOf w.id.launch w.id.team)).deciding = true) ∧
     ((w.measured = false ∨ w.window < 65536) → exec (.leaseWindowExpiry w.id) s = .next s) ∧
     (w.measured = true → 65536 ≤ w.window →
       ∃ t u, exec (.leaseWindowExpiry w.id) s = .next t ∧ t.mem = s.mem ∧ t.threads = s.threads ∧ t.crew? w.id = some u ∧
         u.lease = min (max (w.lease - w.lease / 8) w.lines.length) (carveLines (s.core (s.coreOf w.id.launch w.id.team)).carve) ∧
         u.window = 0 ∧ u.lines = [] ∧ u.active = w.active ∧
         (u.lease ≠ w.lease → (t.core (s.coreOf w.id.launch w.id.team)).deciding = true))))

/-- R76 to R78, R153, R154: loads from scratch. R76, R77, R79, R153, R154: stores to scratch. -/
def Obligations.LocalAccessesMoveTheirBytes : Prop :=
  (∀ (s : State) (sp : Bool) (pol : BitVec 2) (d a : Reg) (o : BitVec 8) (u off : Nat), s.issuesLong sp →
     let bytes (n : Nat) : List Byte := (List.range n).map (fun k => (s.scratchByte u (off + k)).getD 0)
     (∀ i n w sgn, (i, n, w, sgn) ∈ loads sp pol d a o → s.fits d w → s.fits a 2 → (s.ea a o n).toNat % n = 0 →
       s.lies (s.ea a o n) n u off → s.open_ u off n false → LoadsBytes i s d n w sgn (bytes n)) ∧
     (∀ i n w, (i, n, w) ∈ [(Instr.sld32 sp d a, 4, 1), (.sld64 sp d a, 8, 2)] → s.fits d w → s.fits a 1 →
       off = (s.cur.w a).toNat → off % n = 0 → u = s.cur.id.team → off + n ≤ s.pk.carveBytes → s.open_ u off n false →
       LoadsBytes i s d n w false (bytes n)) ∧
     (s.fits d 1 → s.fits a 2 → (s.cur.p a).toNat % 4 = 0 → (s.cur.p a).toNat / 2 ^ 60 = 2 → s.lies (s.cur.p a) 4 u off →
       s.open_ u off 4 false → LoadsBytes (.qld32 sp d a) s d 4 1 false (bytes 4))) ∧
  (∀ (s : State) (sp : Bool) (pol : BitVec 2) (d a : Reg) (o : BitVec 8) (u off : Nat), s.issues sp →
     (∀ i n w, (i, n, w) ∈ stores sp pol d a o → s.fits d w → s.fits a 2 → (s.ea a o n).toNat % n = 0 →
       s.lies (s.ea a o n) n u off → s.open_ u off n true → StoresScratch i s u off (stored n s.cur d)) ∧
     (∀ i n w, (i, n, w) ∈ [(Instr.sst32 sp d a, 4, 1), (.sst64 sp d a, 8, 2)] → s.fits d w → s.fits a 1 →
       off = (s.cur.w a).toNat → off % n = 0 → u = s.cur.id.team → off + n ≤ s.pk.carveBytes → s.open_ u off n true →
       StoresScratch i s u off (stored n s.cur d)) ∧
     (s.fits d 1 → s.fits a 2 → (s.cur.p a).toNat % 4 = 0 → (s.cur.p a).toNat / 2 ^ 60 = 2 → s.lies (s.cur.p a) 4 u off →
       s.open_ u off 4 true → StoresScratch (.qst32 sp d a) s u off (stored 4 s.cur d)))

/-- R76, R77, R153, R154, R185, R189, R190: an access that is not aligned traps ALIGN, one outside every aperture ADDR, a WAITC of a global word under DET DETVIO, before anything else of it. -/
def Obligations.MisplacedAccessesTrap : Prop :=
  ∀ (s : State) (sp : Bool) (pol : BitVec 2) (d a b : Reg) (o : BitVec 8),
    let beyond (ea : DWord) (n : Nat) : Prop := 2 ^ 48 ≤ ea.toNat ∧ ∀ u off, ¬ s.lies ea n u off
    (s.fits a 2 →
      (s.issuesLong sp → ∀ i n w sgn, (i, n, w, sgn) ∈ loads sp pol d a o → s.fits d w →
        ((s.ea a o n).toNat % n ≠ 0 → exec i s = .next (s.raise 0x05 n (s.ea a o n))) ∧
        ((s.ea a o n).toNat % n = 0 → beyond (s.ea a o n) n →
          exec i s = .next (s.raise 0x06 1 (s.ea a o n)))) ∧
      (s.issues sp → ∀ i n w, (i, n, w) ∈ stores sp pol d a o → s.fits d w →
        ((s.ea a o n).toNat % n ≠ 0 → exec i s = .next (s.raise 0x05 n (s.ea a o n))) ∧
        ((s.ea a o n).toNat % n = 0 → beyond (s.ea a o n) n →
          exec i s = .next (s.raise 0x06 1 (s.ea a o n))))) ∧
    (s.fits a 1 →
      let off := (s.cur.w a).toNat
      let ea : DWord := BitVec.ofNat 64 (2 ^ 60 + off)
      let traps (i : Instr) (n : Nat) : Prop := (off % n ≠ 0 → exec i s = .next (s.raise 0x05 n ea)) ∧
        (off % n = 0 → s.pk.carveBytes < off + n → exec i s = .next (s.raise 0x06 1 ea))
      (s.issuesLong sp → ∀ i n w, (i, n, w) ∈ [(Instr.sld32 sp d a, 4, 1), (.sld64 sp d a, 8, 2)] → s.fits d w → traps i n) ∧
      (s.issues sp → ∀ i n w, (i, n, w) ∈ [(Instr.sst32 sp d a, 4, 1), (.sst64 sp d a, 8, 2)] → s.fits d w → traps i n)) ∧
    (s.fits a 2 →
      let ea := s.cur.p a
      let bad (i : Instr) : Prop := (ea.toNat % 4 ≠ 0 → exec i s = .next (s.raise 0x05 4 ea)) ∧
        (ea.toNat % 4 = 0 → beyond ea 4 → exec i s = .next (s.raise 0x06 1 ea))
      (s.fits d 1 →
        (s.issuesLong sp → bad (.qld32 sp d a) ∧
          (ea.toNat % 4 = 0 → ea.toNat / 2 ^ 60 ≠ 2 → exec (.qld32 sp d a) s = .next (s.raise 0x06 1 ea))) ∧
        (s.issues sp → bad (.qst32 sp d a) ∧
          (ea.toNat % 4 = 0 → ea.toNat / 2 ^ 60 ≠ 2 → exec (.qst32 sp d a) s = .next (s.raise 0x06 1 ea)))) ∧
      (s.issuesLong sp → s.fits d 1 → bad (.ldsc sp d a)) ∧
      (s.issues sp → s.fits b 1 → bad (.stsc sp a b)) ∧
      (s.issuesLong sp → s.fits d 1 → s.fits b 2 → bad (.cassc sp d a b)) ∧
      (s.issues true → s.fits d 1 → s.fits b 1 → ∀ i op, (i, op) ∈ waits sp d a b → bad i ∧
        (∀ v, ea.toNat % 4 = 0 → ea.toNat < 2 ^ 48 → s.pk.det = true → s.vf? (launchVf s.cur.id.launch) = some v →
          (s.cur.debugPass.contains ea.toNat = true ∨ v.watched ea.toNat 4 false = none) → exec i s = .next (s.raise 0x0B 2 ea))))

/-- R77, R78, R80, R168: loads from global memory. R77, R79, R80, R168: stores to global memory. R31, R168, R294 to R297: loads, stores and atomics whose line is homed on another die, from the word to the bytes at the home. -/
def Obligations.GlobalAccessesMoveTheirBytes : Prop :=
  (∀ (s : State) (sp : Bool) (pol : BitVec 2) (d a : Reg) (o : BitVec 8) (v : Vf) (e : TlbEntry) (i : Instr) (n w : Nat) (sgn : Bool),
     (i, n, w, sgn) ∈ loads sp pol d a o → s.issuesLong sp → s.fits d w → s.fits a 2 →
     let va := (s.ea a o n).toNat
     let g := s.target v e va (capOf pol)
     va < 2 ^ 48 → va % n = 0 → s.grants va n .load true v e → s.unordered g.pa n = false → s.unstashed → s.missFull s.curCore g n = false →
     let entry : QEntry := ⟨s.nextId, s.cur.idx d, w, .awaiting, []⟩
     (∃ t, exec i s = .next t ∧ Moved s s.cur t.cur ∧ Kept s t ∧ t.cur.regs = s.cur.regs ∧ t.cur.queue = s.cur.queue ++ [entry] ∧
       ((∃ x, t.replies = s.replies ++ [⟨s.nextId, s.cur.id, x, false, 0⟩]) ∨
        (t.replies = s.replies ∧ ∃ q ∈ t.requests, q.id = s.nextId ∧ q.t = s.cur.id ∧ ∃ src got, q.kind = .load g src n sgn got))) ∧
     (s.stashless → g.repl = false → homeOf g.pa = s.curCore.die → (s.core s.curCore).l1Line (lineOf g.pa) = none →
       ∃ t, exec i s = .next t ∧ (g.cache = 0 → t.mem = s.mem) ∧
         t.replies = s.replies ++ [⟨s.nextId, s.cur.id, loaded n sgn ((List.range n).map (fun k => s.mem.get (g.pa + k))), false, 0⟩]) ∧
     (s.stashless → g.checked = false → ∀ ln, (s.core s.curCore).l1Line (lineOf g.pa) = some ln →
       (∀ k < n, (byteAt ln.bytes (g.pa % 128 + k)).isSome = true) →
       ∃ t, exec i s = .next t ∧ t.mem = s.mem ∧ t.replies = s.replies ++ [⟨s.nextId, s.cur.id,
         loaded n sgn ((List.range n).map (fun k => ((byteAt ln.bytes (g.pa % 128 + k)).map (fun b => b.val)).getD 0)), false, 0⟩])) ∧
  (∀ (s : State) (sp : Bool) (pol : BitVec 2) (d a : Reg) (o : BitVec 8) (v : Vf) (e : TlbEntry) (i : Instr) (n w : Nat),
     (i, n, w) ∈ stores sp pol d a o → s.issues sp → s.fits d w → s.fits a 2 →
     let va := (s.ea a o n).toNat
     let g := s.target v e va (capOf pol)
     let bs := stored n s.cur d
     va < 2 ^ 48 → va % n = 0 → s.grants va n .store true v e → s.unordered g.pa n = false → s.unstashed →
     (∃ t, exec i s = .next t ∧ Moved s s.cur t.cur ∧ Kept s t ∧ t.cur.regs = s.cur.regs ∧ t.cur.queue = s.cur.queue ∧ t.replies = s.replies) ∧
     (s.stashless → g.checked = false → g.det = false → g.cache = 0 → homeOf g.pa = s.curCore.die →
       (s.core s.curCore).l1Line (lineOf g.pa) = none →
       ∃ t, exec i s = .next t ∧
         ∀ k, some (t.mem.get k) = if g.pa ≤ k ∧ k < g.pa + n then bs[k - g.pa]? else some (s.mem.get k)) ∧
     (s.stashless → g.checked = false → 2 ≤ g.cache → (s.core s.curCore).carve + 16 ≤ 320 →
       ∃ t ln, exec i s = .next t ∧ (t.core s.curCore).l1Line (lineOf g.pa) = some ln ∧
         ∀ k < n, (byteAt ln.bytes (g.pa % 128 + k)).map (fun b => (some b.val, b.dirty)) = some (bs[k]?, true))) ∧
  (∀ (s : State) (sp : Bool) (a d b : Reg) (v : Vf) (e : TlbEntry), s.idle → s.fits a 2 →
     let k := s.curCore
     (∀ (pol : BitVec 2) (o : BitVec 8) (i : Instr) (n w : Nat) (sgn : Bool), (i, n, w, sgn) ∈ loads sp pol d a o → s.issuesLong sp → s.fits d w →
       let va := (s.ea a o n).toNat
       let g := s.target v e va (capOf pol)
       let h := homeOf g.pa
       va < 2 ^ 48 → va % n = 0 → s.grants va n .load true v e → s.unordered g.pa n = false → s.distant g →
       (∀ x ∈ s.cur.queue, x.req ≠ s.nextId) →
       ∃ t, exec i s = .next t ∧ t.mem = s.mem ∧ t.replies = s.replies ∧
         (¬ s.covered h k.die → exec (.remoteRequestServe s.nextId) t = .next t) ∧
         (s.covered h k.die → ∃ u, exec (.remoteRequestServe s.nextId) t = .next u ∧ u.mem = s.mem ∧ u.requests = [] ∧
           u.replies = s.replies ++ [⟨s.nextId, s.cur.id, loaded n sgn ((List.range n).map (fun j => s.mem.get (g.pa + j))), false, 0⟩])) ∧
     (∀ (pol : BitVec 2) (o : BitVec 8) (i : Instr) (n w : Nat), (i, n, w) ∈ stores sp pol d a o → s.issues sp → s.fits d w →
       let va := (s.ea a o n).toNat
       let g := s.target v e va (capOf pol)
       let h := homeOf g.pa
       let bs := stored n s.cur d
       va < 2 ^ 48 → va % n = 0 → s.grants va n .store true v e → s.unordered g.pa n = false → s.distant g → g.cache = 0 → g.pa % n = 0 →
       ∃ t m, exec i s = .next t ∧ t.mem = s.mem ∧ t.welt = [m] ∧ m.src = k.die ∧ m.dst = h ∧ m.toHome = true ∧
         m.tag = (s.die k.die).v.set k.die ((s.die k.die).v.getD k.die 0 + 1) ∧
         (¬ s.nextOf h k.die → exec (.writeApply m.id) t = .next t) ∧
         (s.nextOf h k.die → ∃ u, exec (.writeApply m.id) t = .next u ∧
           ∀ j, some (u.mem.get j) = if g.pa ≤ j ∧ j < g.pa + n then bs[j - g.pa]? else some (s.mem.get j))) ∧
     (∀ (sc : BitVec 2) (i : Instr) (op : AtomOp) (w wb : Nat), (i, op, w, wb) ∈ atoms sp sc d a b → s.issuesLong sp → s.fits d w → s.fits b wb →
       let va := (s.cur.p a).toNat
       let n := 4 * w
       let g := s.target v e va 3
       let h := homeOf g.pa
       let old := atomOld s.mem g.pa n
       va < 2 ^ 48 → va % n = 0 → s.grants va n .atomic false v e → s.unordered g.pa n = false → s.pk.det = false → s.distant g → 2 ≤ sc.toNat →
       g.pa % n = 0 →
       ∃ t q, exec i s = .next t ∧ t.mem = s.mem ∧ t.replies = s.replies ∧ t.requests = [q] ∧
         (¬ (s.covered h k.die ∧ s.nextOf h k.die) → exec (.atomicPerform q.id) t = .next t) ∧
         (s.covered h k.die → s.nextOf h k.die → ∃ u, exec (.atomicPerform q.id) t = .next u ∧ u.requests = [] ∧
           u.replies = s.replies ++ [⟨q.id, s.cur.id, atomWords old n, false, 0⟩] ∧
           (u.die h).v.getD k.die 0 = (s.die h).v.getD k.die 0 + (if k.die < (s.die h).v.length then 1 else 0) ∧
           ∀ j, u.mem.get j = if g.pa ≤ j ∧ j < g.pa + n then atomByte op old (s.cur.bVal b wb) (s.cur.cVal b wb) (j - g.pa) else s.mem.get j)))

/-- R77, R178: a global access without a translation waits for its walk; one that is not permitted or names no memory traps. R81, R117: PREF never traps and LDU reads eight bytes at any alignment, here in scratch. -/
def Obligations.GlobalChecksDecideTheFateOfAnAccess : Prop :=
  (∀ (s : State) (sp : Bool) (pol : BitVec 2) (d a : Reg) (o : BitVec 8) (v : Vf) (i : Instr) (n w : Nat) (k : AccKind),
     ((∃ sgn, (i, n, w, sgn) ∈ loads sp pol d a o) ∧ s.issuesLong sp ∧ k = .load ∨
       (i, n, w) ∈ stores sp pol d a o ∧ s.issues sp ∧ k = .store) → s.fits d w → s.fits a 2 →
     let ea := s.ea a o n
     let va := ea.toNat
     va < 2 ^ 48 → va % n = 0 → s.vf? (launchVf s.cur.id.launch) = some v → v.watched va n k.writes = none →
     (s.tlbFind s.curCore v va = none → s.pendingRec s.curCore.die v.id va = none →
       ∃ t, exec i s = .next t ∧ t.cur.phase = .walking va ∧ t.cur.pc = s.cur.pc ∧ t.cur.regs = s.cur.regs ∧ t.mem = s.mem ∧
         ∃ x ∈ t.walks, x.die = s.curCore.die ∧ x.vf = v.id ∧ x.va / 4096 = va / 4096) ∧
     (s.tlbFind s.curCore v va = none → ∀ r, s.pendingRec s.curCore.die v.id va = some r →
       ∃ t, exec i s = .next t ∧ t.cur.phase = .pageParked r.rid ∧ t.cur.pc = s.cur.pc ∧ t.cur.regs = s.cur.regs ∧ t.mem = s.mem) ∧
     (∀ e, s.tlbFind s.curCore v va = some e →
       ((k = .load ∧ e.r = false ∨ k = .store ∧ e.w = false) → exec i s = .next (s.raise 0x08 (if k = .load then 1 else 2) ea)) ∧
       ((k = .load → e.r = true) → (k = .store → e.w = true) → e.host = false → s.validPa (e.pa + (va - e.va)) = false →
         exec i s = .next (s.raise 0x06 2 ea)))) ∧
  ((∀ (s : State) (sp : Bool) (d a : Reg) (v : Vf) (off u : Nat), s.issuesLong sp → s.fits d 2 → s.fits a 2 →
     s.vf? (launchVf s.cur.id.launch) = some v →
     (v.feature0.getLsbD 10 = false → exec (.ldu sp d a) s = .next (s.raise 0x01 9 0)) ∧
     (v.feature0.getLsbD 10 = true → s.lies (s.cur.p a) 8 u off → (off % 8 ≠ 0 → off / 8 * 8 + 16 ≤ s.pk.carveBytes) →
       s.pk.carveBytes ≤ 2 ^ 32 →
       s.open_ u (off / 8 * 8) 16 false →
       LoadsBytes (.ldu sp d a) s d 8 2 false ((List.range 8).map (fun k => (s.scratchByte u (off + k)).getD 0)))) ∧
   (∀ (s : State) (sp : Bool) (a : Reg), s.issues sp → s.fits a 2 →
     ∃ t, exec (.pref sp a) s = .next t ∧ Moved s s.cur t.cur ∧ Kept s t ∧ t.cur.regs = s.cur.regs ∧ t.cur.queue = s.cur.queue ∧
       t.replies = s.replies ∧ t.requests = s.requests ∧ t.records = s.records))

/-- R183, R185: an atomic word sends its request to its place of performance and awaits the old value. R193, R194: a REDTO is sent, its old value is delivered to the peer's scratch, and an arrival is counted there. -/
def Obligations.AtomicsAreSentAndReductionsDeliver : Prop :=
  (∀ (s : State) (sp : Bool) (sc : BitVec 2) (d a b : Reg) (i : Instr) (op : AtomOp) (w wb : Nat), (i, op, w, wb) ∈ atoms sp sc d a b →
     s.issuesLong sp → s.fits d w → s.fits a 2 → s.fits b wb →
     let ea := s.cur.p a
     let n := 4 * w
     let sent (place : Place) (l1 : Bool) : Prop := ∃ t, exec i s = .next t ∧ Moved s s.cur t.cur ∧ Kept s t ∧ t.cur.regs = s.cur.regs ∧
       t.replies = s.replies ∧
       ∃ q ∈ t.requests, t.cur.queue = s.cur.queue ++ [⟨q.id, s.cur.idx d, w, .awaiting, []⟩] ∧ q.t = s.cur.id ∧ q.core = s.curCore ∧
         q.kind = .atomic op sc.toNat l1 place (s.cur.bVal b wb) (s.cur.cVal b wb)
     (ea.toNat % n ≠ 0 → exec i s = .next (s.raise 0x05 n ea)) ∧
     (ea.toNat % n = 0 → ∀ u off, s.lies ea n u off → s.open_ u off n true → sent (.scr u off) false) ∧
     (ea.toNat % n = 0 → ea.toNat < 2 ^ 48 → ∀ v e, s.grants ea.toNat n .atomic false v e →
       let g := s.target v e ea.toNat 3
       (s.pk.det = true → exec i s = .next (s.raise 0x0B 1 ea)) ∧
       (s.pk.det = false → s.unordered g.pa n = false → (inL1 g sc.toNat = true → s.unstashed) → sent (.glob g) (inL1 g sc.toNat)))) ∧
  ((∀ (s : State) (sp : Bool) (d a b : Reg) (i : Instr) (op : AtomOp), (i, op) ∈ redtos sp d a b →
     s.issues sp → s.fits d 2 → s.fits a 2 → s.fits b 1 →
     let ea := s.cur.p a
     let off := (s.cur.w d).toNat
     let tgt := s.cur.wAt d 1
     let rank := tgt.toNat % 16
     let bar := tgt.toNat / 256 % 16
     ∀ u o, ea.toNat % 4 = 0 → s.lies ea 4 u o → s.open_ u o 4 true →
     (off % 4 ≠ 0 → ∃ t, exec i s = .next t ∧ t.cur.phase = .faulted ∧ (s.cur.inHandler = false → t.cur.trapcode = 0x05)) ∧
     (off % 4 = 0 → (tgt.toNat ≠ rank + 256 * bar ∨ s.pk.qsize ≤ rank ∨ s.pk.carveBytes < off + 4) →
       ∃ t, exec i s = .next t ∧ t.cur.phase = .faulted ∧ (s.cur.inHandler = false → t.cur.trapcode = 0x06)) ∧
     (off % 4 = 0 → tgt.toNat = rank + 256 * bar → rank < s.pk.qsize → off + 4 ≤ s.pk.carveBytes →
       (s.core s.curCore).l1 = [] → s.unstashed → s.performed s.cur.id = true →
       ∃ t q, exec i s = .next t ∧ Moved s s.cur t.cur ∧ Kept s t ∧ t.cur.regs = s.cur.regs ∧ t.cur.queue = s.cur.queue ∧
         t.requests = s.requests ++ [q] ∧ q.t = s.cur.id ∧ q.kind = .redto op (.scr u o) (s.cur.w b) off rank bar)) ∧
   (∀ (s : State) (x : Delivery) (m : Team), s.deliveries = [x] → s.team? x.launch x.team = some m → m.stash = [] →
     m.st = .resident → s.hatched x.launch x.team x.off 4 true = false →
     (s.teamDone x.launch x.team = true ∨ ∃ y, s.barrier? x.launch 1 x.team x.bar = some y ∧ y.spilled = false) →
     ∃ t m', exec (.redtoDelivery x.id) s = .next t ∧ t.deliveries = [] ∧ t.mem = s.mem ∧ t.team? x.launch x.team = some m' ∧
       ∀ k, m'.scratch.get k = if x.off ≤ k ∧ k < x.off + 4 then BitVec.ofNat 8 (x.val.toNat / 256 ^ (k - x.off)) else m.scratch.get k))

/-- R186: what an atomic writes, performed on the scratch of a team, and the old value it returns. R186, R187: an atomic performed at a home slice of its own die. R179, R183, R186, R187: an atomic performed in its core's L1, at its die's slice, or in its die's copy of a line. -/
def Obligations.AtomicsAreOneReadAndOneWrite : Prop :=
  ((∀ (s : State) (r : Request) (op : AtomOp) (sc u off : Nat) (b c : DWord) (m : Team), s.requests.find? (fun x => x.id == r.id) = some r →
     r.kind = .atomic op sc false (.scr u off) b c → s.team? r.t.launch u = some m → m.stash = [] → s.flips = [] → s.poison = [] →
     let n := if op ∈ [.add64, .xchg64, .cas64, .fadd64] then 8 else 4
     let old := numberOf ((List.range n).map (fun k => m.scratch.get (off + k)))
     ∃ t m', exec (.atomicPerform r.id) s = .next t ∧ t.mem = s.mem ∧ (∀ x ∈ t.requests, x.id ≠ r.id) ∧
       t.replies = s.replies ++ [⟨r.id, r.t, (List.range (n / 4)).map (fun k => BitVec.ofNat 32 (old / 2 ^ (32 * k))), false, 0⟩] ∧
       t.team? r.t.launch u = some m' ∧
       ∀ k, m'.scratch.get k = if off ≤ k ∧ k < off + n then BitVec.ofNat 8 ((op.apply (BitVec.ofNat 64 old) b c).toNat / 256 ^ (k - off))
         else m.scratch.get k) ∧
   (∀ m b c : DWord,
     let x : Word := BitVec.ofNat 32 m.toNat
     let y : Word := BitVec.ofNat 32 b.toNat
     let lo (r : Word) : DWord := r.zeroExtend 64
     AtomOp.add.apply m b c = lo (BitVec.ofNat 32 (x.toNat + y.toNat)) ∧
     AtomOp.add64.apply m b c = BitVec.ofNat 64 (m.toNat + b.toNat) ∧
     AtomOp.minS.apply m b c = lo (if y.toInt < x.toInt then y else x) ∧
     AtomOp.minN.apply m b c = lo (if y.toNat < x.toNat then y else x) ∧
     AtomOp.maxS.apply m b c = lo (if x.toInt < y.toInt then y else x) ∧
     AtomOp.maxN.apply m b c = lo (if x.toNat < y.toNat then y else x) ∧
     AtomOp.and.apply m b c = lo (x &&& y) ∧ AtomOp.or.apply m b c = lo (x ||| y) ∧ AtomOp.xor.apply m b c = lo (x ^^^ y) ∧
     AtomOp.xchg.apply m b c = lo y ∧ AtomOp.xchg64.apply m b c = b ∧
     AtomOp.cas.apply m b c = lo (if x = y then BitVec.ofNat 32 (b.toNat / 2 ^ 32) else x) ∧
     AtomOp.cas64.apply m b c = (if m = b then c else m) ∧
     AtomOp.fadd.apply m b c = BitVec.ofNat 64 (f32.add 0 x.toNat y.toNat).bits ∧
     AtomOp.fadd64.apply m b c = BitVec.ofNat 64 (f64.add 0 m.toNat b.toNat).bits ∧
     AtomOp.incw.apply m b c = lo (if y.toNat ≤ x.toNat then 0 else BitVec.ofNat 32 (x.toNat + 1)))) ∧
  (∀ (s : State) (r : Request) (op : AtomOp) (sc : Nat) (g : GAddr) (b c : DWord), s.requests.find? (fun x => x.id == r.id) = some r →
     r.kind = .atomic op sc false (.glob g) b c → r.tag = [] → atHome g sc = true → homeOf g.pa = r.core.die → r.core.die < 24 →
     g.det = false → s.flips = [] → s.poison = [] → (∀ m ∈ s.teams, m.stash = []) →
     let n := if op ∈ [.add64, .xchg64, .cas64, .fadd64] then 8 else 4
     g.pa % n = 0 →
     let old := numberOf ((List.range n).map (fun k => s.mem.get (g.pa + k)))
     ∃ t, exec (.atomicPerform r.id) s = .next t ∧ (∀ x ∈ t.requests, x.id ≠ r.id) ∧
       t.replies = s.replies ++ [⟨r.id, r.t, (List.range (n / 4)).map (fun k => BitVec.ofNat 32 (old / 2 ^ (32 * k))), false, 0⟩] ∧
       ∀ k, t.mem.get k = if g.pa ≤ k ∧ k < g.pa + n then
           BitVec.ofNat 8 ((op.apply (BitVec.ofNat 64 old) b c).toNat / 256 ^ (k - g.pa)) else s.mem.get k) ∧
  (∀ (s : State) (r : Request) (op : AtomOp) (sc : Nat) (l1 : Bool) (g : GAddr) (b c : DWord), s.requests.find? (fun x => x.id == r.id) = some r →
     r.kind = .atomic op sc l1 (.glob g) b c → sc < 2 → g.repl = false → g.checked = false → s.sound → r.core.die < 24 →
     let n := opSize op
     let off := g.pa % 128
     g.pa % n = 0 →
     let performs (old : Nat) (p : State → Prop) : Prop := ∃ t, exec (.atomicPerform r.id) s = .next t ∧ (∀ x ∈ t.requests, x.id ≠ r.id) ∧
       t.replies = s.replies ++ [⟨r.id, r.t, atomWords old n, false, 0⟩] ∧ p t
     let inL1 (old : Nat) (t : State) : Prop := t.mem = s.mem ∧ ∃ x, (t.core r.core).l1Line (g.pa / 128) = some x ∧
       ∀ k < n, byteAt x.bytes (off + k) = some ⟨off + k, atomByte op old b c k, true⟩
     let inL2 (old : Nat) (t : State) : Prop := t.mem = s.mem ∧ ∃ x, t.l2Line r.core.die (g.pa / 128) = some x ∧
       ∀ k < n, byteAt x.bytes (off + k) = some ⟨off + k, atomByte op old b c k, true⟩
     (l1 = true →
       (∀ x old, (s.core r.core).l1Line (g.pa / 128) = some x → heldBytes x.bytes off n old → performs old (inL1 old)) ∧
       (homeOf g.pa = r.core.die → (s.core r.core).l1 = [] → (s.die r.core.die).l2 = [] → (s.core r.core).carve + 16 ≤ 320 →
         performs (atomOld s.mem g.pa n) (inL1 (atomOld s.mem g.pa n)))) ∧
     (l1 = false →
       (homeOf g.pa = r.core.die → g.det = false → (g.cache = 0 ∨ (s.die r.core.die).l2 = []) → performs (atomOld s.mem g.pa n) (fun t =>
         ∀ k, t.mem.get k = if g.pa ≤ k ∧ k < g.pa + n then atomByte op (atomOld s.mem g.pa n) b c (k - g.pa) else s.mem.get k)) ∧
       (homeOf g.pa ≠ r.core.die → homeOf g.pa < 24 →
         (∀ x old, s.l2Line r.core.die (g.pa / 128) = some x → (∀ k < 128, (byteAt x.bytes k).isSome = true) → heldBytes x.bytes off n old →
           performs old (inL2 old)) ∧
         (1 ≤ g.cache → (s.die r.core.die).l2 = [] → s.welt = [] → s.reaches r.core.die (homeOf g.pa) = true →
           performs (atomOld s.mem g.pa n) (inL2 (atomOld s.mem g.pa n))) ∧
         ((s.die r.core.die).l2 = [] → s.welt = [] → s.reaches r.core.die (homeOf g.pa) = false → exec (.atomicPerform r.id) s = .next s))))

/-- R189, R299: LDSC, STSC and CASSC are stamped and sent, an SC access is performed in stamp order, and a core publishes its clock. That an LDSC asks for permission R alone is log entry 21 (DEDUCED), not R185 or R189. -/
def Obligations.OrderedAccessesArePerformedInStampOrder : Prop :=
  (∀ (s : State) (sp : Bool) (d a b : Reg) (v : Vf) (e : TlbEntry), s.fits a 2 →
     let ea := s.cur.p a
     let g := s.target v e ea.toNat 3
     ea.toNat % 4 = 0 →
     (s.issuesLong sp → s.fits d 1 →
       (s.pk.det = false → ea.toNat < 2 ^ 48 → s.grants ea.toNat 4 .query false v e → s.unordered g.pa 4 = false → s.cleared →
         SendsSc (.ldsc sp d a) s 1 g 0 0 (some d)) ∧
       (s.pk.det = true → ea.toNat < 2 ^ 48 → s.grants ea.toNat 4 .query false v e →
         exec (.ldsc sp d a) s = .next (s.raise 0x0B 3 ea)) ∧
       (2 ^ 48 ≤ ea.toNat → exec (.ldsc sp d a) s = .next (s.raise 0x06 1 ea))) ∧
     (s.issues sp → s.fits b 1 →
       (s.pk.det = false → ea.toNat < 2 ^ 48 → s.grants ea.toNat 4 .publish false v e → s.unordered g.pa 4 = false → s.released_ 4 →
         SendsSc (.stsc sp a b) s 2 g (s.cur.w b) 0 none) ∧
       (s.pk.det = true → ea.toNat < 2 ^ 48 → s.grants ea.toNat 4 .publish false v e →
         exec (.stsc sp a b) s = .next (s.raise 0x0B 3 ea)) ∧
       (2 ^ 48 ≤ ea.toNat → exec (.stsc sp a b) s = .next (s.raise 0x06 1 ea))) ∧
     (s.issuesLong sp → s.fits d 1 → s.fits b 2 →
       (s.pk.det = false → ea.toNat < 2 ^ 48 → s.grants ea.toNat 4 .atomic false v e → s.unordered g.pa 4 = false → s.released_ 4 →
         SendsSc (.cassc sp d a b) s 3 g (s.cur.wAt b 0) (s.cur.wAt b 1) (some d)) ∧
       (s.pk.det = true → ea.toNat < 2 ^ 48 → s.grants ea.toNat 4 .atomic false v e →
         exec (.cassc sp d a b) s = .next (s.raise 0x0B 3 ea)) ∧
       (2 ^ 48 ≤ ea.toNat → exec (.cassc sp d a b) s = .next (s.raise 0x06 1 ea)))) ∧
  ((∀ (s : State) (r : Request) (f : Nat) (g : GAddr) (b c : Word) (stamp : Nat), s.requests.find? (fun x => x.id == r.id) = some r →
     r.kind = .sc f g b c stamp →
     ((s.allPublished (stamp / 131072) = false ∨ s.scFirst g stamp = false) → exec (.scAccessPerform r.id) s = .next s) ∧
     (s.allPublished (stamp / 131072) = true → s.scFirst g stamp = true → r.tag = [] → homeOf g.pa = r.core.die → r.core.die < 24 →
       g.det = false → g.pa % 4 = 0 → (∀ m ∈ s.teams, m.stash = []) → s.flips = [] → s.poison = [] → f ∈ [1, 2, 3] →
       let m := s.memWord g.pa
       ∃ t, exec (.scAccessPerform r.id) s = .next t ∧ (∀ x ∈ t.requests, x.id ≠ r.id) ∧
         t.replies = (if f = 2 then s.replies else s.replies ++ [⟨r.id, r.t, [m], true, 0⟩]) ∧ stamp / 131072 ≤ (t.core r.core).scClock ∧
         ∀ k, t.mem.get k = if g.pa ≤ k ∧ k < g.pa + 4 ∧ (f = 2 ∨ f = 3 ∧ m = b) then
             BitVec.ofNat 8 ((if f = 2 then b else c).toNat / 256 ^ (k - g.pa)) else s.mem.get k)) ∧
   (∀ (s : State) (k : CoreId), ∃ t, exec (.scClockPublish k) s = .next t ∧ t.mem = s.mem ∧ (t.core k).scClock = (s.core k).scClock ∧
     (t.core k).scPublished = max (s.core k).scPublished
       (if s.scInFlight k then (s.core k).scClock else max (s.core k).scClock s.clock.toNat)))

/-- R190, R191: WAITC reads its word, leaves with it where the condition holds, and else stays blocked until a new read. -/
def Obligations.WaitsLeaveWhenTheirConditionHolds : Prop :=
  (∀ m b : Word, waitHolds 4 m b = decide (m = b) ∧ waitHolds 5 m b = decide (m ≠ b) ∧ waitHolds 6 m b = decide (b.toInt ≤ m.toInt) ∧
    waitHolds 7 m b = decide (b.toNat ≤ m.toNat) ∧ waitHolds 8 m b = decide (m.toInt < b.toInt) ∧
    waitHolds 9 m b = decide (m.toNat < b.toNat)) ∧
  (∀ (s : State) (sp : Bool) (d a b : Reg) (i : Instr) (op : Nat) (m : Word), (i, op) ∈ waits sp d a b → s.issues true →
    s.fits d 1 → s.fits a 2 → s.fits b 1 → (s.cur.p a).toNat % 4 = 0 →
    ((∃ u off, s.lies (s.cur.p a) 4 u off ∧ s.open_ u off 4 false ∧ m = s.scratchWord u off) ∨
     (∃ v e, (s.cur.p a).toNat < 2 ^ 48 ∧ s.pk.det = false ∧ s.grants (s.cur.p a).toNat 4 .query true v e ∧
        let g := s.target v e (s.cur.p a).toNat 3
        s.unordered g.pa 4 = false ∧ s.cleared ∧ s.reaches s.curCore.die (homeOf g.pa) = true ∧ m = s.memWord g.pa)) →
    (waitHolds op m (s.cur.w b) = true →
      ∃ t, exec i s = .next t ∧ Moved s s.cur t.cur ∧ Kept s t ∧ t.cur.regs = putWords s.cur.regs (s.cur.idx d) [m] ∧ t.cur.watch = none ∧
        t.mem = s.mem) ∧
    (waitHolds op m (s.cur.w b) = false →
      ∃ t w, exec i s = .next t ∧ t.cur.phase = .monitor ∧ t.cur.pc = s.cur.pc ∧ t.cur.regs = s.cur.regs ∧ t.cur.watch = some w ∧
        w.op = op ∧ w.cmp = s.cur.w b ∧ w.dst = s.cur.idx d ∧ w.reread = false ∧ (w.glob = none → w.monitor = true) ∧
        (∀ g, w.glob = some g → w.monitor = s.monitorFree s.curCore g) ∧ t.mem = s.mem)) ∧
  (∀ (s : State) (id : ThreadId) (x : Thread) (w : Watch), s.thread? id = some x → x.watch = some w → x.phase = .monitor →
    s.flips = [] → s.poison = [] →
    let k := s.coreOf id.launch id.team
    let outcome (ev : Instr) (v : Word) (p : Watch → Prop) : Prop := ∃ t u, exec ev s = .next t ∧ t.mem = s.mem ∧ t.thread? id = some u ∧
      (waitHolds w.op v w.cmp = true → u.watch = none ∧ u.regs = x.regs.set w.dst v ∧ (offOf x.pc ≠ 0xFFFC → u.pc = x.pc + 4)) ∧
      (waitHolds w.op v w.cmp = false → u.phase = .monitor ∧ u.regs = x.regs ∧ u.pc = x.pc ∧
        ∃ y, u.watch = some y ∧ y.reread = false ∧ y.op = w.op ∧ y.cmp = w.cmp ∧ y.dst = w.dst ∧ y.glob = w.glob ∧ p y)
    (w.reread = false → exec (.monitorReread id) s = .next s) ∧
    ((w.monitor = true ∨ s.cycle < w.polled + 1024) → exec (.waitcPollTimer id) s = .next s) ∧
    (∀ m, w.glob = none → s.team? id.launch w.team = some m → m.stash = [] → w.reread = true →
      (s.hatched id.launch w.team w.off 4 false = true → exec (.monitorReread id) s = .next s) ∧
      (s.hatched id.launch w.team w.off 4 false = false → outcome (.monitorReread id)
        (BitVec.ofNat 32 (numberOf ((List.range 4).map (fun i => m.scratch.get (w.off + i))))) (fun y => y.monitor = w.monitor))) ∧
    (∀ g, w.glob = some g →
      (s.reaches k.die (homeOf g.pa) = false → exec (.monitorReread id) s = .next s ∧ exec (.waitcPollTimer id) s = .next s) ∧
      (s.reaches k.die (homeOf g.pa) = true → (∀ m ∈ s.teams, m.stash = []) →
        (w.reread = true → outcome (.monitorReread id) (s.memWord g.pa) (fun y => y.monitor = w.monitor)) ∧
        (w.monitor = false → w.polled + 1024 ≤ s.cycle →
          outcome (.waitcPollTimer id) (s.memWord g.pa) (fun y => y.monitor = s.monitorFree k g ∧ y.polled = s.cycle)))))

/-- R180, R188: FENCE waits for the thread's accesses; a release writes dirty bytes back and an acquire drops clean ones. -/
def Obligations.FencesWaitAndOrder : Prop :=
  ∀ (s : State) (sp : Bool) (kind : BitVec 2) (sc : BitVec 3), s.issues sp → kind ≠ 0 →
    let lines (t : State) : List L1Line := (t.core s.curCore).l1
    ((kind.getLsbD 1 = true ∧ s.performed s.cur.id = false ∨ kind.getLsbD 0 = true ∧ s.loaded s.cur.id = false) →
      ∃ t, exec (.fence sp kind sc) s = .next t ∧ t.cur.phase = .stalled 15 ∧ t.cur.pc = s.cur.pc ∧ t.cur.regs = s.cur.regs) ∧
    (s.performed s.cur.id = true → (∀ r ∈ s.replies, r.t ≠ s.cur.id) → sc.toNat < 4 →
      ((s.core s.curCore).l1.map (fun ln => ln.line)).Nodup →
      ∃ t, exec (.fence sp kind sc) s = .next t ∧ Moved s s.cur t.cur ∧ Kept s t ∧ t.cur.regs = s.cur.regs ∧ t.cur.queue = s.cur.queue ∧
        (kind.getLsbD 1 = true → 2 ≤ sc.toNat → ∀ ln ∈ lines t, ∀ x ∈ ln.bytes, x.dirty = false) ∧
        (kind = 1 → 2 ≤ sc.toNat → t.mem = s.mem ∧ ∀ ln ∈ lines t, ∀ x ∈ ln.bytes, x.dirty = true)) ∧
    (kind.getLsbD 1 = true → 2 ≤ sc.toNat → sc.toNat ≤ 5 → s.stashless →
      let d := s.curCore.die
      let held := (s.core s.curCore).l1
      (held.map (fun ln => ln.line)).Nodup → ((s.die d).l2.map (fun x => x.line)).Nodup →
      (∀ x ∈ (s.die d).l2, x.g.pa / 128 = x.line ∧ (x.g.det = false ∨ homeOf (128 * x.line) < 24)) →
      (∀ ln ∈ held, ln.g.pa / 128 = ln.line ∧ ln.g.det = false ∧ (ln.bytes.map (fun x => x.off)).Nodup ∧ (∀ x ∈ ln.bytes, x.off < 128) ∧
        (ln.g.repl = true → homeOf (128 * ln.line) < 24) ∧ (homeOf (128 * ln.line) = hostHome → s.l2Line d ln.line = none)) →
      ∃ t, exec (.fence sp kind sc) s = .next t ∧ ∀ ln ∈ held, ∀ x ∈ ln.bytes, x.dirty = true →
        t.mem.get (128 * ln.line + x.off) = x.val ∨
        (∃ m ∈ t.welt, m.toHome = true ∧ m.dst = homeOf (128 * ln.line) ∧ m.g.pa = 128 * ln.line ∧ (x.off, x.val) ∈ m.bytes) ∨
        ((sc.toNat < 4 ∨ sc = 4 ∧ podLine ln.line = true) ∧ ∃ y, t.l2Line d ln.line = some y ∧ ⟨x.off, x.val, true⟩ ∈ y.bytes)) ∧
    (sc.toNat ≤ 5 → 4 ≤ sc.toNat → s.released_ 4 → (∀ r ∈ s.replies, r.t ≠ s.cur.id) →
      covers (s.die s.curCore.die).v (s.die s.curCore.die).h = true →
      ∃ t, exec (.fence sp kind sc) s = .next t ∧ Moved s s.cur t.cur ∧ Kept s t ∧ t.cur.regs = s.cur.regs ∧ t.mem = s.mem)

/-- R195, R196: the barrier words at core scope, and the arrival that their keeper counts. -/
def Obligations.BarriersCountArrivalsAndRelease : Prop :=
  (∀ (s : State) (sp : Bool) (d a : Reg) (sc : BitVec 3), s.issues true → s.fits a 1 → s.fits d 1 → 1 ≤ sc.toNat → sc.toNat ≤ 5 →
    ((if sc = 1 then 16 else if sc = 2 then 8 else 4) ≤ (s.cur.w a).toNat ∨ (3 ≤ sc.toNat ∧ s.pk.resident = false)) →
    ∀ i ∈ [Instr.bar sp a sc, .bara sp a sc, .barw sp a sc, .barinit sp d a sc], exec i s = .next (s.raise 0x06 3 0)) ∧
  (∀ (s : State) (sp : Bool) (d a : Reg) (sc : BitVec 3) (y : Barrier), s.issues true → s.fits a 1 → s.fits d 1 →
    1 ≤ sc.toNat → sc.toNat ≤ 5 → (3 ≤ sc.toNat → s.pk.resident = true) →
    let scope := sc.toNat
    let id := (s.cur.w a).toNat
    let owner := s.barrierOwner s.cur.id.launch s.cur.id.team scope
    id < (if scope = 1 then 16 else if scope = 2 then 8 else 4) →
    s.barrier? s.cur.id.launch scope owner id = some y → y.spilled = false → s.performed s.cur.id = true →
    (2 ≤ scope → (s.core s.curCore).l1 = [] ∧ s.unstashed) →
    (4 ≤ scope → (s.die s.curCore.die).l2 = [] ∧ s.sentApplied s.curCore.die = true) → (s.threads.map (fun t => t.id)).Nodup →
    let arrival (n : Nat) : Arrival := ⟨n, s.cur.id.launch, scope, owner, id, some s.cur.id,
      vmax (s.die s.curCore.die).h (s.die s.curCore.die).v⟩
    (∃ t n, exec (.bara sp a sc) s = .next t ∧ Moved s s.cur t.cur ∧ Kept s t ∧ t.cur.regs = s.cur.regs ∧ t.mem = s.mem ∧
      t.arrivals = s.arrivals ++ [arrival n]) ∧
    (∃ t n, exec (.bar sp a sc) s = .next t ∧ t.cur.phase = .barrier scope id none ∧ t.cur.barOwner = owner ∧ t.cur.pc = s.cur.pc ∧ t.cur.regs = s.cur.regs ∧
      t.mem = s.mem ∧ t.arrivals = s.arrivals ++ [arrival n]) ∧
    ((∀ x ∈ s.arrivals, x.t ≠ some s.cur.id) → (∀ x ∈ s.cur.arrivals, ¬ (x.1 = scope ∧ x.2.1 = id)) →
      ∃ t, exec (.barw sp a sc) s = .next t ∧ t.cur.phase = .barrier scope id (some y.phase) ∧ t.cur.barOwner = owner ∧ t.cur.pc = s.cur.pc ∧ t.cur.regs = s.cur.regs) ∧
    (y.c = 0 → s.groupOf y = none →
      let e := (s.cur.w d).toNat % 2 ^ 24
      ∃ t z, exec (.barinit sp d a sc) s = .next t ∧ Moved s s.cur t.cur ∧ Kept s t ∧ t.cur.regs = s.cur.regs ∧ t.mem = s.mem ∧
        t.barrier? s.cur.id.launch scope owner id = some z ∧ z.e = (if e = 0 then none else some e) ∧ z.c = 0 ∧ z.phase = y.phase)) ∧
  (∀ (s : State) (x : Arrival) (y : Barrier), s.arrivals.find? (fun z => z.id == x.id) = some x → 1 ≤ x.scope → x.scope ≤ 5 →
    s.barrier? x.launch x.scope x.owner x.bar = some y → y.spilled = false → s.groupOf y = none → y.c + 1 < 2 ^ 24 → y.phase < 2 ^ 16 →
    s.flips = [] → s.poison = [] → (s.threads.map (fun t => t.id)).Nodup →
    (∀ u ∈ s.threads, s.phaseOver u = false) →
    let e := y.e.getD (s.threads.filter (fun u => u.live && u.id.launch == x.launch &&
      s.barrierOwner x.launch u.id.team x.scope == x.owner)).length
    ∃ t z, exec (.barrierArrival x.id) s = .next t ∧ t.mem = s.mem ∧ (∀ w ∈ t.arrivals, w.id ≠ x.id) ∧
      t.barrier? x.launch x.scope x.owner x.bar = some z ∧
      (y.c + 1 < e → z.c = y.c + 1 ∧ z.phase = y.phase) ∧
      (e ≤ y.c + 1 → z.c = 0 ∧ z.phase = (y.phase + 1) % 2 ^ 16 ∧
        ∀ id u, s.thread? id = some u → u.phase = .barrier x.scope x.bar (some y.phase) → id.launch = x.launch →
          u.barOwner = x.owner → s.loaded id = true → (∀ r ∈ s.replies, r.t ≠ id) →
          (4 ≤ x.scope → covers (s.die (s.coreOf id.launch id.team).die).v
            (vmax (s.die (s.coreOf id.launch id.team).die).h (vmax y.clock x.clock)) = true) →
          s.isSwapped id.launch id.team = false → offOf u.pc ≠ 0xFFFC →
          ∃ w, t.thread? id = some w ∧ w.pc = u.pc + 4 ∧ w.regs = u.regs))

/-- R134 to R136, R156: WORK and STEAL ask for a piece, and the distributor hands it out. That a victim stands on its core, so that a retired team with a rest of its range is none, is log entry 22 (DEDUCED); that the distributor's clock moves once for each STEAL is log entry 14 (DESIGN CHOICE). -/
def Obligations.WorkPiecesAreHandedOut : Prop :=
  (∀ (s : State) (sp : Bool) (d : Reg), s.issuesLong sp → s.fits d 4 →
    SendsRequest (.work sp d) s d 4 .work ∧
    SendsRequest (.steal sp d) s d 4 (.steal ((s.core s.curCore).lamport + 1) s.cycle) ∧
    ∀ t, exec (.steal sp d) s = .next t → (t.core s.curCore).lamport = (s.core s.curCore).lamport + 1) ∧
  (∀ (s : State) (r : Request) (l : Launch) (m : Team), r ∈ s.requests → (∀ x ∈ s.requests, x.id = r.id → x = r) →
    (∀ x ∈ s.requests, x.pieces = true → x = r) → s.launch? r.t.launch = some l → s.team? r.t.launch r.t.team = some m →
    (∀ x ∈ s.threads, s.phaseOver x = false) →
    let p := l.packet
    let none? : List Word := [0, 0, 0, 8]
    (r.kind = .work →
      (p.dist = 1 → m.next < m.stop → HandsOut s r (pieceWords p m.next m.stop) 0 (fun t =>
        t.team? r.t.launch r.t.team = some { m with next := m.next + pieceCount p m.next m.stop })) ∧
      (p.dist = 2 → l.workNext < p.iters → HandsOut s r (pieceWords p l.workNext p.iters) 0 (fun t =>
        t.launch? r.t.launch = some { l with workNext := l.workNext + pieceCount p l.workNext p.iters })) ∧
      ((p.dist = 0 ∨ p.dist = 1 ∧ m.stop ≤ m.next ∨ p.dist = 2 ∧ p.iters ≤ l.workNext) → HandsOut s r none? 0 (fun t =>
        t.teams = s.teams ∧ t.launches = s.launches))) ∧
    (∀ c y, r.kind = .steal c y →
      let clock := max (s.die r.core.die).lamport c + 1
      let clocks (t : State) : Prop := (t.die r.core.die).lamport = clock ∧ (t.core r.core).lamport = (s.core r.core).lamport
      ((p.dist ≠ 1 ∨ m.next < m.stop ∨ ∀ x, ¬ s.victim m x) → HandsOut s r none? clock (fun t =>
        t.teams = s.teams ∧ t.launches = s.launches ∧ clocks t)) ∧
      (∀ v, p.dist = 1 → m.stop ≤ m.next → s.victim m v → s.team? v.launch v.idx = some v →
        (∀ x, s.victim m x → x ≠ v → x.stop - x.next < v.stop - v.next ∨ (x.stop - x.next = v.stop - v.next ∧
          (coreNum v.core < coreNum x.core ∨ (x.core = v.core ∧ v.idx < x.idx)))) →
        let a := v.stop - (v.stop - v.next) / 2
        HandsOut s r (pieceWords p a v.stop) clock (fun t => clocks t ∧ t.team? v.launch v.idx = some { v with stop := a } ∧
          t.team? r.t.launch r.t.team = some { m with next := a + pieceCount p a v.stop, stop := v.stop })))) ∧
  (∀ (s : State) (r : Reply) (x : Thread), s.replies.find? (fun y => y.req == r.req) = some r → r.acq = false →
    s.isSwapped r.t.launch r.t.team = false → s.thread? r.t = some x →
    ∃ t, exec (.longLatencyReply r.req) s = .next t ∧ ∀ k, (t.core k).lamport =
      if r.lamport ≠ 0 ∧ k = s.coreOf r.t.launch r.t.team then max (s.core k).lamport r.lamport + 1 else (s.core k).lamport)

/-- R157: EXIT ends its thread once its queue is empty, and a team whose last thread ends retires where no engine operation is left. -/
def Obligations.ExitEndsTheThread : Prop :=
  ∀ (s : State) (sp : Bool), s.flips = [] → s.poison = [] → (s.threads.map (fun t => t.id)).Nodup →
    (s.cur.queue ≠ [] → exec (.exit sp) s = .next (s.parkCur .switchParked)) ∧
    (s.cur.queue = [] → ∃ t, exec (.exit sp) s = .next t ∧ t.cur.id = s.cur.id ∧ t.cur.phase = .exited ∧ t.cur.live = false ∧
      t.cur.inHandler = false ∧ t.cur.regs = s.cur.regs ∧
      ((∀ x ∈ s.others, x.id.launch = s.cur.id.launch → x.id.team = s.cur.id.team → x.live = false) →
        s.teamEngines s.cur.id.launch s.cur.id.team = false →
        ∀ m, s.team? s.cur.id.launch s.cur.id.team = some m →
          (t.team? s.cur.id.launch s.cur.id.team).map (fun x => x.st) = some .retired ∧
          (m.st ≠ .retired → (t.team? s.cur.id.launch s.cur.id.team).map (fun x => (x.tokens, x.stash)) = some ([], []))))

/-- R203, R207, R211 to R222, R262, R264: COPY, COPYM, RECFL, DJOB, DPROG and TASK at issue. The record of a copy read at issue (log entry 20), the first two checks of DPROG answered at issue (20, 23) and a chain closed from the issue of its ending task on (issueChain, 23) are DEDUCED. -/
def Obligations.EngineWordsQueueTheirOperation : Prop :=
  (∀ (s : State) (sp : Bool) (d a b : Reg), s.issuesLong sp → s.fits d 1 →
     let room : Prop := s.streamerCount s.curCore < 32
     (s.fits a 2 → s.fits b 8 →
       let w := s.cur.words b 8
       let h := (s.cur.p a).toNat
       let good : Prop := h % 64 = 0 ∧ h < 2 ^ 48
       let mask := (s.cur.wAt b 1).toNat / 256 % 16
       let turn : Prop := s.flushing s.curCore h = false ∧ s.forked s.cur.id s.nextId = true
       (∀ (multi : Bool) (i : Instr), i = (if multi then Instr.copym sp d a b else .copy sp d a b) → s.isProducer = true →
         (multi = true → mask < 2 ^ s.pk.qsize) →
         let ranges (bs : List Byte) : List Range := s.copyRanges s.cur.id multi (some bs) w (if multi then s.skipMask s.cur.id w else 0)
         (¬ room → StallsFor i s 9) ∧
         (room → ¬ good → StartsOp i s d (.copy multi h w none none) .queued []) ∧
         (room → good → s.flushing s.curCore h = true → StallsFor i s 9) ∧
         (room → good → s.flushing s.curCore h = false → s.forked s.cur.id s.nextId = false → StallsFor i s 15) ∧
         (∀ r, room → good → turn → s.roomy 4 → (s.core s.curCore).recEntry (launchVf s.cur.id.launch) h = some r →
           StartsOp i s d (.copy multi h w (some r.bytes) none) .queued (ranges r.bytes)) ∧
         (∀ v e, room → good → turn → s.roomy 4 → (s.core s.curCore).recEntry (launchVf s.cur.id.launch) h = none → s.cleared →
           s.vf? (launchVf s.cur.id.launch) = some v → e.r = true → e.host = false →
           let at_ (i : Nat) : GAddr := s.target v e (h + 64 * i) 3
           (∀ i < 3, s.tlbFind s.curCore v (h + 64 * i) = some e ∧ s.validPa (e.pa + (h + 64 * i - e.va)) = true ∧
             homeOf (at_ i).pa = s.curCore.die) →
           let bs := (List.range 192).map (fun k => s.mem.get ((at_ (k / 64)).pa + k % 64))
           StartsOp i s d (.copy multi h w (some bs) none) .queued (ranges bs)) ∧
         (∀ v e, room → good → turn → (s.core s.curCore).recEntry (launchVf s.cur.id.launch) h = none → s.vf? (launchVf s.cur.id.launch) = some v →
           s.tlbFind s.curCore v h = some e → e.r = false →
           StartsOp i s d (.copy multi h w none none) .done []
             (BitVec.ofNat 32 (0x55 + 256 * 1 + 65536 * (if multi then s.skipMask s.cur.id w else 0))))) ∧
       (s.isProducer = true → 2 ^ s.pk.qsize ≤ mask → exec (.copym sp d a b) s = .next (s.raise 0x0A mask 0))) ∧
     (s.fits a 2 →
       (s.isProducer = true → room → StartsOp (.recfl sp d a) s d (.recfl (s.cur.p a).toNat) .queued []) ∧
       (s.isProducer = true → ¬ room → StallsFor (.recfl sp d a) s 9)) ∧
     (s.isProducer = false → s.fits a 2 →
       exec (.recfl sp d a) s = .next (s.raise 0x09 2 0) ∧ exec (.djob sp d a) s = .next (s.raise 0x09 5 0) ∧
       (s.fits b 8 → exec (.copy sp d a b) s = .next (s.raise 0x09 0 0) ∧ exec (.copym sp d a b) s = .next (s.raise 0x09 1 0)))) ∧
  (∀ (s : State) (sp : Bool) (d a b : Reg), s.issuesLong sp → s.fits d 1 →
     (s.fits a 2 → s.isProducer = true → 64 ≤ s.skiverCount s.curCore.die → StallsFor (.djob sp d a) s 9) ∧
     (s.fits a 2 → s.isProducer = true → s.skiverCount s.curCore.die < 64 →
       let va := (s.cur.p a).toNat
       ((va % 64 ≠ 0 ∨ 2 ^ 48 ≤ va) → AnswersWith (.djob sp d a) s d [codeWord 0x61 1] (fun t => t.mem = s.mem)) ∧
       (∀ v e, va % 64 = 0 → va < 2 ^ 48 → s.vf? (launchVf s.cur.id.launch) = some v → v.watched va 64 false = none →
         s.tlbFind s.curCore v va = some e →
         ((e.r = false ∨ e.w = false) → AnswersWith (.djob sp d a) s d [codeWord 0x61 2] (fun t => t.mem = s.mem)) ∧
         (e.r = true → e.w = true → e.host = false → s.validPa (e.pa + (va - e.va)) = true →
           let g := s.target v e va 3
           s.unordered g.pa 64 = false → s.cleared → g.repl = false → homeOf g.pa = s.curCore.die →
           g.pa % 64 = 0 → s.roomy 3 →
           let bs := (List.range 64).map (fun k => s.mem.get (g.pa + k))
           let j := jobCard va bs
           let code := cardCode s.pk.carveBytes bs j
           (code = 0 → StartsOp (.djob sp d a) s d (.djob j ⟨0, 0, 0, 0, 0⟩ none) .queued (jobRanges s.cur.id.team j)) ∧
           (code ≠ 0 → StartsOp (.djob sp d a) s d (.djob j ⟨0, 0, 0, 0, 0⟩ (some (0, code))) .running [])))) ∧
     (s.fits a 1 → s.fits b 1 →
       let off := (s.cur.w a).toNat
       let slot := (s.cur.w b).toNat
       let ok : Prop := off % 16 = 0 ∧ off + 80 ≤ s.pk.carveBytes
       (¬ ok → AnswersWith (.dprog sp d a b) s d [codeWord 0x82 0] (fun t => t.mem = s.mem)) ∧
       (ok → 16 ≤ slot → AnswersWith (.dprog sp d a b) s d [codeWord 0x83 0xFE] (fun t => t.mem = s.mem)) ∧
       (ok → slot < 16 → s.roomy 1 →
         StartsOp (.dprog sp d a b) s d (.dprog off slot none) .queued [⟨s.cur.id.team, off, off + 80, false⟩])) ∧
     (s.fits a 1 →
       let off := (s.cur.w a).toNat
       let answers (code detail : Nat) : Prop := AnswersWith (.task sp d a) s d [codeWord code detail] (fun t => t.mem = s.mem)
       ((off % 64 ≠ 0 ∨ s.pk.carveBytes < off + 64) → answers 0x82 8) ∧
       (∀ v, off % 64 = 0 → off + 64 ≤ s.pk.carveBytes → s.readable off 64 → s.vf? (launchVf s.cur.id.launch) = some v →
         let bs := s.scratchRange off 64
         let r := taskRec bs
         let open? := s.issueChain s.cur.id.launch s.cur.id.team r.chain
         let c := if r.opens then (r.afmt, r.m) else open?.getD (0, 0)
         let prog := if r.drains then s.slotProg s.cur.id.launch s.cur.id.team r.slot else none
         let rs := taskRanges s.pk s.cur.id.team r prog c.1 c.2
         (∀ o, taskBad bs v.feature0 s.pk = some o → answers 0x80 o) ∧
         (taskBad bs v.feature0 s.pk = none →
           (∀ n, chainBad r open? = some n → answers 0x81 n) ∧
           (chainBad r open? = none → (r.drains = true → destBad r c.1 (drainOut c.1 prog) = none) →
             (∀ x ∈ rs, x.2.hi ≤ s.pk.carveBytes) →
             (destBeyond r prog c.1 c.2 = true → answers 0x86 0) ∧
             (destBeyond r prog c.1 c.2 = false → s.roomy 8 →
               (s.cobblerCount s.curCore < 64 →
                 StartsOp (.task sp d a) s d (.task r prog r.opens) .queued (rs.map (fun x => x.2))) ∧
               (64 ≤ s.cobblerCount s.curCore → StallsFor (.task sp d a) s 9)))))))

/-- R172, R200: SMAP makes a mapping of the team, and SUNMAP ends it. -/
def Obligations.StashMappingsComeAndGo : Prop :=
  ∀ (s : State) (sp : Bool) (d a b : Reg) (m : Team), s.issuesLong sp → s.fits d 1 →
    s.team? s.cur.id.launch s.cur.id.team = some m →
    (s.fits a 2 → s.fits b 2 →
      let va := (s.cur.p a).toNat
      let off := (s.cur.wAt b 0).toNat
      let len := (s.cur.wAt b 1).toNat
      let fails (code : Nat) : Prop := AnswersWith (.smap sp d a b) s d [codeWord code 0] (fun t => t.teams = s.teams ∧ t.mem = s.mem)
      let aligned : Prop := va % 128 = 0 ∧ off % 128 = 0 ∧ len % 128 = 0 ∧ len ≠ 0
      let inside : Prop := off + len ≤ s.pk.carveBytes ∧ va + len ≤ 2 ^ 48
      let apart : Prop := ∀ x ∈ m.stash, (off + len ≤ x.off ∨ x.off + x.len ≤ off) ∧ (va + len ≤ x.va ∨ x.va + x.len ≤ va)
      (¬ aligned → fails 0x40) ∧ (aligned → ¬ inside → fails 0x41) ∧ (aligned → inside → ¬ apart → fails 0x42) ∧
      (aligned → inside → apart → 8 ≤ m.stash.length → fails 0x43) ∧
      (aligned → inside → apart → m.stash.length < 8 → AnswersWith (.smap sp d a b) s d [0] (fun t => t.mem = s.mem ∧
        t.team? s.cur.id.launch s.cur.id.team = some { m with stash := m.stash ++ [⟨off, len, va, [], []⟩] }))) ∧
    (s.fits a 1 →
      let off := (s.cur.w a).toNat
      ((∀ x ∈ m.stash, x.off ≠ off) → AnswersWith (.sunmap sp d a) s d [codeWord 0x44 0] (fun t => t.teams = s.teams ∧ t.mem = s.mem)) ∧
      (∀ x ∈ m.stash, x.off = off → (∀ y ∈ m.stash, y.off = off → y = x) →
        AnswersWith (.sunmap sp d a) s d [0] (fun t =>
          (∀ z, t.team? s.cur.id.launch s.cur.id.team = some z → ∀ y ∈ z.stash, y.off ≠ off) ∧
          (x.filled = [] → t.mem = s.mem ∧
            t.team? s.cur.id.launch s.cur.id.team = some { m with stash := m.stash.filter (fun y => y.off != off) }))))

/-- R209, R212 to R214, R219, R262: what RECFL, DPROG and COPY make of their record, their program and their operands. R215 to R219: COPY and COPYM move the elements of their box. -/
def Obligations.EngineOperationsAreCheckedAndCopied : Prop :=
  (∀ (s : State) (e : EngineOp), s.eng? e.no = some e →
     (s.mayBegin e = false → exec (.engineOpBegin e.no) s = .next s) ∧
     (s.mayBegin e = true →
       let ends (status : Word) (p : State → Prop) : Prop :=
         ∃ t, exec (.engineOpBegin e.no) s = .next t ∧ t.mem = s.mem ∧ t.finished e.no status ∧ p t
       let good (h : Nat) : Prop := h % 64 = 0 ∧ h < 2 ^ 48
       (∀ h, e.kind = .recfl h → (¬ good h → ends (codeWord 0x50 0) (fun _ => True)) ∧
         (good h → ends 0 (fun t => ∀ k, (t.core k).recEntry e.vf h = none))) ∧
       (∀ a slot p m, e.kind = .dprog a slot p → s.team? e.t.launch e.t.team = some m → s.sound →
         let b := (List.range 80).map (fun k => m.scratch.get (a + k))
         (∀ i, progBad b = some i → ends (codeWord 0x83 i) (fun _ => True)) ∧
         (progBad b = none → ends 0 (fun t => (t.eng? e.no).map (fun x => x.kind) = some (.dprog a slot (some (drainProg b)))))) ∧
       (∀ multi h w r, e.kind = .copy multi h w r none → ¬ good h →
         ends (codeWord 0x50 0 + BitVec.ofNat 32 (65536 * (if multi then s.skipMask e.t w else 0))) (fun _ => True)) ∧
       (∀ multi h w b, good h → s.records? e multi h w b →
         let fails (code detail : Nat) : Prop := ends (BitVec.ofNat 32 (code + 256 * detail + 65536 * (if multi then s.skipMask e.t w else 0)))
           (fun t => ∀ k, ∀ x ∈ (t.core k).hatch, x.op ≠ e.no)
         (∀ o, recordBad b = some o → fails 0x51 o) ∧
         (∀ i, recordBad b = none → operandBad multi b w = some i → fails 0x52 i) ∧
         (recordBad b = none → operandBad multi b w = none → scratchOk b w (s.packet e.t.launch).carveBytes = false → fails 0x53 0)))) ∧
  ((∀ (b : List Byte) (w : List Word) (i : Nat → Nat), (∀ m < 5, i m < recBox b m) →
     let j := i 0 + recBox b 0 * (i 1 + recBox b 1 * (i 2 + recBox b 2 * (i 3 + recBox b 3 * i 4)))
     let at_ (m : Nat) : Int := blkStart w m + i m * recStep b m
     let inside : Prop := ∀ m < 5, 0 ≤ at_ m ∧ at_ m < recSize b m
     (∀ m < 5, boxCoord b w j m = at_ m) ∧
     (inside → boxGlobal b w j = some (recBase b + ((List.range 5).map (fun m => (at_ m).toNat * recStride b m)).sum)) ∧
     (¬ inside → boxGlobal b w j = none)) ∧
   (∀ (s : State) (e : EngineOp) (multi : Bool) (h : Nat) (w : List Word) (b : List Byte), s.eng? e.no = some e → s.mayBegin e = true →
     e.pos = 0 → h % 64 = 0 → h < 2 ^ 48 → s.records? e multi h w b →
     recordBad b = none → operandBad multi b w = none → scratchOk b w (s.packet e.t.launch).carveBytes = true → s.sound →
     let es := recEs b
     let n := recElems b
     let cap := recCap b
     let sk := if multi then s.skipMask e.t w else 0
     let inward : Prop := multi = true ∨ blkDir w = 0
     let ends (detail code : Nat) : Prop := ∃ t, exec (.engineOpBegin e.no) s = .next t ∧ t.mem = s.mem ∧
       t.finished e.no (BitVec.ofNat 32 (code + 256 * detail + 65536 * sk))
     (∀ a, boxGlobal b w 0 = some a →
       (2 ^ 48 ≤ a → ends 0 0x54) ∧
       (a < 2 ^ 48 → inward → s.denies e a false → ends 1 0x55) ∧
       (a < 2 ^ 48 → ¬ inward → s.denies e (a / 128 * 128) true → ends 2 0x55)) ∧
     (∀ v (x : Nat → TlbEntry), inward →
       let g (j : Nat) : GAddr := s.gaddr v e.t.launch e.t.team (x j) ((boxGlobal b w j).getD 0) cap
       (∀ j < n, ∀ a, boxGlobal b w j = some a → a < 2 ^ 48 ∧ s.permits e a cap false v (x j) ∧ (g j).pa % es = 0) →
       let val (j i : Nat) : Byte := if (boxGlobal b w j).isSome then s.mem.get ((g j).pa + i)
         else BitVec.ofNat 8 ((if recFill b then recFillValue b else 0) / 256 ^ i)
       ∃ t, exec (.engineOpBegin e.no) s = .next t ∧ t.mem = s.mem ∧ t.finished e.no (BitVec.ofNat 32 (65536 * sk)) ∧
         ∀ u ∈ s.copyTargets e.t multi w sk, ∀ m, s.team? e.t.launch u = some m →
           (∀ j < n, ∀ i < es, t.scrByte e.t.launch u (boxScratch b w j + i) = some (val j i)) ∧
           ∀ k, (∀ j < n, ¬ (boxScratch b w j ≤ k ∧ k < boxScratch b w j + es)) → t.scrByte e.t.launch u k = some (m.scratch.get k)) ∧
     (∀ v x line, multi = false → blkDir w = 1 → line < 2 ^ 41 →
       let g := s.gaddr v e.t.launch e.t.team x (line * 128) cap
       s.permits e (line * 128) cap true v x → g.pa % 128 = 0 → (∀ j < n, ∀ a, boxGlobal b w j = some a → a / 128 = line) →
       (∀ j < n, ∀ j' < n, (boxGlobal b w j).isSome → boxGlobal b w j = boxGlobal b w j' → j = j') →
       ∃ t, exec (.engineOpBegin e.no) s = .next t ∧ t.finished e.no 0 ∧
         (∀ j < n, ∀ a, boxGlobal b w j = some a → ∀ i < es,
           some (t.mem.get (g.pa + a % 128 + i)) = s.scrByte e.t.launch e.t.team (boxScratch b w j + i) ∨ s.team? e.t.launch e.t.team = none) ∧
         ∀ k, (∀ j < n, ∀ a, boxGlobal b w j = some a → ¬ (g.pa + a % 128 ≤ k ∧ k < g.pa + a % 128 + es)) →
           t.mem.get k = s.mem.get k)))

/-- R203, R207, R221, R222, R262: a job decodes and stops, its card is written, and an operation that has finished retires. -/
def Obligations.JobsStopAndOperationsRetire : Prop :=
  (∀ (s : State) (e : EngineOp) (j : JobCard) (x : SkiverAt), s.eng? e.no = some e → s.mayBegin e = true → e.kind = .djob j x none →
    s.sound →
    let src (i : Nat) : Option Byte := s.scrByte e.t.launch e.t.team ((j.src + i) % 2 ^ 32)
    let stops (p code : Nat) (q : State → Prop) : Prop := ∃ t y, exec (.engineOpBegin e.no) s = .next t ∧ t.mem = s.mem ∧
      (t.eng? e.no).map (fun z => (z.kind, z.st)) = some (.djob j y (some (p, code)), .running) ∧ q t
    (x.tok = 0 → j.srcLen ≤ x.i → stops x.p 5 (fun _ => True)) ∧
    (x.tok = 0 → x.i < j.srcLen → j.src + x.i < 2 ^ 48 → s.denies e (j.src + x.i) false → stops x.p 6 (fun _ => True)) ∧
    (x.tok = 1 → x.i < j.srcLen → 2 ^ 48 ≤ j.src → x.p ≠ j.cap → j.dst + x.p < 2 ^ 48 → s.denies e ((j.dst + x.p) / 128 * 128) true →
      stops x.p 6 (fun _ => True)) ∧
    (∀ (dict : List Byte) (ts : List (List Byte × Nat × Nat)), x = ⟨0, 0, 0, 0, 0⟩ → 2 ^ 48 ≤ j.src → 2 ^ 48 ≤ j.dst → (s.team? e.t.launch e.t.team).isSome →
      dict.length = j.dictLen → (∀ i < j.dictLen, 2 ^ 48 ≤ j.dict ∧ s.scrByte e.t.launch e.t.team ((j.dict + i) % 2 ^ 32) = dict[i]?) →
      j.cap < 2 ^ 32 →
      (∀ i < j.cap, (∀ k < j.srcLen, (j.src + k) % 2 ^ 32 ≠ (j.dst + i) % 2 ^ 32) ∧ ∀ k < j.dictLen, (j.dict + k) % 2 ^ 32 ≠ (j.dst + i) % 2 ^ 32) →
      (∀ pre y post, ts = pre ++ y :: post → tokenOk dict (streamOut dict pre) y) →
      let out := streamOut dict ts
      let bs := ts.flatMap tokenBytes
      let n := bs.length
      n ≤ j.srcLen → (∀ i < n, src i = bs[i]?) → out.length ≤ j.cap →
      let written (o : List Byte) (t : State) : Prop := ∀ i < o.length, t.scrByte e.t.launch e.t.team ((j.dst + i) % 2 ^ 32) = o[i]?
      (n = j.srcLen → stops out.length 5 (written out)) ∧
      (n < j.srcLen → src n = some 0xFF → stops out.length 0 (written out)) ∧
      (∀ y, n + (tokenBytes y).length ≤ j.srcLen → (∀ i < (tokenBytes y).length, src (n + i) = (tokenBytes y)[i]?) →
        (tokenOk dict out y → j.cap < (tokenOut dict out y).length → stops j.cap 4 (written ((tokenOut dict out y).take j.cap))) ∧
        (y.1 = [] → 3 ≤ y.2.2 → y.2.2 ≤ 129 → y.2.1 < 65536 → (y.2.1 = 0 ∨ out.length + dict.length < y.2.1) →
          stops out.length 3 (written out))) ∧
      (∀ y, tokenOk dict out y → j.srcLen < n + (tokenBytes y).length → (∀ i < j.srcLen - n, src (n + i) = (tokenBytes y)[i]?) →
        let got := out ++ y.1.take (j.srcLen - n - 1)
        got.length ≤ j.cap → stops got.length 5 (written got)))) ∧
  (∀ (carve a : Nat) (b : List Byte), b.length = 64 →
    let num (o n : Nat) : Nat := numberOf ((b.drop o).take n)
    let plain (a n : Nat) : Prop := a + n ≤ 2 ^ 48 ∧ a < 2 ^ 48 ∨ a / 2 ^ 32 = 0x10000000 ∧ a % 2 ^ 32 + n ≤ carve
    let meet (a n a' n' : Nat) : Prop := ∃ i < n, ∃ i' < n', a + i = a' + i'
    let kind : Prop := num 0 1 = 1 ∧ num 1 7 = 0 ∧ num 44 4 = 0 ∧ num 56 8 = 0
    let ranges : Prop := plain (num 8 8) (num 16 4) ∧ plain (num 24 8) (num 20 4) ∧ (num 40 4 ≠ 0 → plain (num 32 8) (num 40 4)) ∧
      ¬ meet (num 24 8) (num 20 4) (num 8 8) (num 16 4) ∧ ¬ meet (num 24 8) (num 20 4) (num 32 8) (num 40 4)
    (¬ kind → cardCode carve b (jobCard a b) = 1) ∧ (kind → ¬ ranges → cardCode carve b (jobCard a b) = 2) ∧
    (kind → ranges → cardCode carve b (jobCard a b) = 0)) ∧
  (∀ (s : State) (e : EngineOp) (j : JobCard) (y : SkiverAt) (p code : Nat) (v : Vf) (x : TlbEntry), s.eng? e.no = some e →
    e.kind = .djob j y (some (p, code)) → e.st = .running → s.forked e.t e.no = true → s.sound → s.permits e (j.card / 128 * 128) 3 true v x →
    let g := s.gaddr v e.t.launch e.t.team x (j.card / 128 * 128) 3
    let a := g.pa + j.card % 128 + 48
    g.pa % 128 = 0 → j.card % 64 = 0 →
    ∃ t, exec (.skiverJobStop e.no) s = .next t ∧ t.finished e.no (if code = 0 then 0 else codeWord 0x60 code) ∧
      ∀ k, t.mem.get k = if a ≤ k ∧ k < a + 4 then BitVec.ofNat 8 (p / 256 ^ (k - a))
        else if a + 4 ≤ k ∧ k < a + 8 then BitVec.ofNat 8 (code / 256 ^ (k - (a + 4))) else s.mem.get k) ∧
  (∀ (s : State) (e : EngineOp), s.eng? e.no = some e →
    ((e.st ≠ .done ∨ s.writesOut e = true) → exec (.engineRetire e.no) s = .next s) ∧
    (e.st = .done → s.writesOut e = false → ∃ t, exec (.engineRetire e.no) s = .next t ∧ t.engines.map (fun x => x.no) = (s.engines.map (fun x => x.no)).filter (fun n => n != e.no) ∧
      t.replies = s.replies ++ [⟨e.req, e.t, [e.status], false, 0⟩] ∧ (∀ k, ∀ h ∈ (t.core k).hatch, h.op ≠ e.no) ∧
      (∀ a slot q, e.kind = .dprog a slot (some q) → s.teamDone e.t.launch e.t.team = false →
        t.slotProg e.t.launch e.t.team slot = some q)))

/-- R243 to R263, R315: the Cobbler places a task that is ready, or ends it; what the products and the drains compute; add-on stores, and the ticket unit that holds their tiles under DET. That a task timed out for want of a slot ends with code 0x84, ENDED clear and detail 0 is log entry 20 (DEDUCED); that CLAMP with a NaN constant gives the canonical NaN is log entry 23 (DEDUCED); that the held tile is applied from die 0 is log entry 13 (DEDUCED). -/
def Obligations.TasksRunOnTheirChain : Prop :=
  (∀ (s : State) (e : EngineOp) (r : TaskRec) (prog : Option DrainProg) (opens : Bool), s.eng? e.no = some e →
     e.kind = .task r prog opens → e.st = .queued →
     let l := e.t.launch
     let t := e.t.team
     let status (w : Word) : Word := (e.status &&& 0x40000) ||| w
     (s.taskReady e r = false → exec (.cobblerDispatch e.no) s = .next s) ∧
     (s.taskReady e r = true → opens = false → s.chain? l t r.chain = none →
       ∃ u, exec (.cobblerDispatch e.no) s = .next u ∧ u.mem = s.mem ∧ u.finished e.no (status (codeWord 0x81 2))) ∧
     (∀ g slot, s.taskReady e r = true → s.taskTarget e r opens = some (g, slot) → s.graverFree e g = true → r.drains = false → s.sound →
       let key := s.weightKey e r
       let hit := r.kind = 0 ∧ ∃ x ∈ (s.core g).weights, x.key = key
       let scratch := ((s.team? l t).map (fun x => x.scratch)).getD []
       ∀ c0, (opens = true → c0 = Chain.zero ⟨l, t, r.chain, r.afmt, r.m, none, false, [], g, slot⟩) →
         (opens = false → s.chain? l t r.chain = some c0) →
         let c := if r.kind = 2 then c0.zero else if r.afmt = 0 then mmaN8 c0 r scratch else mmaFp c0 r (s.packet l).nbv scratch
         (r.kind = 0 ∨ r.kind = 2) →
         ∃ u, exec (.cobblerDispatch e.no) s = .next u ∧ u.mem = s.mem ∧ u.chain? l t r.chain = some c ∧
           (∃ b : Word, (b = 0x40000 ↔ hit) ∧ (b = 0 ↔ ¬ hit) ∧ u.finished e.no (b ||| (if c.sat then 0x10000 else 0)))) ∧
     ((opens = true ∧ s.taskReady e r = true ∧ s.taskTarget e r opens = none ∧ 1 ≤ e.since ∧ e.since + 65535 ≤ s.cycle) →
       ∃ u, exec (.eslotTimeout e.no) s = .next u ∧ u.mem = s.mem ∧ u.finished e.no (status (codeWord 0x84 0))) ∧
     ((opens = false ∨ e.since = 0 ∨ s.cycle < e.since + 65535 ∨ (s.taskTarget e r opens).isSome = true) → exec (.eslotTimeout e.no) s = .next s)) ∧
  (let wide (t : Tile) : Nat := if t.f64 then 8 else 4
   let fmt (t : Tile) : Fmt := if t.f64 then f64 else f32
   let sum (t : Tile) (m : Memory) (k : Nat) : Byte :=
     match t.elems.find? (fun x => decide (x.1.pa ≤ k ∧ k < x.1.pa + wide t)) with
     | none => m.get k
     | some x => BitVec.ofNat 8 (((fmt t).add 0 (numberOf ((List.range (wide t)).map (fun i => m.get (x.1.pa + i)))) x.2).bits /
         256 ^ (k - x.1.pa))
   let placed (t : Tile) (d : Nat) : Prop := (∀ x ∈ t.elems, homeOf x.1.pa = d ∧ x.1.pa % wide t = 0) ∧ (t.elems.map (fun x => x.1.pa)).Nodup
   (∀ (s : State) (e : EngineOp) (t : Tile), s.eng? e.no = some e → e.st = .addst → e.tile = some t → s.sound →
     let adds : Prop := ∃ u, exec (.addOnStorePerform e.no) s = .next u ∧ u.finished e.no e.status ∧ ∀ k, u.mem.get k = sum t s.mem k
     ((s.packet e.t.launch).det = false → placed t e.core.die → adds) ∧
     (∀ l, (s.packet e.t.launch).det = true → s.launch? e.t.launch = some l →
       ((∀ x ∈ s.teams, x.launch = e.t.launch → x.idx < e.t.team → x.st = .retired) → (∀ y ∈ l.held, e.t.team < y.team) →
         placed t 0 → adds) ∧
       ((∃ x ∈ s.teams, x.launch = e.t.launch ∧ x.idx < e.t.team ∧ x.st ≠ .retired) →
         (s.ticketFull = true → exec (.addOnStorePerform e.no) s = .next s) ∧
         (s.ticketFull = false →
           ∃ u, exec (.addOnStorePerform e.no) s = .next u ∧ u.mem = s.mem ∧ u.finished e.no e.status ∧
             (u.launch? e.t.launch).map (fun x => x.held) = some (l.held ++ [t]))))) ∧
   (∀ (s : State) (l : Launch) (t : Tile), s.launch? l.id = some l → l.held = [t] → s.sound →
     ((∃ x ∈ s.teams, x.launch = l.id ∧ x.idx < t.team ∧ x.st ≠ .retired) → exec (.ticketTileApply l.id) s = .next s) ∧
     ((∀ x ∈ s.teams, x.launch = l.id → x.idx < t.team → x.st = .retired) → placed t 0 →
       ∃ u, exec (.ticketTileApply l.id) s = .next u ∧ (u.launch? l.id).map (fun x => x.held) = some [] ∧
         ∀ k, u.mem.get k = sum t s.mem k))) ∧
  ((∀ (m : Memory) (off k p : Nat), 2 ≤ p → p ≤ 8 →
     let bit (q : Nat) : Int := if (m.get (off + 16 * q + k / 8)).getLsbD (k % 8) then 1 else 0
     let x := -128 * bit 0 + 64 * bit 1 + 32 * bit 2 + 16 * bit 3 + 8 * bit 4 + 4 * bit 5 + 2 * bit 6 + bit 7
     n8Elem m off k p = x / 2 ^ (8 - p) * 2 ^ (8 - p)) ∧
   (∀ (c : Chain) (r : TaskRec) (m : Memory), 1 ≤ r.m →
     let a (i k : Nat) : Int := n8Elem m (r.aoff + i * r.apitch) k r.aplanes
     let b (n k : Nat) : Int := n8Elem m (r.boff + n * r.bpitch) k r.bplanes
     let scale (i n j : Nat) : Int := (m.get (r.ascale + 4 * i + j)).toInt + (m.get (r.bscale + 4 * n + j)).toInt
     let u := mmaN8 c r m
     ∃ e emax : Int, u.e = some e ∧ (∃ i < r.m, ∃ n < 128, ∃ j < 4, emax = scale i n j) ∧
       (∀ i < r.m, ∀ n < 128, ∀ j < 4, scale i n j ≤ emax) ∧ (c.e = none → e = emax) ∧ (∀ e0, c.e = some e0 → e = max e0 emax) ∧
       let exact (i n : Nat) : Int := c.acc.getD (i * 128 + n) 0 / 2 ^ (e - c.e.getD e).toNat +
         ((List.range 128).map (fun k => a i k * b n k / 2 ^ (e - scale i n (k / 32)).toNat)).sum
       u.acc.length = r.m * 128 ∧
       (∀ i < r.m, ∀ n < 128, u.acc[i * 128 + n]? = some (max (-2 ^ 63) (min (2 ^ 63 - 1) (exact i n)))) ∧
       (u.sat = true ↔ c.sat = true ∨ ∃ i < r.m, ∃ n < 128, ¬ (-2 ^ 63 ≤ exact i n ∧ exact i n ≤ 2 ^ 63 - 1))) ∧
   (∀ (c : Chain) (r : TaskRec) (m : Memory) (nbv : Nat), (nbv = 1 ∨ nbv = 2) →
     ∀ x ∈ [(1, 64, 32, 2, 16, bf16, f32), (2, 64, 32, 2, 16, f16, f32), (3, 32, 16, 4, 4, f32, f32), (4, 16, 8, 8, 2, f64, f64)],
     r.afmt = x.1 →
     let (_, kk, nn, es, g2, f, g) := x
     let runs := g2 / (if nbv = 1 then 2 else 1)
     let bits (base k : Nat) : Nat := numberOf ((List.range es).map (fun y => m.get (base + k * es + y)))
     let a (i k : Nat) : Nat := bits (r.aoff + i * r.apitch) k
     let b (n k : Nat) : Nat := bits (r.boff + n * r.bpitch) k
     let u := mmaFp c r nbv m
     u.acc.length = r.m * nn ∧ u.sat = c.sat ∧ u.e = c.e ∧
     ∀ i < r.m, ∀ n < nn, ∃ part : Nat → Nat, part 0 = (c.acc.getD (i * nn + n) 0).toNat ∧
       u.acc[i * nn + n]? = some (part (kk / runs) : Int) ∧
       ∀ z < kk / runs, AddsRun f g runs (fun k => r.strict = true ∨ ¬ (f.exOf (b n (z * runs + k)) = 0 ∧ f.frOf (b n (z * runs + k)) = 0))
         (fun k => a i (z * runs + k)) (fun k => b n (z * runs + k)) (part z) (part (z + 1)))) ∧
  ((∀ (b : List Byte), b.length = 80 →
     let half (i : Nat) : Nat := numberOf ((b.drop (64 + 2 * i)).take 2)
     let p := drainProg b
     (∀ i < 16, p.consts[i]? = some (BitVec.ofNat 32 (numberOf ((b.drop (4 * i)).take 4)))) ∧ p.steps.length ≤ 8 ∧
     (∀ i < p.steps.length, p.steps[i]? = some (BitVec.ofNat 16 (half i)) ∧ half i / 4096 ≠ 0) ∧
     (p.steps.length < 8 → half p.steps.length / 4096 = 0)) ∧
   (∀ (c : Chain) (i : Nat), (c.fmt ≠ 0 → c.start i = (c.acc.getD i 0).toNat) ∧
     (c.fmt = 0 → (c.acc.getD i 0 = 0 → c.start i = 0) ∧
       (c.acc.getD i 0 ≠ 0 → ∃ fl, Rounds f32 0 ((c.acc.getD i 0 : ℝ) * (2 : ℝ) ^ (c.e.getD 0)) ⟨c.start i, fl⟩))) ∧
   (∀ (c : Chain) (r : TaskRec) (p : DrainProg) (m : Memory) (i n : Nat),
     let word (a : Nat) : Nat := numberOf ((List.range 4).map (fun k => m.get (a + k)))
     let nn := tileN c.fmt
     ∃ x : Nat → Nat, x 0 = c.start (i * nn + n) ∧ drainElem c r p m i n = x p.steps.length ∧ ∀ z < p.steps.length, ∀ st, p.steps[z]? = some st →
       x (z + 1) = drainStep (accFmt c.fmt) c.fmt p (fun v => word (r.voff + 4 * (v * nn + n))) (word (r.roff + 4 * (i * nn + n))) st (x z)) ∧
   (∀ (fmt : Nat) (p : DrainProg) (vec : Nat → Nat) (res x op a b c : Nat), op < 16 → a < 16 → b < 16 → c < 16 →
     let f : Fmt := if fmt = 4 then f64 else f32
     let wide (w : Nat) : Nat := if fmt = 4 then (convert f32 f64 0 w).bits else w
     let con (i : Nat) : Nat := wide (p.consts.getD i 0).toNat
     let y := drainStep f fmt p vec res (BitVec.ofNat 16 (4096 * op + 256 * c + 16 * b + a)) x
     (op = 1 → y = (f.mul 0 x (wide (vec a))).bits) ∧ (op = 2 → y = (f.add 0 x (wide (vec a))).bits) ∧
     (op = 3 → (f.isNaN x ∨ ¬ f.minus x → y = x) ∧ (¬ f.isNaN x → f.minus x → y = 0)) ∧
     (op = 4 → let below : Prop := ¬ f.isNaN x ∧ f.minus x ∧ ¬ f.holds x 0
       (below → y = (f.mul 0 x (con a)).bits) ∧ (¬ below → y = x)) ∧
     (op = 5 → (f.isNaN x → y = x) ∧ (¬ f.isNaN x → (f.isNaN (con a) ∨ f.isNaN (con b)) → GivesNaN f False ⟨y, 0⟩) ∧
       (¬ f.isNaN x → ¬ f.isNaN (con a) → ¬ f.isNaN (con b) → y = (f.minMax false (f.minMax true x (con a)).bits (con b)).bits)) ∧
     (op = 6 → y = (f.add 0 x (wide res)).bits) ∧
     (op = 7 → (a = 0 → y = x) ∧ (a = 1 → y = (convert f bf16 0 x).bits) ∧ (a = 2 → y = (convert f f16 0 x).bits) ∧
       (∀ e : Int, a = 3 → 2 ≤ b → b ≤ 8 → -128 ≤ e → e ≤ 127 → f32.holds (p.consts.getD c 0).toNat e →
         ∃ v : Int, (f.isNaN x → v = 0) ∧ (f.isInf x → v = if x / 2 ^ (f.ew + f.fw) % 2 = 1 then -128 else 127) ∧
           (∀ w, f.holds x w → ∃ n, Integral 0 (w / (2 : ℝ) ^ e) n ∧ v = max (-128) (min 127 n)) ∧
           y < 256 ∧ (BitVec.ofNat 8 y).toInt = v / 2 ^ (8 - b) * 2 ^ (8 - b))) ∧
     (op = 8 ∨ op = 9 → y = x)) ∧
   (∀ (fmt : Nat) (p : DrainProg), let es := if fmt = 4 then 8 else 4
     ((∀ x ∈ p.steps, x.toNat / 4096 ≠ 7) → drainOut fmt (some p) = (0, es)) ∧
     (∀ pre x post, p.steps = pre ++ x :: post → (∀ y ∈ pre, y.toNat / 4096 ≠ 7) → x.toNat / 4096 = 7 →
       drainOut fmt (some p) = if x.toNat % 16 = 0 then (0, es) else if x.toNat % 16 = 3 then (x.toNat / 16 % 16, 0) else (0, 2))) ∧
   (∀ (s : State) (e : EngineOp) (r : TaskRec) (prog : Option DrainProg) (opens : Bool) (g : CoreId) (slot : Nat) (c0 : Chain),
     s.eng? e.no = some e → e.kind = .task r prog opens → s.taskReady e r = true → s.taskTarget e r opens = some (g, slot) →
     s.graverFree e g = true → r.drains = true → s.sound →
     let l := e.t.launch
     let t := e.t.team
     let pk := s.packet l
     let scratch : Memory := ((s.team? l t).map (fun x => x.scratch)).getD []
     (if opens then c0 = Chain.zero ⟨l, t, r.chain, r.afmt, r.m, none, false, [], g, slot⟩ else s.chain? l t r.chain = some c0) →
     let c := if r.kind = 1 then c0 else if r.afmt = 0 then mmaN8 c0 r scratch else mmaFp c0 r pk.nbv scratch
     let hit := r.kind = 0 ∧ ∃ x ∈ (s.core g).weights, x.key = s.weightKey e r
     let ends (code detail : Nat) (q : State → Prop) : Prop := ∃ (u : State) (b : Word), exec (.cobblerDispatch e.no) s = .next u ∧
       (b = 0x40000 ↔ hit) ∧ (b = 0 ↔ ¬ hit) ∧
       u.finished e.no (b ||| BitVec.ofNat 32 (code + 256 * detail + 0x20000 + (if c.sat then 0x10000 else 0))) ∧
       u.chain? l t r.chain = none ∧ q u
     let quiet (u : State) : Prop := u.mem = s.mem ∧ ∀ n k, u.scrByte l n k = s.scrByte l n k
     (prog = none → ends 0x83 0xFF quiet) ∧
     (∀ p, prog = some p →
       let o := drainOut c.fmt prog
       let elem (i j : Nat) : Nat := drainElem c r p scratch i j
       let within (k : Nat) : Prop := ∃ i < c.m, i * r.dpitch ≤ k ∧ k < i * r.dpitch + outRow c.fmt o
       let stores : Prop := (∃ x ∈ p.steps, x.toNat / 4096 = 8) ∧ ∀ x ∈ p.steps, x.toNat / 4096 ≠ 9
       let adds : Prop := (∃ x ∈ p.steps, x.toNat / 4096 = 9) ∧ (∀ x ∈ p.steps, x.toNat / 4096 ≠ 8) ∧ o = (0, if c.fmt = 4 then 8 else 4)
       outRow c.fmt o = (if o.1 = 0 then tileN c.fmt * o.2 else o.1 * (tileN c.fmt / 8)) ∧
       ((∀ x ∈ p.steps, x.toNat / 4096 ≠ 8 ∧ x.toNat / 4096 ≠ 9) → ends 0 0 quiet) ∧
       (outRow c.fmt o ≤ r.dpitch →
         (∀ n off m, drainsTo pk t r n off → s.team? l n = some m →
           let kept (u : State) : Prop := u.mem = s.mem ∧ ∀ k, (k < off ∨ ¬ within (k - off)) → u.scrByte l n k = some (m.scratch.get k)
           let apart : Prop := ∀ m' : Memory, (∀ k, (k < off ∨ ¬ within (k - off)) → m'.get k = scratch.get k) →
             ∀ i < c.m, ∀ j < tileN c.fmt, drainElem c r p m' i j = elem i j
           (stores → (n ≠ t ∨ apart) → ends 0 0 (fun u => kept u ∧ LaidOut c r o elem (fun k => u.scrByte l n (off + k)))) ∧
           (stores → n = t → o.1 = 0 → ends 0 0 (fun u => kept u ∧
             let nn := tileN c.fmt
             ∃ after : Nat → Memory, after 0 = m.scratch ∧ (∀ k, u.scrByte l n k = some ((after (c.m * nn)).get k)) ∧
               ∀ z < c.m * nn, ∀ k, let a := off + z / nn * r.dpitch + z % nn * o.2
                 (after (z + 1)).get k = if a ≤ k ∧ k < a + o.2 then BitVec.ofNat 8 (drainElem c r p (after z) (z / nn) (z % nn) / 256 ^ (k - a))
                   else (after z).get k)) ∧
           (adds → ends 0 0 (fun u => kept u ∧
             let old (i j : Nat) : Nat := numberOf ((List.range o.2).map (fun k => m.scratch.get (off + i * r.dpitch + j * o.2 + k)))
             LaidOut c r o (fun i j => ((accFmt c.fmt).add 0 (old i j) (elem i j)).bits) (fun k => u.scrByte l n (off + k))))) ∧
         (r.dest < 2 ^ 48 → stores → 1 ≤ c.m →
           (s.denies e r.dest true → ends 0x85 1 quiet) ∧
           (∀ v x, (∀ a, a / 128 = r.dest / 128 → s.permits e a 3 true v x) →
             let base := (s.gaddr v l t x (r.dest / 128 * 128) 3).pa
             base % 128 = 0 → r.dest % 128 + (c.m - 1) * r.dpitch + outRow c.fmt o ≤ 128 →
             ends 0 0 (fun u => LaidOut c r o elem (fun k => some (u.mem.get (base + r.dest % 128 + k))) ∧
               ∀ k, (k < base + r.dest % 128 ∨ ¬ within (k - (base + r.dest % 128))) → u.mem.get k = s.mem.get k)))))))

/-- R102 to R111: the overlay words ask for segments and tokens, and the Lacer decides, loads, refuses or times out. The detail 0 of ESEG, EROOM and ETOKEN is log entry 20, and the page base in the TRAPADDR of a settle that ends with PROT log entry 21 (DEDUCED). -/
def Obligations.OverlaysAreAskedForAndLoaded : Prop :=
  (∀ (s : State) (sp : Bool) (d a : Reg) (m : Team), s.fits a 1 → s.team? s.cur.id.launch s.cur.id.team = some m →
     let l := s.cur.id.launch
     let tm := s.cur.id.team
     let seg := s.segNamed a
     let k := s.curCore
     (s.issuesLong sp → s.fits d 1 → s.segLen l seg = none →
       ∀ i ∈ [Instr.ovld sp d a, .ovtok sp d a, .ovq sp d a], AnswersWith i s d [codeWord 0x30 0] (fun t => t.mem = s.mem ∧ t.teams = s.teams)) ∧
     (∀ len, s.issuesLong sp → s.fits d 1 → s.segLen l seg = some len →
       let more : Prop := if m.tokensOn seg = 0 then m.tokens.length < 16 else m.tokensOn seg < 255
       let took (t : State) : Prop := ∃ z, t.team? l tm = some z ∧ z.tokensOn seg = m.tokensOn seg + 1 ∧ z.scratch = m.scratch
       (s.stateOf seg = .resident →
         AnswersWith (.ovld sp d a) s d [overlayWord 0 1 len] (fun t => t.mem = s.mem ∧ t.teams = s.teams) ∧
         (more → AnswersWith (.ovtok sp d a) s d [overlayWord 0 1 len] (fun t => t.mem = s.mem ∧ took t))) ∧
       (¬ more → AnswersWith (.ovtok sp d a) s d [overlayWord 0x33 0 len] (fun t => t.mem = s.mem ∧ t.teams = s.teams)) ∧
       (s.stateOf seg = .loading →
         let waiting (tok : Bool) (t : State) (n : Nat) : Prop :=
           (t.core k).lacerW = (s.core k).lacerW ++ [⟨n, l, tm, launchVf l, s.coidOf l, seg, tok, 2⟩]
         WaitsForSegment (.ovld sp d a) s d (waiting false) ∧
         (more → WaitsForSegment (.ovtok sp d a) s d (fun t n => waiting true t n ∧ took t))) ∧
       (s.stateOf seg = .absent →
         let asked (tok : Bool) (t : State) (n : Nat) : Prop :=
           (t.core k).lacerQ = (s.core k).lacerQ ++ [⟨l, tm, launchVf l, s.coidOf l, seg, s.cur.id, n, tok, s.cycle⟩]
         WaitsForSegment (.ovld sp d a) s d (asked false) ∧
         (more → WaitsForSegment (.ovtok sp d a) s d (fun t n => asked true t n ∧ took t))) ∧
       (let st := if s.stateOf seg = .absent then 0 else if s.stateOf seg = .loading then 1 else 2
        let pin := if ∃ e, (s.core k).segEntry (launchVf l) (s.coidOf l) seg = some e ∧ e.pins ≠ [] then 4 else 0
        let held := if 0 < m.tokensOn seg then 8 else 0
        AnswersWith (.ovq sp d a) s d [overlayWord 0 (st + pin + held) len] (fun t => t.mem = s.mem ∧ t.teams = s.teams))) ∧
     (s.issues sp → ∃ t z, exec (.ovrel sp a) s = .next t ∧ Moved s s.cur t.cur ∧ Kept s t ∧ t.cur.regs = s.cur.regs ∧ t.mem = s.mem ∧
       t.team? l tm = some z ∧ z.scratch = m.scratch ∧ ∀ g, (m.tokens.map (fun x => x.1)).Nodup →
         z.tokensOn g = if g = seg then m.tokensOn g - 1 else m.tokensOn g)) ∧
  ((∀ (s : State) (k : CoreId) (r : LacerReq) (rs : List LacerReq), (s.core k).lacerQ = r :: rs → s.wanted k r = true →
     (s.threads.map (fun t => t.id)).Nodup →
     let len := (s.segLen r.launch r.seg).getD 0
     let need := (len + 4095) / 4096
     let runs (p : State → Prop) : Prop := ∃ t, exec (.lacerLoadDecision k) s = .next t ∧ t.mem = s.mem ∧ t.cycle = s.cycle ∧ p t
     (s.segState k r.vf r.coid r.seg = .resident → r.req = 0 → runs (fun t => (t.core k).lacerQ.length = rs.length ∧
       ∀ id x, r.token = false → s.thread? id = some x → s.settlesOn x k r.vf r.coid r.seg = true →
         ∃ u, t.thread? id = some u ∧ (u.phase = .ready ∨ u.phase = .held) ∧ u.pc = x.pc ∧ u.regs = x.regs)) ∧
     (s.segState k r.vf r.coid r.seg = .absent → s.canLoad k r = true → runs (fun t => (t.core k).lacerQ.length = rs.length ∧
       ∃ e ∈ (t.core k).segs, e.st = .loading ∧ e.vf = r.vf ∧ e.coid = r.coid ∧ e.seg = r.seg ∧ e.owner = (s.loadOwner k r).1 ∧
         (s.framesFit k r.vf need 0 = true → e.frames = (s.core k).freeFrames.take need))) ∧
     (s.segState k r.vf r.coid r.seg = .absent → s.canLoad k r = false → r.req = 0 → exec (.lacerLoadDecision k) s = .next s) ∧
     (s.segState k r.vf r.coid r.seg = .absent → s.canLoad k r = false → r.req ≠ 0 → runs (fun t =>
       ∃ y ∈ t.replies, y.req = r.req ∧ y.val = [overlayWord 0x31 0 len])) ∧
     (s.segState k r.vf r.coid r.seg = .absent → s.canLoad k r = false → r.req = 0 → r.since + 65536 ≤ s.cycle →
       ∃ t, exec (.ovfullTimeout k) s = .next t ∧ t.mem = s.mem ∧
         ∀ id x, s.thread? id = some x → s.settlesOn x k r.vf r.coid r.seg = true → x.inHandler = false →
           ∃ u, t.thread? id = some u ∧ u.phase = .faulted ∧ u.trapcode = 0x0C ∧ u.trappc = x.pc ∧ u.resume = x.pc ∧ u.trapaddr = 0 ∧
             u.trapinfo = BitVec.ofNat 32 (r.seg + 65536 * (need % 32) + 2 ^ 21 * (s.avail k r.vf % 64)))) ∧
   (∀ (s : State) (k : CoreId) (n : Nat) (e : SegEntry) (v : Vf) (x : TlbEntry), (s.core k).segs[n]? = some e →
     e.st = .loading → e.frec = none → s.sound →
     (s.threads.map (fun t => t.id)).Nodup → s.vf? (launchVf e.launch) = some v → 0 < e.len → e.len % 4 = 0 →
     let va := e.va
     let len := e.len
     s.tlbFind k v va = some x → x.host = false → s.validPa (x.pa + (va - x.va)) = true →
     let g := s.gaddr v e.launch 0 x va 3
     (x.x = true → va % 128 + len ≤ 128 → g.pa % 128 = va % 128 → g.repl = false → homeOf g.pa = k.die →
       ∃ t e', exec (.segmentLoadComplete k n) s = .next t ∧ t.mem = s.mem ∧ (t.core k).segs[n]? = some e' ∧ e'.st = .resident ∧
         e'.frames = e.frames ∧ e'.stamp = s.cycle ∧ e'.words.length = len / 4 ∧
         (∀ i < len / 4, e'.words[i]? = some (s.memWord (g.pa + 4 * i))) ∧
         ∀ id y, s.thread? id = some y → s.settlesOn y k e.vf e.coid e.seg = true →
           ∃ u, t.thread? id = some u ∧ (u.phase = .ready ∨ u.phase = .held) ∧ u.pc = y.pc ∧ u.regs = y.regs) ∧
     (x.x = false →
       ∃ t e', exec (.segmentLoadComplete k n) s = .next t ∧ t.mem = s.mem ∧ (t.core k).segs[n]? = some e' ∧ e'.st = .absent ∧ e'.frames = [] ∧
         ∀ id y, s.thread? id = some y → s.settlesOn y k e.vf e.coid e.seg = true → y.inHandler = false →
           ∃ u, t.thread? id = some u ∧ u.phase = .faulted ∧ u.trapcode = 0x08 ∧ u.trapinfo = 4 ∧
             u.trapaddr = BitVec.ofNat 64 (va / 4096 * 4096) ∧ u.trappc = y.pc)))

/-- R225, R226, R230 to R233: the words of a slot, and how a candidate stops. R82, R97, R159, R227, R228, R231: which words are legal in a candidate, and what one that does not stop it leaves in its registers, its
sandbox, its pc and its fuel. -/
def Obligations.StylusWordsActOnTheirSlot : Prop :=
  ((∀ (s : State) (sp : Bool) (d a b : Reg) (x : CandSlot), s.hasSlot x →
     let slot (t : State) : Option CandSlot := t.slot? s.cur.id
     let acts (i : Instr) (y : CandSlot) : Prop := ∃ t, exec i s = .next t ∧ Moved s s.cur t.cur ∧ Kept s t ∧ t.cur.regs = s.cur.regs ∧ t.mem = s.mem ∧ slot t = some y
     (s.issues sp → acts (.sinit sp) { x with h := 0x5A17C3E9, l := 0x0F2D8B41 }) ∧
     (s.issues sp → s.fits a 1 → s.fits b 1 →
       let l := (x.l ^^^ s.cur.w a).rotateLeft 5 + 0x9E3779B9
       acts (.sfold sp a b) { x with h := (x.h + s.cur.w a).rotateLeft 11 ^^^ l ^^^ s.cur.w b, l := l }) ∧
     (s.issuesLong sp → s.fits d 2 → AnswersWith (.sget sp d) s d [x.l, x.h] (fun t => slot t = some x ∧ t.mem = s.mem)) ∧
     (s.issuesLong sp → s.fits d 1 → s.fits a 2 → s.fits b 1 →
       (∃ t n, exec (.cload sp d a b) s = .next t ∧ IssuesEntry s t n d 1) ∧
       ((x.run.isSome = true ∨ x.ops ≠ []) → (∀ req a c got rid, x.ops.head? = some (.load req a c got rid) → x.run.isSome = true) →
         ∃ t n, exec (.cload sp d a b) s = .next t ∧ IssuesEntry s t n d 1 ∧ t.mem = s.mem ∧
           slot t = some { x with ops := x.ops ++ [.load n (s.cur.p a).toNat (s.cur.w b).toNat [] none] }) ∧
       (x.run = none → x.ops = [] → (∀ r ∈ s.requests, crewOf r.t ≠ crewOf s.cur.id) → s.candOn s.cur.id = true →
         let h := (s.cur.p a).toNat
         let c := (s.cur.w b).toNat
         let fails (code detail : Nat) : Prop :=
           AnswersWith (.cload sp d a b) s d [codeWord code detail] (fun t => t.mem = s.mem ∧ slot t = some { x with n := 0 })
         ((h % 64 ≠ 0 ∨ 2 ^ 48 ≤ h) → fails 0x70 1) ∧
         (h % 64 = 0 → h < 2 ^ 48 → ∀ v e, s.vf? (launchVf s.cur.id.launch) = some v → (∀ va, va / 2 ^ 12 = h / 2 ^ 12 → s.tlbFind s.curCore v va = some e) →
           (e.r = false → fails 0x73 1) ∧
           (e.r = true →
             let at_ (va : Nat) : GAddr := s.target v e va 3
             let byte (va : Nat) : Byte := s.mem.get ((at_ (va / 64 * 64)).pa + va % 64)
             let number (va : Nat) : Nat := numberOf ((List.range 4).map (fun k => byte (va + k)))
             let n := (s.mem.get (at_ (h + number (h + 8) + c)).pa).toNat
             let code := h + number (h + 12) + 256 * c
             let plain (va m : Nat) : Prop := s.tlbFind s.curCore v va = some e ∧ e.host = false ∧ s.validPa (e.pa + (va - e.va)) = true ∧
               homeOf (at_ va).pa = s.curCore.die ∧ (at_ va).repl = false ∧ (at_ va).cache = 0 ∧ (at_ va).pa % 128 + m ≤ 128
             let header : Prop := number h = 1 ∧ number (h + 4) ≠ 0 ∧ number (h + 12) % 256 = 0 ∧ ∀ k < 48, byte (h + 16 + k) = 0
             s.cleared → s.pk.checked = false → plain h 64 →
             (¬ header → fails 0x70 2) ∧ (header → number (h + 4) ≤ c → fails 0x71 0) ∧
             (header → c < number (h + 4) → h + number (h + 8) + c < 2 ^ 48 → plain (h + number (h + 8) + c) 1 →
               (64 < n → fails 0x72 0) ∧
               (n ≤ 64 → (∀ i, i < (4 * n + 63) / 64 → code + 64 * i < 2 ^ 48 ∧ plain (code + 64 * i) 64) →
                 let words : List Word := (List.range n).map (fun i => BitVec.ofNat 32 (number (code + 4 * i)))
                 AnswersWith (.cload sp d a b) s d [BitVec.ofNat 32 (65536 * n)] (fun t => t.mem = s.mem ∧
                   slot t = some { x with n := n, buffer := words ++ x.buffer.drop n }))))))) ∧
     (s.issuesLong sp → s.fits d 2 → s.fits a 4 → s.fits b 1 →
       (s.pipeFree s.cur = false → ∃ t, exec (.crun sp d a b) s = .next t ∧ t.cur.phase = .stalled 14 ∧ t.cur.pc = s.cur.pc ∧ t.cur.regs = s.cur.regs) ∧
       (s.pipeFree s.cur = true → x.run = none → x.ops = [] →
         ∃ t n, exec (.crun sp d a b) s = .next t ∧ IssuesEntry s t n d 2 ∧ t.mem = s.mem ∧ slot t = some { x with
           sandbox := List.replicate 64 0
           pipes := x.pipes + 1
           run := some ⟨n, s.cur.words a 4 ++ List.replicate 12 0, 0, (s.cur.w b).toNat, 0⟩ }) ∧
       (s.pipeFree s.cur = true → (x.run.isSome = true ∨ x.ops ≠ []) →
         ∃ t n, exec (.crun sp d a b) s = .next t ∧ IssuesEntry s t n d 2 ∧ t.mem = s.mem ∧
           slot t = some { x with pipes := x.pipes + 1, ops := x.ops ++ [.run n (s.cur.words a 4) (s.cur.w b).toNat] }))) ∧
   (∀ (s : State) (sp : Bool) (d a b : Reg), (s.pk.stylus = false ∨ s.slot? s.cur.id = none) →
     (s.issues sp → exec (.sinit sp) s = .next (s.raise 0x01 7 0)) ∧
     (s.issues sp → s.fits a 1 → s.fits b 1 → exec (.sfold sp a b) s = .next (s.raise 0x01 7 0)) ∧
     (s.issuesLong sp → s.fits d 2 → exec (.sget sp d) s = .next (s.raise 0x01 7 0)) ∧
     (s.issuesLong sp → s.fits d 2 → s.fits a 4 → s.fits b 1 →
       ∀ i ∈ [Instr.cload sp d a b, .crun sp d a b, .proof sp d a b, .proofq sp d a], exec i s = .next (s.raise 0x01 7 0))) ∧
   (∀ (s : State) (id : ThreadId) (x : CandSlot) (r : CandRun), s.slot? id = some x → x.run = some r → s.candOn id = true →
     x.runs ≤ x.pipes → s.flips = [] → s.poison = [] →
     let stops (code q used : Nat) : Prop := ∃ t, exec (.candidateStop id) s = .next t ∧
       (⟨r.req, id, [r.regs.getD 0 0, BitVec.ofNat 32 (code + 256 * q + 65536 * min used 0xFFFF)], false, 0⟩ : Reply) ∈ t.replies
     let word := candDecode (x.buffer.getD r.pc 0) r.regs
     (x.n ≤ r.pc → stops 5 (r.pc - 1) r.used) ∧
     (r.pc < x.n → r.fuel = 0 → stops 1 r.pc r.used) ∧
     (r.pc < x.n → r.fuel ≠ 0 → word = none → stops 2 r.pc r.used) ∧
     (r.pc < x.n → r.fuel ≠ 0 → word = some .divz → stops 3 r.pc (r.used + 1)) ∧
     (∀ d off v, r.pc < x.n → r.fuel ≠ 0 → (word = some (.load d off) ∨ word = some (.store off v)) → 64 ≤ off.toNat → stops 4 r.pc (r.used + 1)) ∧
     (∀ off : Int, r.pc < x.n → r.fuel ≠ 0 → word = some (.goto off) → (r.pc + off < 0 ∨ x.n ≤ r.pc + off) → stops 5 r.pc (r.used + 1)) ∧
     (r.pc < x.n → r.fuel ≠ 0 → word = some .halt → stops 0 r.pc (r.used + 1)) ∧
     (r.pc < x.n → r.fuel ≠ 0 → word = some .nothing → exec (.candidateStop id) s = .next s))) ∧
  ((∀ (w : Word) (regs : List Word),
     candDecode w regs = none ↔ ¬ ∃ i rs, decodeWord w = .ok i ∧ CandidateWord i rs ∧ ∀ q ∈ rs, q.toNat < 16) ∧
   (∀ s : State, s.mgmt.ready = true →
     s.endCycle.slots = s.slots.map (fun x => if s.teamRuns x.owner && decide (x.runs ≤ x.pipes) then x.advance else x)) ∧
   (∀ x : CandSlot, x.run = none → x.advance = x) ∧
   (∀ (x : CandSlot) (r : CandRun), x.run = some r → (x.n ≤ r.pc ∨ r.fuel = 0 ∨ candDecode (x.buffer.getD r.pc 0) r.regs = none) → x.advance = x) ∧
   (∀ (x : CandSlot) (r : CandRun) (i : Instr) (sp : Bool) (d a b : Reg) (k : BitVec 10) (n : BitVec 5) (u : BitVec 18) (off : BitVec 17),
     x.run = some r → r.pc < x.n → r.fuel ≠ 0 → decodeWord (x.buffer.getD r.pc 0) = .ok i → r.regs.length = 16 → x.sandbox.length = 64 →
     d.toNat < 16 → a.toNat < 16 → b.toNat < 16 →
     let p := r.regs.getD a.toNat 0
     let q := r.regs.getD b.toNat 0
     let z := r.regs.getD d.toNat 0
     let goes (regs : List Word) (pc : Nat) (box : List Byte) : Prop := x.advance = { x with
       sandbox := box
       run := some { r with regs := regs, pc := pc, fuel := r.fuel - 1, used := r.used + 1 } }
     let gives (j : Instr) (v : Word) : Prop := i = j → goes (r.regs.set d.toNat v) (r.pc + 1) x.sandbox
     let branches (j : Instr) (c : Prop) : Prop := i = j →
       (¬ c → goes r.regs (r.pc + 1) x.sandbox) ∧
       (c → 0 ≤ r.pc + off.toInt → r.pc + off.toInt < x.n → ∃ t : Nat, (t : Int) = r.pc + off.toInt ∧ goes r.regs t x.sandbox) ∧
       (c → (r.pc + off.toInt < 0 ∨ x.n ≤ r.pc + off.toInt) → x.advance = x)
     let float (v : FRes) : Word := BitVec.ofNat 32 v.bits
     let sign (v : Word) : Word := if f32.isNaN p.toNat then 0x7FC00000 else v
     let word := p.toNat / 4 * 4
     gives (.add sp d a b) (BitVec.ofNat 32 (p.toNat + q.toNat)) ∧ gives (.sub sp d a b) (BitVec.ofInt 32 (p.toNat - q.toNat)) ∧
     gives (.mullo sp d a b) (BitVec.ofNat 32 (p.toNat * q.toNat)) ∧ gives (.and sp d a b) (p &&& q) ∧ gives (.or sp d a b) (p ||| q) ∧
     gives (.xor sp d a b) (p ^^^ q) ∧ gives (.shl sp d a b) (BitVec.ofNat 32 (p.toNat * 2 ^ (q.toNat % 32))) ∧
     gives (.shr sp d a b) (BitVec.ofNat 32 (p.toNat / 2 ^ (q.toNat % 32))) ∧
     gives (.sar sp d a b) (BitVec.ofInt 32 (p.toInt / 2 ^ (q.toNat % 32))) ∧
     gives (.minS32 sp d a b) (if p.toInt ≤ q.toInt then p else q) ∧ gives (.maxS32 sp d a b) (if q.toInt ≤ p.toInt then p else q) ∧
     gives (.sel sp d a b) (if z = 0 then q else p) ∧ gives (.seteq sp d a b) (truth (p = q)) ∧
     gives (.setltS32 sp d a b) (truth (p.toInt < q.toInt)) ∧ gives (.mov sp d a) p ∧
     ((i = .divS32 sp d a b ∨ i = .remS32 sp d a b) → q = 0 → x.advance = x) ∧
     (p = 0x80000000 → q = 0xFFFFFFFF → gives (.divS32 sp d a b) 0x80000000 ∧ gives (.remS32 sp d a b) 0) ∧
     (q ≠ 0 → ¬ (p = 0x80000000 ∧ q = 0xFFFFFFFF) →
       ∃ m e : Int, p.toInt = m * q.toInt + e ∧ e.natAbs < q.toInt.natAbs ∧ (e = 0 ∨ (0 < e ↔ 0 < p.toInt)) ∧
         gives (.divS32 sp d a b) (BitVec.ofInt 32 m) ∧ gives (.remS32 sp d a b) (BitVec.ofInt 32 e)) ∧
     gives (.addi sp d a k) (BitVec.ofInt 32 (p.toNat + k.toInt)) ∧ gives (.andi sp d a k) (p &&& BitVec.ofInt 32 k.toInt) ∧
     gives (.ori sp d a k) (p ||| BitVec.ofInt 32 k.toInt) ∧ gives (.xori sp d a k) (p ^^^ BitVec.ofInt 32 k.toInt) ∧
     gives (.shli sp d a n) (BitVec.ofNat 32 (p.toNat * 2 ^ n.toNat)) ∧ gives (.shri sp d a n) (BitVec.ofNat 32 (p.toNat / 2 ^ n.toNat)) ∧
     gives (.sari sp d a n) (BitVec.ofInt 32 (p.toInt / 2 ^ n.toNat)) ∧ gives (.setltiS32 sp d a k) (truth (p.toInt < k.toInt)) ∧
     gives (.lds sp d u) (BitVec.ofInt 32 u.toInt) ∧
     gives (.fadd sp d a b) (float (f32.add 0 p.toNat q.toNat)) ∧ gives (.fsub sp d a b) (float (f32.sub 0 p.toNat q.toNat)) ∧
     gives (.fmul sp d a b) (float (f32.mul 0 p.toNat q.toNat)) ∧ gives (.fma sp d a b) (float (f32.fma 0 z.toNat p.toNat q.toNat)) ∧
     gives (.fmin sp d a b) (float (f32.minMax false p.toNat q.toNat)) ∧ gives (.fmax sp d a b) (float (f32.minMax true p.toNat q.toNat)) ∧
     gives (.fabs sp d a) (sign (BitVec.ofNat 32 (p.toNat % 2 ^ 31))) ∧ gives (.fneg sp d a) (sign (p ^^^ 0x80000000)) ∧
     gives (.fsetlt sp d a b) (Word.ofBool ((f32.read p.toNat).lt (f32.read q.toNat))) ∧
     branches (.beqz sp a off) (p = 0) ∧ branches (.bnez sp a off) (p ≠ 0) ∧ branches (.bltz sp a off) (p.toInt < 0) ∧
     branches (.bgez sp a off) (0 ≤ p.toInt) ∧ branches (.bra sp off) True ∧
     ((i = .sld32 sp d a ∨ i = .sst32 sp d a) → 64 ≤ p.toNat → x.advance = x) ∧
     (p.toNat < 64 → gives (.sld32 sp d a) (BitVec.ofNat 32 (numberOf ((x.sandbox.drop word).take 4)))) ∧
     (i = .sst32 sp d a → p.toNat < 64 → ∃ box, goes r.regs (r.pc + 1) box ∧ box.length = 64 ∧
       ∀ m < 64, box[m]? = if word ≤ m ∧ m < word + 4 then some (BitVec.ofNat 8 (z.toNat / 256 ^ (m - word))) else x.sandbox[m]?) ∧
     (i = .nop sp → goes r.regs (r.pc + 1) x.sandbox) ∧ (i = .exit sp → x.advance = x)))

/-- R234 to R239: PROOF and PROOFQ are sent to their bucket's home, and are performed there as one access. -/
def Obligations.ProofsAreOfferedAndLookedUp : Prop :=
  (∀ (s : State) (sp : Bool) (d a b : Reg) (x : CandSlot), s.hasSlot x → s.pk.proof = 0 → s.issuesLong sp → s.fits d 2 → s.fits a 2 →
    s.fits b 1 → ∀ i ∈ [Instr.proof sp d a b, .proofq sp d a], exec i s = .next (s.raise 0x01 7 0)) ∧
  (∀ (s : State) (sp : Bool) (d a b : Reg) (x : CandSlot) (v : Vf) (e : TlbEntry), s.hasSlot x → s.pk.proof ≠ 0 → s.issuesLong sp →
    s.fits d 2 → s.fits a 2 → s.fits b 1 →
    let l := s.cur.wAt a 0
    let h := s.cur.wAt a 1
    let va := bucketOf s.pk h l
    let g := s.target v e va 3
    s.cleared →
    (s.grants va 128 .atomic false v e → s.unordered g.pa 128 = false →
      SendsRequest (.proof sp d a b) s d 2 (.proof false { g with checked := false, det := false } va h l (s.cur.w b))) ∧
    (s.grants va 128 .query false v e → s.unordered g.pa 128 = false →
      SendsRequest (.proofq sp d a) s d 2 (.proof true { g with checked := false, det := false } va h l 0))) ∧
  (∀ (s : State) (r : Request) (query : Bool) (g : GAddr) (va : Nat) (h l c : Word), r ∈ s.requests →
    (∀ x ∈ s.requests, x.id = r.id → x = r) → r.kind = .proof query g va h l c → r.tag = [] → homeOf g.pa = r.core.die → r.core.die < 24 →
    g.det = false → g.pa % 128 = 0 → s.sound →
    let tag := r.t.launch % 2 ^ 32
    let b := s.bucket g.pa
    let live := liveEntries b tag
    let gives (code res : Nat) (p : State → Prop) : Prop :=
      ∃ t, exec (if query then .proofqPerform r.id else .proofPerform r.id) s = .next t ∧ (∀ x ∈ t.requests, x.id ≠ r.id) ∧
        t.replies = s.replies ++ [⟨r.id, r.t, [BitVec.ofNat 32 code, BitVec.ofNat 32 res], false, 0⟩] ∧
        (∀ k, ¬ (g.pa ≤ k ∧ k < g.pa + 128) → t.mem.get k = s.mem.get k) ∧ p t
    let first (i : Nat) : Prop := matches_ b tag h l i ∧ ∀ j < i, ¬ matches_ b tag h l j
    let same (t : State) : Prop := t.mem = s.mem
    (∀ i, query = true → first i → gives 1 (proofEntry b i).idx same) ∧
    (query = true → (∀ i, ¬ matches_ b tag h l i) → gives 0 0 same) ∧
    (∀ i, query = false → first i → ((s.packet r.t.launch).verify = true ∨ (proofEntry b i).idx ≤ c.toNat) → gives 1 (proofEntry b i).idx same) ∧
    (∀ i, query = false → first i → (s.packet r.t.launch).verify = false → c.toNat < (proofEntry b i).idx →
      gives 2 (proofEntry b i).idx (fun t => ∀ j < 8, proofEntry (t.bucket g.pa) j =
        if j = i then { proofEntry b j with idx := c.toNat } else proofEntry b j)) ∧
    (query = false → (∀ i, ¬ matches_ b tag h l i) → live.length = 8 → gives 3 0 (fun t => t.mem = s.mem ∧
      ∀ z, s.launch? r.t.launch = some z → z.packet.det = true →
        (t.launch? r.t.launch).map (fun z => z.violations) = some (z.violations ++ [(va, r.t.team, r.t.lin)]))) ∧
    (query = false → (∀ i, ¬ matches_ b tag h l i) → live.length < 8 → gives 0 0 (fun t => ∃ es : List ProofEntry,
      es.Perm (⟨h.toNat, l.toNat, c.toNat, tag⟩ :: live) ∧ es.Pairwise (fun x y => x.key ≤ y.key) ∧
      (∀ i, (hi : i < es.length) → proofEntry (t.bucket g.pa) i = es[i]) ∧
      (∀ i < 8, es.length ≤ i → proofEntry (t.bucket g.pa) i = proofEntry b i))))

/-- R291: LAUNCH appends a packet to a queue of its VF, or answers why it does not. R17, R127, R128, R234, R308, R312: the checks of a packet, in their order. R112 to R115: the checks of its code object, in their order. R126 to R129, R131, R347: a TAIL is advanced, and the packet at HEAD in its turn is accepted, refused, or waited for. That a refused packet's report and signal are written to their addresses as given, also misaligned ones, is log entry 16 (DEDUCED). That the first of several version notes counts, that its payload has exactly 24 bytes, that the directory and the entry table are read once step 6 has passed (DESIGN CHOICE) and that the trap entry of an image not selected is judged at step 1 (DEDUCED) are log entry 34. -/
def Obligations.PacketsAreAppendedAndServed : Prop :=
  (∀ (s : State) (sp : Bool) (d a b : Reg) (v : Vf), s.issuesLong sp → s.fits d 1 → s.fits a 2 → s.fits b 1 → s.released_ 4 →
     s.vf? (launchVf s.cur.id.launch) = some v →
     let q := (s.cur.w b).toNat
     let x := v.queue q
     let va := (s.cur.p a).toNat
     let answers (code detail : Nat) : Prop := AnswersWith (.launch sp d a b) s d [codeWord code detail] (fun t => t.mem = s.mem ∧ t.vfs = s.vfs)
     let able : Prop := q < 16 ∧ 1 ≤ x.logsize ∧ x.logsize ≤ 16
     (¬ able → answers 0x90 0) ∧
     (able → (va % 128 ≠ 0 ∨ 2 ^ 48 ≤ va) → answers 0x92 0) ∧
     (able → va % 128 = 0 → va < 2 ^ 48 → (x.tail - x.head).toNat = 2 ^ x.logsize → answers 0x91 0) ∧
     (able → va % 128 = 0 → va < 2 ^ 48 → (x.tail - x.head).toNat ≠ 2 ^ x.logsize →
       (∀ e, s.tlbFind s.curCore v va = some e → e.r = false → answers 0x93 1) ∧
       (∀ e ds g, s.tlbFind s.curCore v va = some e → s.tlbFind s.curCore v (va + 64) = some e → e.r = true → e.host = false →
         s.validPa (e.pa + (va - e.va)) = true → s.validPa (e.pa + (va + 64 - e.va)) = true → e.va ≤ va →
         let p := s.target v e va 3
         p.checked = false → p.repl = false → p.cache = 0 → homeOf p.pa = s.curCore.die → p.pa % 128 = 0 →
         let slot := x.base + 128 * (x.tail.toNat % 2 ^ x.logsize)
         s.partHolds v s.cur.id.launch slot ds g → slot % 128 = 0 → g.pa % 128 = 0 → v.queues.length = 16 →
         AnswersWith (.launch sp d a b) s d [BitVec.ofNat 32 (x.tail.toNat % 65536 * 65536)] (fun t =>
           PartWrote s t g.pa ((List.range 128).map (fun k => s.mem.get (p.pa + k))) ∧
           ∃ w, t.vf? (launchVf s.cur.id.launch) = some w ∧ (w.queue q).tail = x.tail + 1 ∧ (w.queue q).head = x.head)))) ∧
  (∀ (s : State) (v : Vf) (x : Queue) (b : List Byte), b.length = 128 →
     let refused (st d : Nat) : Prop := s.judgePacket v x b = .refuse st d
     let first : Prop := PacketForm b ∧ PacketExtents b ∧ PacketWork b ∧ PacketNbv b ∧ PacketProof b ∧ PacketFeatures v b ∧ PacketDet b
     (¬ PacketForm b → refused 1 1) ∧ (PacketForm b → ¬ PacketExtents b → refused 1 2) ∧
     (PacketForm b → PacketExtents b → ¬ PacketWork b → refused 1 3) ∧
     (PacketForm b → PacketExtents b → PacketWork b → ¬ PacketNbv b → refused 1 4) ∧
     (PacketForm b → PacketExtents b → PacketWork b → PacketNbv b → ¬ PacketProof b → refused 1 5) ∧
     (PacketForm b → PacketExtents b → PacketWork b → PacketNbv b → PacketProof b → ¬ PacketFeatures v b → refused 1 6) ∧
     (PacketForm b → PacketExtents b → PacketWork b → PacketNbv b → PacketProof b → PacketFeatures v b → ¬ PacketDet b → refused 1 7) ∧
     (first → ¬ PacketMenu b → refused 2 0) ∧ (first → PacketMenu b → ¬ PacketRegs b → refused 3 0) ∧
     (first → PacketMenu b → PacketRegs b →
       (∀ va k, judgeObject x.rd v (packetOf b) = .read va k → s.judgePacket v x b = .read va k) ∧
       (∀ st d, judgeObject x.rd v (packetOf b) = .refuse st d → refused st d) ∧
       (∀ i, judgeObject x.rd v (packetOf b) = .image i →
         (¬ PacketRoom b → refused 4 1) ∧ (PacketRoom b → ¬ PacketSlots b → refused 4 2) ∧
         (PacketRoom b → PacketSlots b → ¬ PacketLease b → refused 4 3) ∧
         (PacketRoom b → PacketSlots b → PacketLease b → ¬ s.PinFrames v i → refused 4 4) ∧
         (PacketRoom b → PacketSlots b → PacketLease b → s.PinFrames v i →
           (packetFlag b 2 → s.gridRoom v (packetOf b) i < packetGrid b → refused 4 5) ∧
           ((packetFlag b 2 → packetGrid b ≤ s.gridRoom v (packetOf b) i) → s.judgePacket v x b = .accept i))))) ∧
  (∀ (rd : Nat → Nat → Option (List Byte)) (v : Vf) (p : Packet),
     let n := packetNum
     let o := p.object
     let wants (va k : Nat) : Prop := judgeObject rd v p = .read va k
     let refused (d : Nat) : Prop := judgeObject rd v p = .refuse 5 d
     (rd o 64 = none → wants o 64) ∧
     ∀ h, rd o 64 = some h →
       let total := n h 16 8
       let count := n h 8 2
       let header : Prop := n h 0 4 = 0x314F435A ∧ n h 4 2 = 1 ∧ 1 ≤ count ∧ count ≤ 16 ∧ n h 10 2 = 64 ∧ n h 12 4 = 0 ∧ 64 ≤ total ∧
         n h 24 4 % 8 = 0 ∧ n h 28 4 % 8 = 0 ∧ n h 24 4 + n h 28 4 ≤ total ∧ n h 32 4 % 32 = 0 ∧ n h 32 4 + 32 * count ≤ total ∧ n h 36 28 = 0
       (¬ header → refused 1) ∧ (header → LacksRead rd (o + n h 24 4) (n h 28 4) → wants (o + n h 24 4) (n h 28 4)) ∧
       ∀ notes, header → HasRead rd (o + n h 24 4) (n h 28 4) notes →
         (rd (o + n h 32 4) (32 * count) = none → wants (o + n h 32 4) (32 * count)) ∧
         ∀ tab, rd (o + n h 32 4) (32 * count) = some tab →
           ((¬ ∃ recs, NotesAre recs notes) → refused 1) ∧
           ∀ recs, NotesAre recs notes →
             let note := (recs.find? (fun r => r.1 == 1)).map (fun r => r.2.1)
             let e (i off w : Nat) : Nat := n ((tab.drop (32 * i)).take 32) off w
             let chosen (i : Nat) : Prop := i < count ∧ (e i 0 2 = 0x300 ∧ (∀ j < i, e j 0 2 ≠ 0x300) ∨
               (∀ j < count, e j 0 2 ≠ 0x300) ∧ e i 0 2 < 0x300 ∧ e i 2 2 % 2 = 1 ∧ ∀ j < count, e j 0 2 < 0x300 → e j 2 2 % 2 = 1 →
                 e j 0 2 < e i 0 2 ∨ e j 0 2 = e i 0 2 ∧ i ≤ j)
             let trapOk (i : Nat) : Prop := e i 24 2 = 0xFFFF ∨ e i 24 2 < e i 6 2
             let noteOk : Prop := ∀ q, note = some q → q.length = 24 ∧ n q 2 1 ≠ 0 ∧ n q 3 1 = 0 ∧ n q 20 4 = 0
             let tableOk : Prop := ∀ i < count, e i 2 2 < 2 ∧ 1 ≤ e i 4 2 ∧ e i 4 2 ≤ 4096 ∧ 1 ≤ e i 6 2 ∧ e i 6 2 ≤ 256 ∧ e i 8 4 % 16 = 0 ∧
               e i 12 4 % 16 = 0 ∧ e i 8 4 + 16 * e i 4 2 ≤ total ∧ e i 12 4 + 16 * e i 6 2 ≤ total ∧ e i 26 6 = 0 ∧ (chosen i ∨ trapOk i)
             let features : Prop := ∀ q, note = some q → ∀ i < 32,
               (n q 12 4 / 2 ^ i % 2 = 1 → v.feature0.getLsbD i) ∧ (n q 16 4 / 2 ^ i % 2 = 1 → v.feature1.getLsbD i)
             (¬ (noteOk ∧ tableOk) → refused 1) ∧
             (noteOk → tableOk →
               (n h 6 2 ≠ 1 → refused 2) ∧
               (n h 6 2 = 1 → (∃ q, note = some q ∧ 0x300 < n q 0 2) → refused 3) ∧
               (n h 6 2 = 1 → (∀ q, note = some q → n q 0 2 ≤ 0x300) →
                 (¬ features → refused 4) ∧ (features → (∀ i, ¬ chosen i) → refused 5) ∧
                 (∀ i, features → chosen i →
                   let nbv : Prop := ∀ q, note = some q → n q 2 1 / 2 ^ p.nbv % 2 = 1
                   let segs := e i 4 2
                   let ents := e i 6 2
                   (¬ nbv → refused 6) ∧
                   (nbv → rd (o + e i 8 4) (16 * segs) = none → wants (o + e i 8 4) (16 * segs)) ∧
                   (∀ dir, nbv → rd (o + e i 8 4) (16 * segs) = some dir →
                     (rd (o + e i 12 4) (16 * ents) = none → wants (o + e i 12 4) (16 * ents)) ∧
                     (∀ tbl, rd (o + e i 12 4) (16 * ents) = some tbl →
                       let g (k off w : Nat) : Nat := n ((dir.drop (16 * k)).take 16) off w
                       let a (k off w : Nat) : Nat := n ((tbl.drop (16 * k)).take 16) off w
                       let good : Prop := p.entry < ents ∧ trapOk i ∧
                         (∀ k < segs, g k 0 4 % 4 = 0 ∧ g k 4 4 % 4 = 0 ∧ 4 ≤ g k 4 4 ∧ g k 4 4 ≤ 65536 ∧ g k 0 4 + g k 4 4 ≤ total ∧ g k 8 8 = 0) ∧
                         (∀ k < ents, a k 0 4 % 4 = 0 ∧ a k 0 4 / 65536 < segs ∧ a k 0 4 % 65536 < g (a k 0 4 / 65536) 4 4 ∧ a k 11 5 = 0)
                       (¬ good → refused 7) ∧
                       (good → ∃ m, judgeObject rd v p = .image m ∧ m.base = o ∧ m.rev = e i 0 2 ∧ m.coid = e i 16 8 ∧
                         m.entry.toNat = a p.entry 0 4 ∧ m.segs = (List.range segs).map (fun k => (g k 0 4, g k 4 4)) ∧
                         (e i 24 2 = 0xFFFF → m.trap = none) ∧ (e i 24 2 ≠ 0xFFFF → m.trap = some (BitVec.ofNat 32 (a (e i 24 2) 0 4)))))))))) ∧
  ((∀ (s : State) (v : Vf) (q : Nat) (tail : Word), s.vf? v.id = some v → q < v.queues.length →
     ∃ t w, exec (.queueTail v.id q tail) s = .next t ∧ t.mem = s.mem ∧ t.vf? v.id = some w ∧ (w.queue q).tail = tail ∧
       (w.queue q).head = (v.queue q).head ∧ (w.queue q).base = (v.queue q).base ∧ ∀ p, p ≠ q → w.queue p = v.queue p) ∧
   (∀ (s : State) (v : Vf) (q : Nat), s.vf? v.id = some v → q < v.queues.length →
     let x := v.queue q
     ((s.mgmt.ready = false ∨ x.wait.isSome = true) → exec (.packetServe v.id q) s = .next s) ∧
     (s.mgmt.ready = true → x.wait = none → s.signalWait v.id q = false → x.out = [] → x.busy = none → x.chain = none →
       (v.migctl ≠ 0 → exec (.packetServe v.id q) s = .next s) ∧
       (∀ u, v.migctl = 0 → s.seePrios v = .wait u → exec (.packetServe v.id q) s = .next u) ∧
       ((v.queues.filter Queue.waiting).length < 2 → s.seePrios v = .ok s ()) ∧
       ∀ u, v.migctl = 0 → s.seePrios v = .ok u () → u.vf? v.id = some v →
       (u.queueTurn v q = false → exec (.packetServe v.id q) s = .next u) ∧
       (u.queueTurn v q = true → v.share ≤ v.taken →
         (u.roundOver = false → exec (.packetServe v.id q) s = .next u) ∧
         (u.roundOver = true → ∃ t, exec (.packetServe v.id q) s = .next t ∧ t.mem = u.mem ∧ ∀ w ∈ t.vfs, w.taken = 0)) ∧
       (∀ b, u.queueTurn v q = true → v.taken < v.share →
         x.rd (x.base + 128 * (x.head.toNat % 2 ^ x.logsize)) 128 = some b →
         let l := v.id * 2 ^ 58 + (v.lcount + 1) % 2 ^ 58
         (∀ i, u.judgePacket v x b = .accept i → u.launch? l = none →
           ∃ t w y, exec (.packetServe v.id q) s = .next t ∧ t.vf? v.id = some w ∧ (w.queue q).head = x.head + 1 ∧
             (w.queue q).busy = some l ∧ w.lcount = v.lcount + 1 ∧ w.taken = v.taken + 1 ∧ t.launch? l = some y ∧ y.packet = packetOf b ∧
             y.image = i ∧ y.vf = v.id ∧ y.q = q ∧ y.kill = none ∧ y.stage = (if (packetOf b).consts = 0 then 1 else 0) ∧
             t.teams = u.teams ++ (List.range (packetOf b).grid).map (Team.start l (packetOf b))) ∧
         (∀ st d, u.judgePacket v x b = .refuse st d →
           ∃ t w h, exec (.packetServe v.id q) s = .next t ∧ t.launches = u.launches ∧ t.teams = u.teams ∧ t.vf? v.id = some w ∧
             (w.queue q).head = x.head + 1 ∧ (w.queue q).busy = none ∧ (w.queue q).chain = none ∧ w.lcount = v.lcount ∧
             (w.queue q).out = ((packetOf b).repAddr, h) ::
               (if (packetOf b).sigAddr = 0 then [] else [((packetOf b).sigAddr, bytesOf 8 (packetOf b).sigVal)]) ∧
             h.length = 64 ∧ fieldAt h 0 4 = st % 2 ^ 32 ∧ fieldAt h 4 4 = d % 2 ^ 32 ∧ fieldAt h 8 8 = 0 ∧
             fieldAt h 16 8 = (u.vfTime v.id).toNat ∧ fieldAt h 24 8 = (u.vfTime v.id).toNat ∧ fieldAt h 32 8 = 0)))))

/-- R76, R108, R133, R164, R311: which cores admit a team, and the preference among them; that the cores of a quad team lie in one quad is R118, and which quad is taken is log entry 14 (DESIGN CHOICE) and not stated. R11, R18, R108, R118, R132: the next pending teams are placed on the cores chosen, with their threads at their start values; a RESIDENT grid is placed whole or not at all. The start values of TLK, TMEET and the trap registers are log entry 1 (DESIGN CHOICE). -/
def Obligations.TeamsArePlacedWhereTheyFit : Prop :=
  (∀ (s : State) (v : Vf) (x : Launch),
     let p := x.packet
     let on (k : CoreId) (f : Packet → Nat) : Nat := ((s.teams.filter (fun t => t.on k)).map (fun t => f (s.packet t.launch))).sum
     let frames (k : CoreId) (c : SegEntry → Bool) : Nat := (((s.core k).segs.filter c).map (fun e => e.frames.length)).sum
     let inPart (k : CoreId) : Prop := k.die < 24 ∧ k.core < 52
     let admits (k : CoreId) : Prop := s.coreAdmits v x k = true
     let same (k : CoreId) : Prop := (s.core k).carve = p.carve
     let choose (n : Nat) : Option (List CoreId) := s.chooseCores v x n false (fun _ => true)
     (∀ k, admits k ↔ on k (fun q => q.crews * 32 * q.regs) + p.crews * 32 * p.regs ≤ 196608 ∧
       on k (fun q => q.crews * 32) + p.crews * 32 ≤ 2048 ∧
       (p.stylus = true → on k (fun q => if q.stylus then q.crews * 32 else 0) + p.crews * 32 ≤ 512) ∧
       ((∀ t ∈ s.teams, t.on k = false) ∧ s.peerScratch k = false ∨ p.carve = 0 ∧ (s.core k).carve = 0) ∧
       ((∃ t ∈ s.teams, t.launch = x.id ∧ t.on k = true) ∨ s.pinOk k x = true) ∧ v.diemask.getLsbD k.die) ∧
     (∀ k,
       let missing := x.image.pinned.filter (fun g => s.segState k x.vf x.image.coid g == .absent)
       let need := (missing.map (fun g => (((x.image.segLen g).getD 0) + 4095) / 4096)).sum
       let gives := frames k (fun e => e.vf == x.vf && s.evictable k e && !(e.coid == x.image.coid && x.image.pinned.contains e.seg))
       (s.pinOk k x = true ↔ need = 0 ∨
         frames k (fun e => e.st != .absent && e.vf == x.vf) + need ≤ s.quota k x.vf + gives ∧ need ≤ (s.core k).freeFrames.length + gives)) ∧
     (choose 1 = none ↔ ∀ k, inPart k → ¬ admits k) ∧
     (∀ k, choose 1 = some [k] ↔ inPart k ∧ admits k ∧ ∀ j, inPart j → admits j →
       same k ∧ ¬ same j ∨ (same k ↔ same j) ∧ (k.die < j.die ∨ k.die = j.die ∧ k.core ≤ j.core)) ∧
     (∀ n, 1 ≤ n → n ≤ 4 →
       (choose n = none ↔ ∀ d < 24, ∀ q < 13, ((List.range 4).filter (fun i => s.coreAdmits v x ⟨d, 4 * q + i⟩)).length < n) ∧
       (∀ ks, choose n = some ks → ks.length = n ∧ ks.Nodup ∧ ∃ d q, d < 24 ∧ q < 13 ∧ ∀ k ∈ ks, k.die = d ∧ k.core / 4 = q ∧ admits k))) ∧
  (∀ (s : State) (x : Launch) (v : Vf) (m : Team), s.launch? x.id = some x → s.vf? x.vf = some v →
     ((x.stage ≠ 1 ∨ x.kill.isSome = true ∨ v.migctl ≠ 0) → exec (.teamPlacement x.id) s = .next s) ∧
     (x.stage = 1 → x.kill = none → v.migctl = 0 → (∀ t ∈ s.teams, t.launch = x.id → s.mayReturn t = false) →
       (∀ y ∈ s.launches, y.before x = true → s.holdsBack y = false) →
       (x.packet.resident = true →
         let fits (spread : Bool) : Prop := (s.placeGrid v x spread x.packet.grid).isSome = true
         ∃ t, exec (.teamPlacement x.id) s = .next t ∧ (¬ fits false → ¬ fits true → t = s) ∧ (fits false ∨ fits true → t.pendingTeams x.id = [])) ∧
       (x.packet.resident = false → (∃ ts, s.pendingTeams x.id = m.idx :: ts) →
         let choice := s.chooseCores v x x.packet.qsize false (fun _ => true)
         (choice = none → exec (.teamPlacement x.id) s = .next s) ∧
         (∀ ks, choice = some ks → ks.Nodup → (∀ i < ks.length, ∃ z, s.team? x.id (m.idx + i) = some z) →
           (∀ r < ks.length, ∀ i, s.thread? ⟨x.id, m.idx + r, i⟩ = none) →
           ∃ t, exec (.teamPlacement x.id) s = .next t ∧
             (∀ r k, ks[r]? = some k → (t.core k).carve = x.packet.carve ∧
               (∃ z, t.team? x.id (m.idx + r) = some z ∧ z.core = k ∧ (z.st = .resident ∨ z.st = .pinning) ∧ z.scratch = []) ∧
               (∀ i < x.packet.crews * 32, t.thread? ⟨x.id, m.idx + r, i⟩ =
                 some { Thread.start ⟨x.id, m.idx + r, i⟩ x.image.entry x.packet.regs with
                   phase := if i < x.packet.threads then .ready else .neverStarted })) ∧
             (∀ id y, s.thread? id = some y → ∃ u, t.thread? id = some u ∧ u.regs = y.regs ∧ u.pc = y.pc ∧ u.phase = y.phase)))))

/-- R130, R143, R347: the steps at a launch's end. -/
def Obligations.LaunchesEndStepByStep : Prop :=
  ∀ (s : State) (x : Launch) (v : Vf), s.launch? x.id = some x → s.vf? x.vf = some v →
    (x.wait.isSome = true → exec (.launchEnd x.id) s = .next s) ∧
    (x.wait = none → x.stage < 2 →
      (s.endReady x = false → exec (.launchEnd x.id) s = .next s) ∧
      (s.endReady x = true → ∃ t y, exec (.launchEnd x.id) s = .next t ∧ t.mem = s.mem ∧ t.launch? x.id = some y ∧ y.stage = 2 ∧
        ∀ m ∈ s.teams, m.launch = x.id → m.st ≠ .pending → 64 + 80 * m.idx + 80 ≤ x.packet.repLen →
          ∃ b, (x.packet.repAddr + 64 + 80 * m.idx, b) ∈ y.out ∧ b.length = 80 ∧ fieldAt b 0 4 = m.idx % 2 ^ 32 ∧
            fieldAt b 4 1 = m.core.die % 256 ∧ fieldAt b 5 1 = m.core.core % 256 ∧ fieldAt b 6 2 = min m.swaps 0xFFFF ∧ fieldAt b 8 8 = m.exitTime % 2 ^ 64 ∧
            ∀ i < 16, fieldAt b (16 + 4 * i) 4 = m.stalls.getD i 0 % 2 ^ 32)) ∧
    (∀ va bs rest ds g, x.wait = none → 2 ≤ x.stage → x.out = (va, bs) :: rest → s.partHolds v x.id va ds g → s.sound →
      va % 128 = g.pa % 128 → va % 128 + bs.length ≤ 128 → bs ≠ [] →
      ∃ t y, exec (.launchEnd x.id) s = .next t ∧ t.launch? x.id = some y ∧ y.out = rest ∧ y.stage = x.stage ∧
        y.written = x.written + (if x.stage = 2 then 1 else 0) ∧ PartWrote s t g.pa bs) ∧
    (x.wait = none → x.stage = 2 → x.out = [] → x.held = [] →
      ∃ t y h, exec (.launchEnd x.id) s = .next t ∧ t.mem = s.mem ∧ t.launch? x.id = some y ∧ y.stage = 3 ∧
        y.out = [(x.packet.repAddr, h)] ∧ h.length = 40 ∧ fieldAt h 0 4 = (if x.killed then 6 else 0) ∧
        fieldAt h 4 4 = ((x.kill.map (fun k => k.1)).getD 0) % 2 ^ 32 ∧ fieldAt h 8 8 = x.id % 2 ^ 64 ∧
        (∀ start, x.start = some start → fieldAt h 16 8 = start % 2 ^ 64) ∧ fieldAt h 24 8 = x.endTime % 2 ^ 64 ∧
        fieldAt h 32 4 = x.written % 2 ^ 32 ∧ fieldAt h 36 4 = (s.teams.filter (fun m => decide (m.launch = x.id ∧ m.st ≠ .pending ∧
          ¬ 64 + 80 * m.idx + 80 ≤ x.packet.repLen))).length % 2 ^ 32) ∧
    (x.wait = none → x.stage = 3 → x.out = [] →
      ∃ t y, exec (.launchEnd x.id) s = .next t ∧ t.launch? x.id = some y ∧ y.stage = 4 ∧ y.out = []) ∧
    (x.wait = none → x.stage = 4 → x.out = [] → (∃ m ∈ s.welt, m.toHome = true) → exec (.launchEnd x.id) s = .next s) ∧
    (x.wait = none → x.stage = 4 → x.out = [] → (∀ m ∈ s.welt, m.toHome = false) → x.packet.checked = false → x.packet.impress = false →
      ∃ t y, exec (.launchEnd x.id) s = .next t ∧ t.mem = s.mem ∧ t.launch? x.id = some y ∧ y.stage = 5 ∧
        y.out = [(x.packet.repAddr + 40, List.replicate 24 0)]) ∧
    (x.wait = none → x.stage = 5 → x.out = [] → (∀ i ∈ s.intervals, ∀ u ∈ i.units, x.id ∉ u.2.2) →
      ∃ t y, exec (.launchEnd x.id) s = .next t ∧ t.mem = s.mem ∧ t.launch? x.id = some y ∧ y.stage = 6 ∧
        y.out = if x.packet.sigAddr = 0 then [] else [(x.packet.sigAddr, bytesOf 8 x.packet.sigVal)]) ∧
    (x.wait = none → 6 ≤ x.stage → x.out = [] →
      ∃ t, exec (.launchEnd x.id) s = .next t ∧ t.launch? x.id = none ∧ (∀ m ∈ t.teams, m.launch ≠ x.id) ∧
        (∀ u ∈ t.others, u.id.launch ≠ x.id) ∧
        ∀ w, t.vf? x.vf = some w → x.q < v.queues.length → (w.queue x.q).busy = none ∧
          (w.queue x.q).chain = (if x.killed ∨ x.packet.chain = 0 then none else some x.packet.chain))

/-- R121, R141: at a cycle whose number is a multiple of 4 each quarter of a die chooses its bundle. -/
def Obligations.BundlesFormAtReformBoundaries : Prop :=
  ∀ (s : State) (d : Nat),
    (s.cycle % 4 ≠ 0 → exec (.reformBoundary d) s = .next s) ∧
    (s.cycle % 4 = 0 → s.flips = [] → s.poison = [] →
      ∃ t, exec (.reformBoundary d) s = .next t ∧ t.mem = s.mem ∧ t.threads = s.threads ∧ t.crews = s.crews ∧
        ∀ c ∈ t.cores, c.id.die = d → (s.rebuilds c.id = true → c.bundles = [none, none, none, none]) ∧
          (s.rebuilds c.id = false → c.bundles.length = 4 ∧ ∀ q < 4,
          let was := (s.core c.id).bundles.getD q none
          let crews := s.readyCrews c.id q
          (crews = [] → c.bundles.getD q none = none ∨ was ≠ none) ∧
          (∀ b, c.bundles.getD q none = some b → b.members.length ≤ 32 ∧ (∀ x ∈ crews, s.crewPrio x ≤ (s.packet b.launch).prio) ∧
            (∀ m ∈ b.members, ∃ u ∈ s.threads, u.id = m ∧ s.readyThread u = true ∧ u.pc = b.pc ∧ u.id.launch = b.launch ∧
              u.id.team = b.team ∧ ∃ w ∈ crews, w.id = crewOf u.id)) ∧
          (was = none → crews ≠ [] → ∃ b, ∃ w ∈ crews, c.bundles.getD q none = some b ∧ b.members ≠ [] ∧ b.launch = w.id.launch ∧
            b.team = w.id.team ∧ ((s.liveMembers w.id).find? s.readyThread).map (fun u => u.pc) = some b.pc ∧
            ∀ x ∈ crews, s.crewPrio x = s.crewPrio w → w.actStamp ≤ x.actStamp) ∧
          (∀ b, was = some b → b.members ≠ [] → (∀ x ∈ crews, s.crewPrio x ≤ (s.packet b.launch).prio) →
            (∀ m ∈ b.members, m.launch = b.launch ∧ m.team = b.team ∧ ∃ u, s.thread? m = some u ∧ s.readyThread u = true ∧ u.pc = b.pc ∧
              ∃ w ∈ crews, w.id = crewOf m ∧ u ∈ s.liveMembers w.id) →
            ∃ n, c.bundles.getD q none = some n ∧ n.launch = b.launch ∧ n.team = b.team ∧ n.pc = b.pc ∧ n.members ≠ [])))

/-- R168, R294, R295 to R297: dirty bytes are sent on in time, a die applies writes that are causally ready, and serves a request its clock
covers. -/
def Obligations.CachedBytesTravelInTimeAndInOrder : Prop :=
  (∀ (s : State) (k : CoreId) (line : Nat) (l : L1Line), (s.core k).l1Line line = some l →
    ((dirtyBytes l.bytes = [] ∨ s.cycle < l.dirtied + 16384) → exec (.l1WritebackTimer k line) s = .next s) ∧
    (dirtyBytes l.bytes ≠ [] → l.dirtied + 16384 ≤ s.cycle → s.sound → l.g.det = false → homeOf l.g.pa = k.die → k.die < 24 →
      (s.die k.die).l2 = [] → (l.bytes.map (fun b => b.off)).Nodup → (∀ b ∈ l.bytes, b.off < 128) →
      ∃ t n, exec (.l1WritebackTimer k line) s = .next t ∧ (t.core k).l1Line line = some n ∧ n.bytes = cleanBytes l.bytes ∧
        ∀ a, t.mem.get a = match l.bytes.find? (fun b => b.dirty && l.g.pa / 128 * 128 + b.off == a) with
          | some b => b.val
          | none => s.mem.get a)) ∧
  (∀ (s : State) (d line : Nat) (l : L2Line), s.l2Line d line = some l →
    ((dirtyBytes l.bytes = [] ∨ s.cycle < l.dirtied + 65536) → exec (.remoteLineSendTimer d line) s = .next s) ∧
    (dirtyBytes l.bytes ≠ [] → l.dirtied + 65536 ≤ s.cycle → homeOf l.g.pa < 24 →
      ∃ t n m, exec (.remoteLineSendTimer d line) s = .next t ∧ t.mem = s.mem ∧ t.l2Line d line = some n ∧ n.bytes = cleanBytes l.bytes ∧
        (t.die d).v = (s.die d).v.set d ((s.die d).v.getD d 0 + 1) ∧ t.welt = s.welt ++ [m] ∧ m.src = d ∧ m.tag = (t.die d).v ∧
        m.dst = homeOf l.g.pa ∧ m.g.pa = l.g.pa / 128 * 128 ∧ m.bytes = dirtyBytes l.bytes ∧ m.toHome = true ∧ m.notice = false)) ∧
  (∀ (s : State) (m : WeltMsg), s.welt.find? (fun x => x.id == m.id) = some m →
    (s.mayApply m = false → exec (.writeApply m.id) s = .next s) ∧
    (m.toHome = true → m.src ≠ m.dst → (s.mayApply m = true ↔ m.tag.getD m.src 0 = (s.die m.dst).v.getD m.src 0 + 1 ∧
      ∀ i < 24, i ≠ m.src → m.tag.getD i 0 ≤ (s.die m.dst).v.getD i 0)) ∧
    (s.mayApply m = true → s.sound → (m.bytes.map (fun b => b.1)).Nodup →
      ∃ t, exec (.writeApply m.id) s = .next t ∧
        (m.src ≠ m.dst → (t.die m.dst).v = (s.die m.dst).v.set m.src (m.tag.getD m.src 0)) ∧
        (m.toHome = true → m.g.det = false → ∀ a, t.mem.get a = match m.bytes.find? (fun b => m.g.pa + b.1 == a) with
          | some b => b.2
          | none => s.mem.get a) ∧
        (m.toHome = false → m.g.reps.contains m.dst = false → t.mem = s.mem) ∧
        (m.toHome = false → m.notice = false → homeOf m.g.pa < 24 → ∀ l, s.l2Line m.dst (m.g.pa / 128) = some l →
          ∃ n, t.l2Line m.dst (m.g.pa / 128) = some n ∧ ∀ x ∈ m.bytes, byteAt n.bytes x.1 =
            match byteAt l.bytes x.1 with
            | some c => if c.dirty = true ∨
                (State.ownPending { s with welt := s.welt.filter (fun y => y.id != m.id) } m.dst (m.g.pa / 128) x.1).isSome = true
              then some c else some ⟨x.1, x.2, false⟩
            | none => none))) ∧
  (∀ (s : State) (r : Request) (g : GAddr) (src n : Nat) (sgn : Bool) (got : List (Nat × Byte)),
    s.requests.find? (fun x => x.id == r.id) = some r → r.kind = .load g src n sgn got → s.awaitsReissue r = false →
    (s.mayServe r (homeOf src) = false → exec (.remoteRequestServe r.id) s = .next s) ∧
    (s.mayServe r (homeOf src) = true → s.sound → g.cache = 0 → g.checked = false → g.repl = false → src = g.pa →
      s.l2Line r.core.die (g.pa / 128) = none → (∀ i < n, s.ownPending r.core.die (g.pa / 128) (g.pa % 128 + i) = none) →
      ∃ t, exec (.remoteRequestServe r.id) s = .next t ∧ t.mem = s.mem ∧ t.requests = s.requests.filter (fun x => x.id != r.id) ∧
        t.replies = s.replies ++ [⟨r.id, r.t, loaded n sgn ((List.range n).map (fun i => match got.find? (fun x => x.1 == i) with
          | some x => x.2
          | none => s.mem.get (g.pa + i))), false, 0⟩] ∧
        (homeOf g.pa < 24 → ∀ i < 24, (s.die (homeOf g.pa)).v.getD i 0 ≤ (t.die r.core.die).h.getD i 0)))

/-- R77, R177, R178, R276, R278: a walk ends with a leaf that the TLBs take, or with one fault record. INVALVA removes translations. -/
def Obligations.WalksEndInALeafOrARecord : Prop :=
  (∀ (o : State) (w : Walk) (v : Vf), o.walks.find? (fun x => x.id == w.id) = some w → o.vf? w.vf = some v →
    let s := o.flushWalk v w.va
    ((∀ m ∈ o.teams, m.stash = []) → s = o) ∧
    let waits (id : ThreadId) (u : Thread) : Prop := ∃ a, s.thread? id = some u ∧ u.phase = .walking a ∧ s.onWalk w id a = true
    (s.mayWalk w.die v w.va = false → exec (.pageWalkComplete w.id) o = .next o) ∧
    (∀ va size pa e ptes, s.mayWalk w.die v w.va = true → s.walk v w.va = .leaf va size pa e ptes → s.sound →
      let x := leafEntry v.id va size pa e
      let sets := w.setD = true ∧ x.w = true ∧ (x.host = true ∨ s.validPa (pa + (w.va - va)) = true)
      ∃ t, exec (.pageWalkComplete w.id) o = .next t ∧ t.walks = s.walks.filter (fun y => y.id != w.id) ∧ t.records = s.records ∧
        (t.core w.core).tlb.head? = some { x with d := x.d || decide sets } ∧
        (t.die w.core.die).tlb.head? = some { x with d := x.d || decide sets } ∧
        (∀ a, (∃ p ∈ ptes, a = s.memKey false p + 1) → t.mem.get a = s.mem.get a ||| (if sets then 6 else 2)) ∧
        (∀ a, (¬ ∃ p ∈ ptes, a = s.memKey false p + 1) → t.mem.get a = s.mem.get a) ∧
        ∀ id u, waits id u → ∃ y, t.thread? id = some y ∧ y.phase = .ready ∧ y.pc = u.pc ∧ y.regs = u.regs) ∧
    (∀ level r, s.mayWalk w.die v w.va = true → s.walk v w.va = .fault level → s.pendingRec w.die v.id w.va = some r →
      ∃ t, exec (.pageWalkComplete w.id) o = .next t ∧ t.mem = s.mem ∧ t.records = s.records ∧
        ∀ id u, waits id u → ∃ y, t.thread? id = some y ∧ y.phase = .pageParked r.rid ∧ y.pc = u.pc ∧ y.regs = u.regs) ∧
    (∀ level, s.mayWalk w.die v w.va = true → s.walk v w.va = .fault level → s.pendingRec w.die v.id w.va = none → s.permitFree w.core = true →
      ∃ t r, exec (.pageWalkComplete w.id) o = .next t ∧ t.mem = s.mem ∧ t.records = s.records ++ [r] ∧ r.rid = s.nextId ∧ r.vf = w.vf ∧
        r.va = w.va ∧ r.launch = w.starter.launch ∧ r.team = w.starter.team ∧ r.thread = w.starter.lin ∧ r.kind = w.kind ∧
        r.level = level ∧ r.time = (s.vfTime w.vf).toNat / 16 % 2 ^ 32 ∧ r.seq = none ∧ (t.core w.core).permits = (s.core w.core).permits + 1 ∧
        ∀ id u, waits id u → ∃ y, t.thread? id = some y ∧ y.phase = .pageParked r.rid ∧ y.pc = u.pc ∧ y.regs = u.regs) ∧
    (∀ level u a, s.mayWalk w.die v w.va = true → s.walk v w.va = .fault level → s.pendingRec w.die v.id w.va = none →
      s.permitFree w.core = false → s.thread? w.starter = some u → u.phase = .walking a →
      ∃ t y, exec (.pageWalkComplete w.id) o = .next t ∧ t.mem = s.mem ∧ t.records = s.records ∧ t.thread? w.starter = some y ∧
        y.phase = .backoff (s.cycle + u.backoffLen) ∧ y.backoffLen = min (2 * u.backoffLen) 4096 ∧ y.pc = u.pc ∧
        ∀ id z, id ≠ w.starter → waits id z → ∃ y, t.thread? id = some y ∧ y.phase = .ready ∧ y.pc = z.pc ∧ y.regs = z.regs)) ∧
  (∀ (s : State) (v : Vf) (va : DWord), s.vf? v.id = some v → v.invalva = none →
    ∃ t w, exec (.invalva v.id va) s = .next t ∧ t.mem = s.mem ∧ t.vf? v.id = some w ∧ w.invalva = some va.toNat) ∧
  (∀ (s : State) (v : Vf) (va : Nat), s.vf? v.id = some v → v.invalva = some va →
    let gone (e : TlbEntry) : Prop := e.vf = v.id ∧ (va = 2 ^ 64 - 1 ∨ e.va ≤ va ∧ va < e.va + e.size)
    ∃ t w, exec (.invalvaRemovalComplete v.id) s = .next t ∧ t.mem = s.mem ∧ t.vf? v.id = some w ∧ w.invalva = none ∧
      (∀ k e, e ∈ (t.core k).tlb ↔ e ∈ (s.core k).tlb ∧ ¬ gone e) ∧ (∀ d e, e ∈ (t.die d).tlb ↔ e ∈ (s.die d).tlb ∧ ¬ gone e))

/-- R275 to R280: the oldest waiting record is written where its queue has room, and RESUME settles the waiters of a record. That a waiter which joined another thread's record has its own address in TRAPADDR is log entry 21 (DEDUCED). -/
def Obligations.FaultRecordsAreWrittenAndSettled : Prop :=
  (∀ (s : State) (v : Vf) (h : Word), s.vf? v.id = some v →
    exec (.fqhead v.id h) s = .next (s.setVf { v with fqhead := h }) ∧ (s.setVf { v with fqhead := h }).vf? v.id = some { v with fqhead := h }) ∧
  (∀ (s : State) (v : Vf) (r : FRec), s.vf? v.id = some v → s.records.find? (fun x => x.vf == v.id && x.seq.isNone) = some r →
    let slot := v.fqbase + 32 * (v.fqtail.toNat % 2 ^ v.fqlog)
    let on : Prop := 1 ≤ v.fqlog ∧ v.fqlog ≤ 16
    (on → 2 ^ v.fqlog ≤ (v.fqtail - v.fqhead).toNat → exec (.faultRecordWrite v.id) s = .next s) ∧
    (∀ g ds, on → (v.fqtail - v.fqhead).toNat < 2 ^ v.fqlog → s.partHolds v 0 slot ds g → slot % 32 = 0 → g.pa % 128 = slot % 128 →
      s.sound → s.tracing = false →
      ∃ t w, exec (.faultRecordWrite v.id) s = .next t ∧ t.threads.map (fun u => (u.id, u.pc, u.regs)) = s.threads.map (fun u => (u.id, u.pc, u.regs)) ∧
        t.vf? v.id = some w ∧ w.fqtail = v.fqtail + 1 ∧ w.seqNo = (v.seqNo + 1) % 2 ^ 32 ∧
        ((r.kind = 6 ∧ r.stop = (0, 0)) ∨ ∃ x ∈ t.records, x.rid = r.rid ∧ x.seq = some w.seqNo) ∧ (∀ k, r.core = some k → (t.core k).permits = (s.core k).permits - 1) ∧
        ∃ b, PartWrote s t g.pa b ∧ b.length = 32 ∧
        fieldAt b 0 8 = r.va % 2 ^ 64 ∧ fieldAt b 8 8 = r.launch % 2 ^ 64 ∧ fieldAt b 16 4 = r.team % 2 ^ 32 ∧
        fieldAt b 20 2 = r.thread % 2 ^ 16 ∧ fieldAt b 22 1 = r.kind % 2 ^ 8 ∧ fieldAt b 23 1 = r.level % 2 ^ 8 ∧
        fieldAt b 24 4 = r.time % 2 ^ 32 ∧ fieldAt b 28 4 = w.seqNo) ∧
    (¬ on → (s.threads.map (fun u => u.id)).Nodup → r.kind ≤ 3 → ∃ t, exec (.faultRecordWrite v.id) s = .next t ∧ (∀ x ∈ t.records, x.rid ≠ r.rid) ∧
      ∀ id u, s.thread? id = some u → u.phase = .pageParked r.rid → u.inHandler = false → ∃ y, t.thread? id = some y ∧ y.phase = .faulted ∧
        y.trapcode = 0x12 ∧ y.trapinfo = BitVec.ofNat 32 r.kind ∧ y.trapaddr = BitVec.ofNat 64 r.va ∧ y.trappc = u.pc)) ∧
  (∀ (s : State) (vf : Nat) (v : DWord), ((∀ r ∈ s.records, r.vf = vf → r.seq ≠ some (v.toNat % 2 ^ 32)) ∨ 2 ≤ v.toNat / 2 ^ 32 % 4) →
    ∃ t, exec (.resume vf v) s = .next t ∧ t.mem = s.mem ∧ t.records = s.records ∧ t.threads = s.threads) ∧
  (∀ (s : State) (v : DWord) (r : FRec), s.records.find? (fun x => x.vf == r.vf && x.seq == some (v.toNat % 2 ^ 32)) = some r →
    (s.threads.map (fun u => u.id)).Nodup →
    let becomes (p : State → Thread → Thread → Prop) (ph : Phase) : Prop := ∃ t, exec (.resume r.vf v) s = .next t ∧
      (∀ x ∈ t.records, x.rid ≠ r.rid) ∧ ∀ id u, s.thread? id = some u → u.phase = ph → u.inHandler = false → ∃ y, t.thread? id = some y ∧ p t u y
    (v.toNat / 2 ^ 32 % 4 = 0 →
      becomes (fun t u y => t.mem = s.mem ∧ y.phase = .ready ∧ y.pc = u.pc ∧ y.regs = u.regs ∧ y.debugPass = u.parkVa :: u.debugPass)
        (.pageParked r.rid) ∧
      becomes (fun t u y => t.mem = s.mem ∧ y.phase = .ready ∧ y.pc = u.pc ∧ y.regs = u.regs ∧ y.debugPass = r.va :: u.debugPass) (.debugStopped r.rid)) ∧
    (v.toNat / 2 ^ 32 % 4 = 1 →
      becomes (fun _ u y => y.phase = .faulted ∧ y.trapcode = 7 ∧ y.trapinfo = BitVec.ofNat 32 (r.level + 16 * r.kind) ∧
        y.trapaddr = BitVec.ofNat 64 u.parkVa ∧ y.trappc = u.pc ∧ y.resume = u.pc) (.pageParked r.rid) ∧
      becomes (fun _ u y => y.phase = .faulted ∧ y.trapcode = BitVec.ofNat 32 r.stop.1 ∧ y.trappc = u.pc ∧
        y.resume = if r.stop.1 = 0x10 then u.pc + 4 else u.pc) (.debugStopped r.rid)))

/-- R281 to R283: PREEMPT and the part's own swap start to save teams; a save writes the images and gives up the cores, or is refused. R284 to R286: the bytes of a team's image, and that reading them back gives the team's state. That the areas follow one another is
log entry 25 (DEDUCED). R287, R288: a late reply goes into its entry, and a saved team is placed again once its launch is allowed and its replies are in; a launch
that has come with its VF is taken over first, with what Config.carried holds of it (log entry 37). A word that was delivered to a team while it was out follows into its scratch (log entry
25, DESIGN CHOICE). -/
def Obligations.TeamsAreSavedAndRestored : Prop :=
  (let stands (m : Team) : Prop := m.st = .resident ∨ m.st = .pinning
   (∀ (s : State) (v : Vf) (l : DWord), s.vf? v.id = some v →
     ∃ t w, exec (.preempt v.id l) s = .next t ∧ t.mem = s.mem ∧ t.threads = s.threads ∧ t.vf? v.id = some w ∧
       w.preempt = (if ∃ m ∈ t.teams, launchVf m.launch = v.id ∧ m.st = .saving ∧ m.auto = false then 1 else 0) ∧
       (launchVf l.toNat = v.id → ∀ m ∈ s.teams, m.launch = l.toNat → stands m → { m with st := .saving, auto := false } ∈ t.teams) ∧
       (∀ m ∈ s.teams, (m.launch ≠ l.toNat ∨ launchVf l.toNat ≠ v.id ∨ ¬ stands m) → m ∈ t.teams)) ∧
   (∀ (s : State) (l i : Nat) (m : Team), s.team? l i = some m →
     let mine (u : Thread) : Prop := u ∈ s.threads ∧ u.id.launch = l ∧ u.id.team = i ∧ u.live = true
     let long : Prop := ∃ u r, mine u ∧ u.phase = .pageParked r ∧ u.parkClock + 1000000 ≤ s.clock.toNat
     let task : Prop := ∃ e ∈ s.engines, e.t.launch = l ∧ e.t.team = i ∧ ∃ r p o n, e.kind = .task r p o ∧ e.st = .stalled n
     ((m.st ≠ .resident ∨ (∃ u, mine u ∧ u.phase.stopped = false) ∨ ¬ long ∨ task) → exec (.autoSwapOut l i) s = .next s) ∧
     (m.st = .resident → (∀ u, mine u → u.phase.stopped = true) → long → ¬ task → (s.packet l).det = false →
       ∃ t, exec (.autoSwapOut l i) s = .next t ∧ t.mem = s.mem ∧ t.threads = s.threads ∧ t.team? l i = some { m with st := .saving, auto := true })) ∧
   (∀ (s : State) (l q : Nat) (v : Vf) (x : Launch) (m : Team), s.vf? (launchVf l) = some v → s.launch? l = some x → x.kill = none →
     s.quadTeams l q = [m] → m.st = .saving → m.stash = [] → s.engines = [] → s.slots = [] → s.replies = [] → s.requests = [] → s.welt = [] →
     (s.cores.map (fun c => c.id)).Nodup → (∀ c ∈ s.cores, c.lacerQ = [] ∧ c.lacerW = [] ∧ c.l1 = [] ∧ c.victims = []) → (∀ d ∈ s.dies, d.l2 = []) →
     (∀ u ∈ s.threads, u.watch = none) → (s.crews.map (fun c => c.id)).Nodup → (∀ c ∈ s.crews, c.tags = []) →
     (∀ n u, s.freeSlots v 1 = [n] → s.writeImages v [(m, n)] = .ok u [] →
       ∃ t y, exec (.saveComplete l q) s = .next t ∧ t.mem = u.mem ∧ t.team? l m.idx = some y ∧ y.st = .swapped ∧ y.image = some n ∧
         y.swaps = m.swaps + 1 ∧ y.allowed = false ∧ (∀ c ∈ t.crews, c.id.launch = l → c.id.team = m.idx → c.active = false) ∧
         (v.preempt = 1 → (∀ z ∈ t.teams, launchVf z.launch = launchVf l → z.st ≠ .saving) → (t.vf? (launchVf l)).map (fun w => w.preempt) = some 0)) ∧
     (∀ n u, s.freeSlots v 1 = [n] → s.writeImages v [(m, n)] = .deny u → m.auto = false →
       ∃ t y w, exec (.saveComplete l q) s = .next t ∧ t.mem = u.mem ∧ t.team? l m.idx = some y ∧ stands y ∧ t.vf? (launchVf l) = some w ∧ w.preempt = 2) ∧
     (s.freeSlots v 1 = [] → m.auto = false →
       ∃ t y w, exec (.saveComplete l q) s = .next t ∧ t.mem = s.mem ∧ t.team? l m.idx = some y ∧ stands y ∧ t.vf? (launchVf l) = some w ∧ w.preempt = 2))) ∧
  (∀ (s : State) (m : Team), s.imageable m →
     let l := m.launch
     let p := s.packet l
     let b := s.imageBytes m
     s.HasHeader m b ∧
     (∀ i x, i < p.threads → s.thread? ⟨l, m.idx, i⟩ = some x → s.HasThread x b (numAt b 40 4 + i * (512 + 4 * p.regs))) ∧
     (∀ k < p.carveBytes, b[numAt b 44 4 + k]? = some (m.scratch.get k)) ∧
     (∀ i x, i < p.crews * 32 → s.slot? ⟨l, m.idx, i⟩ = some x → x.HasBytes b (numAt b 48 4 + 416 * i)) ∧
     (∀ pre c post, s.teamCrews l m.idx = pre ++ c :: post → c.HasBytes b (numAt b 52 4 + (pre.map (fun x => 16 + 8 * x.tags.length)).sum)) ∧
     (∀ pre c post, s.teamChains l m.idx = pre ++ c :: post →
       c.HasBytes b (numAt b 56 4 + (pre.map (fun x => 16 + (if x.fmt = 0 ∨ x.fmt = 4 then 8 else 4) * x.acc.length)).sum)) ∧
     (m.idx % p.qsize = 0 → let o := numAt b 60 4
       o ≠ 0 ∧ numAt b (o + 4) 12 = 0 ∧
       ∀ i < 16, (numAt b o 4 / 2 ^ i % 2 = 1 ↔ (s.slotProg l m.idx i).isSome = true) ∧
         ∀ x, s.slotProg l m.idx i = some x → x.HasBytes b (o + 16 + 80 * i)) ∧
     (m.idx % p.qsize ≠ 0 → numAt b 60 4 = 0) ∧
     (let u := s.readImage m b
      u.mem = s.mem ∧ (∀ i, u.thread? i = s.thread? i) ∧ (∀ i, u.slot? i = s.slot? i) ∧ (∀ i, u.crew? i = s.crew? i) ∧
      u.teamChains l m.idx = s.teamChains l m.idx ∧ (∀ i, u.slotProg l m.idx i = s.slotProg l m.idx i) ∧
      ∃ t, u.team? l m.idx = some t ∧ t.tokens = m.tokens ∧ t.stash = m.stash.map (fun x => { x with filled := [], dirty := [] }) ∧
        (∀ k < p.carveBytes, t.scratch.get k = m.scratch.get k) ∧ t.core = m.core ∧ t.st = m.st)) ∧
  ((∀ (s : State) (vf : Nat) (l : DWord), (∀ v, s.vf? vf = some v → s.launch? l.toNat = none → v.mayAdopt l.toNat = false) →
     ∃ t, exec (.restorel vf l) s = .next t ∧ t.mem = s.mem ∧ t.threads = s.threads ∧
     t.teams.length = s.teams.length ∧
     (∀ m ∈ s.teams, m.launch = l.toNat → launchVf l.toNat = vf → m.st = .swapped → { m with allowed := true } ∈ t.teams) ∧
     (∀ m ∈ s.teams, (m.launch ≠ l.toNat ∨ launchVf l.toNat ≠ vf ∨ m.st ≠ .swapped) → m ∈ t.teams)) ∧
   (∀ (s : State) (v : Vf) (l : DWord), s.vf? v.id = some v → s.launch? l.toNat = none → v.mayAdopt l.toNat = true →
     exec (.restorel v.id l) s = .next (s.takeOver v l.toNat)) ∧
   (∀ (s : State) (v : Vf) (l : Nat) (c : Carried), s.vf? v.id = some v →
     let t := s.adopt v l c
     t.mem = s.mem ∧ (t.vf? v.id).map (fun w => w.adopted) = some (v.adopted ++ [l]) ∧ (∀ i, i ≠ v.id → t.vf? i = s.vf? i) ∧
     (∀ i, i ≠ l → t.launch? i = s.launch? i) ∧ { c.launch with id := l, vf := v.id } ∈ t.launches ∧
     (∀ m ∈ s.teams, m ∈ t.teams) ∧ (∀ m ∈ t.teams, m ∈ s.teams ∨ (m.launch = l ∧ m.scratch = [] ∧ (m.st = .swapped → m.allowed = true))) ∧
     (∀ m ∈ c.teams, m.launch = l → m.st = .swapped → { m with core := ⟨24, 0⟩, scratch := [], allowed := true } ∈ t.teams) ∧
     (∀ u ∈ c.threads, u.id.launch = l → u ∈ t.threads) ∧ (∀ u ∈ t.threads, u ∈ s.threads ∨ (u ∈ c.threads ∧ u.id.launch = l)) ∧
     (∀ r ∈ c.records, r.launch = l → { r with vf := v.id, core := none } ∈ t.records) ∧ (∀ r ∈ s.records, r ∈ t.records)) ∧
   (∀ (s : State) (r : Reply) (tm : Team) (u : Thread) (v : Vf), s.replies.find? (fun x => x.req == r.req) = some r →
     s.team? r.t.launch r.t.team = some tm → s.thread? r.t = some u → s.vf? (launchVf r.t.launch) = some v →
     (tm.st ≠ .swapped → exec (.lateReplyWrite r.req) s = .next s) ∧
     (tm.st = .swapped → ∀ i, u.queue.findIdx? (fun e => e.req == r.req) = some i →
       let a := s.partPlaces v r.t.launch (s.entryVa v tm r.t i) true 2 24
       let b := a.1.partPlaces v r.t.launch (v.savebase + tm.image.getD 0 * v.savestride + 28) true 2 2
       (a.2.2 = .wait ∨ b.2.2 = .wait → exec (.lateReplyWrite r.req) s = .next s) ∧
       (a.2.2 ≠ .wait → b.2.2 ≠ .wait → ∃ t y, exec (.lateReplyWrite r.req) s = .next t ∧ t.replies = s.replies.filter (fun x => x.req != r.req) ∧
       t.thread? r.t = some y ∧ y.regs = u.regs ∧ y.pc = u.pc ∧ y.queue = u.queue.map (fun e => if e.req = r.req then { e with st := .held, val := r.val } else e)))) ∧
   (∀ (s : State) (l q : Nat) (v : Vf) (x : Launch), s.vf? (launchVf l) = some v → s.launch? l = some x →
     ((∀ m ∈ s.quadTeams l q, m.st = .pinning → m.late = []) → (x.kill.isSome = true ∨ v.migctl ≠ 0 ∨ (∀ m ∈ s.quadTeams l q, m.st ≠ .swapped) ∨
       (∃ m ∈ s.quadTeams l q, m.st = .swapped ∧ ((m.allowed = false ∧ m.auto = false) ∨ s.outstanding l m.idx ≠ 0))) →
       exec (.teamRestore l q) s = .next s) ∧
     (∀ m off val, s.quadTeams l q = [m] → s.team? l m.idx = some m → m.st = .pinning → m.late = [(off, val)] → m.stash = [] →
       ∃ t y, exec (.teamRestore l q) s = .next t ∧ t.mem = s.mem ∧ t.team? l m.idx = some y ∧ y.core = m.core ∧ y.late = [] ∧
         ∀ j, y.scratch.get j = if off ≤ j ∧ j < off + 4 then BitVec.ofNat 8 (val.toNat / 256 ^ (j - off)) else m.scratch.get j) ∧
     (∀ m k u b, x.kill = none → v.migctl = 0 → s.quadTeams l q = [m] → m.st = .swapped → (m.allowed = true ∨ m.auto = true) →
       s.outstanding l m.idx = 0 → m.late = [] → s.imageOf v m = .ok u b → (s.threads.map (fun z => z.id)).Nodup →
       s.chooseCores v x 1 false (fun ks => decide ((s.teamChains l m.idx).length ≤ s.freeAccs ks) && (match ks with
         | k :: _ => s.caughtUp m.core.die k.die
         | [] => false)) = some [k] →
       ∃ t y, exec (.teamRestore l q) s = .next t ∧ t.team? l m.idx = some y ∧ y.core = k ∧ (y.st = .resident ∨ y.st = .pinning) ∧
         y.image = none ∧ y.allowed = false ∧ y.auto = false ∧ y.tokens = tokensFrom b ∧ y.stash = stashFrom b ∧
         ∀ id z, (u.readImage m b).thread? id = some z → (∀ i j n, z.phase ≠ .barrier i j n) → ∃ z', t.thread? id = some z' ∧ z'.regs = z.regs ∧ z'.pc = z.pc ∧
           (id.launch = l → id.team = m.idx → z.phase = .monitor →
             let here := t.segState k v.id (t.coidOf l) (segOf z.pc) = .resident
             (here → z'.phase = .ready) ∧ (¬ here → z'.phase = .settling)))))

/-- R289: the host moves entries of a core's Eyelet table to memory and back. The slot a fill takes where the entry named is in use, and 0 as the image of a default expected count, are log entry 36 (DESIGN CHOICE). -/
def Obligations.EyeletEntriesMoveToMemoryAndBack : Prop :=
  ∀ (s : State) (v : Vf) (k : CoreId) (entry : Nat), s.vf? v.id = some v →
    let refused (i : Instr) : Prop := ∃ t w, exec i s = .next t ∧ t.mem = s.mem ∧ t.barriers = s.barriers ∧ t.vf? v.id = some w ∧ w.eyecmd = 2
    (s.barriers.find? (fun b => b.inTable k && b.entry == entry) = none → refused (.eyeletSpill v.id k entry)) ∧
    (∀ b, s.barriers.find? (fun b => b.inTable k && b.entry == entry) = some b → (b.vf ≠ v.id ∨ s.ownerOut b = false) → refused (.eyeletSpill v.id k entry)) ∧
    (∀ b z, s.barriers.find? (fun b => b.inTable k && b.entry == entry) = some b → b.vf = v.id → s.ownerOut b = true →
      s.partWrite v 0 v.eyebuf 4 b.bytes = .wait z →
      ∃ t w, exec (.eyeletSpill v.id k entry) s = .next t ∧ t.mem = s.mem ∧ t.barriers = s.barriers ∧ t.vf? v.id = some w ∧ w.eyecmd = 1) ∧
    (∀ b ds g, s.barriers.find? (fun b => b.inTable k && b.entry == entry) = some b → b.vf = v.id → s.ownerOut b = true →
      s.partHolds v 0 v.eyebuf ds g → v.eyebuf % 32 = 0 → g.pa % 128 = v.eyebuf % 128 → s.sound →
      ∃ t w, exec (.eyeletSpill v.id k entry) s = .next t ∧ t.vf? v.id = some w ∧ w.eyecmd = 0 ∧ { b with spilled := true } ∈ t.barriers ∧
        ∃ h, PartWrote s t g.pa h ∧ h.length = 32 ∧ fieldAt h 0 8 = b.launch % 2 ^ 64 ∧ fieldAt h 8 4 = b.owner % 2 ^ 32 ∧ fieldAt h 12 1 = b.scope % 2 ^ 8 ∧ fieldAt h 13 1 = b.id % 2 ^ 8 ∧
        fieldAt h 14 2 = b.phase % 2 ^ 16 ∧ fieldAt h 16 4 = b.e.getD 0 % 2 ^ 32 ∧ fieldAt h 20 4 = b.c % 2 ^ 32 ∧ fieldAt h 24 8 = 0) ∧
    (s.eyeletFree k = none → refused (.eyeletFill v.id k entry)) ∧
    (∀ i ds g, s.eyeletFree k = some i → s.partAddr v 0 v.eyebuf false = ({ s with dies := ds }, some g, .done) →
      State.reaches { s with dies := ds } 0 (homeOf g.pa) = true → v.eyebuf % 32 = 0 → g.pa % 128 = v.eyebuf % 128 → s.sound →
      let h := (List.range 32).map (fun j => s.mem.get (g.pa + j))
      let l := fieldAt h 0 8
      let c := fieldAt h 20 4
      launchVf l = v.id → (fieldAt h 12 1 = 1 ∨ fieldAt h 12 1 = 2) →
      ∃ t w b, exec (.eyeletFill v.id k entry) s = .next t ∧ t.mem = s.mem ∧ t.vf? v.id = some w ∧ w.eyecmd = 0 ∧ b ∈ t.barriers ∧ b.vf = v.id ∧
        b.launch = l ∧ b.owner = fieldAt h 8 4 ∧ b.scope = fieldAt h 12 1 ∧ b.id = fieldAt h 13 1 ∧
        b.e = (if fieldAt h 16 4 = 0 then none else some (fieldAt h 16 4)) ∧ b.core = k ∧ b.spilled = false ∧
        b.entry = (if ∃ y ∈ s.barriers, y.inTable k = true ∧ y.entry = entry then i else entry % 64) ∧
        ((b.c = c ∧ b.phase = fieldAt h 14 2) ∨ (1 ≤ c ∧ b.c = 0 ∧ b.phase = (fieldAt h 14 2 + 1) % 65536)))

/-- R306: a master takes a free semaphore and frees its own; of two writes in one cycle the loser of the last tie goes first. R126, R131, R173, R275, R277, R282, R289, R300, R302, R304, R309, R325, R331, R334: what the masters write into registers and memory. That two writes share a cycle where they stand next to each other in the agenda, and that values of DLSIZE, BURNLOG and SHARE outside their ranges are refused, are log entry 28 (DESIGN CHOICE). -/
def Obligations.MastersHoldSemaphoresAndWriteRegisters : Prop :=
  (∀ (s : State) (m i : Nat), m < 2 → i < 32 → s.mgmt.sems.length = 32 → s.mgmt.semAnswer.length = 2 →
     (s.mgmt.powered = false → exec (.semAcquire m i) s = .next s ∧ exec (.semRelease m i) s = .next s) ∧
     (s.mgmt.powered = true →
     let is (t : State) (v : Nat) : Prop := ∀ j, t.mgmt.sems.getD j 0 = if j = i then v else s.mgmt.sems.getD j 0
     let x := s.mgmt.sems.getD i 0
     (otherSem m s.agenda = none →
       (∃ t, exec (.semAcquire m i) s = .next t ∧ t.mem = s.mem ∧ t.agenda = s.agenda ∧ is t (if x = 0 then m + 1 else x) ∧
         t.mgmt.semAnswer.getD m 0 = if x = 0 then m + 1 else x) ∧
       (∃ t, exec (.semRelease m i) s = .next t ∧ t.mem = s.mem ∧ t.agenda = s.agenda ∧ is t (if x = m + 1 then 0 else x) ∧
         t.mgmt.semAnswer.getD m 0 = if x = m + 1 then 0 else x)) ∧
     (∀ es, s.agenda = .semAcquire (1 - m) i :: es → x = 0 →
       (s.mgmt.semLoser = none → ∃ t, exec (.semAcquire m i) s = .next t ∧ t.agenda = es ∧ is t 1 ∧ t.mgmt.semLoser = some 1 ∧
         t.mgmt.semAnswer = [1, 1]) ∧
       (∀ l < 2, s.mgmt.semLoser = some l → ∃ t, exec (.semAcquire m i) s = .next t ∧ t.agenda = es ∧ is t (l + 1) ∧
         t.mgmt.semLoser = some (1 - l) ∧ t.mgmt.semAnswer = [l + 1, l + 1])))) ∧
  ((∀ (s : State) (r : HostReg) (x : DWord), s.mgmt.powered = false → exec (.registerWrite r x) s = .next s) ∧
   (∀ (s : State) (x : DWord), s.mgmt.powered = true →
     let n := x.toNat
     let w : Word := BitVec.ofNat 32 n
     let sets (r : HostReg) (g : Mgmt) : Prop := exec (.registerWrite r x) s = .next { s with mgmt := g }
     (sets .dlsize (if s.mgmt.launched = true ∨ 16 < n % 2 ^ 32 then s.mgmt else { s.mgmt with dlsize := n % 2 ^ 32 })) ∧
     (sets .burnlog (if s.mgmt.ready = true ∨ n % 2 ^ 32 < 16 ∨ 4096 < n % 2 ^ 32 then s.mgmt else { s.mgmt with burnlog := n % 2 ^ 32 })) ∧
     (sets .podcfg { s.mgmt with podcfg := w &&& 0x3F003F }) ∧ (sets .trbase { s.mgmt with trbase := n }) ∧
     (sets .trlog { s.mgmt with trlog := n % 256 }) ∧ (sets .trctl { s.mgmt with trctl := w &&& 3 }) ∧ (sets .trhead { s.mgmt with trhead := w }) ∧
     (∀ v, s.vf? v.id = some v →
       let takes (r : HostReg) (u : Vf) : Prop := ∃ t, exec (.registerWrite r x) s = .next t ∧ t.mem = s.mem ∧ t.threads = s.threads ∧
         t.mgmt = s.mgmt ∧ t.vf? v.id = some u ∧ ∀ i, i ≠ v.id → t.vf? i = s.vf? i
       takes (.share v.id) (if n = 0 ∨ 255 < n then v else { v with share := n }) ∧
       takes (.ptroot v.id) { v with ptroot := n / 4096 * 4096 } ∧ takes (.fqbase v.id) { v with fqbase := n } ∧ takes (.fqlog v.id) { v with fqlog := n % 256 } ∧
       takes (.savebase v.id) { v with savebase := n } ∧ takes (.savestride v.id) { v with savestride := n % 2 ^ 32 } ∧
       takes (.saveslots v.id) { v with saveslots := n % 2 ^ 32 } ∧ takes (.dbgctl v.id) { v with dbgctl := w &&& 1 } ∧
       takes (.eyebuf v.id) { v with eyebuf := n } ∧ takes (.lcount v.id) { v with lcount := n } ∧ takes (.migepoch v.id) { v with migepoch := w } ∧
       (∀ i < 4, v.watches.length = 4 → let p := v.watches.getD i ⟨0, 0, 0⟩
         takes (.watchVa v.id i) { v with watches := v.watches.set i { p with va := n } } ∧
         takes (.watchLen v.id i) { v with watches := v.watches.set i { p with len := n % 2 ^ 32 } } ∧
         takes (.watchKinds v.id i) { v with watches := v.watches.set i { p with kinds := n % 4 } }) ∧
       (∀ i, ∃ u, takes (.replica v.id i) u ∧ ∀ j, u.replSet j =
         if j = i ∧ i < 256 then (n % 256, [n / 2 ^ 8 % 256, n / 2 ^ 16 % 256, n / 2 ^ 24 % 256].filter (fun d => d != 255)) else v.replSet j) ∧
       (∀ q < 16, v.queues.length = 16 →
         let one (u : Vf) (f : Queue → Prop) : Prop := f (u.queue q) ∧ ∀ p < 16, p ≠ q → u.queue p = v.queue p
         (∃ u, takes (.qbase v.id q) u ∧ one u (fun y => y = { v.queue q with base := n, since := s.clock.toNat })) ∧
         (∃ u, takes (.qlogsize v.id q) u ∧ one u (fun y => y = { v.queue q with logsize := n % 256, since := s.clock.toNat })) ∧
         (∃ u, takes (.lgroup v.id q) u ∧ one u (fun y => y = { v.queue q with lgroup := x &&& 0x3F3FFFFFFFFF }))))) ∧
   (∀ (s : State) (m : Nat) (v : Vf) (va : Nat) (bs : List Byte) (ds : List Die) (g : GAddr), s.vf? v.id = some v → m < 2 → bs ≠ [] →
     s.mgmt.writes = [] → va % 128 + bs.length ≤ 128 → (s.masterTouch v.id).partHolds v 0 va ds g → g.pa % 128 = va % 128 → s.sound →
     ∃ t, exec (.masterMemoryWrite m v.id va bs) s = .next t ∧
       t.threads.map (fun u => (u.id, u.pc, u.regs)) = s.threads.map (fun u => (u.id, u.pc, u.regs)) ∧
       (∀ x ∈ t.launches, x.vf = v.id → x.unrollable = true) ∧
       PartWrote s t g.pa bs))

/-- R100, R307, R309 to R311: a VF is created with its contract, has its quotas and dies set, is migrated with its time, and is destroyed. The first values of a VF that R307 does not give are log entry 1, and some of the refused writes log entry 28 (DESIGN CHOICE). -/
def Obligations.VirtualFunctionsComeAndGo : Prop :=
  ((∀ (s : State) (vf : Nat) (f0 f1 : Word),
     let dies := (f1.toNat / 2 ^ 12) % 32 + 1
     let fits : Prop := f0.toNat < 2 ^ 11 ∧ f1.toNat < 2 ^ 17 ∧ dies ≤ 24 ∧ f1.toNat % 2 ^ 12 * 2 ^ 30 ≤ s.packageBytes
     ((s.mgmt.powered = false ∨ 64 ≤ vf ∨ (s.vf? vf).isSome = true ∨ ¬ fits) → exec (.vfCreate vf f0 f1) s = .next s) ∧
     (s.mgmt.powered = true → vf < 64 → s.vf? vf = none → fits →
       ∃ t w, exec (.vfCreate vf f0 f1) s = .next t ∧ t.mem = s.mem ∧ t.vfs = s.vfs ++ [w] ∧ t.vf? vf = some w ∧ w.feature0 = f0 ∧ w.feature1 = f1 ∧
         (∀ i < 32, w.diemask.getLsbD i = decide (i < dies)) ∧ w.savebase = 0 ∧ w.savestride = 0 ∧ w.saveslots = 0 ∧ w.preempt = 0 ∧
         w.migctl = 0 ∧ w.vclkoff = 0 ∧ w.migtime = 0 ∧ (∀ i, w.replSet i = (0xFF, [])) ∧ ∀ k, t.quota k vf = 0)) ∧
   (∀ (s : State) (v : Vf) (k : CoreId) (n : Nat), s.vf? v.id = some v →
     let others := ((s.vfs.filter (fun x => x.id != v.id)).map (fun x => s.quota k x.id)).foldl (· + ·) 0
     ((64 < others + n ∨ 24 ≤ k.die ∨ 52 ≤ k.core) → exec (.frameQuota v.id k n) s = .next s) ∧
     (others + n ≤ 64 → k.die < 24 → k.core < 52 → ∃ t, exec (.frameQuota v.id k n) s = .next t ∧ t.mem = s.mem ∧ t.quota k v.id = n ∧
       ∀ j w, (j ≠ k ∨ w ≠ v.id) → t.quota j w = s.quota j w)) ∧
   (∀ (s : State) (v : Vf) (x : Word), s.vf? v.id = some v →
     let count := ((List.range 32).filter (fun i => x.getLsbD i)).length
     ((count ≠ (v.feature1.toNat / 2 ^ 12) % 32 + 1 ∨ 2 ^ 24 ≤ x.toNat ∨ v.accepted ≠ 0 ∨ v.restored = true) → exec (.diemask v.id x) s = .next s) ∧
     (count = (v.feature1.toNat / 2 ^ 12) % 32 + 1 → x.toNat < 2 ^ 24 → v.accepted = 0 → v.restored = false → (∀ m ∈ s.teams, launchVf m.launch ≠ v.id) →
       ∃ t, exec (.diemask v.id x) s = .next t ∧ t.mem = s.mem ∧ t.vf? v.id = some { v with diemask := x })) ∧
   (∀ (s : State) (vf : Nat),
     (s.vf? vf = none → exec (.vfDestroy vf) s = .next s) ∧
     ((s.vf? vf).isSome = true → ∃ t, exec (.vfDestroy vf) s = .next t ∧ t.mem = s.mem ∧ t.vf? vf = none ∧ (∀ w, w ≠ vf → t.vf? w = s.vf? w) ∧
       (∀ x ∈ t.launches, x.vf ≠ vf) ∧ (∀ r ∈ t.requests, launchVf r.t.launch ≠ vf) ∧ (∀ e ∈ t.engines, e.vf ≠ vf) ∧ (∀ r ∈ t.records, r.vf ≠ vf) ∧
       (∀ u ∈ t.others, ∀ x ∈ s.launches, x.vf = vf → u.id.launch ≠ x.id) ∧ (∀ k, ∀ e ∈ (t.core k).tlb, e.vf ≠ vf)))) ∧
  (∀ (s : State) (v : Vf), s.vf? v.id = some v →
     (∃ t w, exec (.migctl v.id 1) s = .next t ∧ t.mem = s.mem ∧ t.threads = s.threads ∧ t.vf? v.id = some w ∧ w.migctl = 1 ∧
       ∀ m ∈ s.teams, (m.st = .resident ∨ m.st = .pinning) → (∃ x ∈ s.launches, x.id = m.launch ∧ x.vf = v.id) →
         { m with st := .saving, auto := false } ∈ t.teams) ∧
     (∀ x : Word, x ≠ 1 → ∃ t w, exec (.migctl v.id x) s = .next t ∧ t.mem = s.mem ∧ t.teams = s.teams ∧ t.vf? v.id = some w ∧ w.migctl = 0) ∧
     (v.migctl ≠ 1 → exec (.migrationQuiesced v.id) s = .next s) ∧
     ((∃ m ∈ s.teams, launchVf m.launch = v.id ∧ (m.st = .resident ∨ m.st = .pinning ∨ m.st = .saving ∨ s.outstanding m.launch m.idx ≠ 0)) →
       exec (.migrationQuiesced v.id) s = .next s) ∧
     (v.migctl = 1 → (∀ m ∈ s.teams, launchVf m.launch = v.id → m.st ≠ .resident ∧ m.st ≠ .pinning ∧ m.st ≠ .saving ∧ s.outstanding m.launch m.idx = 0) →
       (∀ e ∈ s.engines, e.vf = v.id → e.st = .reissue) → (∀ b ∈ s.barriers, b.vf = v.id → 2 < b.scope ∨ b.spilled = true) →
       ∃ t, exec (.migrationQuiesced v.id) s = .next t ∧ t.mem = s.mem ∧ t.vf? v.id = some { v with migctl := 2, migtime := s.clock + v.vclkoff }) ∧
     (∀ x : DWord, ((v.accepted ≠ 0 ∨ v.restored = true) → exec (.vtime v.id x) s = .next s) ∧
       (v.accepted = 0 → v.restored = false → ∃ t, exec (.vtime v.id x) s = .next t ∧ t.mem = s.mem ∧ t.vf? v.id = some { v with vclkoff := x - s.clock + 1 } ∧
         t.vfTime v.id = x + 1)))

/-- R327 to R331: a single fault is corrected where it is read, two of one word poison it, and poisoned data that is consumed rolls the
context back or kills it. Which places make up one word, and the moment of a correction, are log entry 26 (DEDUCED). R331: an interval closes once its units have ended, and its held signals are written then. -/
def Obligations.FaultsAreCorrectedOrRolledBack : Prop :=
  ((∀ (s : State) (f : FaultLoc), s.poison = [] →
     (s.flips = [] → exec (.singleFault f) s = .next { s with flips := [f] }) ∧
     (∀ g, s.flips = [g] → sameWord f g = true → sameSymbol f g = false →
       exec (.singleFault f) s = .next { s with flips := [], poison := wordOf f })) ∧
   (∀ (s : State) (sp : Bool) (d a b : Reg) (bit : Nat), (sp = true → s.cur.queue = []) → s.fits d 1 → s.fits a 1 → s.fits b 1 →
     let here : FaultLoc := .register s.cur.id (s.cur.idx a) bit
     (s.flips = [here] → s.poison = [] →
       ∃ t, exec (.add sp d a b) s = .next t ∧ t.flips = [] ∧ t.poison = [] ∧ t.consumed = s.consumed ∧ t.mem = s.mem ∧
         t.cur.regs = s.cur.regs.set (s.cur.idx d) (s.cur.w a + s.cur.w b)) ∧
     (s.flips = [] → s.poison = [here] → (∀ c ∈ s.consumed, c.1 ≠ launchVf s.cur.id.launch) →
       ∃ t, exec (.add sp d a b) s = .next t ∧ t.consumed = s.consumed ++ [(launchVf s.cur.id.launch, s.curCore, here)] ∧ t.mem = s.mem ∧
         t.cur.regs = s.cur.regs)) ∧
   (∀ (s : State) (v : Vf) (k : CoreId) (bad : FaultLoc), s.vf? v.id = some v → s.consumed.find? (fun c => c.1 == v.id) = some (v.id, k, bad) →
     (s.rollable v.id bad = false ↔ (∃ l ∈ s.launches, l.vf = v.id ∧ l.unrollable = true) ∨
       ∃ i ∈ s.openIntervals v.id, ∃ b ∈ i.bad, sameLine bad b = true) ∧
     (∀ a i, bad = .memory a i → ∀ b, sameLine bad b = true ↔ (∃ c j, b = .memory c j ∧ c / 128 = a / 128) ∨
       (∃ k' c j, b = .l1 k' (a / 128) c j) ∨ (∃ d c j, b = .l2 d (a / 128) c j) ∨ ∃ d c, b = .l2tag d (a / 128) c) ∧
     (s.rollable v.id bad = false → ∃ t, exec (.uncorrectableConsumed v.id) s = .next t ∧ t.mem = s.mem ∧ t.threads = s.threads ∧
       (∀ c ∈ t.consumed, c.1 ≠ v.id) ∧
       (∀ x, s.launch? x.id = some x → x.vf = v.id → x.kill = none → (t.launch? x.id).map (fun y => y.kill) = some (some (0x0E, k))) ∧
       (∀ x, s.launch? x.id = some x → (∀ y ∈ s.launches, y.id = x.id → y.vf ≠ v.id) → t.launch? x.id = some x)) ∧
     (s.rollable v.id bad = true →
       let is := s.openIntervals v.id
       let units := is.flatMap (fun i => i.units)
       ∃ t, exec (.uncorrectableConsumed v.id) s = .next t ∧ (∀ x ∈ t.launches, x.vf ≠ v.id) ∧
         (s.tracing = false → (∀ i ∈ is, ∀ e ∈ i.log, e.2.length = 128) → ∀ line e,
           (is.flatMap (fun i => i.log.reverse)).find? (fun x => x.1 == line) = some e →
           ∀ k < 128, some (t.mem.get (line * 128 + k)) = e.2[k]?) ∧
         (∀ q < 16, v.queues.length = 16 → ∀ u, units.find? (fun x => x.1 == q) = some u →
           ∃ w, t.vf? v.id = some w ∧ (w.queue q).head = u.2.1 ∧ (w.queue q).busy = none ∧ (w.queue q).chain = none) ∧
         (units ≠ [] → ∃ i ∈ t.intervals, i.vf = v.id ∧ i.taking = true ∧ i.units = units.map (fun u => (u.1, u.2.1, [])) ∧ bad ∈ i.bad)))) ∧
  (∀ (s : State) (v : Vf) (i : Interval), s.vf? v.id = some v → s.intervals.find? (fun x => x.vf == v.id) = some i →
     ((i.wait.isSome = true ∨ ∃ u ∈ i.units, u.2.2 = [] ∨ ∃ l ∈ u.2.2, (s.launch? l).isSome = true) → exec (.intervalClose v.id) s = .next s) ∧
     (i.wait = none → (∀ c ∈ s.consumed, c.1 ≠ v.id) → s.flips = [] → (∀ u ∈ i.units, u.2.2 ≠ [] ∧ (∀ l ∈ u.2.2, s.launch? l = none) ∧ (v.queue u.1).chain = none) →
       (∀ a b, s.poison = [.memory a b] → ((∃ e ∈ i.log, e.1 = a / 128) ∨ a / 128 ∈ i.unlogged) →
         ∃ t, exec (.intervalClose v.id) s = .next t ∧ t.mem = s.mem ∧ t.intervals = s.intervals ∧ ∃ c ∈ t.consumed, c.1 = v.id) ∧
       (s.poison = [] → i.signals = [] → exec (.intervalClose v.id) s = .next { s with intervals := s.intervals.eraseP (fun x => x.vf == v.id) }) ∧
       (∀ q l va x ds g, i.signals = [(q, l, va, x)] → s.partHolds v l va ds g → va % 8 = 0 → g.pa % 128 = va % 128 → s.sound →
         ∃ t, exec (.intervalClose v.id) s = .next t ∧ t.intervals.length + 1 = s.intervals.length ∧
           PartWrote s t g.pa ((List.range 8).map (fun j => BitVec.ofNat 8 (x / 256 ^ j))))))

/-- R329, R330, R333: a replayed cycle and a rebuilt scheduler change nothing a program sees; a domain's voltage follows its rate. -/
def Obligations.TheReliabilityControllerKeepsThePartGoing : Prop :=
  (∀ (s : State) (k : CoreId) (q : Nat),
    let errs (t : State) : Option Nat := ((t.die k.die).doms[k.core / 4]?).map (fun x => x.errs)
    ((q, s.cycle) ∉ (s.core k).replays → ∃ t, exec (.timingReplay k q) s = .next t ∧ t.mem = s.mem ∧ t.threads = s.threads ∧ t.consumed = s.consumed ∧
      (q, s.cycle) ∈ (t.core k).replays ∧ errs t = (errs s).map (fun n => n + 1)) ∧
    (∀ b m ms, (q, s.cycle) ∈ (s.core k).replays → (s.core k).bundles.getD q none = some b → b.members = m :: ms →
      (∀ c ∈ s.consumed, c.1 ≠ launchVf b.launch) →
      ∃ t f, exec (.timingReplay k q) s = .next t ∧ t.mem = s.mem ∧ t.threads = s.threads ∧ t.consumed = s.consumed ++ [(launchVf b.launch, k, f)] ∧
        errs t = errs s)) ∧
  (∀ (s : State) (d q : Nat), s.flips = [] → s.poison = [] →
    ∃ t, exec (.schedulerRebuild d q) s = .next t ∧ t.mem = s.mem ∧ t.threads = s.threads ∧ t.crews = s.crews ∧ t.teams = s.teams ∧
      t.barriers = s.barriers ∧ (∃ n ≤ 4096, (q, s.cycle + n) ∈ (t.die d).rebuilding) ∧ (∀ c ∈ t.cores, c.id.die = d → c.id.core / 4 = q → c.bundles = [none, none, none, none]) ∧
      ∀ u ∈ t.issueQ, ¬ ((s.coreOf u.launch u.team).die = d ∧ (s.coreOf u.launch u.team).core / 4 = q)) ∧
  (∀ (s : State) (d n : Nat) (x : VDomain), (s.die d).doms[n]? = some x →
    let nominal := Config.nominalSteps d n
    (s.clock.toNat < (x.evals + 1) * 1000000 → exec (.voltageEvaluation d n) s = .next s) ∧
    ((x.evals + 1) * 1000000 ≤ s.clock.toNat →
      ∃ t y, exec (.voltageEvaluation d n) s = .next t ∧ t.mem = s.mem ∧ t.threads = s.threads ∧ (t.die d).doms[n]? = some y ∧ y.errs = 0 ∧
        (64 < x.errs → y.steps = min (x.steps + 1) nominal ∧ y.good = 0) ∧
        (x.errs ≤ 32 → x.good + 1 ≠ 1024 → y.steps = x.steps ∧ y.good = x.good + 1) ∧
        (x.errs ≤ 32 → x.good + 1 = 1024 → y.steps = x.steps - 1 ∧ y.good = 0) ∧
        (32 < x.errs → x.errs ≤ 64 → y.steps = x.steps ∧ y.good = 0) ∧
        (64 < x.errs → nominal ≤ x.steps → x.bad = 7 → t.mgmt.predFail = true ∧ t.mgmt.interrupts = s.mgmt.interrupts ++ [64]) ∧
        (x.errs ≤ 64 → t.mgmt = s.mgmt)))

/-- R19, R201, R325, R334 to R336: power-on and READY; a die is throttled and returns, and capture stops after the last throttle end. The values of a fresh core or die that the spec does not give are log entry 1, and memory that reads 0 where unlisted is log entry 2. -/
def Obligations.ThePartComesUpAndIsThrottled : Prop :=
  (∀ g : Mgmt, g.failing < 256 → g.mstatus.getLsbD 0 = g.ready ∧ g.mstatus.getLsbD 1 = g.calfail ∧ g.mstatus.getLsbD 2 = g.memInit ∧
    g.mstatus.getLsbD 3 = g.predFail ∧ g.mstatus.toNat / 256 = g.failing) ∧
  (∀ (s : State) (f : Option Nat),
    (s.mgmt.powered = true → exec (.powerOn f) s = .next s) ∧
    (∀ e, f = some e → (24 ≤ e / 8 ∨ 5 ≤ e % 8) → exec (.powerOn f) s = .next s) ∧
    (s.mgmt.powered = false → (∀ e, f = some e → e / 8 < 24 ∧ e % 8 < 5) → ∃ t, exec (.powerOn f) s = .next t ∧ t.mem = s.mem ∧ t.mgmt.powered = true ∧ t.mgmt.ready = s.mgmt.ready ∧
      (f = none → t.mgmt.memInit = true ∧ t.mgmt.calfail = s.mgmt.calfail) ∧
      (∀ e, f = some e → t.mgmt.calfail = true ∧ t.mgmt.memInit = s.mgmt.memInit ∧ t.mgmt.failing = e)) ∧
    (s.mgmt.memInit = false → exec (.memoryInitComplete) s = .next s) ∧
    (s.mgmt.memInit = true → ∃ t, exec (.memoryInitComplete) s = .next t ∧ t.mgmt.ready = true ∧ t.mgmt.memInit = false ∧ t.clock = 0 ∧ t.cycle = 0 ∧
      t.mgmt.semLoser = none ∧ (∀ a, t.mem.get a = if homeOf a < 24 then 0 else s.mem.get a) ∧ (∀ k, t.core k = Core.fresh k) ∧ ∀ d, t.die d = Die.fresh d)) ∧
  (∀ (s : State) (d : Nat),
    (∃ t, exec (.throttleStart d) s = .next t ∧ t.threads.map (fun u => (u.id, u.pc, u.regs)) = s.threads.map (fun u => (u.id, u.pc, u.regs)) ∧
      t.clock = s.clock ∧ (t.die d).throttled = true ∧ (t.die d).slow = min ((s.die d).slow + 1) 20 ∧
      ((s.die d).throttled = false → s.mgmt.trctl.getLsbD 0 = true → t.mgmt.capturing = true)) ∧
    ((s.die d).throttled = false → exec (.throttleEnd d) s = .next s) ∧
    ((s.die d).throttled = true → ∃ t, exec (.throttleEnd d) s = .next t ∧
      t.threads.map (fun u => (u.id, u.pc, u.regs)) = s.threads.map (fun u => (u.id, u.pc, u.regs)) ∧ t.clock = s.clock ∧
      (t.die d).throttled = false ∧ (t.die d).slow = 0 ∧ t.mgmt.throttleEnd = s.clock.toNat)) ∧
  (∀ (s : State),
    ((s.mgmt.capturing = false ∨ (∃ d ∈ s.dies, d.throttled = true) ∨ s.clock.toNat < s.mgmt.throttleEnd + 1000000) →
      exec (.traceCaptureStop) s = .next s) ∧
    (s.mgmt.capturing = true → (∀ d ∈ s.dies, d.throttled = false) → s.mgmt.throttleEnd + 1000000 ≤ s.clock.toNat →
      exec (.traceCaptureStop) s = .next { s with mgmt := { s.mgmt with capturing := false } }))

/-- R34 to R38: the word of a well-formed instruction decodes to it, and every word that decodes is the word of what it decodes to. -/
def Obligations.DecodingAndEncodingAgree : Prop :=
  (∀ i w, wellFormed i = true → encode i = some w → decodeWord w = .ok i) ∧
  (∀ w i, decodeWord w = .ok i → wellFormed i = true ∧ encode i = some w)

/-- R34, R59, R61: words as the spec writes them out, a few of each family, and what they decode to or why they do not. -/
def Obligations.WordsDecodeAsTheSpecWritesThem : Prop :=
  decodeWord 0x00000000 = .ok (.add false 0 0 0) ∧
  decodeWord 0x70000000 = .ok (.nop false) ∧
  decodeWord 0xF0000000 = .ok (.nop true) ∧
  decodeWord 0x70208000 = .ok (.rds false 2 0) ∧
  decodeWord 0x70250024 = .ok (.rds false 20 36) ∧
  decodeWord 0x70400180 = .error (.illegal 6) ∧
  decodeWord 0x78E14123 = .ok (.reservedHint false 7 5 2 35) ∧
  decodeWord 0x78000200 = .ok (.pref false 4) ∧
  decodeWord 0x7D000000 = .error (.illegal 2) ∧
  decodeWord 0xFFFFFFFF = .error (.illegal 2) ∧
  decodeWord 0x3CC10400 = .ok (.ld32 false 3 2 4 0) ∧
  decodeWord 0x05010003 = .error (.illegal 5) ∧
  decodeWord 0x04408181 = .error (.illegal 3) ∧
  decodeWord 0x50000008 = .error (.illegal 4) ∧
  decodeWord 0x2F000000 = .error (.illegal 1) ∧
  decodeWord 0x4A018208 = .ok (.aadd false 1 6 4 8) ∧
  decodeWord 0x4C018208 = .ok (.aadd false 2 6 4 8) ∧
  decodeBytes [0x08, 0x82, 0x01, 0x4C] = some (.ok (.aadd false 2 6 4 8), [])

/-- R34, R59: one step runs the word at the pc of the next thread to issue; an event of the agenda comes before it. -/
def Obligations.AStepRunsTheDecodedInstruction : Prop :=
  (∀ (s : State) (id : ThreadId) (ids : List ThreadId) (u : Thread) (w : Word), s.agenda = [] → s.issueQ = id :: ids → s.thread? id = some u →
    s.readyBut u = true → s.atBundle u = true → s.rebuilds (s.coreOf id.launch id.team) = false → s.consumed = [] → s.flips = [] → s.poison = [] → (s.launch? id.launch).isSome = true →
    let vf := launchVf id.launch
    let k := s.coreOf id.launch id.team
    let on := ({ s with issueQ := ids } : State).focus id
    let t : State := { on with ran := on.ran ++ [id] }
    t.cur = u ∧
    (s.segState k vf (s.coidOf id.launch) (segOf u.pc) = .resident → s.fetch k id.launch u.pc = some w →
      (∀ i, decodeWord w = .ok i → step s = exec i t) ∧ (∀ f, decodeWord w = .error f → step s = exec (.illegalWordFetch f) t)) ∧
    (s.segState k vf (s.coidOf id.launch) (segOf u.pc) = .resident → s.fetch k id.launch u.pc = none → step s = exec (.illegalWordFetch .codebound) t)) ∧
  (∀ (s : State) (e : Event) (es : List Event), s.agenda = e :: es → step s = e.run { s with agenda := es }) ∧
  (∀ e : Event, ∃ i, ∀ s, e.run s = exec i s) ∧
  (∀ s : State, s.agenda = [] → s.issueQ = [] → ∃ t, step s = .next t ∧ t.mem = s.mem ∧ t.threads = s.threads ∧
    (s.mgmt.ready = true → t.cycle = s.cycle + 1 ∧ (t.clock = s.clock ∨ t.clock = s.clock + 1)))

/-- Every step that answers a next state leaves memory in canonical form where it was (the model's own form of memory). -/
def Obligations.StepsKeepMemoryCanonical : Prop :=
  ∀ s t : State, s.memoryCanonical → step s = .next t → t.memoryCanonical

/-- Every instruction and event answers a next state in every state, and a step stops only for a thread of no launch. -/
def Obligations.NothingIsRefused : Prop :=
  (∀ (i : Instr) (s : State), ∃ t, exec i s = .next t) ∧
  (∀ s : State, (∀ u ∈ s.threads, (s.launch? u.id.launch).isSome = true) → ∃ t, step s = .next t) ∧
  (∀ (s : State) (f : Fault), step s = .fault f → f = .noLaunch ∧ ∃ u ∈ s.threads, s.launch? u.id.launch = none)

/-- R302, R325, R334 to R335: the package before power-on, and memory that lists nothing. The 0 of the registers for which the spec states none is log entry 1, that of an unlisted byte log entry 2 (DESIGN CHOICE). -/
def Obligations.ResetIsThePartBeforePowerOn : Prop :=
  let s := State.reset
  s.memoryCanonical ∧ (∀ a, s.mem.get a = 0) ∧ s.mgmt.ready = false ∧ s.mgmt.calfail = false ∧ s.mgmt.memInit = false ∧ s.mgmt.predFail = false ∧
  s.mgmt.dlsize = 0 ∧ s.mgmt.burnlog = 256 ∧ s.mgmt.podcfg = 0 ∧ s.mgmt.trbase = 0 ∧ s.mgmt.trlog = 0 ∧ s.mgmt.trctl = 0 ∧ s.mgmt.trtail = 0 ∧
  s.mgmt.trdrop = 0 ∧ s.mgmt.trhead = 0 ∧ (∀ i, s.mgmt.sems.getD i 0 = 0) ∧ s.vfs = [] ∧ s.launches = [] ∧ s.teams = [] ∧
  (∀ d, (s.die d).v = List.replicate 24 0) ∧ (∀ k, (s.core k).permits = 0 ∧ (s.core k).scClock = 0 ∧ (s.core k).lamport = 0)

/-- R13, R24, R39, R59: a switch point parks a thread with results pending before anything else of its word; then come the registers
beyond the allocation, D before A before B. -/
def Obligations.WordsParkOrTrapBeforeTheyIssue : Prop :=
  (∀ (i : Instr) (w : Word) (s : State), encode i = some w → w.getLsbD 31 = true → s.cur.queue ≠ [] →
    exec i s = .next (s.parkCur .switchParked)) ∧
  (∀ (s : State) (sp : Bool) (d a b : Reg) (sc : BitVec 3), s.cur.queue ≠ [] →
    ∀ i ∈ [Instr.bar sp a sc, .barw sp a sc, .waitcEq sp d a b, .waitcNe sp d a b, .waitcGeS32 sp d a b, .waitcGeN32 sp d a b,
      .waitcLtS32 sp d a b, .waitcLtN32 sp d a b, .exit sp], exec i s = .next (s.parkCur .switchParked)) ∧
  (∀ (s : State) (sp : Bool) (d a b : Reg) (pol sc : BitVec 2) (off : BitVec 8), 16 ≤ s.cur.queue.length →
    ∀ i ∈ [Instr.ld8S sp pol d a off, .ld8N sp pol d a off, .ld16S sp pol d a off, .ld16N sp pol d a off, .ld32 sp pol d a off,
      .ld64 sp pol d a off, .ld128 sp pol d a off, .ldu sp d a, .ldsc sp d a, .sld32 sp d a, .sld64 sp d a, .qld32 sp d a, .recfl sp d a,
      .task sp d a, .djob sp d a, .ovld sp d a, .ovtok sp d a, .ovq sp d a, .sunmap sp d a, .proofq sp d a, .aadd sp sc d a b,
      .aadd64 sp sc d a b, .aminS32 sp sc d a b, .aminN32 sp sc d a b, .amaxS32 sp sc d a b, .amaxN32 sp sc d a b, .aand sp sc d a b,
      .aor sp sc d a b, .axor sp sc d a b, .axchg sp sc d a b, .axchg64 sp sc d a b, .acas sp sc d a b, .acas64 sp sc d a b,
      .afadd sp sc d a b, .afadd64 sp sc d a b, .aincw sp sc d a b, .cassc sp d a b, .copy sp d a b, .copym sp d a b, .dprog sp d a b,
      .smap sp d a b, .cload sp d a b, .crun sp d a b, .proof sp d a b, .launch sp d a b, .work sp d, .steal sp d, .sget sp d], exec i s = .next (s.parkCur .switchParked)) ∧
  (∀ (s : State) (sp : Bool) (d a b : Reg) (pol sc : BitVec 2) (imm : BitVec 10) (sh : BitVec 5) (big : BitVec 18) (sel : BitVec 7)
    (off : BitVec 8) (br : BitVec 17) (bs : BitVec 3),
    let n := s.cur.regs.length
    let out (r : Reg) (w : Nat) : Prop := 1 ≤ w ∧ n < s.cur.idx r + w
    ∀ x ∈ registerForms sp d a b pol sc imm sh big sel off br bs, ∀ i ∈ x.2.2.2, (s.cur.queue = [] ∨ exec i s ≠ .next (s.parkCur .switchParked)) →
      (out d x.1 → exec i s = .next (s.raise 3 d.toNat 0)) ∧
      (¬ out d x.1 → out a x.2.1 → exec i s = .next (s.raise 3 (a.toNat + 256) 0)) ∧
      (¬ out d x.1 → ¬ out a x.2.1 → out b x.2.2.1 → exec i s = .next (s.raise 3 (b.toNat + 512) 0)))

/-- R65 to R67, R81 to R96: a word of fixed latency on registers changes its destination, its own flags and the pc, whatever becomes of it. -/
def Obligations.RegisterWordsChangeTheirDestinationAlone : Prop :=
  ∀ (s : State) (sp : Bool) (d a b : Reg) (imm : BitVec 10) (big : BitVec 18) (sh : BitVec 5), s.flips = [] → s.poison = [] →
    (∀ i ∈ [Instr.add sp d a b, .sub sp d a b, .mullo sp d a b, .mulhiS32 sp d a b, .mulhiN32 sp d a b, .mad sp d a b, .and sp d a b, .or sp d a b,
      .xor sp d a b, .andn sp d a b, .orn sp d a b, .shl sp d a b, .shr sp d a b, .sar sp d a b, .rotl sp d a b, .rotr sp d a b,
      .minS32 sp d a b, .minN32 sp d a b, .maxS32 sp d a b, .maxN32 sp d a b, .sad sp d a b, .sel sp d a b, .seteq sp d a b, .setne sp d a b,
      .setltS32 sp d a b, .setltN32 sp d a b, .setleS32 sp d a b, .setleN32 sp d a b, .clz sp d a, .popc sp d a, .brev sp d a, .sext8 sp d a, .sext16 sp d a, .bfxS32 sp d a b,
      .bfxN32 sp d a b, .bfi sp d a b, .seteq64 sp d a b, .setlt64S sp d a b, .setlt64N sp d a b, .mov sp d a, .addi sp d a imm, .andi sp d a imm,
      .ori sp d a imm, .xori sp d a imm, .shli sp d a sh, .shri sp d a sh, .sari sp d a sh, .setltiS32 sp d a imm, .lds sp d big, .ldh sp d big,
      .orl sp d big, .addpc sp d big], ChangesOnly s d 1 false false i) ∧
    (∀ i ∈ [Instr.mulwS32 sp d a b, .mulwN32 sp d a b, .add64 sp d a b, .sub64 sp d a b, .shl64 sp d a b, .shr64 sp d a b, .sar64 sp d a b,
      .mad64N32 sp d a b, .mad64S32 sp d a b, .mov64 sp d a], ChangesOnly s d 2 false false i) ∧
    (∀ i ∈ [Instr.divS32 sp d a b, .divN32 sp d a b, .remS32 sp d a b, .remN32 sp d a b], ChangesOnly s d 1 true false i) ∧
    (∀ i ∈ [Instr.fadd sp d a b, .fsub sp d a b, .fmul sp d a b, .fma sp d a b, .fmin sp d a b, .fmax sp d a b, .fdiv sp d a b, .fsqrt sp d a,
      .frcp sp d a, .frsq sp d a, .fexp2 sp d a, .flog2 sp d a, .fabs sp d a, .fneg sp d a, .frint sp d a, .fclass sp d a, .fseteq sp d a b,
      .fsetlt sp d a b, .fsetle sp d a b, .fsetun sp d a b, .dseteq sp d a b, .dsetlt sp d a b, .dsetle sp d a b, .hadd2 sp d a b,
      .hmul2 sp d a b, .hfma2 sp d a b, .badd2 sp d a b, .bmul2 sp d a b, .bfma2 sp d a b, .packF16 sp d a b, .packBf16 sp d a b,
      .qntN8 sp d a b, .dqntN8 sp d a b,
      .cvtF32S32 sp d a, .cvtF32N32 sp d a, .cvtS32F32 sp d a, .cvtN32F32 sp d a, .cvtF32F64 sp d a, .cvtS32F64 sp d a],
      ChangesOnly s d 1 false true i) ∧
    (∀ i ∈ [Instr.dadd sp d a b, .dsub sp d a b, .dmul sp d a b, .dfma sp d a b, .dmin sp d a b, .dmax sp d a b, .ddiv sp d a b, .dsqrt sp d a,
      .drint sp d a, .cvtF64F32 sp d a, .cvtF64S32 sp d a, .cvtF64S64 sp d a, .cvtS64F64 sp d a, .cvtF64N64 sp d a, .cvtN64F64 sp d a,
      .unpkF16 sp d a, .unpkBf16 sp d a], ChangesOnly s d 2 false true i)
end

