-- ==== Sys2Proof/Laws/Arms.lean ====
section
/-! SUPPORT. The arms of `exec`, one equation each: what a constructor's dispatch calls. -/

namespace Sys2Proof.Machine

theorem exec_add (sp : Bool) (d : Reg) (a : Reg) (b : Reg) (s : State) : exec (.add sp d a b) s = execAdd sp d a b s := rfl
theorem exec_sub (sp : Bool) (d : Reg) (a : Reg) (b : Reg) (s : State) : exec (.sub sp d a b) s = execSub sp d a b s := rfl
theorem exec_mullo (sp : Bool) (d : Reg) (a : Reg) (b : Reg) (s : State) : exec (.mullo sp d a b) s = execMullo sp d a b s := rfl
theorem exec_mulhiS32 (sp : Bool) (d : Reg) (a : Reg) (b : Reg) (s : State) : exec (.mulhiS32 sp d a b) s = execMulhiS32 sp d a b s := rfl
theorem exec_mulhiN32 (sp : Bool) (d : Reg) (a : Reg) (b : Reg) (s : State) : exec (.mulhiN32 sp d a b) s = execMulhiN32 sp d a b s := rfl
theorem exec_mulwS32 (sp : Bool) (d : Reg) (a : Reg) (b : Reg) (s : State) : exec (.mulwS32 sp d a b) s = execMulwS32 sp d a b s := rfl
theorem exec_mulwN32 (sp : Bool) (d : Reg) (a : Reg) (b : Reg) (s : State) : exec (.mulwN32 sp d a b) s = execMulwN32 sp d a b s := rfl
theorem exec_mad (sp : Bool) (d : Reg) (a : Reg) (b : Reg) (s : State) : exec (.mad sp d a b) s = execMad sp d a b s := rfl
theorem exec_divS32 (sp : Bool) (d : Reg) (a : Reg) (b : Reg) (s : State) : exec (.divS32 sp d a b) s = execDivS32 sp d a b s := rfl
theorem exec_divN32 (sp : Bool) (d : Reg) (a : Reg) (b : Reg) (s : State) : exec (.divN32 sp d a b) s = execDivN32 sp d a b s := rfl
theorem exec_remS32 (sp : Bool) (d : Reg) (a : Reg) (b : Reg) (s : State) : exec (.remS32 sp d a b) s = execRemS32 sp d a b s := rfl
theorem exec_remN32 (sp : Bool) (d : Reg) (a : Reg) (b : Reg) (s : State) : exec (.remN32 sp d a b) s = execRemN32 sp d a b s := rfl
theorem exec_and (sp : Bool) (d : Reg) (a : Reg) (b : Reg) (s : State) : exec (.and sp d a b) s = execAnd sp d a b s := rfl
theorem exec_or (sp : Bool) (d : Reg) (a : Reg) (b : Reg) (s : State) : exec (.or sp d a b) s = execOr sp d a b s := rfl
theorem exec_xor (sp : Bool) (d : Reg) (a : Reg) (b : Reg) (s : State) : exec (.xor sp d a b) s = execXor sp d a b s := rfl
theorem exec_andn (sp : Bool) (d : Reg) (a : Reg) (b : Reg) (s : State) : exec (.andn sp d a b) s = execAndn sp d a b s := rfl
theorem exec_orn (sp : Bool) (d : Reg) (a : Reg) (b : Reg) (s : State) : exec (.orn sp d a b) s = execOrn sp d a b s := rfl
theorem exec_shl (sp : Bool) (d : Reg) (a : Reg) (b : Reg) (s : State) : exec (.shl sp d a b) s = execShl sp d a b s := rfl
theorem exec_shr (sp : Bool) (d : Reg) (a : Reg) (b : Reg) (s : State) : exec (.shr sp d a b) s = execShr sp d a b s := rfl
theorem exec_sar (sp : Bool) (d : Reg) (a : Reg) (b : Reg) (s : State) : exec (.sar sp d a b) s = execSar sp d a b s := rfl
theorem exec_rotl (sp : Bool) (d : Reg) (a : Reg) (b : Reg) (s : State) : exec (.rotl sp d a b) s = execRotl sp d a b s := rfl
theorem exec_rotr (sp : Bool) (d : Reg) (a : Reg) (b : Reg) (s : State) : exec (.rotr sp d a b) s = execRotr sp d a b s := rfl
theorem exec_minS32 (sp : Bool) (d : Reg) (a : Reg) (b : Reg) (s : State) : exec (.minS32 sp d a b) s = execMinS32 sp d a b s := rfl
theorem exec_minN32 (sp : Bool) (d : Reg) (a : Reg) (b : Reg) (s : State) : exec (.minN32 sp d a b) s = execMinN32 sp d a b s := rfl
theorem exec_maxS32 (sp : Bool) (d : Reg) (a : Reg) (b : Reg) (s : State) : exec (.maxS32 sp d a b) s = execMaxS32 sp d a b s := rfl
theorem exec_maxN32 (sp : Bool) (d : Reg) (a : Reg) (b : Reg) (s : State) : exec (.maxN32 sp d a b) s = execMaxN32 sp d a b s := rfl
theorem exec_sad (sp : Bool) (d : Reg) (a : Reg) (b : Reg) (s : State) : exec (.sad sp d a b) s = execSad sp d a b s := rfl
theorem exec_sel (sp : Bool) (d : Reg) (a : Reg) (b : Reg) (s : State) : exec (.sel sp d a b) s = execSel sp d a b s := rfl
theorem exec_seteq (sp : Bool) (d : Reg) (a : Reg) (b : Reg) (s : State) : exec (.seteq sp d a b) s = execSeteq sp d a b s := rfl
theorem exec_setne (sp : Bool) (d : Reg) (a : Reg) (b : Reg) (s : State) : exec (.setne sp d a b) s = execSetne sp d a b s := rfl
theorem exec_setltS32 (sp : Bool) (d : Reg) (a : Reg) (b : Reg) (s : State) : exec (.setltS32 sp d a b) s = execSetltS32 sp d a b s := rfl
theorem exec_setltN32 (sp : Bool) (d : Reg) (a : Reg) (b : Reg) (s : State) : exec (.setltN32 sp d a b) s = execSetltN32 sp d a b s := rfl
theorem exec_setleS32 (sp : Bool) (d : Reg) (a : Reg) (b : Reg) (s : State) : exec (.setleS32 sp d a b) s = execSetleS32 sp d a b s := rfl
theorem exec_setleN32 (sp : Bool) (d : Reg) (a : Reg) (b : Reg) (s : State) : exec (.setleN32 sp d a b) s = execSetleN32 sp d a b s := rfl
theorem exec_clz (sp : Bool) (d : Reg) (a : Reg) (s : State) : exec (.clz sp d a) s = execClz sp d a s := rfl
theorem exec_popc (sp : Bool) (d : Reg) (a : Reg) (s : State) : exec (.popc sp d a) s = execPopc sp d a s := rfl
theorem exec_brev (sp : Bool) (d : Reg) (a : Reg) (s : State) : exec (.brev sp d a) s = execBrev sp d a s := rfl
theorem exec_bfxS32 (sp : Bool) (d : Reg) (a : Reg) (b : Reg) (s : State) : exec (.bfxS32 sp d a b) s = execBfxS32 sp d a b s := rfl
theorem exec_bfxN32 (sp : Bool) (d : Reg) (a : Reg) (b : Reg) (s : State) : exec (.bfxN32 sp d a b) s = execBfxN32 sp d a b s := rfl
theorem exec_bfi (sp : Bool) (d : Reg) (a : Reg) (b : Reg) (s : State) : exec (.bfi sp d a b) s = execBfi sp d a b s := rfl
theorem exec_add64 (sp : Bool) (d : Reg) (a : Reg) (b : Reg) (s : State) : exec (.add64 sp d a b) s = execAdd64 sp d a b s := rfl
theorem exec_sub64 (sp : Bool) (d : Reg) (a : Reg) (b : Reg) (s : State) : exec (.sub64 sp d a b) s = execSub64 sp d a b s := rfl
theorem exec_shl64 (sp : Bool) (d : Reg) (a : Reg) (b : Reg) (s : State) : exec (.shl64 sp d a b) s = execShl64 sp d a b s := rfl
theorem exec_shr64 (sp : Bool) (d : Reg) (a : Reg) (b : Reg) (s : State) : exec (.shr64 sp d a b) s = execShr64 sp d a b s := rfl
theorem exec_sar64 (sp : Bool) (d : Reg) (a : Reg) (b : Reg) (s : State) : exec (.sar64 sp d a b) s = execSar64 sp d a b s := rfl
theorem exec_seteq64 (sp : Bool) (d : Reg) (a : Reg) (b : Reg) (s : State) : exec (.seteq64 sp d a b) s = execSeteq64 sp d a b s := rfl
theorem exec_setlt64S (sp : Bool) (d : Reg) (a : Reg) (b : Reg) (s : State) : exec (.setlt64S sp d a b) s = execSetlt64S sp d a b s := rfl
theorem exec_setlt64N (sp : Bool) (d : Reg) (a : Reg) (b : Reg) (s : State) : exec (.setlt64N sp d a b) s = execSetlt64N sp d a b s := rfl
theorem exec_mad64N32 (sp : Bool) (d : Reg) (a : Reg) (b : Reg) (s : State) : exec (.mad64N32 sp d a b) s = execMad64N32 sp d a b s := rfl
theorem exec_mad64S32 (sp : Bool) (d : Reg) (a : Reg) (b : Reg) (s : State) : exec (.mad64S32 sp d a b) s = execMad64S32 sp d a b s := rfl
theorem exec_mov (sp : Bool) (d : Reg) (a : Reg) (s : State) : exec (.mov sp d a) s = execMov sp d a s := rfl
theorem exec_mov64 (sp : Bool) (d : Reg) (a : Reg) (s : State) : exec (.mov64 sp d a) s = execMov64 sp d a s := rfl
theorem exec_addi (sp : Bool) (d : Reg) (a : Reg) (imm : BitVec 10) (s : State) : exec (.addi sp d a imm) s = execAddi sp d a imm s := rfl
theorem exec_andi (sp : Bool) (d : Reg) (a : Reg) (imm : BitVec 10) (s : State) : exec (.andi sp d a imm) s = execAndi sp d a imm s := rfl
theorem exec_ori (sp : Bool) (d : Reg) (a : Reg) (imm : BitVec 10) (s : State) : exec (.ori sp d a imm) s = execOri sp d a imm s := rfl
theorem exec_xori (sp : Bool) (d : Reg) (a : Reg) (imm : BitVec 10) (s : State) : exec (.xori sp d a imm) s = execXori sp d a imm s := rfl
theorem exec_shli (sp : Bool) (d : Reg) (a : Reg) (imm : BitVec 5) (s : State) : exec (.shli sp d a imm) s = execShli sp d a imm s := rfl
theorem exec_shri (sp : Bool) (d : Reg) (a : Reg) (imm : BitVec 5) (s : State) : exec (.shri sp d a imm) s = execShri sp d a imm s := rfl
theorem exec_sari (sp : Bool) (d : Reg) (a : Reg) (imm : BitVec 5) (s : State) : exec (.sari sp d a imm) s = execSari sp d a imm s := rfl
theorem exec_setltiS32 (sp : Bool) (d : Reg) (a : Reg) (imm : BitVec 10) (s : State) : exec (.setltiS32 sp d a imm) s = execSetltiS32 sp d a imm s := rfl
theorem exec_fadd (sp : Bool) (d : Reg) (a : Reg) (b : Reg) (s : State) : exec (.fadd sp d a b) s = execFadd sp d a b s := rfl
theorem exec_fsub (sp : Bool) (d : Reg) (a : Reg) (b : Reg) (s : State) : exec (.fsub sp d a b) s = execFsub sp d a b s := rfl
theorem exec_fmul (sp : Bool) (d : Reg) (a : Reg) (b : Reg) (s : State) : exec (.fmul sp d a b) s = execFmul sp d a b s := rfl
theorem exec_fma (sp : Bool) (d : Reg) (a : Reg) (b : Reg) (s : State) : exec (.fma sp d a b) s = execFma sp d a b s := rfl
theorem exec_fmin (sp : Bool) (d : Reg) (a : Reg) (b : Reg) (s : State) : exec (.fmin sp d a b) s = execFmin sp d a b s := rfl
theorem exec_fmax (sp : Bool) (d : Reg) (a : Reg) (b : Reg) (s : State) : exec (.fmax sp d a b) s = execFmax sp d a b s := rfl
theorem exec_fdiv (sp : Bool) (d : Reg) (a : Reg) (b : Reg) (s : State) : exec (.fdiv sp d a b) s = execFdiv sp d a b s := rfl
theorem exec_fsqrt (sp : Bool) (d : Reg) (a : Reg) (s : State) : exec (.fsqrt sp d a) s = execFsqrt sp d a s := rfl
theorem exec_frcp (sp : Bool) (d : Reg) (a : Reg) (s : State) : exec (.frcp sp d a) s = execFrcp sp d a s := rfl
theorem exec_frsq (sp : Bool) (d : Reg) (a : Reg) (s : State) : exec (.frsq sp d a) s = execFrsq sp d a s := rfl
theorem exec_fexp2 (sp : Bool) (d : Reg) (a : Reg) (s : State) : exec (.fexp2 sp d a) s = execFexp2 sp d a s := rfl
theorem exec_flog2 (sp : Bool) (d : Reg) (a : Reg) (s : State) : exec (.flog2 sp d a) s = execFlog2 sp d a s := rfl
theorem exec_fabs (sp : Bool) (d : Reg) (a : Reg) (s : State) : exec (.fabs sp d a) s = execFabs sp d a s := rfl
theorem exec_fneg (sp : Bool) (d : Reg) (a : Reg) (s : State) : exec (.fneg sp d a) s = execFneg sp d a s := rfl
theorem exec_frint (sp : Bool) (d : Reg) (a : Reg) (s : State) : exec (.frint sp d a) s = execFrint sp d a s := rfl
theorem exec_fclass (sp : Bool) (d : Reg) (a : Reg) (s : State) : exec (.fclass sp d a) s = execFclass sp d a s := rfl
theorem exec_fseteq (sp : Bool) (d : Reg) (a : Reg) (b : Reg) (s : State) : exec (.fseteq sp d a b) s = execFseteq sp d a b s := rfl
theorem exec_fsetlt (sp : Bool) (d : Reg) (a : Reg) (b : Reg) (s : State) : exec (.fsetlt sp d a b) s = execFsetlt sp d a b s := rfl
theorem exec_fsetle (sp : Bool) (d : Reg) (a : Reg) (b : Reg) (s : State) : exec (.fsetle sp d a b) s = execFsetle sp d a b s := rfl
theorem exec_fsetun (sp : Bool) (d : Reg) (a : Reg) (b : Reg) (s : State) : exec (.fsetun sp d a b) s = execFsetun sp d a b s := rfl
theorem exec_dadd (sp : Bool) (d : Reg) (a : Reg) (b : Reg) (s : State) : exec (.dadd sp d a b) s = execDadd sp d a b s := rfl
theorem exec_dsub (sp : Bool) (d : Reg) (a : Reg) (b : Reg) (s : State) : exec (.dsub sp d a b) s = execDsub sp d a b s := rfl
theorem exec_dmul (sp : Bool) (d : Reg) (a : Reg) (b : Reg) (s : State) : exec (.dmul sp d a b) s = execDmul sp d a b s := rfl
theorem exec_dfma (sp : Bool) (d : Reg) (a : Reg) (b : Reg) (s : State) : exec (.dfma sp d a b) s = execDfma sp d a b s := rfl
theorem exec_dmin (sp : Bool) (d : Reg) (a : Reg) (b : Reg) (s : State) : exec (.dmin sp d a b) s = execDmin sp d a b s := rfl
theorem exec_dmax (sp : Bool) (d : Reg) (a : Reg) (b : Reg) (s : State) : exec (.dmax sp d a b) s = execDmax sp d a b s := rfl
theorem exec_ddiv (sp : Bool) (d : Reg) (a : Reg) (b : Reg) (s : State) : exec (.ddiv sp d a b) s = execDdiv sp d a b s := rfl
theorem exec_dsqrt (sp : Bool) (d : Reg) (a : Reg) (s : State) : exec (.dsqrt sp d a) s = execDsqrt sp d a s := rfl
theorem exec_drint (sp : Bool) (d : Reg) (a : Reg) (s : State) : exec (.drint sp d a) s = execDrint sp d a s := rfl
theorem exec_dseteq (sp : Bool) (d : Reg) (a : Reg) (b : Reg) (s : State) : exec (.dseteq sp d a b) s = execDseteq sp d a b s := rfl
theorem exec_dsetlt (sp : Bool) (d : Reg) (a : Reg) (b : Reg) (s : State) : exec (.dsetlt sp d a b) s = execDsetlt sp d a b s := rfl
theorem exec_dsetle (sp : Bool) (d : Reg) (a : Reg) (b : Reg) (s : State) : exec (.dsetle sp d a b) s = execDsetle sp d a b s := rfl
theorem exec_hadd2 (sp : Bool) (d : Reg) (a : Reg) (b : Reg) (s : State) : exec (.hadd2 sp d a b) s = execHadd2 sp d a b s := rfl
theorem exec_hmul2 (sp : Bool) (d : Reg) (a : Reg) (b : Reg) (s : State) : exec (.hmul2 sp d a b) s = execHmul2 sp d a b s := rfl
theorem exec_hfma2 (sp : Bool) (d : Reg) (a : Reg) (b : Reg) (s : State) : exec (.hfma2 sp d a b) s = execHfma2 sp d a b s := rfl
theorem exec_badd2 (sp : Bool) (d : Reg) (a : Reg) (b : Reg) (s : State) : exec (.badd2 sp d a b) s = execBadd2 sp d a b s := rfl
theorem exec_bmul2 (sp : Bool) (d : Reg) (a : Reg) (b : Reg) (s : State) : exec (.bmul2 sp d a b) s = execBmul2 sp d a b s := rfl
theorem exec_bfma2 (sp : Bool) (d : Reg) (a : Reg) (b : Reg) (s : State) : exec (.bfma2 sp d a b) s = execBfma2 sp d a b s := rfl
theorem exec_cvtF32S32 (sp : Bool) (d : Reg) (a : Reg) (s : State) : exec (.cvtF32S32 sp d a) s = execCvtF32S32 sp d a s := rfl
theorem exec_cvtF32N32 (sp : Bool) (d : Reg) (a : Reg) (s : State) : exec (.cvtF32N32 sp d a) s = execCvtF32N32 sp d a s := rfl
theorem exec_cvtS32F32 (sp : Bool) (d : Reg) (a : Reg) (s : State) : exec (.cvtS32F32 sp d a) s = execCvtS32F32 sp d a s := rfl
theorem exec_cvtN32F32 (sp : Bool) (d : Reg) (a : Reg) (s : State) : exec (.cvtN32F32 sp d a) s = execCvtN32F32 sp d a s := rfl
theorem exec_cvtF64F32 (sp : Bool) (d : Reg) (a : Reg) (s : State) : exec (.cvtF64F32 sp d a) s = execCvtF64F32 sp d a s := rfl
theorem exec_cvtF32F64 (sp : Bool) (d : Reg) (a : Reg) (s : State) : exec (.cvtF32F64 sp d a) s = execCvtF32F64 sp d a s := rfl
theorem exec_cvtF64S32 (sp : Bool) (d : Reg) (a : Reg) (s : State) : exec (.cvtF64S32 sp d a) s = execCvtF64S32 sp d a s := rfl
theorem exec_cvtS32F64 (sp : Bool) (d : Reg) (a : Reg) (s : State) : exec (.cvtS32F64 sp d a) s = execCvtS32F64 sp d a s := rfl
theorem exec_cvtF64S64 (sp : Bool) (d : Reg) (a : Reg) (s : State) : exec (.cvtF64S64 sp d a) s = execCvtF64S64 sp d a s := rfl
theorem exec_cvtS64F64 (sp : Bool) (d : Reg) (a : Reg) (s : State) : exec (.cvtS64F64 sp d a) s = execCvtS64F64 sp d a s := rfl
theorem exec_cvtF64N64 (sp : Bool) (d : Reg) (a : Reg) (s : State) : exec (.cvtF64N64 sp d a) s = execCvtF64N64 sp d a s := rfl
theorem exec_cvtN64F64 (sp : Bool) (d : Reg) (a : Reg) (s : State) : exec (.cvtN64F64 sp d a) s = execCvtN64F64 sp d a s := rfl
theorem exec_packF16 (sp : Bool) (d : Reg) (a : Reg) (b : Reg) (s : State) : exec (.packF16 sp d a b) s = execPackF16 sp d a b s := rfl
theorem exec_packBf16 (sp : Bool) (d : Reg) (a : Reg) (b : Reg) (s : State) : exec (.packBf16 sp d a b) s = execPackBf16 sp d a b s := rfl
theorem exec_unpkF16 (sp : Bool) (d : Reg) (a : Reg) (s : State) : exec (.unpkF16 sp d a) s = execUnpkF16 sp d a s := rfl
theorem exec_unpkBf16 (sp : Bool) (d : Reg) (a : Reg) (s : State) : exec (.unpkBf16 sp d a) s = execUnpkBf16 sp d a s := rfl
theorem exec_sext8 (sp : Bool) (d : Reg) (a : Reg) (s : State) : exec (.sext8 sp d a) s = execSext8 sp d a s := rfl
theorem exec_sext16 (sp : Bool) (d : Reg) (a : Reg) (s : State) : exec (.sext16 sp d a) s = execSext16 sp d a s := rfl
theorem exec_qntN8 (sp : Bool) (d : Reg) (a : Reg) (b : Reg) (s : State) : exec (.qntN8 sp d a b) s = execQntN8 sp d a b s := rfl
theorem exec_dqntN8 (sp : Bool) (d : Reg) (a : Reg) (b : Reg) (s : State) : exec (.dqntN8 sp d a b) s = execDqntN8 sp d a b s := rfl
theorem exec_lds (sp : Bool) (d : Reg) (imm : BitVec 18) (s : State) : exec (.lds sp d imm) s = execLds sp d imm s := rfl
theorem exec_ldh (sp : Bool) (d : Reg) (imm : BitVec 18) (s : State) : exec (.ldh sp d imm) s = execLdh sp d imm s := rfl
theorem exec_orl (sp : Bool) (d : Reg) (imm : BitVec 18) (s : State) : exec (.orl sp d imm) s = execOrl sp d imm s := rfl
theorem exec_addpc (sp : Bool) (d : Reg) (imm : BitVec 18) (s : State) : exec (.addpc sp d imm) s = execAddpc sp d imm s := rfl
theorem exec_beqz (sp : Bool) (a : Reg) (off : BitVec 17) (s : State) : exec (.beqz sp a off) s = execBeqz sp a off s := rfl
theorem exec_bnez (sp : Bool) (a : Reg) (off : BitVec 17) (s : State) : exec (.bnez sp a off) s = execBnez sp a off s := rfl
theorem exec_bltz (sp : Bool) (a : Reg) (off : BitVec 17) (s : State) : exec (.bltz sp a off) s = execBltz sp a off s := rfl
theorem exec_bgez (sp : Bool) (a : Reg) (off : BitVec 17) (s : State) : exec (.bgez sp a off) s = execBgez sp a off s := rfl
theorem exec_bgtz (sp : Bool) (a : Reg) (off : BitVec 17) (s : State) : exec (.bgtz sp a off) s = execBgtz sp a off s := rfl
theorem exec_blez (sp : Bool) (a : Reg) (off : BitVec 17) (s : State) : exec (.blez sp a off) s = execBlez sp a off s := rfl
theorem exec_bra (sp : Bool) (off : BitVec 17) (s : State) : exec (.bra sp off) s = execBra sp off s := rfl
theorem exec_jmp (sp : Bool) (off : BitVec 25) (s : State) : exec (.jmp sp off) s = execJmp sp off s := rfl
theorem exec_call (sp : Bool) (off : BitVec 25) (s : State) : exec (.call sp off) s = execCall sp off s := rfl
theorem exec_ld8S (sp : Bool) (pol : BitVec 2) (d : Reg) (a : Reg) (off : BitVec 8) (s : State) : exec (.ld8S sp pol d a off) s = execLd8S sp pol d a off s := rfl
theorem exec_ld8N (sp : Bool) (pol : BitVec 2) (d : Reg) (a : Reg) (off : BitVec 8) (s : State) : exec (.ld8N sp pol d a off) s = execLd8N sp pol d a off s := rfl
theorem exec_ld16S (sp : Bool) (pol : BitVec 2) (d : Reg) (a : Reg) (off : BitVec 8) (s : State) : exec (.ld16S sp pol d a off) s = execLd16S sp pol d a off s := rfl
theorem exec_ld16N (sp : Bool) (pol : BitVec 2) (d : Reg) (a : Reg) (off : BitVec 8) (s : State) : exec (.ld16N sp pol d a off) s = execLd16N sp pol d a off s := rfl
theorem exec_ld32 (sp : Bool) (pol : BitVec 2) (d : Reg) (a : Reg) (off : BitVec 8) (s : State) : exec (.ld32 sp pol d a off) s = execLd32 sp pol d a off s := rfl
theorem exec_ld64 (sp : Bool) (pol : BitVec 2) (d : Reg) (a : Reg) (off : BitVec 8) (s : State) : exec (.ld64 sp pol d a off) s = execLd64 sp pol d a off s := rfl
theorem exec_ld128 (sp : Bool) (pol : BitVec 2) (d : Reg) (a : Reg) (off : BitVec 8) (s : State) : exec (.ld128 sp pol d a off) s = execLd128 sp pol d a off s := rfl
theorem exec_st8 (sp : Bool) (pol : BitVec 2) (d : Reg) (a : Reg) (off : BitVec 8) (s : State) : exec (.st8 sp pol d a off) s = execSt8 sp pol d a off s := rfl
theorem exec_st16 (sp : Bool) (pol : BitVec 2) (d : Reg) (a : Reg) (off : BitVec 8) (s : State) : exec (.st16 sp pol d a off) s = execSt16 sp pol d a off s := rfl
theorem exec_st32 (sp : Bool) (pol : BitVec 2) (d : Reg) (a : Reg) (off : BitVec 8) (s : State) : exec (.st32 sp pol d a off) s = execSt32 sp pol d a off s := rfl
theorem exec_st64 (sp : Bool) (pol : BitVec 2) (d : Reg) (a : Reg) (off : BitVec 8) (s : State) : exec (.st64 sp pol d a off) s = execSt64 sp pol d a off s := rfl
theorem exec_st128 (sp : Bool) (pol : BitVec 2) (d : Reg) (a : Reg) (off : BitVec 8) (s : State) : exec (.st128 sp pol d a off) s = execSt128 sp pol d a off s := rfl
theorem exec_aadd (sp : Bool) (sc : BitVec 2) (d : Reg) (a : Reg) (b : Reg) (s : State) : exec (.aadd sp sc d a b) s = execAadd sp sc d a b s := rfl
theorem exec_aadd64 (sp : Bool) (sc : BitVec 2) (d : Reg) (a : Reg) (b : Reg) (s : State) : exec (.aadd64 sp sc d a b) s = execAadd64 sp sc d a b s := rfl
theorem exec_aminS32 (sp : Bool) (sc : BitVec 2) (d : Reg) (a : Reg) (b : Reg) (s : State) : exec (.aminS32 sp sc d a b) s = execAminS32 sp sc d a b s := rfl
theorem exec_aminN32 (sp : Bool) (sc : BitVec 2) (d : Reg) (a : Reg) (b : Reg) (s : State) : exec (.aminN32 sp sc d a b) s = execAminN32 sp sc d a b s := rfl
theorem exec_amaxS32 (sp : Bool) (sc : BitVec 2) (d : Reg) (a : Reg) (b : Reg) (s : State) : exec (.amaxS32 sp sc d a b) s = execAmaxS32 sp sc d a b s := rfl
theorem exec_amaxN32 (sp : Bool) (sc : BitVec 2) (d : Reg) (a : Reg) (b : Reg) (s : State) : exec (.amaxN32 sp sc d a b) s = execAmaxN32 sp sc d a b s := rfl
theorem exec_aand (sp : Bool) (sc : BitVec 2) (d : Reg) (a : Reg) (b : Reg) (s : State) : exec (.aand sp sc d a b) s = execAand sp sc d a b s := rfl
theorem exec_aor (sp : Bool) (sc : BitVec 2) (d : Reg) (a : Reg) (b : Reg) (s : State) : exec (.aor sp sc d a b) s = execAor sp sc d a b s := rfl
theorem exec_axor (sp : Bool) (sc : BitVec 2) (d : Reg) (a : Reg) (b : Reg) (s : State) : exec (.axor sp sc d a b) s = execAxor sp sc d a b s := rfl
theorem exec_axchg (sp : Bool) (sc : BitVec 2) (d : Reg) (a : Reg) (b : Reg) (s : State) : exec (.axchg sp sc d a b) s = execAxchg sp sc d a b s := rfl
theorem exec_axchg64 (sp : Bool) (sc : BitVec 2) (d : Reg) (a : Reg) (b : Reg) (s : State) : exec (.axchg64 sp sc d a b) s = execAxchg64 sp sc d a b s := rfl
theorem exec_acas (sp : Bool) (sc : BitVec 2) (d : Reg) (a : Reg) (b : Reg) (s : State) : exec (.acas sp sc d a b) s = execAcas sp sc d a b s := rfl
theorem exec_acas64 (sp : Bool) (sc : BitVec 2) (d : Reg) (a : Reg) (b : Reg) (s : State) : exec (.acas64 sp sc d a b) s = execAcas64 sp sc d a b s := rfl
theorem exec_afadd (sp : Bool) (sc : BitVec 2) (d : Reg) (a : Reg) (b : Reg) (s : State) : exec (.afadd sp sc d a b) s = execAfadd sp sc d a b s := rfl
theorem exec_afadd64 (sp : Bool) (sc : BitVec 2) (d : Reg) (a : Reg) (b : Reg) (s : State) : exec (.afadd64 sp sc d a b) s = execAfadd64 sp sc d a b s := rfl
theorem exec_aincw (sp : Bool) (sc : BitVec 2) (d : Reg) (a : Reg) (b : Reg) (s : State) : exec (.aincw sp sc d a b) s = execAincw sp sc d a b s := rfl
theorem exec_fence (sp : Bool) (kind : BitVec 2) (sc : BitVec 3) (s : State) : exec (.fence sp kind sc) s = execFence sp kind sc s := rfl
theorem exec_ldsc (sp : Bool) (d : Reg) (a : Reg) (s : State) : exec (.ldsc sp d a) s = execLdsc sp d a s := rfl
theorem exec_stsc (sp : Bool) (a : Reg) (b : Reg) (s : State) : exec (.stsc sp a b) s = execStsc sp a b s := rfl
theorem exec_cassc (sp : Bool) (d : Reg) (a : Reg) (b : Reg) (s : State) : exec (.cassc sp d a b) s = execCassc sp d a b s := rfl
theorem exec_waitcEq (sp : Bool) (d : Reg) (a : Reg) (b : Reg) (s : State) : exec (.waitcEq sp d a b) s = execWaitcEq sp d a b s := rfl
theorem exec_waitcNe (sp : Bool) (d : Reg) (a : Reg) (b : Reg) (s : State) : exec (.waitcNe sp d a b) s = execWaitcNe sp d a b s := rfl
theorem exec_waitcGeS32 (sp : Bool) (d : Reg) (a : Reg) (b : Reg) (s : State) : exec (.waitcGeS32 sp d a b) s = execWaitcGeS32 sp d a b s := rfl
theorem exec_waitcGeN32 (sp : Bool) (d : Reg) (a : Reg) (b : Reg) (s : State) : exec (.waitcGeN32 sp d a b) s = execWaitcGeN32 sp d a b s := rfl
theorem exec_waitcLtS32 (sp : Bool) (d : Reg) (a : Reg) (b : Reg) (s : State) : exec (.waitcLtS32 sp d a b) s = execWaitcLtS32 sp d a b s := rfl
theorem exec_waitcLtN32 (sp : Bool) (d : Reg) (a : Reg) (b : Reg) (s : State) : exec (.waitcLtN32 sp d a b) s = execWaitcLtN32 sp d a b s := rfl
theorem exec_redtoAdd (sp : Bool) (d : Reg) (a : Reg) (b : Reg) (s : State) : exec (.redtoAdd sp d a b) s = execRedtoAdd sp d a b s := rfl
theorem exec_redtoFadd (sp : Bool) (d : Reg) (a : Reg) (b : Reg) (s : State) : exec (.redtoFadd sp d a b) s = execRedtoFadd sp d a b s := rfl
theorem exec_redtoMinS32 (sp : Bool) (d : Reg) (a : Reg) (b : Reg) (s : State) : exec (.redtoMinS32 sp d a b) s = execRedtoMinS32 sp d a b s := rfl
theorem exec_redtoMaxS32 (sp : Bool) (d : Reg) (a : Reg) (b : Reg) (s : State) : exec (.redtoMaxS32 sp d a b) s = execRedtoMaxS32 sp d a b s := rfl
theorem exec_redtoOr (sp : Bool) (d : Reg) (a : Reg) (b : Reg) (s : State) : exec (.redtoOr sp d a b) s = execRedtoOr sp d a b s := rfl
theorem exec_bar (sp : Bool) (a : Reg) (sc : BitVec 3) (s : State) : exec (.bar sp a sc) s = execBar sp a sc s := rfl
theorem exec_bara (sp : Bool) (a : Reg) (sc : BitVec 3) (s : State) : exec (.bara sp a sc) s = execBara sp a sc s := rfl
theorem exec_barw (sp : Bool) (a : Reg) (sc : BitVec 3) (s : State) : exec (.barw sp a sc) s = execBarw sp a sc s := rfl
theorem exec_barinit (sp : Bool) (d : Reg) (a : Reg) (sc : BitVec 3) (s : State) : exec (.barinit sp d a sc) s = execBarinit sp d a sc s := rfl
theorem exec_meet (sp : Bool) (a : Reg) (s : State) : exec (.meet sp a) s = execMeet sp a s := rfl
theorem exec_meetq (sp : Bool) (d : Reg) (s : State) : exec (.meetq sp d) s = execMeetq sp d s := rfl
theorem exec_cshfl (sp : Bool) (d : Reg) (a : Reg) (b : Reg) (s : State) : exec (.cshfl sp d a b) s = execCshfl sp d a b s := rfl
theorem exec_cshflx (sp : Bool) (d : Reg) (a : Reg) (b : Reg) (s : State) : exec (.cshflx sp d a b) s = execCshflx sp d a b s := rfl
theorem exec_cup (sp : Bool) (d : Reg) (a : Reg) (b : Reg) (s : State) : exec (.cup sp d a b) s = execCup sp d a b s := rfl
theorem exec_cdn (sp : Bool) (d : Reg) (a : Reg) (b : Reg) (s : State) : exec (.cdn sp d a b) s = execCdn sp d a b s := rfl
theorem exec_cbcast (sp : Bool) (d : Reg) (a : Reg) (b : Reg) (s : State) : exec (.cbcast sp d a b) s = execCbcast sp d a b s := rfl
theorem exec_cvany (sp : Bool) (d : Reg) (a : Reg) (s : State) : exec (.cvany sp d a) s = execCvany sp d a s := rfl
theorem exec_cvall (sp : Bool) (d : Reg) (a : Reg) (s : State) : exec (.cvall sp d a) s = execCvall sp d a s := rfl
theorem exec_cballot (sp : Bool) (d : Reg) (a : Reg) (s : State) : exec (.cballot sp d a) s = execCballot sp d a s := rfl
theorem exec_cradd (sp : Bool) (d : Reg) (a : Reg) (s : State) : exec (.cradd sp d a) s = execCradd sp d a s := rfl
theorem exec_crfadd (sp : Bool) (d : Reg) (a : Reg) (s : State) : exec (.crfadd sp d a) s = execCrfadd sp d a s := rfl
theorem exec_crminS32 (sp : Bool) (d : Reg) (a : Reg) (s : State) : exec (.crminS32 sp d a) s = execCrminS32 sp d a s := rfl
theorem exec_crmaxS32 (sp : Bool) (d : Reg) (a : Reg) (s : State) : exec (.crmaxS32 sp d a) s = execCrmaxS32 sp d a s := rfl
theorem exec_cscan (sp : Bool) (d : Reg) (a : Reg) (s : State) : exec (.cscan sp d a) s = execCscan sp d a s := rfl
theorem exec_cscanf (sp : Bool) (d : Reg) (a : Reg) (s : State) : exec (.cscanf sp d a) s = execCscanf sp d a s := rfl
theorem exec_sld32 (sp : Bool) (d : Reg) (a : Reg) (s : State) : exec (.sld32 sp d a) s = execSld32 sp d a s := rfl
theorem exec_sst32 (sp : Bool) (d : Reg) (a : Reg) (s : State) : exec (.sst32 sp d a) s = execSst32 sp d a s := rfl
theorem exec_sld64 (sp : Bool) (d : Reg) (a : Reg) (s : State) : exec (.sld64 sp d a) s = execSld64 sp d a s := rfl
theorem exec_sst64 (sp : Bool) (d : Reg) (a : Reg) (s : State) : exec (.sst64 sp d a) s = execSst64 sp d a s := rfl
theorem exec_qld32 (sp : Bool) (d : Reg) (a : Reg) (s : State) : exec (.qld32 sp d a) s = execQld32 sp d a s := rfl
theorem exec_qst32 (sp : Bool) (d : Reg) (a : Reg) (s : State) : exec (.qst32 sp d a) s = execQst32 sp d a s := rfl
theorem exec_lease (sp : Bool) (a : Reg) (s : State) : exec (.lease sp a) s = execLease sp a s := rfl
theorem exec_leasem (sp : Bool) (a : Reg) (s : State) : exec (.leasem sp a) s = execLeasem sp a s := rfl
theorem exec_work (sp : Bool) (d : Reg) (s : State) : exec (.work sp d) s = execWork sp d s := rfl
theorem exec_steal (sp : Bool) (d : Reg) (s : State) : exec (.steal sp d) s = execSteal sp d s := rfl
theorem exec_exit (sp : Bool) (s : State) : exec (.exit sp) s = execExit sp s := rfl
theorem exec_copy (sp : Bool) (d : Reg) (a : Reg) (b : Reg) (s : State) : exec (.copy sp d a b) s = execCopy sp d a b s := rfl
theorem exec_copym (sp : Bool) (d : Reg) (a : Reg) (b : Reg) (s : State) : exec (.copym sp d a b) s = execCopym sp d a b s := rfl
theorem exec_recfl (sp : Bool) (d : Reg) (a : Reg) (s : State) : exec (.recfl sp d a) s = execRecfl sp d a s := rfl
theorem exec_task (sp : Bool) (d : Reg) (a : Reg) (s : State) : exec (.task sp d a) s = execTask sp d a s := rfl
theorem exec_dprog (sp : Bool) (d : Reg) (a : Reg) (b : Reg) (s : State) : exec (.dprog sp d a b) s = execDprog sp d a b s := rfl
theorem exec_djob (sp : Bool) (d : Reg) (a : Reg) (s : State) : exec (.djob sp d a) s = execDjob sp d a s := rfl
theorem exec_ovld (sp : Bool) (d : Reg) (a : Reg) (s : State) : exec (.ovld sp d a) s = execOvld sp d a s := rfl
theorem exec_ovtok (sp : Bool) (d : Reg) (a : Reg) (s : State) : exec (.ovtok sp d a) s = execOvtok sp d a s := rfl
theorem exec_ovrel (sp : Bool) (a : Reg) (s : State) : exec (.ovrel sp a) s = execOvrel sp a s := rfl
theorem exec_ovq (sp : Bool) (d : Reg) (a : Reg) (s : State) : exec (.ovq sp d a) s = execOvq sp d a s := rfl
theorem exec_smap (sp : Bool) (d : Reg) (a : Reg) (b : Reg) (s : State) : exec (.smap sp d a b) s = execSmap sp d a b s := rfl
theorem exec_sunmap (sp : Bool) (d : Reg) (a : Reg) (s : State) : exec (.sunmap sp d a) s = execSunmap sp d a s := rfl
theorem exec_cload (sp : Bool) (d : Reg) (a : Reg) (b : Reg) (s : State) : exec (.cload sp d a b) s = execCload sp d a b s := rfl
theorem exec_crun (sp : Bool) (d : Reg) (a : Reg) (b : Reg) (s : State) : exec (.crun sp d a b) s = execCrun sp d a b s := rfl
theorem exec_sinit (sp : Bool) (s : State) : exec (.sinit sp) s = execSinit sp s := rfl
theorem exec_sfold (sp : Bool) (a : Reg) (b : Reg) (s : State) : exec (.sfold sp a b) s = execSfold sp a b s := rfl
theorem exec_sget (sp : Bool) (d : Reg) (s : State) : exec (.sget sp d) s = execSget sp d s := rfl
theorem exec_proof (sp : Bool) (d : Reg) (a : Reg) (b : Reg) (s : State) : exec (.proof sp d a b) s = execProof sp d a b s := rfl
theorem exec_proofq (sp : Bool) (d : Reg) (a : Reg) (s : State) : exec (.proofq sp d a) s = execProofq sp d a s := rfl
theorem exec_nop (sp : Bool) (s : State) : exec (.nop sp) s = execNop sp s := rfl
theorem exec_rds (sp : Bool) (d : Reg) (b : BitVec 7) (s : State) : exec (.rds sp d b) s = execRds sp d b s := rfl
theorem exec_wrs (sp : Bool) (a : Reg) (b : BitVec 7) (s : State) : exec (.wrs sp a b) s = execWrs sp a b s := rfl
theorem exec_win (sp : Bool) (a : Reg) (s : State) : exec (.win sp a) s = execWin sp a s := rfl
theorem exec_jr (sp : Bool) (a : Reg) (s : State) : exec (.jr sp a) s = execJr sp a s := rfl
theorem exec_callx (sp : Bool) (a : Reg) (s : State) : exec (.callx sp a) s = execCallx sp a s := rfl
theorem exec_ret (sp : Bool) (s : State) : exec (.ret sp) s = execRet sp s := rfl
theorem exec_trap (sp : Bool) (b : BitVec 7) (s : State) : exec (.trap sp b) s = execTrap sp b s := rfl
theorem exec_tret (sp : Bool) (s : State) : exec (.tret sp) s = execTret sp s := rfl
theorem exec_bkpt (sp : Bool) (s : State) : exec (.bkpt sp) s = execBkpt sp s := rfl
theorem exec_launch (sp : Bool) (d : Reg) (a : Reg) (b : Reg) (s : State) : exec (.launch sp d a b) s = execLaunch sp d a b s := rfl
theorem exec_ldu (sp : Bool) (d : Reg) (a : Reg) (s : State) : exec (.ldu sp d a) s = execLdu sp d a s := rfl
theorem exec_ocall (sp : Bool) (b : Reg) (s : State) : exec (.ocall sp b) s = execOcall sp b s := rfl
theorem exec_pref (sp : Bool) (a : Reg) (s : State) : exec (.pref sp a) s = execPref sp a s := rfl
theorem exec_reservedHint (sp : Bool) (f : BitVec 5) (d : Reg) (a : Reg) (b : Reg) (s : State) : exec (.reservedHint sp f d a b) s = execReservedHint sp f d a b s := rfl
theorem exec_illegalWordFetch (f : FetchFault) (s : State) : exec (.illegalWordFetch f) s = execIllegalWordFetch f s := rfl
theorem exec_reformBoundary (die : Nat) (s : State) : exec (.reformBoundary die) s = execReformBoundary die s := rfl
theorem exec_longLatencyReply (req : Nat) (s : State) : exec (.longLatencyReply req) s = execLongLatencyReply req s := rfl
theorem exec_switchPointLeave (t : ThreadId) (s : State) : exec (.switchPointLeave t) s = execSwitchPointLeave t s := rfl
theorem exec_crewdivDetect (c : CrewId) (s : State) : exec (.crewdivDetect c) s = execCrewdivDetect c s := rfl
theorem exec_trapTaken (c : CrewId) (s : State) : exec (.trapTaken c) s = execTrapTaken c s := rfl
theorem exec_launchKill (l : Nat) (s : State) : exec (.launchKill l) s = execLaunchKill l s := rfl
theorem exec_permitBackoffExpiry (t : ThreadId) (s : State) : exec (.permitBackoffExpiry t) s = execPermitBackoffExpiry t s := rfl
theorem exec_lacerLoadDecision (k : CoreId) (s : State) : exec (.lacerLoadDecision k) s = execLacerLoadDecision k s := rfl
theorem exec_segmentLoadComplete (k : CoreId) (entry : Nat) (s : State) : exec (.segmentLoadComplete k entry) s = execSegmentLoadComplete k entry s := rfl
theorem exec_ovfullTimeout (k : CoreId) (s : State) : exec (.ovfullTimeout k) s = execOvfullTimeout k s := rfl
theorem exec_packetServe (vf : Nat) (q : Nat) (s : State) : exec (.packetServe vf q) s = execPacketServe vf q s := rfl
theorem exec_teamPlacement (l : Nat) (s : State) : exec (.teamPlacement l) s = execTeamPlacement l s := rfl
theorem exec_launchEnd (l : Nat) (s : State) : exec (.launchEnd l) s = execLaunchEnd l s := rfl
theorem exec_activationDecision (k : CoreId) (s : State) : exec (.activationDecision k) s = execActivationDecision k s := rfl
theorem exec_dueCountExpiry (c : CrewId) (s : State) : exec (.dueCountExpiry c) s = execDueCountExpiry c s := rfl
theorem exec_leaseWindowExpiry (c : CrewId) (s : State) : exec (.leaseWindowExpiry c) s = execLeaseWindowExpiry c s := rfl
theorem exec_l1WritebackTimer (k : CoreId) (line : Nat) (s : State) : exec (.l1WritebackTimer k line) s = execL1WritebackTimer k line s := rfl
theorem exec_pageWalkComplete (walk : Nat) (s : State) : exec (.pageWalkComplete walk) s = execPageWalkComplete walk s := rfl
theorem exec_faultRecordWrite (vf : Nat) (s : State) : exec (.faultRecordWrite vf) s = execFaultRecordWrite vf s := rfl
theorem exec_atomicPerform (req : Nat) (s : State) : exec (.atomicPerform req) s = execAtomicPerform req s := rfl
theorem exec_scAccessPerform (req : Nat) (s : State) : exec (.scAccessPerform req) s = execScAccessPerform req s := rfl
theorem exec_scClockPublish (k : CoreId) (s : State) : exec (.scClockPublish k) s = execScClockPublish k s := rfl
theorem exec_monitorReread (t : ThreadId) (s : State) : exec (.monitorReread t) s = execMonitorReread t s := rfl
theorem exec_waitcPollTimer (t : ThreadId) (s : State) : exec (.waitcPollTimer t) s = execWaitcPollTimer t s := rfl
theorem exec_redtoDelivery (req : Nat) (s : State) : exec (.redtoDelivery req) s = execRedtoDelivery req s := rfl
theorem exec_barrierArrival (arr : Nat) (s : State) : exec (.barrierArrival arr) s = execBarrierArrival arr s := rfl
theorem exec_workPieceServe (req : Nat) (s : State) : exec (.workPieceServe req) s = execWorkPieceServe req s := rfl
theorem exec_engineOpBegin (op : Nat) (s : State) : exec (.engineOpBegin op) s = execEngineOpBegin op s := rfl
theorem exec_engineRetire (op : Nat) (s : State) : exec (.engineRetire op) s = execEngineRetire op s := rfl
theorem exec_skiverJobStop (op : Nat) (s : State) : exec (.skiverJobStop op) s = execSkiverJobStop op s := rfl
theorem exec_cobblerDispatch (op : Nat) (s : State) : exec (.cobblerDispatch op) s = execCobblerDispatch op s := rfl
theorem exec_eslotTimeout (op : Nat) (s : State) : exec (.eslotTimeout op) s = execEslotTimeout op s := rfl
theorem exec_addOnStorePerform (op : Nat) (s : State) : exec (.addOnStorePerform op) s = execAddOnStorePerform op s := rfl
theorem exec_ticketTileApply (l : Nat) (s : State) : exec (.ticketTileApply l) s = execTicketTileApply l s := rfl
theorem exec_candidateStop (t : ThreadId) (s : State) : exec (.candidateStop t) s = execCandidateStop t s := rfl
theorem exec_proofPerform (req : Nat) (s : State) : exec (.proofPerform req) s = execProofPerform req s := rfl
theorem exec_proofqPerform (req : Nat) (s : State) : exec (.proofqPerform req) s = execProofqPerform req s := rfl
theorem exec_writeApply (msg : Nat) (s : State) : exec (.writeApply msg) s = execWriteApply msg s := rfl
theorem exec_remoteRequestServe (req : Nat) (s : State) : exec (.remoteRequestServe req) s = execRemoteRequestServe req s := rfl
theorem exec_remoteLineSendTimer (die : Nat) (line : Nat) (s : State) : exec (.remoteLineSendTimer die line) s = execRemoteLineSendTimer die line s := rfl
theorem exec_autoSwapOut (l : Nat) (team : Nat) (s : State) : exec (.autoSwapOut l team) s = execAutoSwapOut l team s := rfl
theorem exec_lateReplyWrite (req : Nat) (s : State) : exec (.lateReplyWrite req) s = execLateReplyWrite req s := rfl
theorem exec_teamRestore (l : Nat) (quad : Nat) (s : State) : exec (.teamRestore l quad) s = execTeamRestore l quad s := rfl
theorem exec_migrationQuiesced (vf : Nat) (s : State) : exec (.migrationQuiesced vf) s = execMigrationQuiesced vf s := rfl
theorem exec_intervalClose (vf : Nat) (s : State) : exec (.intervalClose vf) s = execIntervalClose vf s := rfl
theorem exec_uncorrectableConsumed (vf : Nat) (s : State) : exec (.uncorrectableConsumed vf) s = execUncorrectableConsumed vf s := rfl
theorem exec_timingReplay (k : CoreId) (quarter : Nat) (s : State) : exec (.timingReplay k quarter) s = execTimingReplay k quarter s := rfl
theorem exec_schedulerRebuild (die : Nat) (quad : Nat) (s : State) : exec (.schedulerRebuild die quad) s = execSchedulerRebuild die quad s := rfl
theorem exec_voltageEvaluation (die : Nat) (dom : Nat) (s : State) : exec (.voltageEvaluation die dom) s = execVoltageEvaluation die dom s := rfl
theorem exec_throttleStart (die : Nat) (s : State) : exec (.throttleStart die) s = execThrottleStart die s := rfl
theorem exec_throttleEnd (die : Nat) (s : State) : exec (.throttleEnd die) s = execThrottleEnd die s := rfl
theorem exec_traceCaptureStop (s : State) : exec .traceCaptureStop s = execTraceCaptureStop s := rfl
theorem exec_powerOn (failing : Option Nat) (s : State) : exec (.powerOn failing) s = execPowerOn failing s := rfl
theorem exec_memoryInitComplete (s : State) : exec .memoryInitComplete s = execMemoryInitComplete s := rfl
theorem exec_queueTail (vf : Nat) (q : Nat) (v : Word) (s : State) : exec (.queueTail vf q v) s = execQueueTail vf q v s := rfl
theorem exec_resume (vf : Nat) (v : DWord) (s : State) : exec (.resume vf v) s = execResume vf v s := rfl
theorem exec_fqhead (vf : Nat) (v : Word) (s : State) : exec (.fqhead vf v) s = execFqhead vf v s := rfl
theorem exec_invalva (vf : Nat) (va : DWord) (s : State) : exec (.invalva vf va) s = execInvalva vf va s := rfl
theorem exec_preempt (vf : Nat) (l : DWord) (s : State) : exec (.preempt vf l) s = execPreempt vf l s := rfl
theorem exec_restorel (vf : Nat) (l : DWord) (s : State) : exec (.restorel vf l) s = execRestorel vf l s := rfl
theorem exec_eyeletSpill (vf : Nat) (k : CoreId) (entry : Nat) (s : State) : exec (.eyeletSpill vf k entry) s = execEyeletSpill vf k entry s := rfl
theorem exec_eyeletFill (vf : Nat) (k : CoreId) (entry : Nat) (s : State) : exec (.eyeletFill vf k entry) s = execEyeletFill vf k entry s := rfl
theorem exec_migctl (vf : Nat) (v : Word) (s : State) : exec (.migctl vf v) s = execMigctl vf v s := rfl
theorem exec_vtime (vf : Nat) (v : DWord) (s : State) : exec (.vtime vf v) s = execVtime vf v s := rfl
theorem exec_semAcquire (m : Nat) (j : Nat) (s : State) : exec (.semAcquire m j) s = execSemAcquire m j s := rfl
theorem exec_semRelease (m : Nat) (j : Nat) (s : State) : exec (.semRelease m j) s = execSemRelease m j s := rfl
theorem exec_frameQuota (vf : Nat) (k : CoreId) (n : Nat) (s : State) : exec (.frameQuota vf k n) s = execFrameQuota vf k n s := rfl
theorem exec_diemask (vf : Nat) (v : Word) (s : State) : exec (.diemask vf v) s = execDiemask vf v s := rfl
theorem exec_vfCreate (vf : Nat) (f0 : Word) (f1 : Word) (s : State) : exec (.vfCreate vf f0 f1) s = execVfCreate vf f0 f1 s := rfl
theorem exec_vfDestroy (vf : Nat) (s : State) : exec (.vfDestroy vf) s = execVfDestroy vf s := rfl
theorem exec_registerWrite (r : HostReg) (v : DWord) (s : State) : exec (.registerWrite r v) s = execRegisterWrite r v s := rfl
theorem exec_masterMemoryWrite (m : Nat) (vf : Nat) (va : Nat) (bs : List Byte) (s : State) : exec (.masterMemoryWrite m vf va bs) s = execMasterMemoryWrite m vf va bs s := rfl
theorem exec_singleFault (loc : FaultLoc) (s : State) : exec (.singleFault loc) s = execSingleFault loc s := rfl
theorem exec_invalvaRemovalComplete (vf : Nat) (s : State) : exec (.invalvaRemovalComplete vf) s = execInvalvaRemovalComplete vf s := rfl
theorem exec_saveComplete (l : Nat) (quad : Nat) (s : State) : exec (.saveComplete l quad) s = execSaveComplete l quad s := rfl

end Sys2Proof.Machine
end

