-- ==== Sys2Proof/Laws/State.lean ====
section
/-! SUPPORT. What each update of a state leaves, field by field, and what it writes. -/

namespace Sys2Proof.Machine

/-! ## setCur -/

@[simp] theorem State.setCur_cur (s : State) (t : Thread) : (s.setCur t).cur = t := rfl
@[simp] theorem State.setCur_others (s : State) (t : Thread) : (s.setCur t).others = s.others := rfl
@[simp] theorem State.setCur_crews (s : State) (t : Thread) : (s.setCur t).crews = s.crews := rfl
@[simp] theorem State.setCur_teams (s : State) (t : Thread) : (s.setCur t).teams = s.teams := rfl
@[simp] theorem State.setCur_launches (s : State) (t : Thread) : (s.setCur t).launches = s.launches := rfl
@[simp] theorem State.setCur_slots (s : State) (t : Thread) : (s.setCur t).slots = s.slots := rfl
@[simp] theorem State.setCur_cores (s : State) (t : Thread) : (s.setCur t).cores = s.cores := rfl
@[simp] theorem State.setCur_dies (s : State) (t : Thread) : (s.setCur t).dies = s.dies := rfl
@[simp] theorem State.setCur_vfs (s : State) (t : Thread) : (s.setCur t).vfs = s.vfs := rfl
@[simp] theorem State.setCur_mem (s : State) (t : Thread) : (s.setCur t).mem = s.mem := rfl
@[simp] theorem State.setCur_requests (s : State) (t : Thread) : (s.setCur t).requests = s.requests := rfl
@[simp] theorem State.setCur_replies (s : State) (t : Thread) : (s.setCur t).replies = s.replies := rfl
@[simp] theorem State.setCur_engines (s : State) (t : Thread) : (s.setCur t).engines = s.engines := rfl
@[simp] theorem State.setCur_chains (s : State) (t : Thread) : (s.setCur t).chains = s.chains := rfl
@[simp] theorem State.setCur_drains (s : State) (t : Thread) : (s.setCur t).drains = s.drains := rfl
@[simp] theorem State.setCur_barriers (s : State) (t : Thread) : (s.setCur t).barriers = s.barriers := rfl
@[simp] theorem State.setCur_arrivals (s : State) (t : Thread) : (s.setCur t).arrivals = s.arrivals := rfl
@[simp] theorem State.setCur_deliveries (s : State) (t : Thread) : (s.setCur t).deliveries = s.deliveries := rfl
@[simp] theorem State.setCur_records (s : State) (t : Thread) : (s.setCur t).records = s.records := rfl
@[simp] theorem State.setCur_walks (s : State) (t : Thread) : (s.setCur t).walks = s.walks := rfl
@[simp] theorem State.setCur_welt (s : State) (t : Thread) : (s.setCur t).welt = s.welt := rfl
@[simp] theorem State.setCur_intervals (s : State) (t : Thread) : (s.setCur t).intervals = s.intervals := rfl
@[simp] theorem State.setCur_flips (s : State) (t : Thread) : (s.setCur t).flips = s.flips := rfl
@[simp] theorem State.setCur_poison (s : State) (t : Thread) : (s.setCur t).poison = s.poison := rfl
@[simp] theorem State.setCur_consumed (s : State) (t : Thread) : (s.setCur t).consumed = s.consumed := rfl
@[simp] theorem State.setCur_mgmt (s : State) (t : Thread) : (s.setCur t).mgmt = s.mgmt := rfl
@[simp] theorem State.setCur_cycle (s : State) (t : Thread) : (s.setCur t).cycle = s.cycle := rfl
@[simp] theorem State.setCur_clock (s : State) (t : Thread) : (s.setCur t).clock = s.clock := rfl
@[simp] theorem State.setCur_issueQ (s : State) (t : Thread) : (s.setCur t).issueQ = s.issueQ := rfl
@[simp] theorem State.setCur_ran (s : State) (t : Thread) : (s.setCur t).ran = s.ran := rfl
@[simp] theorem State.setCur_agenda (s : State) (t : Thread) : (s.setCur t).agenda = s.agenda := rfl
@[simp] theorem State.setCur_nextId (s : State) (t : Thread) : (s.setCur t).nextId = s.nextId := rfl

/-! ## mapThreads -/

@[simp] theorem State.mapThreads_cur (s : State) (f : Thread → Thread) : (s.mapThreads f).cur = f s.cur := rfl
@[simp] theorem State.mapThreads_others (s : State) (f : Thread → Thread) : (s.mapThreads f).others = s.others.map f := rfl
@[simp] theorem State.mapThreads_crews (s : State) (f : Thread → Thread) : (s.mapThreads f).crews = s.crews := rfl
@[simp] theorem State.mapThreads_teams (s : State) (f : Thread → Thread) : (s.mapThreads f).teams = s.teams := rfl
@[simp] theorem State.mapThreads_launches (s : State) (f : Thread → Thread) : (s.mapThreads f).launches = s.launches := rfl
@[simp] theorem State.mapThreads_slots (s : State) (f : Thread → Thread) : (s.mapThreads f).slots = s.slots := rfl
@[simp] theorem State.mapThreads_cores (s : State) (f : Thread → Thread) : (s.mapThreads f).cores = s.cores := rfl
@[simp] theorem State.mapThreads_dies (s : State) (f : Thread → Thread) : (s.mapThreads f).dies = s.dies := rfl
@[simp] theorem State.mapThreads_vfs (s : State) (f : Thread → Thread) : (s.mapThreads f).vfs = s.vfs := rfl
@[simp] theorem State.mapThreads_mem (s : State) (f : Thread → Thread) : (s.mapThreads f).mem = s.mem := rfl
@[simp] theorem State.mapThreads_requests (s : State) (f : Thread → Thread) : (s.mapThreads f).requests = s.requests := rfl
@[simp] theorem State.mapThreads_replies (s : State) (f : Thread → Thread) : (s.mapThreads f).replies = s.replies := rfl
@[simp] theorem State.mapThreads_engines (s : State) (f : Thread → Thread) : (s.mapThreads f).engines = s.engines := rfl
@[simp] theorem State.mapThreads_chains (s : State) (f : Thread → Thread) : (s.mapThreads f).chains = s.chains := rfl
@[simp] theorem State.mapThreads_drains (s : State) (f : Thread → Thread) : (s.mapThreads f).drains = s.drains := rfl
@[simp] theorem State.mapThreads_barriers (s : State) (f : Thread → Thread) : (s.mapThreads f).barriers = s.barriers := rfl
@[simp] theorem State.mapThreads_arrivals (s : State) (f : Thread → Thread) : (s.mapThreads f).arrivals = s.arrivals := rfl
@[simp] theorem State.mapThreads_deliveries (s : State) (f : Thread → Thread) : (s.mapThreads f).deliveries = s.deliveries := rfl
@[simp] theorem State.mapThreads_records (s : State) (f : Thread → Thread) : (s.mapThreads f).records = s.records := rfl
@[simp] theorem State.mapThreads_walks (s : State) (f : Thread → Thread) : (s.mapThreads f).walks = s.walks := rfl
@[simp] theorem State.mapThreads_welt (s : State) (f : Thread → Thread) : (s.mapThreads f).welt = s.welt := rfl
@[simp] theorem State.mapThreads_intervals (s : State) (f : Thread → Thread) : (s.mapThreads f).intervals = s.intervals := rfl
@[simp] theorem State.mapThreads_flips (s : State) (f : Thread → Thread) : (s.mapThreads f).flips = s.flips := rfl
@[simp] theorem State.mapThreads_poison (s : State) (f : Thread → Thread) : (s.mapThreads f).poison = s.poison := rfl
@[simp] theorem State.mapThreads_consumed (s : State) (f : Thread → Thread) : (s.mapThreads f).consumed = s.consumed := rfl
@[simp] theorem State.mapThreads_mgmt (s : State) (f : Thread → Thread) : (s.mapThreads f).mgmt = s.mgmt := rfl
@[simp] theorem State.mapThreads_cycle (s : State) (f : Thread → Thread) : (s.mapThreads f).cycle = s.cycle := rfl
@[simp] theorem State.mapThreads_clock (s : State) (f : Thread → Thread) : (s.mapThreads f).clock = s.clock := rfl
@[simp] theorem State.mapThreads_issueQ (s : State) (f : Thread → Thread) : (s.mapThreads f).issueQ = s.issueQ := rfl
@[simp] theorem State.mapThreads_ran (s : State) (f : Thread → Thread) : (s.mapThreads f).ran = s.ran := rfl
@[simp] theorem State.mapThreads_agenda (s : State) (f : Thread → Thread) : (s.mapThreads f).agenda = s.agenda := rfl
@[simp] theorem State.mapThreads_nextId (s : State) (f : Thread → Thread) : (s.mapThreads f).nextId = s.nextId := rfl

/-! ## modThread -/

@[simp] theorem State.modThread_cur (s : State) (t : ThreadId) (f : Thread → Thread) : (s.modThread t f).cur = if s.cur.id == t then f s.cur else s.cur := rfl
@[simp] theorem State.modThread_others (s : State) (t : ThreadId) (f : Thread → Thread) : (s.modThread t f).others = s.others.map (fun x => if x.id == t then f x else x) := rfl
@[simp] theorem State.modThread_crews (s : State) (t : ThreadId) (f : Thread → Thread) : (s.modThread t f).crews = s.crews := rfl
@[simp] theorem State.modThread_teams (s : State) (t : ThreadId) (f : Thread → Thread) : (s.modThread t f).teams = s.teams := rfl
@[simp] theorem State.modThread_launches (s : State) (t : ThreadId) (f : Thread → Thread) : (s.modThread t f).launches = s.launches := rfl
@[simp] theorem State.modThread_slots (s : State) (t : ThreadId) (f : Thread → Thread) : (s.modThread t f).slots = s.slots := rfl
@[simp] theorem State.modThread_cores (s : State) (t : ThreadId) (f : Thread → Thread) : (s.modThread t f).cores = s.cores := rfl
@[simp] theorem State.modThread_dies (s : State) (t : ThreadId) (f : Thread → Thread) : (s.modThread t f).dies = s.dies := rfl
@[simp] theorem State.modThread_vfs (s : State) (t : ThreadId) (f : Thread → Thread) : (s.modThread t f).vfs = s.vfs := rfl
@[simp] theorem State.modThread_mem (s : State) (t : ThreadId) (f : Thread → Thread) : (s.modThread t f).mem = s.mem := rfl
@[simp] theorem State.modThread_requests (s : State) (t : ThreadId) (f : Thread → Thread) : (s.modThread t f).requests = s.requests := rfl
@[simp] theorem State.modThread_replies (s : State) (t : ThreadId) (f : Thread → Thread) : (s.modThread t f).replies = s.replies := rfl
@[simp] theorem State.modThread_engines (s : State) (t : ThreadId) (f : Thread → Thread) : (s.modThread t f).engines = s.engines := rfl
@[simp] theorem State.modThread_chains (s : State) (t : ThreadId) (f : Thread → Thread) : (s.modThread t f).chains = s.chains := rfl
@[simp] theorem State.modThread_drains (s : State) (t : ThreadId) (f : Thread → Thread) : (s.modThread t f).drains = s.drains := rfl
@[simp] theorem State.modThread_barriers (s : State) (t : ThreadId) (f : Thread → Thread) : (s.modThread t f).barriers = s.barriers := rfl
@[simp] theorem State.modThread_arrivals (s : State) (t : ThreadId) (f : Thread → Thread) : (s.modThread t f).arrivals = s.arrivals := rfl
@[simp] theorem State.modThread_deliveries (s : State) (t : ThreadId) (f : Thread → Thread) : (s.modThread t f).deliveries = s.deliveries := rfl
@[simp] theorem State.modThread_records (s : State) (t : ThreadId) (f : Thread → Thread) : (s.modThread t f).records = s.records := rfl
@[simp] theorem State.modThread_walks (s : State) (t : ThreadId) (f : Thread → Thread) : (s.modThread t f).walks = s.walks := rfl
@[simp] theorem State.modThread_welt (s : State) (t : ThreadId) (f : Thread → Thread) : (s.modThread t f).welt = s.welt := rfl
@[simp] theorem State.modThread_intervals (s : State) (t : ThreadId) (f : Thread → Thread) : (s.modThread t f).intervals = s.intervals := rfl
@[simp] theorem State.modThread_flips (s : State) (t : ThreadId) (f : Thread → Thread) : (s.modThread t f).flips = s.flips := rfl
@[simp] theorem State.modThread_poison (s : State) (t : ThreadId) (f : Thread → Thread) : (s.modThread t f).poison = s.poison := rfl
@[simp] theorem State.modThread_consumed (s : State) (t : ThreadId) (f : Thread → Thread) : (s.modThread t f).consumed = s.consumed := rfl
@[simp] theorem State.modThread_mgmt (s : State) (t : ThreadId) (f : Thread → Thread) : (s.modThread t f).mgmt = s.mgmt := rfl
@[simp] theorem State.modThread_cycle (s : State) (t : ThreadId) (f : Thread → Thread) : (s.modThread t f).cycle = s.cycle := rfl
@[simp] theorem State.modThread_clock (s : State) (t : ThreadId) (f : Thread → Thread) : (s.modThread t f).clock = s.clock := rfl
@[simp] theorem State.modThread_issueQ (s : State) (t : ThreadId) (f : Thread → Thread) : (s.modThread t f).issueQ = s.issueQ := rfl
@[simp] theorem State.modThread_ran (s : State) (t : ThreadId) (f : Thread → Thread) : (s.modThread t f).ran = s.ran := rfl
@[simp] theorem State.modThread_agenda (s : State) (t : ThreadId) (f : Thread → Thread) : (s.modThread t f).agenda = s.agenda := rfl
@[simp] theorem State.modThread_nextId (s : State) (t : ThreadId) (f : Thread → Thread) : (s.modThread t f).nextId = s.nextId := rfl

/-! ## setCore -/

@[simp] theorem State.setCore_cur (s : State) (c : Core) : (s.setCore c).cur = s.cur := rfl
@[simp] theorem State.setCore_others (s : State) (c : Core) : (s.setCore c).others = s.others := rfl
@[simp] theorem State.setCore_crews (s : State) (c : Core) : (s.setCore c).crews = s.crews := rfl
@[simp] theorem State.setCore_teams (s : State) (c : Core) : (s.setCore c).teams = s.teams := rfl
@[simp] theorem State.setCore_launches (s : State) (c : Core) : (s.setCore c).launches = s.launches := rfl
@[simp] theorem State.setCore_slots (s : State) (c : Core) : (s.setCore c).slots = s.slots := rfl
@[simp] theorem State.setCore_cores (s : State) (c : Core) : (s.setCore c).cores = upsert (fun x => x.id == c.id) c s.cores := rfl
@[simp] theorem State.setCore_dies (s : State) (c : Core) : (s.setCore c).dies = s.dies := rfl
@[simp] theorem State.setCore_vfs (s : State) (c : Core) : (s.setCore c).vfs = s.vfs := rfl
@[simp] theorem State.setCore_mem (s : State) (c : Core) : (s.setCore c).mem = s.mem := rfl
@[simp] theorem State.setCore_requests (s : State) (c : Core) : (s.setCore c).requests = s.requests := rfl
@[simp] theorem State.setCore_replies (s : State) (c : Core) : (s.setCore c).replies = s.replies := rfl
@[simp] theorem State.setCore_engines (s : State) (c : Core) : (s.setCore c).engines = s.engines := rfl
@[simp] theorem State.setCore_chains (s : State) (c : Core) : (s.setCore c).chains = s.chains := rfl
@[simp] theorem State.setCore_drains (s : State) (c : Core) : (s.setCore c).drains = s.drains := rfl
@[simp] theorem State.setCore_barriers (s : State) (c : Core) : (s.setCore c).barriers = s.barriers := rfl
@[simp] theorem State.setCore_arrivals (s : State) (c : Core) : (s.setCore c).arrivals = s.arrivals := rfl
@[simp] theorem State.setCore_deliveries (s : State) (c : Core) : (s.setCore c).deliveries = s.deliveries := rfl
@[simp] theorem State.setCore_records (s : State) (c : Core) : (s.setCore c).records = s.records := rfl
@[simp] theorem State.setCore_walks (s : State) (c : Core) : (s.setCore c).walks = s.walks := rfl
@[simp] theorem State.setCore_welt (s : State) (c : Core) : (s.setCore c).welt = s.welt := rfl
@[simp] theorem State.setCore_intervals (s : State) (c : Core) : (s.setCore c).intervals = s.intervals := rfl
@[simp] theorem State.setCore_flips (s : State) (c : Core) : (s.setCore c).flips = s.flips := rfl
@[simp] theorem State.setCore_poison (s : State) (c : Core) : (s.setCore c).poison = s.poison := rfl
@[simp] theorem State.setCore_consumed (s : State) (c : Core) : (s.setCore c).consumed = s.consumed := rfl
@[simp] theorem State.setCore_mgmt (s : State) (c : Core) : (s.setCore c).mgmt = s.mgmt := rfl
@[simp] theorem State.setCore_cycle (s : State) (c : Core) : (s.setCore c).cycle = s.cycle := rfl
@[simp] theorem State.setCore_clock (s : State) (c : Core) : (s.setCore c).clock = s.clock := rfl
@[simp] theorem State.setCore_issueQ (s : State) (c : Core) : (s.setCore c).issueQ = s.issueQ := rfl
@[simp] theorem State.setCore_ran (s : State) (c : Core) : (s.setCore c).ran = s.ran := rfl
@[simp] theorem State.setCore_agenda (s : State) (c : Core) : (s.setCore c).agenda = s.agenda := rfl
@[simp] theorem State.setCore_nextId (s : State) (c : Core) : (s.setCore c).nextId = s.nextId := rfl

/-! ## setDie -/

@[simp] theorem State.setDie_cur (s : State) (d : Die) : (s.setDie d).cur = s.cur := rfl
@[simp] theorem State.setDie_others (s : State) (d : Die) : (s.setDie d).others = s.others := rfl
@[simp] theorem State.setDie_crews (s : State) (d : Die) : (s.setDie d).crews = s.crews := rfl
@[simp] theorem State.setDie_teams (s : State) (d : Die) : (s.setDie d).teams = s.teams := rfl
@[simp] theorem State.setDie_launches (s : State) (d : Die) : (s.setDie d).launches = s.launches := rfl
@[simp] theorem State.setDie_slots (s : State) (d : Die) : (s.setDie d).slots = s.slots := rfl
@[simp] theorem State.setDie_cores (s : State) (d : Die) : (s.setDie d).cores = s.cores := rfl
@[simp] theorem State.setDie_dies (s : State) (d : Die) : (s.setDie d).dies = upsert (fun x => x.id == d.id) d s.dies := rfl
@[simp] theorem State.setDie_vfs (s : State) (d : Die) : (s.setDie d).vfs = s.vfs := rfl
@[simp] theorem State.setDie_mem (s : State) (d : Die) : (s.setDie d).mem = s.mem := rfl
@[simp] theorem State.setDie_requests (s : State) (d : Die) : (s.setDie d).requests = s.requests := rfl
@[simp] theorem State.setDie_replies (s : State) (d : Die) : (s.setDie d).replies = s.replies := rfl
@[simp] theorem State.setDie_engines (s : State) (d : Die) : (s.setDie d).engines = s.engines := rfl
@[simp] theorem State.setDie_chains (s : State) (d : Die) : (s.setDie d).chains = s.chains := rfl
@[simp] theorem State.setDie_drains (s : State) (d : Die) : (s.setDie d).drains = s.drains := rfl
@[simp] theorem State.setDie_barriers (s : State) (d : Die) : (s.setDie d).barriers = s.barriers := rfl
@[simp] theorem State.setDie_arrivals (s : State) (d : Die) : (s.setDie d).arrivals = s.arrivals := rfl
@[simp] theorem State.setDie_deliveries (s : State) (d : Die) : (s.setDie d).deliveries = s.deliveries := rfl
@[simp] theorem State.setDie_records (s : State) (d : Die) : (s.setDie d).records = s.records := rfl
@[simp] theorem State.setDie_walks (s : State) (d : Die) : (s.setDie d).walks = s.walks := rfl
@[simp] theorem State.setDie_welt (s : State) (d : Die) : (s.setDie d).welt = s.welt := rfl
@[simp] theorem State.setDie_intervals (s : State) (d : Die) : (s.setDie d).intervals = s.intervals := rfl
@[simp] theorem State.setDie_flips (s : State) (d : Die) : (s.setDie d).flips = s.flips := rfl
@[simp] theorem State.setDie_poison (s : State) (d : Die) : (s.setDie d).poison = s.poison := rfl
@[simp] theorem State.setDie_consumed (s : State) (d : Die) : (s.setDie d).consumed = s.consumed := rfl
@[simp] theorem State.setDie_mgmt (s : State) (d : Die) : (s.setDie d).mgmt = s.mgmt := rfl
@[simp] theorem State.setDie_cycle (s : State) (d : Die) : (s.setDie d).cycle = s.cycle := rfl
@[simp] theorem State.setDie_clock (s : State) (d : Die) : (s.setDie d).clock = s.clock := rfl
@[simp] theorem State.setDie_issueQ (s : State) (d : Die) : (s.setDie d).issueQ = s.issueQ := rfl
@[simp] theorem State.setDie_ran (s : State) (d : Die) : (s.setDie d).ran = s.ran := rfl
@[simp] theorem State.setDie_agenda (s : State) (d : Die) : (s.setDie d).agenda = s.agenda := rfl
@[simp] theorem State.setDie_nextId (s : State) (d : Die) : (s.setDie d).nextId = s.nextId := rfl

/-! ## setVf -/

@[simp] theorem State.setVf_cur (s : State) (v : Vf) : (s.setVf v).cur = s.cur := rfl
@[simp] theorem State.setVf_others (s : State) (v : Vf) : (s.setVf v).others = s.others := rfl
@[simp] theorem State.setVf_crews (s : State) (v : Vf) : (s.setVf v).crews = s.crews := rfl
@[simp] theorem State.setVf_teams (s : State) (v : Vf) : (s.setVf v).teams = s.teams := rfl
@[simp] theorem State.setVf_launches (s : State) (v : Vf) : (s.setVf v).launches = s.launches := rfl
@[simp] theorem State.setVf_slots (s : State) (v : Vf) : (s.setVf v).slots = s.slots := rfl
@[simp] theorem State.setVf_cores (s : State) (v : Vf) : (s.setVf v).cores = s.cores := rfl
@[simp] theorem State.setVf_dies (s : State) (v : Vf) : (s.setVf v).dies = s.dies := rfl
@[simp] theorem State.setVf_vfs (s : State) (v : Vf) : (s.setVf v).vfs = s.vfs.map (fun x => if x.id == v.id then v else x) := rfl
@[simp] theorem State.setVf_mem (s : State) (v : Vf) : (s.setVf v).mem = s.mem := rfl
@[simp] theorem State.setVf_requests (s : State) (v : Vf) : (s.setVf v).requests = s.requests := rfl
@[simp] theorem State.setVf_replies (s : State) (v : Vf) : (s.setVf v).replies = s.replies := rfl
@[simp] theorem State.setVf_engines (s : State) (v : Vf) : (s.setVf v).engines = s.engines := rfl
@[simp] theorem State.setVf_chains (s : State) (v : Vf) : (s.setVf v).chains = s.chains := rfl
@[simp] theorem State.setVf_drains (s : State) (v : Vf) : (s.setVf v).drains = s.drains := rfl
@[simp] theorem State.setVf_barriers (s : State) (v : Vf) : (s.setVf v).barriers = s.barriers := rfl
@[simp] theorem State.setVf_arrivals (s : State) (v : Vf) : (s.setVf v).arrivals = s.arrivals := rfl
@[simp] theorem State.setVf_deliveries (s : State) (v : Vf) : (s.setVf v).deliveries = s.deliveries := rfl
@[simp] theorem State.setVf_records (s : State) (v : Vf) : (s.setVf v).records = s.records := rfl
@[simp] theorem State.setVf_walks (s : State) (v : Vf) : (s.setVf v).walks = s.walks := rfl
@[simp] theorem State.setVf_welt (s : State) (v : Vf) : (s.setVf v).welt = s.welt := rfl
@[simp] theorem State.setVf_intervals (s : State) (v : Vf) : (s.setVf v).intervals = s.intervals := rfl
@[simp] theorem State.setVf_flips (s : State) (v : Vf) : (s.setVf v).flips = s.flips := rfl
@[simp] theorem State.setVf_poison (s : State) (v : Vf) : (s.setVf v).poison = s.poison := rfl
@[simp] theorem State.setVf_consumed (s : State) (v : Vf) : (s.setVf v).consumed = s.consumed := rfl
@[simp] theorem State.setVf_mgmt (s : State) (v : Vf) : (s.setVf v).mgmt = s.mgmt := rfl
@[simp] theorem State.setVf_cycle (s : State) (v : Vf) : (s.setVf v).cycle = s.cycle := rfl
@[simp] theorem State.setVf_clock (s : State) (v : Vf) : (s.setVf v).clock = s.clock := rfl
@[simp] theorem State.setVf_issueQ (s : State) (v : Vf) : (s.setVf v).issueQ = s.issueQ := rfl
@[simp] theorem State.setVf_ran (s : State) (v : Vf) : (s.setVf v).ran = s.ran := rfl
@[simp] theorem State.setVf_agenda (s : State) (v : Vf) : (s.setVf v).agenda = s.agenda := rfl
@[simp] theorem State.setVf_nextId (s : State) (v : Vf) : (s.setVf v).nextId = s.nextId := rfl

/-! ## setLaunch -/

@[simp] theorem State.setLaunch_cur (s : State) (l : Launch) : (s.setLaunch l).cur = s.cur := rfl
@[simp] theorem State.setLaunch_others (s : State) (l : Launch) : (s.setLaunch l).others = s.others := rfl
@[simp] theorem State.setLaunch_crews (s : State) (l : Launch) : (s.setLaunch l).crews = s.crews := rfl
@[simp] theorem State.setLaunch_teams (s : State) (l : Launch) : (s.setLaunch l).teams = s.teams := rfl
@[simp] theorem State.setLaunch_launches (s : State) (l : Launch) : (s.setLaunch l).launches = s.launches.map (fun x => if x.id == l.id then l else x) := rfl
@[simp] theorem State.setLaunch_slots (s : State) (l : Launch) : (s.setLaunch l).slots = s.slots := rfl
@[simp] theorem State.setLaunch_cores (s : State) (l : Launch) : (s.setLaunch l).cores = s.cores := rfl
@[simp] theorem State.setLaunch_dies (s : State) (l : Launch) : (s.setLaunch l).dies = s.dies := rfl
@[simp] theorem State.setLaunch_vfs (s : State) (l : Launch) : (s.setLaunch l).vfs = s.vfs := rfl
@[simp] theorem State.setLaunch_mem (s : State) (l : Launch) : (s.setLaunch l).mem = s.mem := rfl
@[simp] theorem State.setLaunch_requests (s : State) (l : Launch) : (s.setLaunch l).requests = s.requests := rfl
@[simp] theorem State.setLaunch_replies (s : State) (l : Launch) : (s.setLaunch l).replies = s.replies := rfl
@[simp] theorem State.setLaunch_engines (s : State) (l : Launch) : (s.setLaunch l).engines = s.engines := rfl
@[simp] theorem State.setLaunch_chains (s : State) (l : Launch) : (s.setLaunch l).chains = s.chains := rfl
@[simp] theorem State.setLaunch_drains (s : State) (l : Launch) : (s.setLaunch l).drains = s.drains := rfl
@[simp] theorem State.setLaunch_barriers (s : State) (l : Launch) : (s.setLaunch l).barriers = s.barriers := rfl
@[simp] theorem State.setLaunch_arrivals (s : State) (l : Launch) : (s.setLaunch l).arrivals = s.arrivals := rfl
@[simp] theorem State.setLaunch_deliveries (s : State) (l : Launch) : (s.setLaunch l).deliveries = s.deliveries := rfl
@[simp] theorem State.setLaunch_records (s : State) (l : Launch) : (s.setLaunch l).records = s.records := rfl
@[simp] theorem State.setLaunch_walks (s : State) (l : Launch) : (s.setLaunch l).walks = s.walks := rfl
@[simp] theorem State.setLaunch_welt (s : State) (l : Launch) : (s.setLaunch l).welt = s.welt := rfl
@[simp] theorem State.setLaunch_intervals (s : State) (l : Launch) : (s.setLaunch l).intervals = s.intervals := rfl
@[simp] theorem State.setLaunch_flips (s : State) (l : Launch) : (s.setLaunch l).flips = s.flips := rfl
@[simp] theorem State.setLaunch_poison (s : State) (l : Launch) : (s.setLaunch l).poison = s.poison := rfl
@[simp] theorem State.setLaunch_consumed (s : State) (l : Launch) : (s.setLaunch l).consumed = s.consumed := rfl
@[simp] theorem State.setLaunch_mgmt (s : State) (l : Launch) : (s.setLaunch l).mgmt = s.mgmt := rfl
@[simp] theorem State.setLaunch_cycle (s : State) (l : Launch) : (s.setLaunch l).cycle = s.cycle := rfl
@[simp] theorem State.setLaunch_clock (s : State) (l : Launch) : (s.setLaunch l).clock = s.clock := rfl
@[simp] theorem State.setLaunch_issueQ (s : State) (l : Launch) : (s.setLaunch l).issueQ = s.issueQ := rfl
@[simp] theorem State.setLaunch_ran (s : State) (l : Launch) : (s.setLaunch l).ran = s.ran := rfl
@[simp] theorem State.setLaunch_agenda (s : State) (l : Launch) : (s.setLaunch l).agenda = s.agenda := rfl
@[simp] theorem State.setLaunch_nextId (s : State) (l : Launch) : (s.setLaunch l).nextId = s.nextId := rfl

/-! ## setTeam -/

@[simp] theorem State.setTeam_cur (s : State) (t : Team) : (s.setTeam t).cur = s.cur := rfl
@[simp] theorem State.setTeam_others (s : State) (t : Team) : (s.setTeam t).others = s.others := rfl
@[simp] theorem State.setTeam_crews (s : State) (t : Team) : (s.setTeam t).crews = s.crews := rfl
@[simp] theorem State.setTeam_teams (s : State) (t : Team) : (s.setTeam t).teams = s.teams.map (fun x => if x.launch == t.launch && x.idx == t.idx then t else x) := rfl
@[simp] theorem State.setTeam_launches (s : State) (t : Team) : (s.setTeam t).launches = s.launches := rfl
@[simp] theorem State.setTeam_slots (s : State) (t : Team) : (s.setTeam t).slots = s.slots := rfl
@[simp] theorem State.setTeam_cores (s : State) (t : Team) : (s.setTeam t).cores = s.cores := rfl
@[simp] theorem State.setTeam_dies (s : State) (t : Team) : (s.setTeam t).dies = s.dies := rfl
@[simp] theorem State.setTeam_vfs (s : State) (t : Team) : (s.setTeam t).vfs = s.vfs := rfl
@[simp] theorem State.setTeam_mem (s : State) (t : Team) : (s.setTeam t).mem = s.mem := rfl
@[simp] theorem State.setTeam_requests (s : State) (t : Team) : (s.setTeam t).requests = s.requests := rfl
@[simp] theorem State.setTeam_replies (s : State) (t : Team) : (s.setTeam t).replies = s.replies := rfl
@[simp] theorem State.setTeam_engines (s : State) (t : Team) : (s.setTeam t).engines = s.engines := rfl
@[simp] theorem State.setTeam_chains (s : State) (t : Team) : (s.setTeam t).chains = s.chains := rfl
@[simp] theorem State.setTeam_drains (s : State) (t : Team) : (s.setTeam t).drains = s.drains := rfl
@[simp] theorem State.setTeam_barriers (s : State) (t : Team) : (s.setTeam t).barriers = s.barriers := rfl
@[simp] theorem State.setTeam_arrivals (s : State) (t : Team) : (s.setTeam t).arrivals = s.arrivals := rfl
@[simp] theorem State.setTeam_deliveries (s : State) (t : Team) : (s.setTeam t).deliveries = s.deliveries := rfl
@[simp] theorem State.setTeam_records (s : State) (t : Team) : (s.setTeam t).records = s.records := rfl
@[simp] theorem State.setTeam_walks (s : State) (t : Team) : (s.setTeam t).walks = s.walks := rfl
@[simp] theorem State.setTeam_welt (s : State) (t : Team) : (s.setTeam t).welt = s.welt := rfl
@[simp] theorem State.setTeam_intervals (s : State) (t : Team) : (s.setTeam t).intervals = s.intervals := rfl
@[simp] theorem State.setTeam_flips (s : State) (t : Team) : (s.setTeam t).flips = s.flips := rfl
@[simp] theorem State.setTeam_poison (s : State) (t : Team) : (s.setTeam t).poison = s.poison := rfl
@[simp] theorem State.setTeam_consumed (s : State) (t : Team) : (s.setTeam t).consumed = s.consumed := rfl
@[simp] theorem State.setTeam_mgmt (s : State) (t : Team) : (s.setTeam t).mgmt = s.mgmt := rfl
@[simp] theorem State.setTeam_cycle (s : State) (t : Team) : (s.setTeam t).cycle = s.cycle := rfl
@[simp] theorem State.setTeam_clock (s : State) (t : Team) : (s.setTeam t).clock = s.clock := rfl
@[simp] theorem State.setTeam_issueQ (s : State) (t : Team) : (s.setTeam t).issueQ = s.issueQ := rfl
@[simp] theorem State.setTeam_ran (s : State) (t : Team) : (s.setTeam t).ran = s.ran := rfl
@[simp] theorem State.setTeam_agenda (s : State) (t : Team) : (s.setTeam t).agenda = s.agenda := rfl
@[simp] theorem State.setTeam_nextId (s : State) (t : Team) : (s.setTeam t).nextId = s.nextId := rfl

/-! ## setCrew -/

@[simp] theorem State.setCrew_cur (s : State) (c : Crew) : (s.setCrew c).cur = s.cur := rfl
@[simp] theorem State.setCrew_others (s : State) (c : Crew) : (s.setCrew c).others = s.others := rfl
@[simp] theorem State.setCrew_crews (s : State) (c : Crew) : (s.setCrew c).crews = s.crews.map (fun x => if x.id == c.id then c else x) := rfl
@[simp] theorem State.setCrew_teams (s : State) (c : Crew) : (s.setCrew c).teams = s.teams := rfl
@[simp] theorem State.setCrew_launches (s : State) (c : Crew) : (s.setCrew c).launches = s.launches := rfl
@[simp] theorem State.setCrew_slots (s : State) (c : Crew) : (s.setCrew c).slots = s.slots := rfl
@[simp] theorem State.setCrew_cores (s : State) (c : Crew) : (s.setCrew c).cores = s.cores := rfl
@[simp] theorem State.setCrew_dies (s : State) (c : Crew) : (s.setCrew c).dies = s.dies := rfl
@[simp] theorem State.setCrew_vfs (s : State) (c : Crew) : (s.setCrew c).vfs = s.vfs := rfl
@[simp] theorem State.setCrew_mem (s : State) (c : Crew) : (s.setCrew c).mem = s.mem := rfl
@[simp] theorem State.setCrew_requests (s : State) (c : Crew) : (s.setCrew c).requests = s.requests := rfl
@[simp] theorem State.setCrew_replies (s : State) (c : Crew) : (s.setCrew c).replies = s.replies := rfl
@[simp] theorem State.setCrew_engines (s : State) (c : Crew) : (s.setCrew c).engines = s.engines := rfl
@[simp] theorem State.setCrew_chains (s : State) (c : Crew) : (s.setCrew c).chains = s.chains := rfl
@[simp] theorem State.setCrew_drains (s : State) (c : Crew) : (s.setCrew c).drains = s.drains := rfl
@[simp] theorem State.setCrew_barriers (s : State) (c : Crew) : (s.setCrew c).barriers = s.barriers := rfl
@[simp] theorem State.setCrew_arrivals (s : State) (c : Crew) : (s.setCrew c).arrivals = s.arrivals := rfl
@[simp] theorem State.setCrew_deliveries (s : State) (c : Crew) : (s.setCrew c).deliveries = s.deliveries := rfl
@[simp] theorem State.setCrew_records (s : State) (c : Crew) : (s.setCrew c).records = s.records := rfl
@[simp] theorem State.setCrew_walks (s : State) (c : Crew) : (s.setCrew c).walks = s.walks := rfl
@[simp] theorem State.setCrew_welt (s : State) (c : Crew) : (s.setCrew c).welt = s.welt := rfl
@[simp] theorem State.setCrew_intervals (s : State) (c : Crew) : (s.setCrew c).intervals = s.intervals := rfl
@[simp] theorem State.setCrew_flips (s : State) (c : Crew) : (s.setCrew c).flips = s.flips := rfl
@[simp] theorem State.setCrew_poison (s : State) (c : Crew) : (s.setCrew c).poison = s.poison := rfl
@[simp] theorem State.setCrew_consumed (s : State) (c : Crew) : (s.setCrew c).consumed = s.consumed := rfl
@[simp] theorem State.setCrew_mgmt (s : State) (c : Crew) : (s.setCrew c).mgmt = s.mgmt := rfl
@[simp] theorem State.setCrew_cycle (s : State) (c : Crew) : (s.setCrew c).cycle = s.cycle := rfl
@[simp] theorem State.setCrew_clock (s : State) (c : Crew) : (s.setCrew c).clock = s.clock := rfl
@[simp] theorem State.setCrew_issueQ (s : State) (c : Crew) : (s.setCrew c).issueQ = s.issueQ := rfl
@[simp] theorem State.setCrew_ran (s : State) (c : Crew) : (s.setCrew c).ran = s.ran := rfl
@[simp] theorem State.setCrew_agenda (s : State) (c : Crew) : (s.setCrew c).agenda = s.agenda := rfl
@[simp] theorem State.setCrew_nextId (s : State) (c : Crew) : (s.setCrew c).nextId = s.nextId := rfl

/-! ## fresh -/

@[simp] theorem State.fresh_cur (s : State) : (s.fresh).cur = s.cur := rfl
@[simp] theorem State.fresh_others (s : State) : (s.fresh).others = s.others := rfl
@[simp] theorem State.fresh_crews (s : State) : (s.fresh).crews = s.crews := rfl
@[simp] theorem State.fresh_teams (s : State) : (s.fresh).teams = s.teams := rfl
@[simp] theorem State.fresh_launches (s : State) : (s.fresh).launches = s.launches := rfl
@[simp] theorem State.fresh_slots (s : State) : (s.fresh).slots = s.slots := rfl
@[simp] theorem State.fresh_cores (s : State) : (s.fresh).cores = s.cores := rfl
@[simp] theorem State.fresh_dies (s : State) : (s.fresh).dies = s.dies := rfl
@[simp] theorem State.fresh_vfs (s : State) : (s.fresh).vfs = s.vfs := rfl
@[simp] theorem State.fresh_mem (s : State) : (s.fresh).mem = s.mem := rfl
@[simp] theorem State.fresh_requests (s : State) : (s.fresh).requests = s.requests := rfl
@[simp] theorem State.fresh_replies (s : State) : (s.fresh).replies = s.replies := rfl
@[simp] theorem State.fresh_engines (s : State) : (s.fresh).engines = s.engines := rfl
@[simp] theorem State.fresh_chains (s : State) : (s.fresh).chains = s.chains := rfl
@[simp] theorem State.fresh_drains (s : State) : (s.fresh).drains = s.drains := rfl
@[simp] theorem State.fresh_barriers (s : State) : (s.fresh).barriers = s.barriers := rfl
@[simp] theorem State.fresh_arrivals (s : State) : (s.fresh).arrivals = s.arrivals := rfl
@[simp] theorem State.fresh_deliveries (s : State) : (s.fresh).deliveries = s.deliveries := rfl
@[simp] theorem State.fresh_records (s : State) : (s.fresh).records = s.records := rfl
@[simp] theorem State.fresh_walks (s : State) : (s.fresh).walks = s.walks := rfl
@[simp] theorem State.fresh_welt (s : State) : (s.fresh).welt = s.welt := rfl
@[simp] theorem State.fresh_intervals (s : State) : (s.fresh).intervals = s.intervals := rfl
@[simp] theorem State.fresh_flips (s : State) : (s.fresh).flips = s.flips := rfl
@[simp] theorem State.fresh_poison (s : State) : (s.fresh).poison = s.poison := rfl
@[simp] theorem State.fresh_consumed (s : State) : (s.fresh).consumed = s.consumed := rfl
@[simp] theorem State.fresh_mgmt (s : State) : (s.fresh).mgmt = s.mgmt := rfl
@[simp] theorem State.fresh_cycle (s : State) : (s.fresh).cycle = s.cycle := rfl
@[simp] theorem State.fresh_clock (s : State) : (s.fresh).clock = s.clock := rfl
@[simp] theorem State.fresh_issueQ (s : State) : (s.fresh).issueQ = s.issueQ := rfl
@[simp] theorem State.fresh_ran (s : State) : (s.fresh).ran = s.ran := rfl
@[simp] theorem State.fresh_agenda (s : State) : (s.fresh).agenda = s.agenda := rfl
@[simp] theorem State.fresh_nextId (s : State) : (s.fresh).nextId = s.nextId + 1 := rfl

/-! ## enqueue -/

@[simp] theorem State.enqueue_cur (s : State) (d : Reg) (width : Nat) : (s.enqueue d width).cur = { s.cur with queue := s.cur.queue ++ [QEntry.mk s.nextId (s.cur.idx d) width QState.awaiting []] } := rfl
@[simp] theorem State.enqueue_others (s : State) (d : Reg) (width : Nat) : (s.enqueue d width).others = s.others := rfl
@[simp] theorem State.enqueue_crews (s : State) (d : Reg) (width : Nat) : (s.enqueue d width).crews = s.crews := rfl
@[simp] theorem State.enqueue_teams (s : State) (d : Reg) (width : Nat) : (s.enqueue d width).teams = s.teams := rfl
@[simp] theorem State.enqueue_launches (s : State) (d : Reg) (width : Nat) : (s.enqueue d width).launches = s.launches := rfl
@[simp] theorem State.enqueue_slots (s : State) (d : Reg) (width : Nat) : (s.enqueue d width).slots = s.slots := rfl
@[simp] theorem State.enqueue_cores (s : State) (d : Reg) (width : Nat) : (s.enqueue d width).cores = s.cores := rfl
@[simp] theorem State.enqueue_dies (s : State) (d : Reg) (width : Nat) : (s.enqueue d width).dies = s.dies := rfl
@[simp] theorem State.enqueue_vfs (s : State) (d : Reg) (width : Nat) : (s.enqueue d width).vfs = s.vfs := rfl
@[simp] theorem State.enqueue_mem (s : State) (d : Reg) (width : Nat) : (s.enqueue d width).mem = s.mem := rfl
@[simp] theorem State.enqueue_requests (s : State) (d : Reg) (width : Nat) : (s.enqueue d width).requests = s.requests := rfl
@[simp] theorem State.enqueue_replies (s : State) (d : Reg) (width : Nat) : (s.enqueue d width).replies = s.replies := rfl
@[simp] theorem State.enqueue_engines (s : State) (d : Reg) (width : Nat) : (s.enqueue d width).engines = s.engines := rfl
@[simp] theorem State.enqueue_chains (s : State) (d : Reg) (width : Nat) : (s.enqueue d width).chains = s.chains := rfl
@[simp] theorem State.enqueue_drains (s : State) (d : Reg) (width : Nat) : (s.enqueue d width).drains = s.drains := rfl
@[simp] theorem State.enqueue_barriers (s : State) (d : Reg) (width : Nat) : (s.enqueue d width).barriers = s.barriers := rfl
@[simp] theorem State.enqueue_arrivals (s : State) (d : Reg) (width : Nat) : (s.enqueue d width).arrivals = s.arrivals := rfl
@[simp] theorem State.enqueue_deliveries (s : State) (d : Reg) (width : Nat) : (s.enqueue d width).deliveries = s.deliveries := rfl
@[simp] theorem State.enqueue_records (s : State) (d : Reg) (width : Nat) : (s.enqueue d width).records = s.records := rfl
@[simp] theorem State.enqueue_walks (s : State) (d : Reg) (width : Nat) : (s.enqueue d width).walks = s.walks := rfl
@[simp] theorem State.enqueue_welt (s : State) (d : Reg) (width : Nat) : (s.enqueue d width).welt = s.welt := rfl
@[simp] theorem State.enqueue_intervals (s : State) (d : Reg) (width : Nat) : (s.enqueue d width).intervals = s.intervals := rfl
@[simp] theorem State.enqueue_flips (s : State) (d : Reg) (width : Nat) : (s.enqueue d width).flips = s.flips := rfl
@[simp] theorem State.enqueue_poison (s : State) (d : Reg) (width : Nat) : (s.enqueue d width).poison = s.poison := rfl
@[simp] theorem State.enqueue_consumed (s : State) (d : Reg) (width : Nat) : (s.enqueue d width).consumed = s.consumed := rfl
@[simp] theorem State.enqueue_mgmt (s : State) (d : Reg) (width : Nat) : (s.enqueue d width).mgmt = s.mgmt := rfl
@[simp] theorem State.enqueue_cycle (s : State) (d : Reg) (width : Nat) : (s.enqueue d width).cycle = s.cycle := rfl
@[simp] theorem State.enqueue_clock (s : State) (d : Reg) (width : Nat) : (s.enqueue d width).clock = s.clock := rfl
@[simp] theorem State.enqueue_issueQ (s : State) (d : Reg) (width : Nat) : (s.enqueue d width).issueQ = s.issueQ := rfl
@[simp] theorem State.enqueue_ran (s : State) (d : Reg) (width : Nat) : (s.enqueue d width).ran = s.ran := rfl
@[simp] theorem State.enqueue_agenda (s : State) (d : Reg) (width : Nat) : (s.enqueue d width).agenda = s.agenda := rfl
@[simp] theorem State.enqueue_nextId (s : State) (d : Reg) (width : Nat) : (s.enqueue d width).nextId = s.nextId + 1 := rfl

/-! ## reply -/

@[simp] theorem State.reply_cur (s : State) (req : Nat) (t : ThreadId) (val : List Word) : (s.reply req t val).cur = s.cur := rfl
@[simp] theorem State.reply_others (s : State) (req : Nat) (t : ThreadId) (val : List Word) : (s.reply req t val).others = s.others := rfl
@[simp] theorem State.reply_crews (s : State) (req : Nat) (t : ThreadId) (val : List Word) : (s.reply req t val).crews = s.crews := rfl
@[simp] theorem State.reply_teams (s : State) (req : Nat) (t : ThreadId) (val : List Word) : (s.reply req t val).teams = s.teams := rfl
@[simp] theorem State.reply_launches (s : State) (req : Nat) (t : ThreadId) (val : List Word) : (s.reply req t val).launches = s.launches := rfl
@[simp] theorem State.reply_slots (s : State) (req : Nat) (t : ThreadId) (val : List Word) : (s.reply req t val).slots = s.slots := rfl
@[simp] theorem State.reply_cores (s : State) (req : Nat) (t : ThreadId) (val : List Word) : (s.reply req t val).cores = s.cores := rfl
@[simp] theorem State.reply_dies (s : State) (req : Nat) (t : ThreadId) (val : List Word) : (s.reply req t val).dies = s.dies := rfl
@[simp] theorem State.reply_vfs (s : State) (req : Nat) (t : ThreadId) (val : List Word) : (s.reply req t val).vfs = s.vfs := rfl
@[simp] theorem State.reply_mem (s : State) (req : Nat) (t : ThreadId) (val : List Word) : (s.reply req t val).mem = s.mem := rfl
@[simp] theorem State.reply_requests (s : State) (req : Nat) (t : ThreadId) (val : List Word) : (s.reply req t val).requests = s.requests := rfl
@[simp] theorem State.reply_replies (s : State) (req : Nat) (t : ThreadId) (val : List Word) : (s.reply req t val).replies = s.replies ++ [⟨req, t, val, false, 0⟩] := rfl
@[simp] theorem State.reply_engines (s : State) (req : Nat) (t : ThreadId) (val : List Word) : (s.reply req t val).engines = s.engines := rfl
@[simp] theorem State.reply_chains (s : State) (req : Nat) (t : ThreadId) (val : List Word) : (s.reply req t val).chains = s.chains := rfl
@[simp] theorem State.reply_drains (s : State) (req : Nat) (t : ThreadId) (val : List Word) : (s.reply req t val).drains = s.drains := rfl
@[simp] theorem State.reply_barriers (s : State) (req : Nat) (t : ThreadId) (val : List Word) : (s.reply req t val).barriers = s.barriers := rfl
@[simp] theorem State.reply_arrivals (s : State) (req : Nat) (t : ThreadId) (val : List Word) : (s.reply req t val).arrivals = s.arrivals := rfl
@[simp] theorem State.reply_deliveries (s : State) (req : Nat) (t : ThreadId) (val : List Word) : (s.reply req t val).deliveries = s.deliveries := rfl
@[simp] theorem State.reply_records (s : State) (req : Nat) (t : ThreadId) (val : List Word) : (s.reply req t val).records = s.records := rfl
@[simp] theorem State.reply_walks (s : State) (req : Nat) (t : ThreadId) (val : List Word) : (s.reply req t val).walks = s.walks := rfl
@[simp] theorem State.reply_welt (s : State) (req : Nat) (t : ThreadId) (val : List Word) : (s.reply req t val).welt = s.welt := rfl
@[simp] theorem State.reply_intervals (s : State) (req : Nat) (t : ThreadId) (val : List Word) : (s.reply req t val).intervals = s.intervals := rfl
@[simp] theorem State.reply_flips (s : State) (req : Nat) (t : ThreadId) (val : List Word) : (s.reply req t val).flips = s.flips := rfl
@[simp] theorem State.reply_poison (s : State) (req : Nat) (t : ThreadId) (val : List Word) : (s.reply req t val).poison = s.poison := rfl
@[simp] theorem State.reply_consumed (s : State) (req : Nat) (t : ThreadId) (val : List Word) : (s.reply req t val).consumed = s.consumed := rfl
@[simp] theorem State.reply_mgmt (s : State) (req : Nat) (t : ThreadId) (val : List Word) : (s.reply req t val).mgmt = s.mgmt := rfl
@[simp] theorem State.reply_cycle (s : State) (req : Nat) (t : ThreadId) (val : List Word) : (s.reply req t val).cycle = s.cycle := rfl
@[simp] theorem State.reply_clock (s : State) (req : Nat) (t : ThreadId) (val : List Word) : (s.reply req t val).clock = s.clock := rfl
@[simp] theorem State.reply_issueQ (s : State) (req : Nat) (t : ThreadId) (val : List Word) : (s.reply req t val).issueQ = s.issueQ := rfl
@[simp] theorem State.reply_ran (s : State) (req : Nat) (t : ThreadId) (val : List Word) : (s.reply req t val).ran = s.ran := rfl
@[simp] theorem State.reply_agenda (s : State) (req : Nat) (t : ThreadId) (val : List Word) : (s.reply req t val).agenda = s.agenda := rfl
@[simp] theorem State.reply_nextId (s : State) (req : Nat) (t : ThreadId) (val : List Word) : (s.reply req t val).nextId = s.nextId := rfl

/-! ## parkCur -/

@[simp] theorem State.parkCur_cur (s : State) (ph : Phase) : (s.parkCur ph).cur = s.cur.enter ph s.cycle := rfl
@[simp] theorem State.parkCur_others (s : State) (ph : Phase) : (s.parkCur ph).others = s.others := rfl
@[simp] theorem State.parkCur_crews (s : State) (ph : Phase) : (s.parkCur ph).crews = s.crews := rfl
@[simp] theorem State.parkCur_teams (s : State) (ph : Phase) : (s.parkCur ph).teams = s.teams := rfl
@[simp] theorem State.parkCur_launches (s : State) (ph : Phase) : (s.parkCur ph).launches = s.launches := rfl
@[simp] theorem State.parkCur_slots (s : State) (ph : Phase) : (s.parkCur ph).slots = s.slots := rfl
@[simp] theorem State.parkCur_cores (s : State) (ph : Phase) : (s.parkCur ph).cores = s.cores := rfl
@[simp] theorem State.parkCur_dies (s : State) (ph : Phase) : (s.parkCur ph).dies = s.dies := rfl
@[simp] theorem State.parkCur_vfs (s : State) (ph : Phase) : (s.parkCur ph).vfs = s.vfs := rfl
@[simp] theorem State.parkCur_mem (s : State) (ph : Phase) : (s.parkCur ph).mem = s.mem := rfl
@[simp] theorem State.parkCur_requests (s : State) (ph : Phase) : (s.parkCur ph).requests = s.requests := rfl
@[simp] theorem State.parkCur_replies (s : State) (ph : Phase) : (s.parkCur ph).replies = s.replies := rfl
@[simp] theorem State.parkCur_engines (s : State) (ph : Phase) : (s.parkCur ph).engines = s.engines := rfl
@[simp] theorem State.parkCur_chains (s : State) (ph : Phase) : (s.parkCur ph).chains = s.chains := rfl
@[simp] theorem State.parkCur_drains (s : State) (ph : Phase) : (s.parkCur ph).drains = s.drains := rfl
@[simp] theorem State.parkCur_barriers (s : State) (ph : Phase) : (s.parkCur ph).barriers = s.barriers := rfl
@[simp] theorem State.parkCur_arrivals (s : State) (ph : Phase) : (s.parkCur ph).arrivals = s.arrivals := rfl
@[simp] theorem State.parkCur_deliveries (s : State) (ph : Phase) : (s.parkCur ph).deliveries = s.deliveries := rfl
@[simp] theorem State.parkCur_records (s : State) (ph : Phase) : (s.parkCur ph).records = s.records := rfl
@[simp] theorem State.parkCur_walks (s : State) (ph : Phase) : (s.parkCur ph).walks = s.walks := rfl
@[simp] theorem State.parkCur_welt (s : State) (ph : Phase) : (s.parkCur ph).welt = s.welt := rfl
@[simp] theorem State.parkCur_intervals (s : State) (ph : Phase) : (s.parkCur ph).intervals = s.intervals := rfl
@[simp] theorem State.parkCur_flips (s : State) (ph : Phase) : (s.parkCur ph).flips = s.flips := rfl
@[simp] theorem State.parkCur_poison (s : State) (ph : Phase) : (s.parkCur ph).poison = s.poison := rfl
@[simp] theorem State.parkCur_consumed (s : State) (ph : Phase) : (s.parkCur ph).consumed = s.consumed := rfl
@[simp] theorem State.parkCur_mgmt (s : State) (ph : Phase) : (s.parkCur ph).mgmt = s.mgmt := rfl
@[simp] theorem State.parkCur_cycle (s : State) (ph : Phase) : (s.parkCur ph).cycle = s.cycle := rfl
@[simp] theorem State.parkCur_clock (s : State) (ph : Phase) : (s.parkCur ph).clock = s.clock := rfl
@[simp] theorem State.parkCur_issueQ (s : State) (ph : Phase) : (s.parkCur ph).issueQ = s.issueQ := rfl
@[simp] theorem State.parkCur_ran (s : State) (ph : Phase) : (s.parkCur ph).ran = s.ran := rfl
@[simp] theorem State.parkCur_agenda (s : State) (ph : Phase) : (s.parkCur ph).agenda = s.agenda := rfl
@[simp] theorem State.parkCur_nextId (s : State) (ph : Phase) : (s.parkCur ph).nextId = s.nextId := rfl

end Sys2Proof.Machine
end

