-- ==== Sys2Proof/Laws/Threads.lean ====
section
/-! SUPPORT. Finding a thread again after an operation: what changes of threads, the meeting release, moving the pc, parking and
trapping can do to the thread of a given name. -/

namespace Sys2Proof.Machine

/-- Finding by name passes through a change that keeps names. -/
theorem find?_map_id (f : Thread → Thread) (hf : ∀ t, (f t).id = t.id) (id : ThreadId) (l : List Thread) :
    (l.map f).find? (fun x => x.id == id) = (l.find? (fun x => x.id == id)).map f := by
  rw [List.find?_map]
  congr 2
  funext x
  simp [hf]

theorem State.mapThreads_thread? (s : State) (f : Thread → Thread) (hf : ∀ t, (f t).id = t.id) (id : ThreadId) :
    (s.mapThreads f).thread? id = (s.thread? id).map f := by
  unfold State.thread?
  simp only [State.mapThreads_cur, State.mapThreads_others, hf, find?_map_id f hf]
  split <;> rfl

/-- A thread that is found has the name it was sought by. -/
theorem State.thread?_id {s : State} {id : ThreadId} {x : Thread} (h : s.thread? id = some x) : x.id = id := by
  unfold State.thread? at h
  split at h
  · cases h; simpa using ‹(s.cur.id == id) = true›
  · simpa using List.find?_some h

theorem State.thread?_cur (s : State) : s.thread? s.cur.id = some s.cur := by simp [State.thread?]

theorem State.modThread_thread? (s : State) (t id : ThreadId) (f : Thread → Thread) (hf : ∀ x, (f x).id = x.id) :
    (s.modThread t f).thread? id = if id = t then (s.thread? id).map f else s.thread? id := by
  unfold State.modThread
  rw [State.mapThreads_thread? _ _ (by intro x; split <;> simp [hf])]
  cases h : s.thread? id with
  | none => simp
  | some x => have := State.thread?_id h; subst this; split <;> simp_all

/-- The thread in turn may be set: it keeps its name. -/
theorem State.setCur_thread? (s : State) (u : Thread) (hu : u.id = s.cur.id) (id : ThreadId) :
    (s.setCur u).thread? id = if id = s.cur.id then some u else s.thread? id := by
  unfold State.thread?
  by_cases h : s.cur.id = id
  · simp [hu, h]
  · have h' : id ≠ s.cur.id := fun e => h e.symm
    simp [hu, h, h']

/-- What a meeting's release makes of a thread: it frees a held one, or leaves the thread as it is. -/
theorem State.meetRelease_thread? (s : State) (c : CrewId) (id : ThreadId) {x : Thread} (h : s.thread? id = some x) :
    ∃ u, (s.meetRelease c).thread? id = some u ∧
      (u = x ∨ (x.phase = .held ∧ u = { x with phase := .ready, released := true })) := by
  unfold State.meetRelease
  rw [State.mapThreads_thread? _ _ (by intro x; dsimp only; split <;> rfl), h]
  refine ⟨_, rfl, ?_⟩
  dsimp only
  split
  · right; refine ⟨?_, rfl⟩; simp_all
  · left; rfl

theorem State.meetRelease_cur (s : State) (c : CrewId) :
    (s.meetRelease c).cur = s.cur ∨ (s.cur.phase = .held ∧ (s.meetRelease c).cur = { s.cur with phase := .ready, released := true }) := by
  unfold State.meetRelease
  rw [State.mapThreads_cur]
  split
  · right; refine ⟨?_, rfl⟩; simp_all
  · left; rfl

/-- A thread that is not held is left as it is by a meeting's release. -/
theorem State.meetRelease_keeps (s : State) (c : CrewId) (id : ThreadId) {x : Thread} (h : s.thread? id = some x) (hx : x.phase ≠ .held) :
    (s.meetRelease c).thread? id = some x := by
  obtain ⟨u, hu, h | h⟩ := State.meetRelease_thread? s c id h
  · rw [hu, h]
  · exact absurd h.1 hx

theorem State.meetRelease_none (s : State) (c : CrewId) (id : ThreadId) (h : s.thread? id = none) :
    (s.meetRelease c).thread? id = none := by
  unfold State.meetRelease
  rw [State.mapThreads_thread? _ _ (by intro x; dsimp only; split <;> rfl), h]
  rfl

end Sys2Proof.Machine
end

