-- ==== Sys2Proof/Laws/Calm.lean ====
section
/-! SUPPORT. Moving the pc, parking, trapping and releasing a meeting are calm: no thread loses what it carries, and nothing else of the
state changes but what is decided about a launch. -/

namespace Sys2Proof.Machine

theorem Thread.carries_refl (x : Thread) : x.carries x := by simp [Thread.carries]

theorem Thread.carries_trans {x y z : Thread} (h : x.carries y) (h' : y.carries z) : x.carries z := by
  simp_all [Thread.carries]

theorem State.sameRest_refl (s : State) : s.sameRest s := by simp [State.sameRest]

theorem State.sameRest_trans {s t u : State} (h : s.sameRest t) (h' : t.sameRest u) : s.sameRest u := by
  simp_all [State.sameRest]

theorem State.calm_refl (s : State) : s.calm s :=
  ⟨s.sameRest_refl, Thread.carries_refl _, fun _ x h => ⟨x, h, Thread.carries_refl x⟩⟩

theorem State.calm_trans {s t u : State} (h : s.calm t) (h' : t.calm u) : s.calm u := by
  refine ⟨State.sameRest_trans h.1 h'.1, Thread.carries_trans h.2.1 h'.2.1, fun id x hx => ?_⟩
  obtain ⟨y, hy, hxy⟩ := h.2.2 id x hx
  obtain ⟨z, hz, hyz⟩ := h'.2.2 id y hy
  exact ⟨z, hz, Thread.carries_trans hxy hyz⟩

/-- A change of threads that lets each carry what it carried. -/
theorem State.mapThreads_calm (s : State) (f : Thread → Thread) (hf : ∀ x : Thread, x.carries (f x)) : s.calm (s.mapThreads f) := by
  refine ⟨by simp [State.sameRest, State.mapThreads], hf _, fun id x hx => ?_⟩
  refine ⟨f x, ?_, hf x⟩
  rw [State.mapThreads_thread? _ _ (fun t => (hf t).1), hx]
  rfl

theorem State.modThread_calm (s : State) (t : ThreadId) (f : Thread → Thread) (hf : ∀ x : Thread, x.carries (f x)) : s.calm (s.modThread t f) := by
  refine State.mapThreads_calm _ _ (fun x => ?_)
  split
  · exact hf x
  · exact Thread.carries_refl x

theorem State.setCur_calm (s : State) (u : Thread) (hu : s.cur.carries u) : s.calm (s.setCur u) := by
  refine ⟨by simp [State.sameRest, State.setCur], hu, fun id x hx => ?_⟩
  rw [State.setCur_thread? _ _ hu.1]
  by_cases h : id = s.cur.id
  · subst h
    rw [State.thread?_cur] at hx
    cases hx
    exact ⟨u, by simp, hu⟩
  · exact ⟨x, by simp [h, hx], Thread.carries_refl x⟩

theorem State.meetRelease_calm (s : State) (c : CrewId) : s.calm (s.meetRelease c) := by
  refine State.mapThreads_calm _ _ (fun x => ?_)
  dsimp only
  split
  · simp [Thread.carries]
  · exact Thread.carries_refl x

theorem State.parkCur_calm (s : State) (ph : Phase) : s.calm (s.parkCur ph) := State.setCur_calm _ _ (by simp [Thread.carries, Thread.enter])

theorem State.blockCur_calm (s : State) (ph : Phase) : s.calm (s.blockCur ph) :=
  State.calm_trans (State.parkCur_calm s ph) (State.meetRelease_calm _ _)

theorem State.killLaunch_calm (s : State) (l d : Nat) (k : CoreId) : s.calm (s.killLaunch l d k) := by
  unfold State.killLaunch
  split
  · split
    · exact s.calm_refl
    · exact ⟨by simp [State.sameRest, State.setLaunch], Thread.carries_refl _, fun id x hx => ⟨x, hx, Thread.carries_refl x⟩⟩
  · exact s.calm_refl

theorem State.trapThread_calm (s : State) (id : ThreadId) (code info : Nat) (addr : DWord) (at_ resume : Word) :
    s.calm (s.trapThread id code info addr at_ resume) := by
  unfold State.trapThread
  split
  · exact s.calm_refl
  · split
    · exact State.calm_trans (State.calm_trans (State.modThread_calm _ _ _ (by simp [Thread.carries, Thread.enter]))
        (State.killLaunch_calm _ _ _ _)) (State.meetRelease_calm _ _)
    · exact State.calm_trans (State.modThread_calm _ _ _ (by simp [Thread.carries, Thread.trap])) (State.meetRelease_calm _ _)

theorem State.raise_calm (s : State) (code info : Nat) (addr : DWord) : s.calm (s.raise code info addr) :=
  State.trapThread_calm _ _ _ _ _ _ _

theorem State.goto_calm (s : State) (pc : Word) : s.calm (s.goto pc) := by
  unfold State.goto
  have h1 : s.calm (s.setCur (s.cur.goto pc (s.inCode s.cur.id.launch pc))) := State.setCur_calm _ _ (by simp [Thread.carries, Thread.goto])
  dsimp only
  split
  · exact State.calm_trans (State.calm_trans h1 (State.setCur_calm _ _ (by simp [Thread.carries, Thread.enter, Thread.goto])))
      (State.meetRelease_calm _ _)
  · exact h1

theorem State.advance_calm (s : State) : s.calm s.advance := by
  unfold State.advance
  split
  · exact State.raise_calm _ _ _ _
  · exact State.goto_calm _ _

theorem State.advanceThread_calm (s : State) (id : ThreadId) : s.calm (s.advanceThread id) := by
  unfold State.advanceThread
  split
  · exact s.calm_refl
  · split
    · exact State.trapThread_calm _ _ _ _ _ _ _
    · exact State.calm_trans (State.modThread_calm _ _ _ (by simp [Thread.carries, Thread.goto])) (State.meetRelease_calm _ _)

/-! ## Where the thread in turn then stands -/

theorem State.goto_stands (s : State) (pc : Word) :
    (s.goto pc).cur.pc = pc ∧ ((s.goto pc).cur.phase = .ready ∨ (s.goto pc).cur.phase = .held) := by
  unfold State.goto
  dsimp only
  split
  · rename_i h
    rcases State.meetRelease_cur ((s.setCur (s.cur.goto pc (s.inCode s.cur.id.launch pc))).setCur
      ((s.setCur (s.cur.goto pc (s.inCode s.cur.id.launch pc))).cur.enter .held s.cycle)) (crewOf s.cur.id) with h | ⟨-, h⟩ <;>
      rw [h] <;> simp [Thread.enter, Thread.goto]
  · refine ⟨rfl, ?_⟩
    rw [State.setCur_cur]
    unfold Thread.goto
    dsimp only
    split <;> simp

/-- A trap leaves its thread faulted at its pc; its trap registers are set unless it is in a handler. -/
theorem State.trapThread_stands (s : State) (code info : Nat) (addr : DWord) (at_ resume : Word) :
    let u := (s.trapThread s.cur.id code info addr at_ resume).cur
    u.pc = s.cur.pc ∧ u.phase = .faulted ∧
      (s.cur.inHandler = false → u.trapcode = BitVec.ofNat 32 code ∧ u.trappc = at_ ∧ u.trapinfo = BitVec.ofNat 32 info ∧
        u.trapaddr = addr ∧ u.resume = resume ∧ u.relTrap = s.cur.released) ∧
      (s.cur.inHandler = true → u.trapcode = s.cur.trapcode ∧ u.trappc = s.cur.trappc ∧ u.trapinfo = s.cur.trapinfo ∧
        u.trapaddr = s.cur.trapaddr) := by
  unfold State.trapThread
  rw [State.thread?_cur]
  dsimp only
  split
  · rename_i hin
    have hk : ∀ (s : State) (l d : Nat) (k : CoreId), (s.killLaunch l d k).cur = s.cur := by
      intro s l d k
      unfold State.killLaunch
      split
      · split <;> rfl
      · rfl
    rcases State.meetRelease_cur (((s.modThread s.cur.id (fun x => x.enter .faulted s.cycle)).killLaunch s.cur.id.launch (0x100 + code)
        (s.coreOf s.cur.id.launch s.cur.id.team))) (crewOf s.cur.id) with h | ⟨h, -⟩
    · rw [h, hk]
      simp [Thread.enter, hin]
    · rw [hk] at h
      simp [Thread.enter] at h
  · rename_i hin
    rcases State.meetRelease_cur (s.modThread s.cur.id (fun x => x.trap code info addr at_ resume s.cycle)) (crewOf s.cur.id) with h | ⟨h, -⟩
    · rw [h]
      simp [Thread.trap, hin]
    · simp [Thread.trap] at h

/-- Past its word a thread stands at the next one; at the last place a segment can have it traps CODEBOUND where it is. -/
theorem State.advance_stands (s : State) :
    if offOf s.cur.pc = 0xFFFC then s.advance.cur.phase = .faulted ∧ s.advance.cur.pc = s.cur.pc
    else s.advance.cur.pc = s.cur.pc + 4 ∧ (s.advance.cur.phase = .ready ∨ s.advance.cur.phase = .held) := by
  unfold State.advance
  split
  · have := State.trapThread_stands s 0x04 1 65536 s.cur.pc s.cur.pc
    exact ⟨this.2.1, this.1⟩
  · exact State.goto_stands s _

end Sys2Proof.Machine
end

