-- ==== Sys2Proof/Laws/Fixed.lean ====
section
/-! SUPPORT. The two fixed-point series of FEXP2 and FLOG2 (R85, R86) stay within `fixErr` of the real values they stand for. -/

namespace Sys2Proof.Machine

open Finset

/-- A quotient of natural numbers lies less than one below the real quotient. -/
theorem div_near (a b : Nat) (h : 0 < b) : (a : ℝ) / b - 1 < ((a / b : Nat) : ℝ) ∧ ((a / b : Nat) : ℝ) ≤ (a : ℝ) / b := by
  refine ⟨?_, Nat.cast_div_le⟩
  have hb : (0 : ℝ) < b := by exact_mod_cast h
  rw [sub_lt_iff_lt_add, div_lt_iff₀ hb]
  have : a < (a / b + 1) * b := by
    have := Nat.div_add_mod a b
    have := Nat.mod_lt a h
    nlinarith
  exact_mod_cast this

/-- The partial sums of the series of atanh in fixed point: each term loses at most 4. -/
theorem atanhSum_near (τ : ℝ) (h0 : 0 ≤ τ) (h1 : τ ≤ 1 / 3) (t2 : Nat)
    (hl : (2 : ℝ) ^ fixBits * τ ^ 2 - 5 / 3 ≤ t2) (hu : (t2 : ℝ) ≤ (2 : ℝ) ^ fixBits * τ ^ 2) (n : Nat) :
    ∀ pow k : Nat, (2 : ℝ) ^ fixBits * τ ^ (2 * k + 1) - 3 ≤ pow → (pow : ℝ) ≤ (2 : ℝ) ^ fixBits * τ ^ (2 * k + 1) →
      (2 : ℝ) ^ fixBits * (∑ i ∈ range n, τ ^ (2 * (k + i) + 1) / (2 * (k + i : ℝ) + 1)) - 4 * n ≤ atanhSum t2 n pow k ∧
      (atanhSum t2 n pow k : ℝ) ≤ (2 : ℝ) ^ fixBits * ∑ i ∈ range n, τ ^ (2 * (k + i) + 1) / (2 * (k + i : ℝ) + 1) := by
  have hF : (0 : ℝ) < (2 : ℝ) ^ fixBits := by positivity
  have hN : 0 < 2 ^ fixBits := by positivity
  have cF : ((2 ^ fixBits : Nat) : ℝ) = (2 : ℝ) ^ fixBits := by push_cast; rfl
  generalize (2 : ℝ) ^ fixBits = F at *
  induction n with
  | zero => intro pow k _ _; simp [atanhSum]
  | succ n ih =>
    intro pow k pl pu
    have hA : 0 ≤ F * τ ^ (2 * k + 1) := by positivity
    have hp : (0 : ℝ) ≤ pow := Nat.cast_nonneg _
    have ht : (0 : ℝ) ≤ t2 := Nat.cast_nonneg _
    -- the next power
    have hq := div_near (pow * t2) (2 ^ fixBits) hN
    rw [Nat.cast_mul, cF] at hq
    have e2 : τ ^ (2 * (k + 1) + 1) = τ ^ (2 * k + 1) * τ ^ 2 := by ring
    have s1 : τ ^ 2 ≤ 1 / 9 := by nlinarith
    have s2 : τ ^ (2 * k + 1) ≤ 1 / 3 := by
      calc τ ^ (2 * k + 1) ≤ τ ^ 1 := pow_le_pow_of_le_one h0 (by linarith) (by omega)
        _ ≤ 1 / 3 := by simpa using h1
    have s3 : 0 ≤ τ ^ (2 * k + 1) := by positivity
    have up : ((pow * t2 / 2 ^ fixBits : Nat) : ℝ) ≤ F * τ ^ (2 * (k + 1) + 1) := by
      refine hq.2.trans ?_
      rw [div_le_iff₀ hF, e2]
      calc (pow : ℝ) * t2 ≤ (F * τ ^ (2 * k + 1)) * (F * τ ^ 2) := mul_le_mul pu hu ht hA
        _ = F * (τ ^ (2 * k + 1) * τ ^ 2) * F := by ring
    have lo : F * τ ^ (2 * (k + 1) + 1) - 3 ≤ ((pow * t2 / 2 ^ fixBits : Nat) : ℝ) := by
      refine le_trans ?_ hq.1.le
      have key : F * τ ^ (2 * (k + 1) + 1) - 2 ≤ (pow : ℝ) * t2 / F := by
        rw [le_div_iff₀ hF, e2]
        have a1 : (F * τ ^ (2 * k + 1) - pow) * t2 ≤ 3 * (F * τ ^ 2) := by
          refine mul_le_mul (by linarith) hu ht (by norm_num)
        have a2 : F * τ ^ (2 * k + 1) * (F * τ ^ 2 - t2) ≤ F * τ ^ (2 * k + 1) * (5 / 3) := mul_le_mul_of_nonneg_left (by linarith) hA
        have a3 : F * τ ^ 2 ≤ F * (1 / 9) := mul_le_mul_of_nonneg_left s1 hF.le
        have a4 : F * τ ^ (2 * k + 1) ≤ F * (1 / 3) := mul_le_mul_of_nonneg_left s2 hF.le
        nlinarith
      linarith
    obtain ⟨il, iu⟩ := ih _ (k + 1) lo up
    have hd := div_near pow (2 * k + 1) (by omega)
    have c1 : ((2 * k + 1 : Nat) : ℝ) = 2 * (k : ℝ) + 1 := by push_cast; ring
    rw [c1] at hd
    have hk : (1 : ℝ) ≤ 2 * (k : ℝ) + 1 := by
      have : (0 : ℝ) ≤ k := Nat.cast_nonneg _
      linarith
    have sum : (∑ i ∈ range (n + 1), τ ^ (2 * (k + i) + 1) / (2 * ((k : ℝ) + (i : ℝ)) + 1)) =
        τ ^ (2 * k + 1) / (2 * (k : ℝ) + 1) + ∑ i ∈ range n, τ ^ (2 * (k + 1 + i) + 1) / (2 * (((k + 1 : Nat) : ℝ) + (i : ℝ)) + 1) := by
      rw [sum_range_succ', add_comm]
      congr 1
      · simp
      · refine sum_congr rfl fun i _ => ?_
        have e : k + (i + 1) = k + 1 + i := by omega
        rw [e]; push_cast; ring
    have d1 : F * τ ^ (2 * k + 1) / (2 * (k : ℝ) + 1) - 3 ≤ (pow : ℝ) / (2 * (k : ℝ) + 1) := by
      have : (3 : ℝ) / (2 * (k : ℝ) + 1) ≤ 3 := div_le_self (by norm_num) hk
      have : (F * τ ^ (2 * k + 1) - 3) / (2 * (k : ℝ) + 1) ≤ (pow : ℝ) / (2 * (k : ℝ) + 1) := by gcongr
      rw [sub_div] at this
      linarith
    have d2 : (pow : ℝ) / (2 * (k : ℝ) + 1) ≤ F * τ ^ (2 * k + 1) / (2 * (k : ℝ) + 1) := by gcongr
    have m1 : F * (τ ^ (2 * k + 1) / (2 * (k : ℝ) + 1)) = F * τ ^ (2 * k + 1) / (2 * (k : ℝ) + 1) := by ring
    rw [sum, mul_add, m1]
    simp only [atanhSum, Nat.cast_add]
    push_cast at il iu ⊢
    constructor <;> linarith [hd.1, hd.2]

/-- R86: `lnFix` lies less than 800 units of 2^-256 below the logarithm. -/
theorem lnFix_near (num den : Nat) (hd : 0 < den) (h1 : den ≤ num) (h2 : num ≤ 2 * den) :
    (2 : ℝ) ^ fixBits * Real.log (num / den) - 800 ≤ lnFix num den ∧ (lnFix num den : ℝ) ≤ (2 : ℝ) ^ fixBits * Real.log (num / den) := by
  have rd : (0 : ℝ) < den := by exact_mod_cast hd
  have r1 : (den : ℝ) ≤ num := by exact_mod_cast h1
  have r2 : (num : ℝ) ≤ 2 * den := by exact_mod_cast h2
  have rs : (0 : ℝ) < (num : ℝ) + den := by linarith
  have hF : (0 : ℝ) < (2 : ℝ) ^ fixBits := by positivity
  have hN : 0 < 2 ^ fixBits := by positivity
  have cF : ((2 ^ fixBits : Nat) : ℝ) = (2 : ℝ) ^ fixBits := by push_cast; rfl
  have tail : (2 : ℝ) ^ fixBits * ((1 / 3) ^ 181 / (1 - (1 / 3) ^ 2)) ≤ 1 := by norm_num [fixBits]
  generalize hτ : ((num : ℝ) - den) / (num + den) = τ
  have h0 : 0 ≤ τ := by rw [← hτ]; exact div_nonneg (by linarith) rs.le
  have h3 : τ ≤ 1 / 3 := by rw [← hτ, div_le_div_iff₀ rs (by norm_num)]; linarith
  have ratio : (1 + τ) / (1 - τ) = num / den := by
    have e1 : 1 + ((num : ℝ) - den) / (num + den) = 2 * num / (num + den) := by field_simp; ring
    have e2 : 1 - ((num : ℝ) - den) / (num + den) = 2 * den / (num + den) := by field_simp; ring
    rw [← hτ, e1, e2, div_div_div_cancel_right₀ rs.ne', mul_div_mul_left _ _ two_ne_zero]
  unfold lnFix
  simp only
  have ht := div_near ((num - den) * 2 ^ fixBits) (num + den) (by omega)
  rw [Nat.cast_mul, cF, Nat.cast_sub h1, Nat.cast_add] at ht
  have et : ((num : ℝ) - den) * (2 : ℝ) ^ fixBits / ((num : ℝ) + den) = (2 : ℝ) ^ fixBits * τ := by rw [← hτ]; ring
  rw [et] at ht
  generalize hT : (num - den) * 2 ^ fixBits / (num + den) = T at *
  have hT0 : (0 : ℝ) ≤ T := Nat.cast_nonneg _
  have hs := div_near (T * T) (2 ^ fixBits) hN
  rw [Nat.cast_mul, cF] at hs
  have l1 := Real.sum_range_le_log_div h0 (by linarith) 90
  have l2 := Real.log_div_le_sum_range_add h0 (by linarith) 90
  rw [ratio] at l1 l2
  have hn := fun hl hu => atanhSum_near τ h0 h3 (T * T / 2 ^ fixBits) hl hu 90 T 0 (by simp; linarith [ht.1]) (by simpa using ht.2)
  simp only [Nat.cast_zero, zero_add] at hn
  generalize hS : (∑ i ∈ range 90, τ ^ (2 * i + 1) / (2 * (i : ℝ) + 1)) = S at *
  have hx : τ ^ (2 * 90 + 1) / (1 - τ ^ 2) ≤ (1 / 3) ^ 181 / (1 - (1 / 3) ^ 2) := by
    have : τ ^ 2 ≤ (1 / 3) ^ 2 := by gcongr
    have : τ ^ 181 ≤ (1 / 3) ^ 181 := by gcongr
    refine div_le_div₀ (by positivity) this (by norm_num) (by linarith)
  generalize (1 / 3 : ℝ) ^ 181 / (1 - (1 / 3) ^ 2) = E at *
  generalize (2 : ℝ) ^ fixBits = F at *
  obtain ⟨nl, nu⟩ := hn (by
      refine le_trans ?_ hs.1.le
      have : F * τ ^ 2 - 2 / 3 ≤ (T : ℝ) * T / F := by
        rw [le_div_iff₀ hF]
        nlinarith [mul_nonneg h0 hF.le, ht.1, ht.2]
      linarith)
    (by
      refine hs.2.trans ?_
      rw [div_le_iff₀ hF]
      calc (T : ℝ) * T ≤ (F * τ) * (F * τ) := mul_le_mul ht.2 ht.2 hT0 (by positivity)
        _ = F * τ ^ 2 * F := by ring)
  have g1 : F * S ≤ F * (1 / 2 * Real.log (num / den)) := mul_le_mul_of_nonneg_left l1 hF.le
  have g2 : F * (1 / 2 * Real.log (num / den)) ≤ F * (S + E) := mul_le_mul_of_nonneg_left (by linarith) hF.le
  rw [Nat.cast_mul]
  push_cast at *
  constructor <;> nlinarith

/-- The partial sums of the series of the exponential in fixed point: each term after the first loses at most 900. -/
theorem expSum_near (η : ℝ) (h0 : 0 ≤ η) (h1 : η ≤ 7 / 10) (y : Nat) (hl : (2 : ℝ) ^ fixBits * η - 801 ≤ y)
    (hu : (y : ℝ) ≤ (2 : ℝ) ^ fixBits * η) (n : Nat) :
    ∀ term k : Nat, (2 : ℝ) ^ fixBits * (η ^ k / k.factorial) - (if k = 0 then 0 else 810) ≤ term →
      (term : ℝ) ≤ (2 : ℝ) ^ fixBits * (η ^ k / k.factorial) →
      (2 : ℝ) ^ fixBits * (∑ i ∈ range n, η ^ (k + i) / (k + i).factorial) - 810 * n ≤ expSum y n term k ∧
      (expSum y n term k : ℝ) ≤ (2 : ℝ) ^ fixBits * ∑ i ∈ range n, η ^ (k + i) / (k + i).factorial := by
  have hF : (0 : ℝ) < (2 : ℝ) ^ fixBits := by positivity
  have hN : 0 < 2 ^ fixBits := by positivity
  have cF : ((2 ^ fixBits : Nat) : ℝ) = (2 : ℝ) ^ fixBits := by push_cast; rfl
  generalize (2 : ℝ) ^ fixBits = F at *
  induction n with
  | zero => intro term k _ _; simp [expSum]
  | succ n ih =>
    intro term k pl pu
    have hA : 0 ≤ η ^ k / k.factorial := by positivity
    have hp : (0 : ℝ) ≤ term := Nat.cast_nonneg _
    have ht : (0 : ℝ) ≤ y := Nat.cast_nonneg _
    have hk : (0 : ℝ) < (k : ℝ) + 1 := by positivity
    have hq := div_near (term * y) (2 ^ fixBits * (k + 1)) (by positivity)
    rw [Nat.cast_mul, Nat.cast_mul, cF] at hq
    push_cast at hq
    have e2 : η ^ (k + 1) / ((k + 1).factorial : ℝ) = η ^ k / k.factorial * η / ((k : ℝ) + 1) := by
      rw [Nat.factorial_succ]; push_cast; field_simp; ring
    have a1 : η ^ k / k.factorial ≤ 1 := by
      refine (div_le_one (by positivity)).2 ?_
      calc η ^ k ≤ 1 := pow_le_one₀ h0 (by linarith)
        _ ≤ _ := by exact_mod_cast Nat.factorial_pos k
    generalize ha : η ^ k / (k.factorial : ℝ) = a at *
    have up : ((term * y / (2 ^ fixBits * (k + 1)) : Nat) : ℝ) ≤ F * (η ^ (k + 1) / (k + 1).factorial) := by
      refine hq.2.trans ?_
      rw [div_le_iff₀ (by positivity), e2]
      calc (term : ℝ) * y ≤ (F * a) * (F * η) := mul_le_mul pu hu ht (by positivity)
        _ = F * (a * η / ((k : ℝ) + 1)) * (F * ((k : ℝ) + 1)) := by field_simp
    have lo : F * (η ^ (k + 1) / (k + 1).factorial) - 810 ≤ ((term * y / (2 ^ fixBits * (k + 1)) : Nat) : ℝ) := by
      refine le_trans ?_ hq.1.le
      have key : F * (η ^ (k + 1) / (k + 1).factorial) - 809 ≤ (term : ℝ) * y / (F * ((k : ℝ) + 1)) := by
        rw [le_div_iff₀ (by positivity), e2]
        have b0 : F * (a * η / ((k : ℝ) + 1)) * (F * ((k : ℝ) + 1)) = (F * a) * (F * η) := by field_simp
        have b1 : F * a * (F * η - y) ≤ F * a * 801 := mul_le_mul_of_nonneg_left (by linarith) (by positivity)
        have b2 : F * a ≤ F := by nlinarith
        rw [sub_mul, b0]
        rcases Nat.eq_zero_or_pos k with rfl | hpos
        · simp only [if_true, sub_zero] at pl
          have : (F * a - term) * y ≤ 0 := mul_nonpos_of_nonpos_of_nonneg (by linarith) ht
          push_cast
          nlinarith
        · have hk1 : (1 : ℝ) ≤ k := by exact_mod_cast hpos
          rw [if_neg (by omega)] at pl
          have b3 : (F * a - term) * y ≤ 810 * (F * η) := by
            refine mul_le_mul (by linarith) hu ht (by norm_num)
          have b4 : F * η ≤ F * (7 / 10) := mul_le_mul_of_nonneg_left h1 hF.le
          have b5 : 2 * F ≤ F * ((k : ℝ) + 1) := by nlinarith
          nlinarith
      linarith
    obtain ⟨il, iu⟩ := ih _ (k + 1) (by simpa using lo) up
    have sum : (∑ i ∈ range (n + 1), η ^ (k + i) / ((k + i).factorial : ℝ)) =
        a + ∑ i ∈ range n, η ^ (k + 1 + i) / ((k + 1 + i).factorial : ℝ) := by
      rw [sum_range_succ', add_comm, ← ha]
      congr 1
      refine sum_congr rfl fun i _ => ?_
      have e : k + (i + 1) = k + 1 + i := by omega
      rw [e]
    have z : F * a - 810 ≤ term := by split at pl <;> linarith
    rw [sum, mul_add]
    simp only [expSum, Nat.cast_add]
    push_cast at il iu ⊢
    constructor <;> linarith

/-- R86: the magnitude that FEXP2 rounds lies within `fixErr` units of 2^-256 of 2^(fr / 2^149), for a fraction of 149 bits. -/
theorem expFix_near (fr : Nat) (h : fr < 2 ^ 149) :
    |(2 : ℝ) ^ fixBits * (2 : ℝ) ^ ((fr : ℝ) / 2 ^ 149) - expSum (fr * lnFix 2 1 / 2 ^ 149) 70 (2 ^ fixBits) 0| < fixErr := by
  have hF : (0 : ℝ) < (2 : ℝ) ^ fixBits := by positivity
  have cF : ((2 ^ fixBits : Nat) : ℝ) = (2 : ℝ) ^ fixBits := by push_cast; rfl
  have tail : (2 : ℝ) ^ fixBits * ((7 / 10) ^ 70 * 71 / ((Nat.factorial 70 : ℝ) * 70)) ≤ 1 := by norm_num [fixBits, Nat.factorial]
  have f1 : ((fr : ℝ) / 2 ^ 149) ≤ 1 := by
    rw [div_le_one (by positivity)]
    exact_mod_cast h.le
  have f0 : (0 : ℝ) ≤ (fr : ℝ) / 2 ^ 149 := by positivity
  have hln := lnFix_near 2 1 (by norm_num) (by norm_num) (by norm_num)
  have hd := div_near (fr * lnFix 2 1) (2 ^ 149) (by positivity)
  generalize fr * lnFix 2 1 / 2 ^ 149 = y at *
  rw [Nat.cast_mul, Nat.cast_pow, Nat.cast_ofNat, mul_comm (fr : ℝ), mul_div_assoc] at hd
  generalize (fr : ℝ) / 2 ^ 149 = q at *
  generalize lnFix 2 1 = ln at *
  have l2 : Real.log (((2 : Nat) : ℝ) / ((1 : Nat) : ℝ)) = Real.log 2 := by norm_num
  rw [l2] at hln
  have lu : Real.log 2 < 7 / 10 := by linarith [Real.log_two_lt_d9]
  have ll : 0 < Real.log 2 := Real.log_pos (by norm_num)
  have h0 : 0 ≤ Real.log 2 * q := by positivity
  have h1 : Real.log 2 * q ≤ 7 / 10 := by nlinarith
  have ee : (2 : ℝ) ^ q = Real.exp (Real.log 2 * q) := by rw [Real.rpow_def_of_pos (by norm_num)]
  rw [ee]
  have hn := fun a b => expSum_near (Real.log 2 * q) h0 h1 y a b 70 (2 ^ fixBits) 0 (by simp) (by simp)
  simp only [zero_add] at hn
  have e1 := Real.sum_le_exp_of_nonneg h0 70
  have e2 := Real.exp_bound' h0 (by linarith) (show 0 < 70 by norm_num)
  have hx : (Real.log 2 * q) ^ 70 * ((70 : Nat) + 1) / (((70 : Nat).factorial : ℝ) * (70 : Nat)) ≤
      (7 / 10) ^ 70 * 71 / ((Nat.factorial 70 : ℝ) * 70) := by
    have : (Real.log 2 * q) ^ 70 ≤ (7 / 10) ^ 70 := by gcongr
    have c : ((70 : Nat) : ℝ) + 1 = 71 := by norm_num
    rw [c, Nat.cast_ofNat]
    gcongr
  generalize (7 / 10 : ℝ) ^ 70 * 71 / ((Nat.factorial 70 : ℝ) * 70) = E at *
  generalize hS : (∑ i ∈ range 70, (Real.log 2 * q) ^ i / (i.factorial : ℝ)) = S at *
  generalize Real.exp (Real.log 2 * q) = X at *
  generalize (2 : ℝ) ^ fixBits = F at *
  have q1 : (F * Real.log 2 - 800) * q ≤ ln * q := mul_le_mul_of_nonneg_right hln.1 f0
  have q2 : ln * q ≤ F * Real.log 2 * q := mul_le_mul_of_nonneg_right hln.2 f0
  obtain ⟨nl, nu⟩ := hn (by nlinarith [hd.1]) (by nlinarith [hd.2])
  have g1 : F * S ≤ F * X := mul_le_mul_of_nonneg_left e1 hF.le
  have g2 : F * X ≤ F * (S + E) := mul_le_mul_of_nonneg_left (by linarith) hF.le
  have err : ((fixErr : Nat) : ℝ) = 65536 := by norm_num [fixErr]
  rw [err, abs_lt]
  push_cast at nl nu
  constructor <;> nlinarith

/-- R86: the magnitude that FLOG2 rounds lies within `fixErr` units of 2^-256 of log₂ (num / den). -/
theorem logFix_near (num den : Nat) (hd : 0 < den) (h1 : den ≤ num) (h2 : num ≤ 2 * den) :
    |(2 : ℝ) ^ fixBits * Real.logb 2 ((num : ℝ) / den) - (lnFix num den * 2 ^ fixBits / lnFix 2 1 : Nat)| < fixErr := by
  have big : (2000000 : ℝ) ≤ (2 : ℝ) ^ fixBits := by norm_num [fixBits]
  have cF : ((2 ^ fixBits : Nat) : ℝ) = (2 : ℝ) ^ fixBits := by push_cast; rfl
  have hb := lnFix_near 2 1 (by norm_num) (by norm_num) (by norm_num)
  have ha := lnFix_near num den hd h1 h2
  have l2 : Real.log (((2 : Nat) : ℝ) / ((1 : Nat) : ℝ)) = Real.log 2 := by norm_num
  rw [l2] at hb
  have lu : Real.log 2 < 7 / 10 := by linarith [Real.log_two_lt_d9]
  have ll : 69 / 100 < Real.log 2 := by linarith [Real.log_two_gt_d9]
  have rd : (0 : ℝ) < den := by exact_mod_cast hd
  have r1 : (den : ℝ) ≤ num := by exact_mod_cast h1
  have r2 : (num : ℝ) ≤ 2 * den := by exact_mod_cast h2
  have a0 : 0 ≤ Real.log ((num : ℝ) / den) := Real.log_nonneg (by rw [le_div_iff₀ rd]; linarith)
  have a1 : Real.log ((num : ℝ) / den) ≤ Real.log 2 := Real.log_le_log (div_pos (by linarith) rd) (by rw [div_le_iff₀ rd]; linarith)
  have pos : 0 < lnFix 2 1 := by
    by_contra hc
    have : lnFix 2 1 = 0 := by omega
    rw [this] at hb
    push_cast at hb
    nlinarith [hb.1]
  have hq := div_near (lnFix num den * 2 ^ fixBits) (lnFix 2 1) pos
  rw [Nat.cast_mul, cF] at hq
  have rp : (0 : ℝ) < (lnFix 2 1 : ℝ) := by exact_mod_cast pos
  have err : ((fixErr : Nat) : ℝ) = 65536 := by norm_num [fixErr]
  rw [err, ← Real.log_div_log]
  generalize lnFix num den * 2 ^ fixBits / lnFix 2 1 = z at *
  generalize (lnFix num den : ℝ) = u at *
  generalize (lnFix 2 1 : ℝ) = w at *
  generalize Real.log ((num : ℝ) / den) = a at *
  generalize Real.log 2 = b at *
  generalize (2 : ℝ) ^ fixBits = F at *
  have hF : (0 : ℝ) < F := by linarith
  have hbp : 0 < b := by linarith
  have fb : F * (69 / 100) ≤ F * b := mul_le_mul_of_nonneg_left ll.le hF.le
  have fa : F * a ≤ F * b := mul_le_mul_of_nonneg_left a1 hF.le
  have up : u * F / w ≤ F * (a / b) + 2400 := by
    rw [div_le_iff₀ rp]
    have k1 : u * F ≤ F * a * F := mul_le_mul_of_nonneg_right ha.2 hF.le
    have k2 : (F * (a / b) + 2400) * (F * b - 800) ≤ (F * (a / b) + 2400) * w := mul_le_mul_of_nonneg_left hb.1 (by positivity)
    have k3 : F * (a / b) * b = F * a := by field_simp
    have k4 : F * (a / b) ≤ F := by
      have : a / b ≤ 1 := (div_le_one hbp).2 a1
      nlinarith
    nlinarith
  have lo : F * (a / b) - 2400 ≤ u * F / w := by
    rw [le_div_iff₀ rp]
    have k1 : (F * a - 800) * F ≤ u * F := mul_le_mul_of_nonneg_right ha.1 hF.le
    have k3 : F * (a / b) * (F * b) = F * a * F := by field_simp
    have k5 : F * (a / b) * w ≤ F * (a / b) * (F * b) := mul_le_mul_of_nonneg_left hb.2 (by positivity)
    nlinarith [hb.1]
  rw [abs_lt]
  constructor <;> linarith [hq.1, hq.2]

/-! ### Where the two ends of the interval do not round alike -/

/-- `floorBits` gives v, where `le` holds of exactly the numbers up to v and v lies in the range searched. -/
theorem floorBits_eq (le : Nat → Bool) (v : Nat) (hle : ∀ i, le i = true ↔ i ≤ v) (k : Nat) :
    ∀ r, r ≤ v → v < r + 2 ^ k → floorBits le k r = v := by
  induction k with
  | zero => intro r h1 h2; simp only [floorBits]; omega
  | succ k ih =>
    intro r h1 h2
    rw [pow_succ] at h2
    simp only [floorBits]
    split
    · exact ih _ ((hle _).1 ‹_›) (by omega)
    · have := mt (hle (r + 2 ^ k)).2 ‹_›
      exact ih _ h1 (by omega)

/-- R28: the result is that of both ends of the interval, or that of the whole part of the magnitude with a fraction beyond it. -/
theorem Fmt.roundNear_cases (f : Fmt) (rm : BitVec 2) (neg : Bool) (c : Nat) (e : Int) (le : Nat → Bool) (v : ℝ)
    (near : |v - c| < fixErr) (far : fixErr ≤ c) (hle : ∀ i : Nat, le i = true ↔ (i : ℝ) ≤ v) :
    f.roundNear rm neg c e le = f.round rm neg (c - fixErr) e true ∧ f.round rm neg (c - fixErr) e true = f.round rm neg (c + fixErr) e true ∨
      f.roundNear rm neg c e le = f.round rm neg ⌊v⌋₊ e true := by
  rw [abs_lt] at near
  have far' : ((fixErr : Nat) : ℝ) ≤ c := by exact_mod_cast far
  have v0 : 0 ≤ v := by linarith
  unfold Fmt.roundNear
  simp only
  split
  · exact Or.inl ⟨rfl, eq_of_beq ‹_›⟩
  · right
    rw [floorBits_eq le ⌊v⌋₊ (fun i => (hle i).trans (Nat.le_floor_iff v0).symm) 17]
    · rw [Nat.le_floor_iff v0, Nat.cast_sub far]; linarith
    · rw [Nat.floor_lt v0]
      have : (2 : Nat) ^ 17 = 2 * fixErr := by norm_num [fixErr]
      rw [this]
      push_cast [Nat.cast_sub far]
      linarith

/-- A number is at most a root of a power of two where its power is at most that power of two. -/
theorem le_root_iff (i n k : Nat) (hn : n ≠ 0) : (i : ℝ) ≤ (2 : ℝ) ^ ((k : ℝ) / n) ↔ i ^ n ≤ 2 ^ k := by
  have e : ((2 : ℝ) ^ ((k : ℝ) / n)) ^ n = (2 : ℝ) ^ k := by
    rw [← Real.rpow_mul_natCast (by norm_num), div_mul_cancel₀ _ (by exact_mod_cast hn), Real.rpow_natCast]
  rw [← pow_le_pow_iff_left₀ (Nat.cast_nonneg i) (by positivity) hn, e]
  exact_mod_cast Iff.rfl

/-- R86: what FEXP2 asks of a number where the ends do not round alike. -/
theorem expLe_iff (i fr n w : Nat) (hn : n ≠ 0) :
    powLe i n 0 1 0 (fr + w * n) = true ↔ (i : ℝ) ≤ (2 : ℝ) ^ w * (2 : ℝ) ^ ((fr : ℝ) / n) := by
  have hn' : (n : ℝ) ≠ 0 := by exact_mod_cast hn
  have e : (2 : ℝ) ^ w * (2 : ℝ) ^ ((fr : ℝ) / n) = (2 : ℝ) ^ (((fr + w * n : Nat) : ℝ) / n) := by
    rw [← Real.rpow_natCast, ← Real.rpow_add (by norm_num)]
    congr 1
    push_cast
    field_simp
    ring
  rw [e, le_root_iff _ _ _ hn, powLe]
  simp

/-- R86: what FLOG2 asks of a number, for a logarithm of w-th powers above and below 0. -/
theorem logLe_iff (i m w up down : Nat) (hm : 0 < m) :
    (powLe 1 0 (i + down) m w up = true ↔ (i : ℝ) ≤ w * Real.logb 2 m + up - down) ∧
    (powLe m w (i + up) 1 0 down = true ↔ (i : ℝ) ≤ down - (w * Real.logb 2 m + up)) := by
  have h2 : (1 : ℝ) < 2 := by norm_num
  have hm' : (0 : ℝ) < m := by exact_mod_cast hm
  have l (k : Nat) : Real.logb 2 ((2 : ℝ) ^ k) = k := by rw [Real.logb_pow, Real.logb_self_eq_one h2, mul_one]
  have side (a b : Nat) : Real.logb 2 ((m : ℝ) ^ a * 2 ^ b) = a * Real.logb 2 m + b := by
    rw [Real.logb_mul (by positivity) (by positivity), Real.logb_pow, l]
  constructor
  · have : powLe 1 0 (i + down) m w up = true ↔ (2 : ℝ) ^ (i + down) ≤ (m : ℝ) ^ w * 2 ^ up := by
      simp only [powLe, pow_zero, one_mul, decide_eq_true_eq]; exact_mod_cast Iff.rfl
    rw [this, ← Real.logb_le_logb h2 (by positivity) (by positivity), l, side]
    push_cast
    constructor <;> intro h <;> linarith
  · have : powLe m w (i + up) 1 0 down = true ↔ (m : ℝ) ^ w * 2 ^ (i + up) ≤ (2 : ℝ) ^ down := by
      simp only [powLe, pow_zero, one_mul, decide_eq_true_eq]; exact_mod_cast Iff.rfl
    rw [this, ← Real.logb_le_logb h2 (by positivity) (by positivity), l, side]
    push_cast
    constructor <;> intro h <;> linarith

/-- A root of two that is no whole power of it is irrational. -/
theorem root_irrational (fr n : Nat) (h0 : fr ≠ 0) (h : fr < n) : Irrational ((2 : ℝ) ^ ((fr : ℝ) / n)) := by
  have hn : n ≠ 0 := by omega
  have : Fact (Nat.Prime 2) := ⟨Nat.prime_two⟩
  refine irrational_nrt_of_n_not_dvd_multiplicity n (m := 2 ^ fr) (by positivity) 2 ?_ ?_
  · rw [← Real.rpow_mul_natCast (by norm_num), div_mul_cancel₀ _ (by exact_mod_cast hn), Real.rpow_natCast]
    push_cast; rfl
  · have : multiplicity ((2 : Nat) : Int) (2 ^ fr) = fr := by
      exact_mod_cast multiplicity_pow_self_of_prime Int.prime_two fr
    rw [this, Nat.mod_eq_of_lt h]
    exact h0

/-- The logarithm of a number that is no power of two is irrational. -/
theorem log_irrational (m : Nat) (hm : ∀ k, m ≠ 2 ^ k) (h1 : 1 < m) : Irrational (Real.logb 2 m) := by
  rintro ⟨q, hq⟩
  have h2 : (1 : ℝ) < 2 := by norm_num
  have m0 : (0 : ℝ) < m := by exact_mod_cast (by omega : 0 < m)
  have hpos : (0 : ℝ) < q := by rw [hq]; exact Real.logb_pos h2 (by exact_mod_cast h1)
  have q0 : 0 < q := by exact_mod_cast hpos
  have e : (m : ℝ) ^ q.den = (2 : ℝ) ^ q.num.toNat := by
    have n0 : ((q.num.toNat : Nat) : ℝ) = (q.num : ℝ) := by
      exact_mod_cast Int.toNat_of_nonneg (Rat.num_nonneg.2 q0.le)
    have d0 : (q.den : ℝ) ≠ 0 := by exact_mod_cast q.den_nz
    have hm2 : (m : ℝ) = (2 : ℝ) ^ (q : ℝ) := by rw [hq, Real.rpow_logb (by norm_num) (by norm_num) m0]
    rw [hm2, ← Real.rpow_mul_natCast (by norm_num), ← Real.rpow_natCast, n0]
    congr 1
    have := Rat.num_div_den q
    have : (q : ℝ) = (q.num : ℝ) / q.den := by exact_mod_cast this.symm
    rw [this, div_mul_cancel₀ _ d0]
  have e' : m ^ q.den = 2 ^ q.num.toNat := by exact_mod_cast e
  have dvd : m ∣ 2 ^ q.num.toNat := e' ▸ dvd_pow_self m q.den_nz
  obtain ⟨k, -, hk⟩ := (Nat.dvd_prime_pow Nat.prime_two).1 dvd
  exact hm k hk

end Sys2Proof.Machine
end

