-- ==== Sys2Proof/Laws/Issue.lean ====
section
/-! SUPPORT. What issuing a word can do: it parks, it traps REGBOUND, or it has its own effect. -/

namespace Sys2Proof.Machine

/-- A word that does not park, whose operands lie in the allocation, has its own effect where no single fault stands. -/
theorem issue_next (sp long : Bool) (ops : List Opnd) (s : State) (k : State → State) (hpark : s.cur.mustPark sp long = false)
    (hops : ∀ o ∈ ops, s.cur.beyond o = false) (hf : s.flips = []) (hp : s.poison = []) :
    issue sp long ops s k = .next (k s) := by
  have h : ops.find? s.cur.beyond = none := by
    rw [List.find?_eq_none]
    intro o ho
    simp [hops o ho]
  simp [issue, hpark, h, State.unlessPoisoned, hf, hp]

/-- A word parks where results pend and it is a switch point, or finds no free entry (R24). -/
theorem issue_park (sp long : Bool) (ops : List Opnd) (s : State) (k : State → State) (h : s.cur.mustPark sp long = true) :
    issue sp long ops s k = .next (s.parkCur .switchParked) := by
  simp [issue, h]

/-- The first operand in the order given that leaves the allocation traps REGBOUND (R13). -/
theorem issue_beyond (sp long : Bool) (ops : List Opnd) (s : State) (k : State → State) (o : Opnd)
    (hpark : s.cur.mustPark sp long = false) (h : ops.find? s.cur.beyond = some o) :
    issue sp long ops s k = .next (s.raise 0x03 (o.name.toNat + 256 * o.field) 0) := by
  simp [issue, hpark, h]

/-- Whatever a word does, it answers a next state. -/
theorem issue_answers (sp long : Bool) (ops : List Opnd) (s : State) (k : State → State) :
    ∃ t, issue sp long ops s k = .next t := by
  unfold issue
  split
  · exact ⟨_, rfl⟩
  split <;> exact ⟨_, rfl⟩

/-- A fixed-latency word parks only as a switch point. -/
theorem mustPark_short {t : Thread} {sp : Bool} (h : sp = true → t.queue = []) : t.mustPark sp false = false := by
  cases sp <;> simp_all [Thread.mustPark]

/-- A long-latency word parks as a switch point, or where it finds 16 entries. -/
theorem mustPark_long {t : Thread} {sp : Bool} (h : sp = true → t.queue = []) (hl : t.queue.length < 16) :
    t.mustPark sp true = false := by
  cases sp <;> simp_all [Thread.mustPark]

/-- An operand within the allocation. -/
theorem beyond_of_fits {t : Thread} {o : Opnd} (h : t.winbase + o.name.toNat + o.width ≤ t.regs.length) : t.beyond o = false := by
  exact decide_eq_false (Nat.not_lt.2 h)

end Sys2Proof.Machine
end

