-- ==== Sys2Proof/Laws/Memory.lean ====
section
/-! SUPPORT. The canonical form of memory: every write keeps it, what a read finds after a write, and that canonical memories that
read alike are equal. -/

namespace Sys2Proof.Machine

/-- The canonical form: no entry holds 0 and the addresses rise. -/
theorem Memory.wf_iff (m : Memory) :
    m.wf = true ↔ (∀ c ∈ m, c.2 ≠ 0) ∧ m.Pairwise (fun c c' => c.1 < c'.1) := by
  induction m using Memory.wf.induct with
  | case1 | case2 => simp [Memory.wf]
  | case3 first second tail ih =>
    rw [Memory.wf, Bool.and_eq_true, ih]
    grind [List.pairwise_cons]

theorem Memory.wf_nil : Memory.wf [] = true := rfl

/-- An entry of a memory after a byte has been listed: that byte's, or one that was there. -/
theorem Memory.mem_enter {m : Memory} {a : Nat} {v : Byte} {c : Host.Cell} (h : c ∈ m.enter a v) : c = (a, v) ∨ c ∈ m := by
  fun_induction Memory.enter m a v <;> grind

/-- Listing a byte among rising addresses keeps them rising. -/
theorem Memory.rising_enter (m : Memory) (a : Nat) (v : Byte) (h : m.Pairwise (fun c c' => c.1 < c'.1)) :
    (m.enter a v).Pairwise (fun c c' => c.1 < c'.1) := by
  fun_induction Memory.enter m a v with
  | case1 => simp
  | case2 | case3 => grind [List.pairwise_cons]
  | case4 first tail addr byte above apart ih =>
    rw [List.pairwise_cons] at h ⊢
    refine ⟨fun d hd => ?_, ih h.2⟩
    obtain new | old := Memory.mem_enter hd
    · rw [new]
      omega
    · exact h.1 d old

/-- Leaving entries out keeps the canonical form. -/
@[simp] theorem Memory.filter_wf {m : Memory} (p : Host.Cell → Bool) (h : m.wf = true) : Memory.wf (m.filter p) = true := by
  rw [Memory.wf_iff] at *
  exact ⟨fun c hc => h.1 c (List.mem_of_mem_filter hc), h.2.filter _⟩

/-- Writing one byte keeps the canonical form. -/
@[simp] theorem Memory.put_wf {m : Memory} (a : Nat) (v : Byte) (h : m.wf = true) : (m.put a v).wf = true := by
  unfold Memory.put
  split
  · exact Memory.filter_wf _ h
  · rw [Memory.wf_iff] at *
    exact ⟨fun d hd => (Memory.mem_enter hd).elim (fun new => new ▸ by assumption) (h.1 d), Memory.rising_enter m a v h.2⟩

/-- Writing bytes upward keeps the canonical form. -/
@[simp] theorem Memory.putN_wf {m : Memory} (a : Nat) (bs : List Byte) (h : m.wf = true) : (m.putN a bs).wf = true := by
  induction bs generalizing m a with
  | nil => exact h
  | cons b bs ih => exact ih (a + 1) (Memory.put_wf a b h)

/-- Writing bytes at offsets keeps the canonical form. -/
@[simp] theorem Memory.putAt_wf {m : Memory} (a : Nat) (bs : List (Nat × Byte)) (h : m.wf = true) : (m.putAt a bs).wf = true := by
  induction bs generalizing m with
  | nil => exact h
  | cons b bs ih => exact ih (Memory.put_wf (a + b.1) b.2 h)

/-- An address that is not listed reads 0. -/
theorem Memory.get_absent {m : Memory} {a : Nat} (h : ∀ c ∈ m, c.1 ≠ a) : m.get a = 0 := by
  fun_induction Memory.get m a <;> grind

theorem Memory.get_enter (m : Memory) (a : Nat) (v : Byte) (x : Nat) : (m.enter a v).get x = if x = a then v else m.get x := by
  fun_induction Memory.enter m a v <;> grind [Memory.get]

/-- A read after a write: the byte written where it was written, what stood there before elsewhere. -/
theorem Memory.get_put (m : Memory) (a : Nat) (v : Byte) (x : Nat) : (m.put a v).get x = if x = a then v else m.get x := by
  unfold Memory.put
  split
  · induction m with
    | nil => grind [Memory.get]
    | cons first tail ih => grind [Memory.get, Memory.get_absent]
  · exact Memory.get_enter m a v x

/-- A write of bytes upward leaves every address outside them. -/
theorem Memory.get_putN_other (m : Memory) (a : Nat) (bs : List Byte) (x : Nat) (hx : x < a ∨ a + bs.length ≤ x) :
    (m.putN a bs).get x = m.get x := by
  induction bs generalizing m a with
  | nil => rfl
  | cons b bs ih =>
    simp only [List.length_cons] at hx
    rw [Memory.putN, ih (m.put a b) (a + 1) (by omega), Memory.get_put, if_neg (by omega)]

/-- What stands at an address a write of bytes upward covers: the byte written there. -/
theorem Memory.get_putN_at (m : Memory) (a : Nat) (bs : List Byte) (i : Nat) (h : i < bs.length) :
    (m.putN a bs).get (a + i) = bs[i] := by
  induction bs generalizing m a i with
  | nil => simp at h
  | cons b bs ih =>
    rw [Memory.putN]
    cases i with
    | zero => rw [Memory.get_putN_other _ _ _ _ (by omega), Memory.get_put, if_pos (by omega)]; rfl
    | succ i =>
      have := ih (m.put a b) (a + 1) i (by simpa using h)
      rw [show a + (i + 1) = a + 1 + i by omega, this]; rfl

/-- An address below every listed one reads 0. -/
theorem Memory.get_below {c : Host.Cell} {m : Memory} (h : (c :: m).Pairwise (fun c c' => c.1 < c'.1)) {a : Nat} (ha : a < c.1) :
    Memory.get (c :: m) a = 0 :=
  Memory.get_absent (by grind [List.pairwise_cons])

/-- Canonical memories that read alike are equal. -/
theorem Memory.ext_of_get {m m' : Memory} (h : m.wf = true) (h' : m'.wf = true) (hg : ∀ a, m.get a = m'.get a) : m = m' := by
  rw [Memory.wf_iff] at h h'
  induction m generalizing m' with
  | nil =>
    cases m' with
    | nil => rfl
    | cons d n => exact absurd (hg d.1) (by grind [Memory.get])
  | cons c m ih =>
    cases m' with
    | nil => exact absurd (hg c.1) (by grind [Memory.get])
    | cons d n =>
      have heads : c = d := by
        have hc := hg c.1
        have hd := hg d.1
        rcases Nat.lt_trichotomy c.1 d.1 with o | o | o
        · rw [Memory.get_below h'.2 o] at hc
          grind [Memory.get]
        · rw [Memory.get, Memory.get, if_pos rfl, if_pos o.symm] at hc
          exact Prod.ext o hc
        · rw [Memory.get_below h.2 o] at hd
          grind [Memory.get]
      subst heads
      have tails : ∀ a, Memory.get m a = Memory.get n a := by
        intro a
        by_cases ha : c.1 = a
        · have low {l : Memory} (hl : (c :: l).Pairwise (fun c c' => c.1 < c'.1)) : l.get a = 0 :=
            Memory.get_absent (by grind [List.pairwise_cons])
          rw [low h.2, low h'.2]
        · simpa [Memory.get, ha] using hg a
      rw [ih (by grind [List.pairwise_cons]) (by grind [List.pairwise_cons]) tails]

end Sys2Proof.Machine
end

