-- ==== Sys2Proof/Laws/Keep.lean ====
section
/-! SUPPORT. What an operation leaves of the clocks and of memory: it is quiet where it changes none of them, tame where it leaves
the clocks and keeps memory in canonical form. -/

namespace Sys2Proof.Machine

/-- The cycle count, CLOCK and device memory are as before. -/
abbrev Quiet (s t : State) : Prop := t.cycle = s.cycle ∧ t.clock = s.clock ∧ t.mem = s.mem

/-- The cycle count and CLOCK are as before, and memory keeps its canonical form. -/
abbrev Tame (s t : State) : Prop := t.cycle = s.cycle ∧ t.clock = s.clock ∧ (s.mem.wf = true → t.mem.wf = true)

theorem Quiet.tame {s t : State} (h : Quiet s t) : Tame s t := ⟨h.1, h.2.1, fun w => by rw [h.2.2]; exact w⟩

theorem Quiet.trans {s t u : State} (h : Quiet s t) (h' : Quiet t u) : Quiet s u :=
  ⟨h'.1.trans h.1, h'.2.1.trans h.2.1, h'.2.2.trans h.2.2⟩

theorem Tame.trans {s t u : State} (h : Tame s t) (h' : Tame t u) : Tame s u :=
  ⟨h'.1.trans h.1, h'.2.1.trans h.2.1, fun w => h'.2.2 (h.2.2 w)⟩

/-- A fold of operations each of which keeps a relation between the states before and after it keeps it. -/
theorem foldl_keeps {α : Type} (R : State → State → Prop) (stay : ∀ s, R s s) (chain : ∀ {s t u}, R s t → R t u → R s u)
    (f : State → α → State) (one : ∀ s x, R s (f s x)) (items : List α) (s : State) : R s (items.foldl f s) :=
  List.foldlRecOn items f (motive := fun b => R s b) (stay s) (fun b keep x _ => chain keep (one b x))

/-- A fold of quiet operations is quiet. -/
theorem foldl_quiet {α : Type} (f : State → α → State) (one : ∀ s x, Quiet s (f s x)) (items : List α) (s : State) :
    Quiet s (items.foldl f s) :=
  foldl_keeps Quiet (fun _ => ⟨rfl, rfl, rfl⟩) Quiet.trans f one items s

/-- A fold of tame operations is tame. -/
theorem foldl_tame {α : Type} (f : State → α → State) (one : ∀ s x, Tame s (f s x)) (items : List α) (s : State) :
    Tame s (items.foldl f s) :=
  foldl_keeps Tame (fun _ => ⟨rfl, rfl, id⟩) Tame.trans f one items s

@[simp] theorem foldl_cycle {α : Type} (f : State → α → State) (items : List α) (s : State)
    (one : ∀ s x, (f s x).cycle = s.cycle) : (items.foldl f s).cycle = s.cycle :=
  foldl_keeps (fun s t => t.cycle = s.cycle) (fun _ => rfl) (fun p q => q.trans p) f one items s

@[simp] theorem foldl_clock {α : Type} (f : State → α → State) (items : List α) (s : State)
    (one : ∀ s x, (f s x).clock = s.clock) : (items.foldl f s).clock = s.clock :=
  foldl_keeps (fun s t => t.clock = s.clock) (fun _ => rfl) (fun p q => q.trans p) f one items s

@[simp] theorem foldl_mem {α : Type} (f : State → α → State) (items : List α) (s : State)
    (one : ∀ s x, (f s x).mem = s.mem) : (items.foldl f s).mem = s.mem :=
  foldl_keeps (fun s t => t.mem = s.mem) (fun _ => rfl) (fun p q => q.trans p) f one items s

@[simp] theorem foldl_wf {α : Type} (f : State → α → State) (items : List α) (s : State)
    (one : ∀ s x, s.mem.wf = true → (f s x).mem.wf = true) (start : s.mem.wf = true) : (items.foldl f s).mem.wf = true :=
  foldl_keeps (fun s t => s.mem.wf = true → t.mem.wf = true) (fun _ => id) (fun p q w => q (p w)) f one items s start

/-! ## The state an answer carries -/

@[simp] def Tried.st {α : Type} : Tried α → State
  | .ok s _ => s
  | .wait s => s

@[simp] def AtomPlace.st : AtomPlace → State
  | .ok s _ => s
  | .stop s => s

@[simp] def Again.st : Again → State
  | .bytes s _ => s
  | .glob s _ => s
  | .trap s _ _ => s
  | .fault s _ => s
  | .debug s _ => s
  | .wait s => s

@[simp] def Entry.st : Entry → State
  | .ok s _ => s
  | .fault s _ => s
  | .deny s => s
  | .wait s => s

@[simp] def SegRead.st : SegRead → State
  | .ok s _ => s
  | .fault s _ _ => s
  | .lack s _ => s
  | .wait s => s

@[simp] def IoRes.st : IoRes → State
  | .ok s _ => s
  | .fault s _ _ => s
  | .deny s => s
  | .wait s => s

@[simp] def LaunchTry.st : LaunchTry → State
  | .done s _ => s
  | .fault s _ _ _ => s
  | .wait s => s

/-- None where the check has passed. -/
@[simp] def Checked.st (s : State) : Checked → State
  | .ok _ => s
  | .stop s => s

/-- None where the access is to go on to memory. -/
@[simp] def Part.st (s : State) : Part → State
  | .stop s => s
  | .bytes s _ => s
  | .glob _ => s

@[simp] def Route.st : Route → State
  | .mem s => s
  | .stash s _ => s
  | .wait s => s

@[simp] def AddAddr.st : AddAddr → State
  | .ok s _ => s
  | .fault s _ => s
  | .deny s => s
  | .wait s => s

/-! ## What may have to wait -/

theorem Tried.andThen_tame {α β : Type} {u : State} {r : Tried α} {f : State → α → Tried β} (hr : Tame u r.st)
    (hf : ∀ s a, Tame s (f s a).st) : Tame u (r.andThen f).st := by
  cases r with
  | ok s a => exact hr.trans (hf s a)
  | wait s => exact hr

/-- Tame actions, one after another, are tame as far as they come. -/
theorem State.tryAll_tame {α : Type} (s : State) (xs : List α) (f : State → α → Tried Unit) (hf : ∀ s x, Tame s (f s x).st) :
    Tame s (s.tryAll xs f).st :=
  List.foldlRecOn xs _ (motive := fun (o : Tried Unit) => Tame s o.st) ⟨rfl, rfl, id⟩
    (fun _ keep x _ => Tried.andThen_tame keep (fun s _ => hf s x))

theorem Tried.eq_tame {α : Type} {u : State} {r x : Tried α} (hr : Tame u r.st) (h : r = x) : Tame u x.st := h ▸ hr

end Sys2Proof.Machine
end

