-- ==== Sys2Proof/Laws/KeepOps.lean ====
section
/-! SUPPORT. What the operations of Ops, Operands, Mem, Translate leave of the clocks and of memory. -/

namespace Sys2Proof.Machine

/-! ## Ops -/

@[simp] theorem State.setCore_quiet (s : State) (c : Core) : Quiet s (s.setCore c) := by simp [Quiet, State.setCore]

@[simp] theorem State.setDie_quiet (s : State) (d : Die) : Quiet s (s.setDie d) := by simp [Quiet, State.setDie]

@[simp] theorem State.setVf_quiet (s : State) (v : Vf) : Quiet s (s.setVf v) := by simp [Quiet, State.setVf]

@[simp] theorem State.setLaunch_quiet (s : State) (l : Launch) : Quiet s (s.setLaunch l) := by simp [Quiet, State.setLaunch]

@[simp] theorem State.setTeam_quiet (s : State) (t : Team) : Quiet s (s.setTeam t) := by simp [Quiet, State.setTeam]

@[simp] theorem State.setCrew_quiet (s : State) (c : Crew) : Quiet s (s.setCrew c) := by simp [Quiet, State.setCrew]

@[simp] theorem State.mapThreads_quiet (s : State) (f : Thread → Thread) : Quiet s (s.mapThreads f) := by simp [Quiet, State.mapThreads]

@[simp] theorem State.modThread_quiet (s : State) (t : ThreadId) (f : Thread → Thread) : Quiet s (s.modThread t f) := by simp [Quiet, State.modThread]

@[simp] theorem State.setCur_quiet (s : State) (t : Thread) : Quiet s (s.setCur t) := by simp [Quiet, State.setCur]

@[simp] theorem State.meetRelease_quiet (s : State) (c : CrewId) : Quiet s (s.meetRelease c) := by simp [Quiet, State.meetRelease]

@[simp] theorem State.blockCur_quiet (s : State) (ph : Phase) : Quiet s (s.blockCur ph) := by simp [Quiet, State.blockCur]

@[simp] theorem State.parkCur_quiet (s : State) (ph : Phase) : Quiet s (s.parkCur ph) := by simp [Quiet, State.parkCur]

@[simp] theorem State.wake_quiet (s : State) (r : Nat) : Quiet s (s.wake r) := by simp [Quiet, State.wake]

@[simp] theorem State.wakeWalks_quiet (s : State) (p : ThreadId → Nat → Bool) : Quiet s (s.wakeWalks p) := by simp [Quiet, State.wakeWalks]

@[simp] theorem State.stir_quiet (s : State) : Quiet s s.stir := by simp [Quiet, State.stir]

@[simp] theorem State.goto_quiet (s : State) (pc : Word) : Quiet s (s.goto pc) := by
  dsimp only [State.goto]
  (repeat' split) <;> simp_all [Quiet]

@[simp] theorem State.modSeg_quiet (s : State) (k : CoreId) (vf coid seg : Nat) (f : SegEntry → SegEntry) : Quiet s (s.modSeg k vf coid seg f) := by simp [Quiet, State.modSeg]

@[simp] theorem State.lacerStir_quiet (s : State) (k : CoreId) (vf : Nat) : Quiet s (s.lacerStir k vf) := by simp [Quiet, State.lacerStir]

@[simp] theorem State.enterSeg_quiet (s : State) (k : CoreId) (l seg : Nat) : Quiet s (s.enterSeg k l seg) := by
  simp [Quiet, State.enterSeg]

@[simp] theorem State.killLaunch_quiet (s : State) (l detail : Nat) (k : CoreId) : Quiet s (s.killLaunch l detail k) := by
  dsimp only [State.killLaunch]
  (repeat' split) <;> simp_all [Quiet]

@[simp] theorem State.trapThread_quiet (s : State) (id : ThreadId) (code info : Nat) (addr : DWord) (trappc resume : Word) : Quiet s (s.trapThread id code info addr trappc resume) := by
  dsimp only [State.trapThread]
  (repeat' split) <;> simp_all [Quiet]

@[simp] theorem State.raise_quiet (s : State) (code info : Nat) (addr : DWord) : Quiet s (s.raise code info addr) := by simp [Quiet, State.raise]

@[simp] theorem State.advance_quiet (s : State) : Quiet s s.advance := by
  dsimp only [State.advance]
  (repeat' split) <;> simp_all [Quiet]

@[simp] theorem State.advanceThread_quiet (s : State) (id : ThreadId) : Quiet s (s.advanceThread id) := by
  dsimp only [State.advanceThread]
  (repeat' split) <;> simp_all [Quiet]

@[simp] theorem State.takeTrap_quiet (s : State) (c : CrewId) : Quiet s (s.takeTrap c) := by
  dsimp only [State.takeTrap]
  (repeat' split) <;> simp_all [Quiet]

@[simp] theorem State.countErr_quiet (s : State) (d dom : Nat) : Quiet s (s.countErr d dom) := by simp [Quiet, State.countErr]

@[simp] theorem State.consume_quiet (s : State) (vf : Nat) (k : CoreId) (f : FaultLoc) : Quiet s (s.consume vf k f) := by
  dsimp only [State.consume]
  split <;> simp [Quiet]

@[simp] theorem State.useStored_quiet (s : State) (vf : Nat) (k : CoreId) (p : FaultLoc → Bool) : Quiet s (s.useStored vf k p) := by
  dsimp only [State.useStored]
  (repeat' split) <;> simp_all [Quiet]

@[simp] theorem State.renewStored_quiet (s : State) (p : FaultLoc → Bool) : Quiet s (s.renewStored p) := by simp [Quiet, State.renewStored]

@[simp] theorem State.useRegs_quiet (s : State) (long : Bool) (ops : List Opnd) : Quiet s (s.useRegs long ops) := by
  dsimp only [State.useRegs]
  (repeat' split) <;> simp_all [Quiet]

theorem State.unlessPoisoned_quiet (s : State) (long : Bool) (ops : List Opnd) (k : State → State)
    (hk : ∀ s, Quiet s (k s)) : Quiet s (s.unlessPoisoned long ops k) := by
  unfold State.unlessPoisoned
  (repeat' split) <;> simp_all [Quiet]

theorem State.unlessPoisoned_tame (s : State) (long : Bool) (ops : List Opnd) (k : State → State)
    (hk : ∀ s, Tame s (k s)) : Tame s (s.unlessPoisoned long ops k) := by
  unfold State.unlessPoisoned
  (repeat' split) <;> simp_all [Tame]

theorem issue_quiet (sp long : Bool) (ops : List Opnd) (s : State) (k : State → State) {t' : State}
    (hk : ∀ s, Quiet s (k s)) : issue sp long ops s k = .next t' → Quiet s t' := by
  unfold issue
  (repeat' split) <;> intro h <;> cases h
  · simp [Quiet]
  · simp [Quiet]
  · exact State.unlessPoisoned_quiet s long ops k hk

theorem issue_tame (sp long : Bool) (ops : List Opnd) (s : State) (k : State → State) {t' : State}
    (hk : ∀ s, Tame s (k s)) : issue sp long ops s k = .next t' → Tame s t' := by
  unfold issue
  (repeat' split) <;> intro h <;> cases h
  · simp [Tame]
  · simp [Tame]
  · exact State.unlessPoisoned_tame s long ops k hk

@[simp] theorem State.result_quiet (s : State) (d : Reg) (vs : List Word) : Quiet s (s.result d vs) := by simp [Quiet, State.result]

@[simp] theorem State.fresh_quiet (s : State) : Quiet s s.fresh := by simp [Quiet, State.fresh]

@[simp] theorem State.enqueue_quiet (s : State) (d : Reg) (width : Nat) : Quiet s (s.enqueue d width) := by simp [Quiet, State.enqueue]

@[simp] theorem State.reply_quiet (s : State) (req : Nat) (t : ThreadId) (val : List Word) : Quiet s (s.reply req t val) := by simp [Quiet, State.reply]

@[simp] theorem State.convergeAll_quiet (s : State) (f : Thread → Thread) : Quiet s (s.convergeAll f) := by
  dsimp only [State.convergeAll]
  (repeat' split) <;> simp_all [Quiet]

theorem State.converge_quiet (s : State) (k : State → State) (hk : Quiet s (k s)) : Quiet s (s.converge k) := by
  unfold State.converge
  split
  · exact hk
  · simp [Quiet]

/-! ## Operands -/

/-! ## Mem -/

@[simp] theorem State.consumeAt_quiet (s : State) (vf : Nat) (k : CoreId) (key n : Nat) : Quiet s (s.consumeAt vf k key n) := by simp [Quiet, State.consumeAt]

@[simp] theorem State.consumeL1_quiet (s : State) (vf : Nat) (k : CoreId) (key n : Nat) : Quiet s (s.consumeL1 vf k key n) := by simp [Quiet, State.consumeL1]

@[simp] theorem State.countWrite_quiet (s : State) (g : GAddr) : Quiet s (s.countWrite g) := by
  dsimp only [State.countWrite]
  (repeat' split) <;> simp_all [Quiet]

@[simp] theorem State.countRead_quiet (s : State) (g : GAddr) : Quiet s (s.countRead g) := by
  dsimp only [State.countRead]
  (repeat' split) <;> simp_all [Quiet]

@[simp] theorem State.ticketFilter_quiet (s : State) (g : GAddr) (bs : List (Nat × Byte)) : Quiet s (s.ticketFilter g bs).1 := by
  dsimp only [State.ticketFilter]
  (repeat' split) <;> simp_all [Quiet]

@[simp] theorem State.markUnroll_quiet (s : State) (l : Nat) : Quiet s (s.markUnroll l) := by
  dsimp only [State.markUnroll]
  (repeat' split) <;> simp_all [Quiet]

@[simp] theorem State.logWrite_quiet (s : State) (l key : Nat) : Quiet s (s.logWrite l key) := by
  dsimp only [State.logWrite]
  (repeat' split) <;> simp_all [Quiet]

@[simp] theorem State.storeAt_tame (s : State) (g : GAddr) (bs : List (Nat × Byte)) : Tame s (s.storeAt g bs) := by
  unfold State.storeAt
  split
  · simp [Tame]
  · dsimp only
    refine Tame.trans ?_ (Quiet.tame (foldl_quiet _ (by intros; exact ⟨rfl, rfl, rfl⟩) _ _))
    simp +contextual [Tame]

@[simp] theorem State.consumeScratch_quiet (s : State) (k : CoreId) (launch team off n : Nat) : Quiet s (s.consumeScratch k launch team off n) := by simp [Quiet, State.consumeScratch]

@[simp] theorem State.bankAccess_quiet (s : State) (team off n : Nat) : Quiet s (s.bankAccess team off n) := by simp [Quiet, State.bankAccess]

@[simp] theorem State.nextGen_quiet (s : State) (k : CoreId) : Quiet s (s.nextGen k) := by simp [Quiet, State.nextGen]

@[simp] theorem State.noteLatched_quiet (s : State) (launch team off n : Nat) : Quiet s (s.noteLatched launch team off n) := by
  dsimp only [State.noteLatched]
  (repeat' split) <;> simp_all [Quiet]

@[simp] theorem State.putScratch_quiet (s : State) (launch team off : Nat) (bs : List Byte) : Quiet s (s.putScratch launch team off bs) := by
  dsimp only [State.putScratch]
  (repeat' split) <;> simp_all [Quiet]

/-! ## Translate -/

@[simp] theorem State.fillTlb_quiet (s : State) (k : CoreId) (e : TlbEntry) : Quiet s (s.fillTlb k e) := by simp [Quiet, State.fillTlb]

@[simp] theorem State.takePermit_quiet (s : State) (k : CoreId) : Quiet s (s.takePermit k) := by simp [Quiet, State.takePermit]

@[simp] theorem State.freePermit_quiet (s : State) (k : CoreId) : Quiet s (s.freePermit k) := by simp [Quiet, State.freePermit]

@[simp] theorem State.addRecord_quiet (s : State) (vf va : Nat) (t : ThreadId) (kind level : Nat) (k : CoreId) : Quiet s (s.addRecord vf va t kind level k) := by simp [Quiet, State.addRecord]

@[simp] theorem State.debugStop_quiet (s : State) (vf va code info : Nat) : Quiet s (s.debugStop vf va code info) := by
  dsimp only [State.debugStop]
  (repeat' split) <;> simp_all [Quiet]

@[simp] theorem State.watchStop_quiet (s : State) (v : Vf) (i va : Nat) (write : Bool) : Quiet s (s.watchStop v i va write) := by
  dsimp only [State.watchStop]
  (repeat' split) <;> simp_all [Quiet]

@[simp] theorem State.miss_quiet (s : State) (v : Vf) (va kind : Nat) (setD : Bool) : Quiet s (s.miss v va kind setD) := by
  dsimp only [State.miss]
  (repeat' split) <;> simp_all [Quiet]

@[simp] theorem State.checkGlobal_quiet (s : State) (va n cap : Nat) (k : AccKind) (hostOk : Bool) (det : Nat) : Quiet s ((s.checkGlobal va n cap k hostOk det).st s) := by
  dsimp only [State.checkGlobal]
  (repeat' split) <;> simp_all [Quiet]

theorem State.checkGlobal_stop_quiet (s : State) (va n cap : Nat) (k : AccKind) (hostOk : Bool) (det : Nat) {t'} 
    (h' : s.checkGlobal va n cap k hostOk det = .stop t' ) : Quiet s t' := by
  simpa [h'] using State.checkGlobal_quiet s va n cap k hostOk det

end Sys2Proof.Machine
end

