-- ==== Sys2Proof/Laws/KeepCache.lean ====
section
/-! SUPPORT. What the operations of Cache, Residency, Control, LoadStore, Order leave of the clocks and of memory. -/

namespace Sys2Proof.Machine

/-! ## Cache -/

@[simp] theorem State.setL2_quiet (s : State) (d : Nat) (x : L2Line) : Quiet s (s.setL2 d x) := by simp [Quiet, State.setL2]

@[simp] theorem State.number_quiet (s : State) (d : Nat) : Quiet s (s.number d) := by simp [Quiet, State.number]

@[simp] theorem State.addMsg_quiet (s : State) (src : Nat) (tag : List Nat) (dst : Nat) (g : GAddr) (bs : List (Nat × Byte)) (toHome notice : Bool) : Quiet s (s.addMsg src tag dst g bs toHome notice) := by simp [Quiet, State.addMsg]

@[simp] theorem State.forward_quiet (s : State) (g : GAddr) (bs : List (Nat × Byte)) (src : Nat) (tag : List Nat) : Quiet s (s.forward g bs src tag) := by
  unfold State.forward
  refine foldl_quiet _ (fun s x => ?_) _ _
  dsimp only
  (repeat' split) <;> simp_all [Quiet]

@[simp] theorem State.homeWrite_tame (s : State) (g : GAddr) (bs : List (Nat × Byte)) (tag : Option (Nat × List Nat)) : Tame s (s.homeWrite g bs tag) := by
  dsimp only [State.homeWrite]
  (repeat' split) <;> simp_all [Tame]

@[simp] theorem State.sendHome_tame (s : State) (d : Nat) (g : GAddr) (bs : List (Nat × Byte)) : Tame s (s.sendHome d g bs) := by
  dsimp only [State.sendHome]
  (repeat' split) <;> simp_all [Tame]

@[simp] theorem State.addPoison_quiet (s : State) (fs : List FaultLoc) : Quiet s (s.addPoison fs) := by simp [Quiet, State.addPoison]

theorem State.withPoison_tame (s : State) (d : Nat) (g : GAddr) (offs : List Nat) (write : State → State)
    (hw : ∀ s, Tame s (write s)) : Tame s (s.withPoison d g offs write) := by
  unfold State.withPoison
  split
  · exact hw s
  · have h := hw s
    exact ⟨h.1, h.2.1, h.2.2⟩

@[simp] theorem State.sendLine_tame (s : State) (d line : Nat) (p : Nat → Bool) : Tame s (s.sendLine d line p) := by
  dsimp only [State.sendLine]
  split
  · simp [Tame]
  · exact (State.setL2_quiet ..).tame.trans (State.withPoison_tame _ _ _ _ _ (fun s => State.sendHome_tame ..))

@[simp] theorem State.homeStore_tame (s : State) (d : Nat) (g : GAddr) (bs : List (Nat × Byte)) : Tame s (s.homeStore d g bs) := by
  unfold State.homeStore
  split
  · exact State.homeWrite_tame ..
  · exact (State.sendLine_tame ..).trans (State.sendHome_tame ..)

@[simp] theorem State.sendAll_tame (s : State) (d : Nat) (p : Nat → Bool) : Tame s (s.sendAll d p) := by
  unfold State.sendAll
  simp_all [Tame]

@[simp] theorem State.l2Alloc_tame (s : State) (d : Nat) (g : GAddr) : Tame s (s.l2Alloc d g) := by
  dsimp only [State.l2Alloc]
  (repeat' split) <;> simp_all [Tame]

@[simp] theorem State.askFill_quiet (s : State) (d : Nat) (g : GAddr) : Quiet s (s.askFill d g) := by simp [Quiet, State.askFill]

@[simp] theorem State.l2Put_tame (s : State) (d : Nat) (g : GAddr) (bs : List (Nat × Byte)) : Tame s (s.l2Put d g bs) := by
  dsimp only [State.l2Put]
  (repeat' split) <;> simp_all [Tame]

@[simp] theorem State.dieWrite_tame (s : State) (d : Nat) (g : GAddr) (bs : List (Nat × Byte)) : Tame s (s.dieWrite d g bs) := by
  dsimp only [State.dieWrite]
  (repeat' split) <;> simp_all [Tame]

@[simp] theorem State.fillLine_tame (s : State) (d : Nat) (g : GAddr) : Tame s (s.fillLine d g) := by
  dsimp only [State.fillLine]
  split
  · exact State.l2Alloc_tame s d g
  · have h (x : L2Line) (fs : List FaultLoc) (w : List WeltMsg) :
        Tame s { ((s.l2Alloc d g).setL2 d x).addPoison fs with welt := w } :=
      (State.l2Alloc_tame s d g).trans ((State.setL2_quiet _ d x).trans (State.addPoison_quiet _ fs)).tame
    exact h _ _ _

@[simp] theorem State.stashClean_tame (s : State) (t : Team) (m : StashMap) (off : Nat) (g : GAddr) (drop : Bool) : Tame s (s.stashClean t m off g drop) := by
  have out (bs : List (Nat × Byte)) (offs : List Nat) : Tame s (if bs.isEmpty then s else s.withPoison t.core.die g offs (fun s =>
      if g.checked then s.homeStore t.core.die g bs else s.dieWrite t.core.die g bs)) := by
    split
    · simp [Tame]
    · refine State.withPoison_tame _ _ _ _ _ (fun s => ?_)
      split
      · exact State.homeStore_tame ..
      · exact State.dieWrite_tame ..
  unfold State.stashClean
  dsimp only
  split
  · exact out _ _
  · exact (out _ _).trans (State.setTeam_quiet ..).tame

@[simp] theorem State.stashOut_tame (s : State) (line : Nat) (drop : Bool) (p : Team → Bool) : Tame s (s.stashOut line drop p) := by
  refine foldl_tame _ (fun s t => ?_) _ _
  split
  · simp [Tame]
  · refine foldl_tame _ (fun s m => foldl_tame _ (fun s f => ?_) _ _) _ _
    split <;> simp +contextual [Tame]

@[simp] theorem State.stashFlush_tame (s : State) (line : Nat) (write : Bool) : Tame s (s.stashFlush line write) := by
  unfold State.stashFlush
  simp_all [Tame]

@[simp] theorem State.stashCleanTeam_tame (s : State) (l t : Nat) : Tame s (s.stashCleanTeam l t) := by
  unfold State.stashCleanTeam
  split
  · simp [Tame]
  · refine foldl_tame _ (fun s m => foldl_tame _ (fun s f => ?_) _ _) _ _
    split <;> simp +contextual [Tame]

@[simp] theorem State.dieStore_tame (s : State) (d : Nat) (g : GAddr) (bs : List (Nat × Byte)) : Tame s (s.dieStore d g bs) := by
  unfold State.dieStore
  simp_all [Tame]

@[simp] theorem State.setL1_quiet (s : State) (k : CoreId) (x : L1Line) : Quiet s (s.setL1 k x) := by simp [Quiet, State.setL1]

@[simp] theorem State.l1Clean_tame (s : State) (k : CoreId) (line : Nat) (p : Nat → Bool) : Tame s (s.l1Clean k line p) := by
  dsimp only [State.l1Clean]
  split
  · simp [Tame]
  split
  · simp [Tame]
  · exact (State.setL1_quiet ..).tame.trans (State.withPoison_tame _ _ _ _ _ (fun s => State.dieStore_tame ..))

@[simp] theorem State.l1CleanAll_tame (s : State) (k : CoreId) : Tame s (s.l1CleanAll k) := by
  unfold State.l1CleanAll
  simp_all [Tame]

@[simp] theorem State.l1Invalidate_quiet (s : State) (k : CoreId) : Quiet s (s.l1Invalidate k) := by simp [Quiet, State.l1Invalidate]

@[simp] theorem State.l1Drop_quiet (s : State) (k : CoreId) (line : Nat) (p : CByte → Bool) : Quiet s (s.l1Drop k line p) := by simp [Quiet, State.l1Drop]

@[simp] theorem State.triggerDecision_quiet (s : State) (k : CoreId) : Quiet s (s.triggerDecision k) := by simp [Quiet, State.triggerDecision]

@[simp] theorem State.grow_quiet (s : State) (k : CoreId) (c : CrewId) : Quiet s (s.grow k c) := by simp [Quiet, State.grow]

@[simp] theorem State.lostLocality_quiet (s : State) (k : CoreId) (crew : CrewId) (line : Nat) : Quiet s (s.lostLocality k crew line) := by
  dsimp only [State.lostLocality]
  (repeat' split) <;> simp_all [Quiet]

@[simp] theorem State.touchLine_quiet (s : State) (crew : CrewId) (line : Nat) : Quiet s (s.touchLine crew line) := by
  dsimp only [State.touchLine]
  (repeat' split) <;> simp_all [Quiet]

@[simp] theorem State.l1Alloc_tame (s : State) (k : CoreId) (g : GAddr) (crew : CrewId) : Tame s (s.l1Alloc k g crew) := by
  dsimp only [State.l1Alloc]
  (repeat' split) <;> simp_all [Tame]

@[simp] theorem State.l1Fill_tame (s : State) (k : CoreId) (g : GAddr) (crew : CrewId) (bs : List (Nat × Byte)) : Tame s (s.l1Fill k g crew bs) := by
  dsimp only [State.l1Fill]
  split
  · exact State.l1Alloc_tame ..
  · exact (State.l1Alloc_tame ..).trans ((State.setL1_quiet ..).trans (State.addPoison_quiet ..)).tame

@[simp] theorem State.l1Put_tame (s : State) (k : CoreId) (g : GAddr) (crew : CrewId) (bs : List (Nat × Byte)) : Tame s (s.l1Put k g crew bs) := by
  dsimp only [State.l1Put]
  (repeat' split) <;> simp_all [Tame]

@[simp] theorem State.writeBackRange_tame (s : State) (k : CoreId) (g : GAddr) (n : Nat) (home : Bool) : Tame s (s.writeBackRange k g n home) := by
  grind [State.writeBackRange, State.stashFlush_tame, State.l1Clean_tame, State.sendLine_tame]

@[simp] theorem State.dropStale_quiet (s : State) (k : CoreId) (g : GAddr) (n : Nat) : Quiet s (s.dropStale k g n) := by simp [Quiet, State.dropStale]

@[simp] theorem State.dropEmpty_quiet (s : State) (d : Nat) : Quiet s (s.dropEmpty d) := by simp [Quiet, State.dropEmpty]

@[simp] theorem State.dropStaleL2_quiet (s : State) (d : Nat) (g : GAddr) (n : Nat) : Quiet s (s.dropStaleL2 d g n) := by
  dsimp only [State.dropStaleL2]
  (repeat' split) <;> simp_all [Quiet]

@[simp] theorem State.seenAtHome_quiet (s : State) (k : CoreId) (g : GAddr) (n : Nat) : Quiet s (s.seenAtHome k g n) := by simp [Quiet, State.seenAtHome]

@[simp] theorem State.tick_quiet (s : State) (d src : Nat) (tag : List Nat) : Quiet s (s.tick d src tag) := by simp [Quiet, State.tick]

@[simp] theorem State.carry_quiet (s : State) (d m : Nat) : Quiet s (s.carry d m) := by
  dsimp only [State.carry]
  (repeat' split) <;> simp_all [Quiet]

@[simp] theorem State.writeAtHome_tame (s : State) (d : Nat) (g : GAddr) (bs : List (Nat × Byte)) : Tame s (s.writeAtHome d g bs) := by
  dsimp only [State.writeAtHome]
  (repeat' split) <;> simp_all [Tame]

@[simp] theorem State.walked_quiet (s : State) (d : Nat) (v : Vf) (va : Nat) : Quiet s (s.walked d v va) :=
  foldl_quiet _ (fun s h => State.carry_quiet s d h) _ _

@[simp] theorem State.markPtes_tame (s : State) (d : Nat) (setD : Bool) (ptes : List Nat) : Tame s (s.markPtes d setD ptes) := by
  refine foldl_tame _ (fun s a => ?_) _ _
  generalize (if setD then (4 : Byte) else 0) = x
  dsimp only
  split
  · exact State.stashFlush_tame ..
  · exact (State.stashFlush_tame ..).trans ((State.stashFlush_tame ..).trans (State.writeAtHome_tame ..))

theorem State.flushWalkFrom_tame (s : State) (va level t : Nat) : Tame s (s.flushWalkFrom va level t) := by
  induction level generalizing s t with
  | zero =>
    unfold State.flushWalkFrom
    dsimp only
    split <;> exact State.stashFlush_tame ..
  | succ l ih =>
    unfold State.flushWalkFrom
    dsimp only
    (repeat' split) <;> first
      | exact State.stashFlush_tame ..
      | exact (State.stashFlush_tame ..).trans (ih _ _)

@[simp] theorem State.flushWalk_tame (s : State) (v : Vf) (va : Nat) : Tame s (s.flushWalk v va) := by
  unfold State.flushWalk
  split
  · exact State.flushWalkFrom_tame ..
  · simp [Tame]

@[simp] theorem State.request_quiet (s : State) (id : Nat) (kind : ReqKind) (numbered : Bool) : Quiet s (s.request id kind numbered) := by
  dsimp only [State.request]
  (repeat' split) <;> simp_all [Quiet]

@[simp] theorem State.loadAllocate_tame (s : State) (k : CoreId) (g : GAddr) (n : Nat) (crew : CrewId) : Tame s (s.loadAllocate k g n crew) := by
  dsimp only [State.loadAllocate]
  (repeat' split) <;> simp_all [Tame]

@[simp] theorem State.loadGlobal_tame (s : State) (g : GAddr) (n : Nat) (sgn : Bool) (d : Reg) (w : Nat) : Tame s (s.loadGlobal g n sgn d w) := by
  dsimp only [State.loadGlobal]
  (repeat' split) <;> simp_all [Tame]

@[simp] theorem State.storeGlobal_tame (s : State) (g : GAddr) (bs : List Byte) : Tame s (s.storeGlobal g bs) := by
  grind [State.storeGlobal, State.l1Put_tame, State.sendHome_tame, State.homeWrite_tame, State.writeBackRange_tame, State.setL1_quiet, State.dieStore_tame, State.touchLine_quiet, State.stashFlush_tame, State.homeStore_tame]

/-! ## Residency -/

@[simp] theorem State.evictFor_quiet (s : State) (k : CoreId) (vf need : Nat) (fuel : Nat) :
    Quiet s (s.evictFor k vf need fuel) := by
  induction fuel generalizing s with
  | zero => simp [Quiet, State.evictFor]
  | succ n ih =>
    unfold State.evictFor
    split
    · simp [Quiet]
    · dsimp only
      split
      · simp [Quiet]
      · exact Quiet.trans (by simp [Quiet]) (ih _)

@[simp] theorem State.startLoad_quiet (s : State) (k : CoreId) (vf coid seg len launch : Nat) (owner : ThreadId) (named : Bool)
    (pins : List Nat) : Quiet s (s.startLoad k vf coid seg len launch owner named pins) := by
  dsimp only [State.startLoad]
  (repeat' split) <;> simp_all [Quiet]

@[simp] theorem State.requeueLacer_quiet (s : State) (k : CoreId) (q : List LacerReq) : Quiet s (s.requeueLacer k q) := by simp [Quiet, State.requeueLacer]

@[simp] theorem State.nameLoad_quiet (s : State) (k : CoreId) (e : SegEntry) (t : ThreadId) : Quiet s (s.nameLoad k e t) := by
  dsimp only [State.nameLoad]
  split <;> simp [Quiet]

@[simp] theorem State.settleReq_quiet (s : State) (t : ThreadId) (pc : Word) : Quiet s (s.settleReq t pc) := by
  dsimp only [State.settleReq]
  (repeat' split) <;> simp_all [Quiet]

@[simp] theorem State.transferRel_quiet (s : State) (pc : Word) (rel : Bool) : Quiet s (s.transferRel pc rel) := by
  dsimp only [State.transferRel]
  (repeat' split) <;> simp_all [Quiet]

@[simp] theorem State.transfer_quiet (s : State) (pc : Word) : Quiet s (s.transfer pc) := by simp [Quiet, State.transfer]

/-! ## Control -/

@[simp] theorem State.jump_quiet (s : State) (off : Int) : Quiet s (s.jump off) := by
  dsimp only [State.jump]
  (repeat' split) <;> simp_all [Quiet]

theorem branch_quiet (sp : Bool) (a : Reg) (off : BitVec 17) (s : State) (c : Int → Bool) {t' : State} : branch sp a off s c = .next t' → Quiet s t' := by
  unfold branch
  refine issue_quiet _ _ _ _ _ (fun s => ?_)
  grind [branch, State.advance_quiet, State.jump_quiet]

theorem execBeqz_quiet (sp : Bool) (a : Reg) (off : BitVec 17) (s : State) {t' : State} : execBeqz sp a off s = .next t' → Quiet s t' := by
  unfold execBeqz
  refine issue_quiet _ _ _ _ _ (fun s => ?_)
  dsimp only
  (repeat' split) <;> simp_all [Quiet]

theorem execBnez_quiet (sp : Bool) (a : Reg) (off : BitVec 17) (s : State) {t' : State} : execBnez sp a off s = .next t' → Quiet s t' := by
  unfold execBnez
  refine issue_quiet _ _ _ _ _ (fun s => ?_)
  dsimp only
  (repeat' split) <;> simp_all [Quiet]

theorem execBltz_quiet (sp : Bool) (a : Reg) (off : BitVec 17) (s : State) {t' : State} : execBltz sp a off s = .next t' → Quiet s t' := by
  unfold execBltz
  refine issue_quiet _ _ _ _ _ (fun s => ?_)
  dsimp only
  (repeat' split) <;> simp_all [Quiet]

theorem execBgez_quiet (sp : Bool) (a : Reg) (off : BitVec 17) (s : State) {t' : State} : execBgez sp a off s = .next t' → Quiet s t' := by
  unfold execBgez
  refine issue_quiet _ _ _ _ _ (fun s => ?_)
  dsimp only
  (repeat' split) <;> simp_all [Quiet]

theorem execBgtz_quiet (sp : Bool) (a : Reg) (off : BitVec 17) (s : State) {t' : State} : execBgtz sp a off s = .next t' → Quiet s t' := by
  unfold execBgtz
  refine issue_quiet _ _ _ _ _ (fun s => ?_)
  dsimp only
  (repeat' split) <;> simp_all [Quiet]

theorem execBlez_quiet (sp : Bool) (a : Reg) (off : BitVec 17) (s : State) {t' : State} : execBlez sp a off s = .next t' → Quiet s t' := by
  unfold execBlez
  refine issue_quiet _ _ _ _ _ (fun s => ?_)
  dsimp only
  (repeat' split) <;> simp_all [Quiet]

theorem execBra_quiet (sp : Bool) (off : BitVec 17) (s : State) {t' : State} : execBra sp off s = .next t' → Quiet s t' := by
  unfold execBra
  exact issue_quiet _ _ _ _ _ (fun s => by simp [Quiet])

theorem execJmp_quiet (sp : Bool) (off : BitVec 25) (s : State) {t' : State} : execJmp sp off s = .next t' → Quiet s t' := by
  unfold execJmp
  exact issue_quiet _ _ _ _ _ (fun s => by simp [Quiet])

@[simp] theorem State.link_quiet (s : State) : Quiet s s.link := by simp [Quiet, State.link]

@[simp] theorem State.returnTrap_quiet (s : State) : Quiet s s.returnTrap := by simp [Quiet, State.returnTrap]

theorem execCall_quiet (sp : Bool) (off : BitVec 25) (s : State) {t' : State} : execCall sp off s = .next t' → Quiet s t' := by
  unfold execCall
  refine issue_quiet _ _ _ _ _ (fun s => ?_)
  grind [execCall, State.link_quiet, State.returnTrap_quiet, State.goto_quiet, State.jump_quiet]

@[simp] theorem State.indirect_quiet (s : State) (tgt : Word) (call : Bool) : Quiet s (s.indirect tgt call) := by
  dsimp only [State.indirect]
  (repeat' split) <;> simp_all [Quiet]

theorem execJr_quiet (sp : Bool) (a : Reg) (s : State) {t' : State} : execJr sp a s = .next t' → Quiet s t' := by
  unfold execJr
  exact issue_quiet _ _ _ _ _ (fun s => by simp [Quiet])

theorem execCallx_quiet (sp : Bool) (a : Reg) (s : State) {t' : State} : execCallx sp a s = .next t' → Quiet s t' := by
  unfold execCallx
  exact issue_quiet _ _ _ _ _ (fun s => by simp [Quiet])

theorem execRet_quiet (sp : Bool) (s : State) {t' : State} : execRet sp s = .next t' → Quiet s t' := by
  unfold execRet
  exact issue_quiet _ _ _ _ _ (fun s => by simp [Quiet])

theorem execOcall_quiet (sp : Bool) (b : Reg) (s : State) {t' : State} : execOcall sp b s = .next t' → Quiet s t' := by
  unfold execOcall
  refine issue_quiet _ _ _ _ _ (fun s => ?_)
  grind [execOcall, State.indirect_quiet, State.raise_quiet]

/-! ## LoadStore -/

@[simp] theorem State.agentWalk_tame (s : State) (k : CoreId) (v : Vf) (va : Nat) (setD : Bool) : Tame s (s.agentWalk k v va setD).st := by
  dsimp only [State.agentWalk]
  (repeat' split) <;> simp_all [Tame]

@[simp] theorem State.entryNow_tame (s : State) (k : CoreId) (v : Vf) (va : Nat) (setD : Bool) : Tame s (s.entryNow k v va setD).st := by
  unfold State.entryNow
  (repeat' split) <;> first | exact State.agentWalk_tame .. | simp [Tame]

theorem State.entryNow_ok_tame (s : State) (k : CoreId) (v : Vf) (va : Nat) (setD : Bool) {t'} {a}
    (h' : s.entryNow k v va setD = .ok t' a) : Tame s t' := by
  simpa [h'] using State.entryNow_tame s k v va setD

theorem State.entryNow_fault_tame (s : State) (k : CoreId) (v : Vf) (va : Nat) (setD : Bool) {t'} {a}
    (h' : s.entryNow k v va setD = .fault t' a) : Tame s t' := by
  simpa [h'] using State.entryNow_tame s k v va setD

theorem State.entryNow_deny_tame (s : State) (k : CoreId) (v : Vf) (va : Nat) (setD : Bool) {t'}
    (h' : s.entryNow k v va setD = .deny t') : Tame s t' := by
  simpa [h'] using State.entryNow_tame s k v va setD

theorem State.entryNow_wait_tame (s : State) (k : CoreId) (v : Vf) (va : Nat) (setD : Bool) {t'}
    (h' : s.entryNow k v va setD = .wait t') : Tame s t' := by
  simpa [h'] using State.entryNow_tame s k v va setD

theorem State.homeLine_tame (s : State) (d : Nat) (g : GAddr) {t' : State × List Byte} (h : s.homeLine d g = some t') : Tame s t'.1 := by
  unfold State.homeLine at h
  dsimp only at h
  split at h
  · cases h
  · cases h
    dsimp only
    split <;> simp [Tame]

theorem State.wholeLine_tame (s : State) (d : Nat) (g : GAddr) {t' : State × List Byte} (h : s.wholeLine d g = some t') : Tame s t'.1 := by
  unfold State.wholeLine at h
  dsimp only at h
  split at h
  · exact State.homeLine_tame _ _ _ h
  split at h
  · cases h; simp [Tame]
  split at h
  · cases h
  · cases h
    dsimp only
    split <;> simp +contextual [Tame]

theorem State.stashFill_tame (s : State) (t : Team) (m : StashMap) (lo : Nat) (g : GAddr) : Tame s (s.stashFill t m lo g).st := by
  unfold State.stashFill
  dsimp only
  split
  · exact (State.l1Clean_tame ..).trans ((State.l1Drop_quiet ..).tame.trans ((State.stashFlush_tame ..).trans (State.stashOut_tame ..)))
  · rename_i u bs hw
    have hu := State.wholeLine_tame _ _ _ hw
    refine Tame.trans (t := u) ?_ ?_
    · exact (State.l1Clean_tame ..).trans ((State.l1Drop_quiet ..).tame.trans ((State.stashFlush_tame ..).trans
        ((State.stashOut_tame ..).trans hu)))
    · split <;> simp [Tame]

@[simp] theorem State.stashTouch_tame (s : State) (l t off : Nat) : Tame s (s.stashTouch l t off).st := by
  unfold State.stashTouch
  split
  · simp [Tame]
  split
  · simp [Tame]
  dsimp only
  split
  · simp [Tame]
  split
  · simp [Tame]
  split
  · exact State.entryNow_fault_tame _ _ _ _ _ (by assumption)
  · exact State.entryNow_deny_tame _ _ _ _ _ (by assumption)
  · exact State.entryNow_wait_tame _ _ _ _ _ (by assumption)
  · refine (State.entryNow_ok_tame _ _ _ _ _ (by assumption)).trans ?_
    split
    · exact State.stashFill_tame ..
    · simp [Tame]

theorem State.stashTouch_ok_tame {s u : State} {l t off : Nat} (h : s.stashTouch l t off = .ok u ()) : Tame s u :=
  Tried.eq_tame (State.stashTouch_tame ..) h

theorem State.stashTouch_wait_tame {s u : State} {l t off : Nat} (h : s.stashTouch l t off = .wait u) : Tame s u :=
  Tried.eq_tame (State.stashTouch_tame ..) h

@[simp] theorem State.stashReady_tame (s : State) (l t off n : Nat) : Tame s (s.stashReady l t off n).st :=
  Tried.andThen_tame (State.stashTouch_tame ..) (fun s _ => by split <;> simp [Tame])

theorem State.stashReady_ok_tame {s u : State} {l t off n : Nat} (h : s.stashReady l t off n = .ok u ()) : Tame s u :=
  Tried.eq_tame (State.stashReady_tame ..) h

theorem State.stashReady_wait_tame {s u : State} {l t off n : Nat} (h : s.stashReady l t off n = .wait u) : Tame s u :=
  Tried.eq_tame (State.stashReady_tame ..) h

@[simp] theorem State.writeScratch_quiet (s : State) (l t off : Nat) (bs : List Byte) : Quiet s (s.writeScratch l t off bs) := by
  dsimp only [State.writeScratch]
  (repeat' split) <;> simp_all [Quiet]

@[simp] theorem State.loadScratch_tame (s : State) (team off n : Nat) (sgn : Bool) (d : Reg) (w : Nat) : Tame s (s.loadScratch team off n sgn d w) := by
  grind [State.loadScratch, State.stashReady_ok_tame, State.stashReady_wait_tame, State.reply_quiet, State.consumeScratch_quiet, State.parkCur_quiet, State.advance_quiet, State.enqueue_quiet, State.bankAccess_quiet]

@[simp] theorem State.storeScratch_tame (s : State) (team off : Nat) (bs : List Byte) : Tame s (s.storeScratch team off bs) := by
  grind [State.storeScratch, State.stashReady_ok_tame, State.stashReady_wait_tame, State.writeScratch_quiet, State.parkCur_quiet, State.advance_quiet, State.bankAccess_quiet]

@[simp] theorem State.routeOf_tame (s : State) (l t : Nat) (g : GAddr) (va : Nat) : Tame s (s.routeOf l t g va).st := by
  dsimp only [State.routeOf]
  split
  · simp [Tame]
  split
  · simp [Tame]
  split
  · simp [Tame]
  split
  · simp [Tame]
  split
  · split
    · exact Tried.eq_tame (State.stashFill_tame ..) (by assumption)
    · exact Tried.eq_tame (State.stashFill_tame ..) (by assumption)
  · simp [Tame]

theorem State.routeOf_eq_tame {s : State} {l t va : Nat} {g : GAddr} {x : Route} (h : s.routeOf l t g va = x) : Tame s x.st :=
  h ▸ State.routeOf_tame s l t g va

@[simp] theorem State.route_tame (s : State) (g : GAddr) (va : Nat) : Tame s (s.route g va).st := State.routeOf_tame ..

theorem State.route_mem_tame (s : State) (g : GAddr) (va : Nat) {t'} 
    (h' : s.route g va = .mem t' ) : Tame s t' := by
  simpa [h'] using State.route_tame s g va

theorem State.route_stash_tame (s : State) (g : GAddr) (va : Nat) {t'} {a}
    (h' : s.route g va = .stash t' a) : Tame s t' := by
  simpa [h'] using State.route_tame s g va

theorem State.route_wait_tame (s : State) (g : GAddr) (va : Nat) {t'} 
    (h' : s.route g va = .wait t' ) : Tame s t' := by
  simpa [h'] using State.route_tame s g va

@[simp] theorem State.loadThread_tame (s : State) (ea : DWord) (n cap : Nat) (sgn : Bool) (d : Reg) (w : Nat) :
    Tame s (s.loadThread ea n cap sgn d w) := by
  unfold State.loadThread
  split
  · simp +contextual [Tame]
  split
  · simp +contextual [Tame]
  · simp +contextual [Tame]
  · simp +contextual [Tame]
  · split
    · exact (State.checkGlobal_stop_quiet _ _ _ _ _ _ _ (by assumption)).tame
    · split
      · simp +contextual [Tame]
      · split
        · exact (State.route_wait_tame _ _ _ (by assumption)).trans (by simp +contextual [Tame])
        · exact (State.route_stash_tame _ _ _ (by assumption)).trans (by dsimp only; split <;> simp +contextual [Tame])
        · exact (State.route_mem_tame _ _ _ (by assumption)).trans (by split <;> simp +contextual [Tame])

@[simp] theorem State.storeThread_tame (s : State) (ea : DWord) (bs : List Byte) (cap : Nat) :
    Tame s (s.storeThread ea bs cap) := by
  unfold State.storeThread
  dsimp only
  split
  · simp +contextual [Tame]
  split
  · simp +contextual [Tame]
  · simp +contextual [Tame]
  · simp +contextual [Tame]
  · split
    · exact (State.checkGlobal_stop_quiet _ _ _ _ _ _ _ (by assumption)).tame
    · split
      · simp +contextual [Tame]
      · split
        · exact (State.route_wait_tame _ _ _ (by assumption)).trans (by simp +contextual [Tame])
        · exact (State.route_stash_tame _ _ _ (by assumption)).trans (by split <;> simp +contextual [Tame])
        · exact (State.route_mem_tame _ _ _ (by assumption)).trans (by simp +contextual [Tame])

theorem load_tame (n w : Nat) (sgn sp : Bool) (pol : BitVec 2) (d a : Reg) (off : BitVec 8) (s : State) {t' : State} : load n w sgn sp pol d a off s = .next t' → Tame s t' := by
  unfold load
  refine issue_tame _ _ _ _ _ (fun s => ?_)
  grind [load, State.loadThread_tame]

theorem store_tame (n w : Nat) (sp : Bool) (pol : BitVec 2) (d a : Reg) (off : BitVec 8) (s : State) {t' : State} : store n w sp pol d a off s = .next t' → Tame s t' := by
  unfold store
  refine issue_tame _ _ _ _ _ (fun s => ?_)
  grind [store, State.storeThread_tame]

theorem execLd8S_tame (sp : Bool) (pol : BitVec 2) (d a : Reg) (off : BitVec 8) (s : State) {t' : State} : execLd8S sp pol d a off s = .next t' → Tame s t' := by
  grind [execLd8S, load_tame]

theorem execLd8N_tame (sp : Bool) (pol : BitVec 2) (d a : Reg) (off : BitVec 8) (s : State) {t' : State} : execLd8N sp pol d a off s = .next t' → Tame s t' := by
  grind [execLd8N, load_tame]

theorem execLd16S_tame (sp : Bool) (pol : BitVec 2) (d a : Reg) (off : BitVec 8) (s : State) {t' : State} : execLd16S sp pol d a off s = .next t' → Tame s t' := by
  grind [execLd16S, load_tame]

theorem execLd16N_tame (sp : Bool) (pol : BitVec 2) (d a : Reg) (off : BitVec 8) (s : State) {t' : State} : execLd16N sp pol d a off s = .next t' → Tame s t' := by
  grind [execLd16N, load_tame]

theorem execLd32_tame (sp : Bool) (pol : BitVec 2) (d a : Reg) (off : BitVec 8) (s : State) {t' : State} : execLd32 sp pol d a off s = .next t' → Tame s t' := by
  grind [execLd32, load_tame]

theorem execLd64_tame (sp : Bool) (pol : BitVec 2) (d a : Reg) (off : BitVec 8) (s : State) {t' : State} : execLd64 sp pol d a off s = .next t' → Tame s t' := by
  grind [execLd64, load_tame]

theorem execLd128_tame (sp : Bool) (pol : BitVec 2) (d a : Reg) (off : BitVec 8) (s : State) {t' : State} : execLd128 sp pol d a off s = .next t' → Tame s t' := by
  grind [execLd128, load_tame]

theorem execSt8_tame (sp : Bool) (pol : BitVec 2) (d a : Reg) (off : BitVec 8) (s : State) {t' : State} : execSt8 sp pol d a off s = .next t' → Tame s t' := by
  grind [execSt8, store_tame]

theorem execSt16_tame (sp : Bool) (pol : BitVec 2) (d a : Reg) (off : BitVec 8) (s : State) {t' : State} : execSt16 sp pol d a off s = .next t' → Tame s t' := by
  grind [execSt16, store_tame]

theorem execSt32_tame (sp : Bool) (pol : BitVec 2) (d a : Reg) (off : BitVec 8) (s : State) {t' : State} : execSt32 sp pol d a off s = .next t' → Tame s t' := by
  grind [execSt32, store_tame]

theorem execSt64_tame (sp : Bool) (pol : BitVec 2) (d a : Reg) (off : BitVec 8) (s : State) {t' : State} : execSt64 sp pol d a off s = .next t' → Tame s t' := by
  grind [execSt64, store_tame]

theorem execSt128_tame (sp : Bool) (pol : BitVec 2) (d a : Reg) (off : BitVec 8) (s : State) {t' : State} : execSt128 sp pol d a off s = .next t' → Tame s t' := by
  grind [execSt128, store_tame]

@[simp] theorem State.lduPart_tame (s : State) (ea : DWord) : Tame s (Part.st s (s.lduPart ea)) := by
  have scr (team off : Nat) : Tame s (Part.st s (
      if s.hatched s.cur.id.launch team off 8 false then .stop (s.parkCur (.stalled 5))
      else if s.unorderedScr team off 8 then .stop (s.parkCur (.stalled 15))
      else match s.stashReady s.cur.id.launch team off 8 with
        | .wait s' => .stop (s'.parkCur (.stalled 15))
        | .ok s' _ => .bytes ((s'.bankAccess team off 8).consumeScratch s'.curCore s.cur.id.launch team off 8)
            (s'.scratchBytes s.cur.id.launch team off 8))) := by
    split
    · simp [Tame]
    split
    · simp [Tame]
    split
    · exact (State.stashReady_wait_tame (by assumption)).trans (by simp [Tame])
    · exact (State.stashReady_ok_tame (by assumption)).trans (by simp [Tame])
  unfold State.lduPart
  dsimp only
  split
  · simp [Tame]
  · exact scr _ _
  · exact scr _ _
  · split
    · exact (State.checkGlobal_stop_quiet _ _ _ _ _ _ _ (by assumption)).tame
    · split
      · simp [Tame]
      · split
        · exact (State.route_wait_tame _ _ _ (by assumption)).trans (by simp [Tame])
        · split
          · exact (State.route_stash_tame _ _ _ (by assumption)).trans (by simp [Tame])
          · exact (State.route_stash_tame _ _ _ (by assumption)).trans (by simp [Tame])
        · split
          · exact (State.route_mem_tame _ _ _ (by assumption)).trans (by simp [Tame])
          · simp [Tame]

theorem State.lduPart_stop_tame (s : State) (ea : DWord) {t'} 
    (h' : s.lduPart ea = .stop t' ) : Tame s t' := by
  simpa [h'] using State.lduPart_tame s ea

theorem State.lduPart_bytes_tame (s : State) (ea : DWord) {t'} {a}
    (h' : s.lduPart ea = .bytes t' a) : Tame s t' := by
  simpa [h'] using State.lduPart_tame s ea

@[simp] theorem State.lduGlobal_tame (s : State) (k : CoreId) (crew : CrewId) (g : GAddr) (base : Nat) : Tame s (s.lduGlobal k crew g base).1 := by
  dsimp only [State.lduGlobal]
  (repeat' split) <;> simp_all [Tame]

@[simp] theorem State.ldu_tame (s : State) (ea : DWord) (d : Reg) : Tame s (s.ldu ea d) := by
  grind [State.ldu, State.reply_quiet, State.enqueue_quiet, State.request_quiet, State.lduPart_tame, State.lduPart_stop_tame, State.lduPart_bytes_tame, State.advance_quiet, State.lduGlobal_tame]

theorem execLdu_tame (sp : Bool) (d a : Reg) (s : State) {t' : State} : execLdu sp d a s = .next t' → Tame s t' := by
  unfold execLdu
  refine issue_tame _ _ _ _ _ (fun s => ?_)
  grind [execLdu, State.ldu_tame, State.raise_quiet]

theorem execPref_tame (sp : Bool) (a : Reg) (s : State) {t' : State} : execPref sp a s = .next t' → Tame s t' := by
  unfold execPref
  refine issue_tame _ _ _ _ _ (fun s => ?_)
  grind [execPref, State.l2Alloc_tame, State.advance_quiet, State.entryNow_tame]

/-! ## Order -/

@[simp] theorem State.releaseActs_tame (s : State) (l t scope : Nat) : Tame s (s.releaseActs l t scope) := by
  grind [State.releaseActs, State.sendAll_tame, State.l1CleanAll_tame, State.stashCleanTeam_tame]

@[simp] theorem State.acquireActs_quiet (s : State) (l t scope : Nat) : Quiet s (s.acquireActs l t scope) := by
  dsimp only [State.acquireActs]
  (repeat' split) <;> simp_all [Quiet]

end Sys2Proof.Machine
end

