-- ==== Sys2Proof/Laws/KeepWords.lean ====
section
/-! SUPPORT. What the operations of Flags, Eyelet, Retire, Int, Imm, Flt, Cvt, Par leave of the clocks and of memory. -/

namespace Sys2Proof.Machine

/-! ## Flags -/

@[simp] theorem State.fpResult_quiet (s : State) (d : Reg) (vs : List Word) (fl : BitVec 5) : Quiet s (s.fpResult d vs fl) := by simp [Quiet, State.fpResult]

@[simp] theorem State.intResult_quiet (s : State) (d : Reg) (vs : List Word) (fl : BitVec 2) : Quiet s (s.intResult d vs fl) := by simp [Quiet, State.intResult]

/-! ## Eyelet -/

@[simp] theorem State.setBarrier_quiet (s : State) (b : Barrier) : Quiet s (s.setBarrier b) := by simp [Quiet, State.setBarrier]

theorem State.useBarrier_quiet (s : State) (l scope owner id : Nat) {t' : State} : s.useBarrier l scope owner id = some t' → Quiet s t' := by
  grind [State.useBarrier, State.setBarrier_quiet]

@[simp] theorem State.useEyelet_quiet (s : State) (l scope owner id : Nat) : Quiet s (s.useEyelet l scope owner id) := by
  dsimp only [State.useEyelet]
  (repeat' split) <;> simp_all [Quiet]

@[simp] theorem State.learn_quiet (s : State) (t : Thread) : Quiet s (s.learn t) := by
  dsimp only [State.learn]
  (repeat' split) <;> simp_all [Quiet]

@[simp] theorem State.leaveBarrier_quiet (s : State) (t : Thread) : Quiet s (s.leaveBarrier t) := by
  dsimp only [State.leaveBarrier]
  (repeat' split) <;> simp_all [Quiet]

@[simp] theorem State.barrierLeave_quiet (s : State) : Quiet s s.barrierLeave :=
  foldl_quiet _ (fun s t => State.leaveBarrier_quiet s t) _ _

@[simp] theorem State.checkBarrier_quiet (s : State) (l scope owner id : Nat) : Quiet s (s.checkBarrier l scope owner id) := by
  dsimp only [State.checkBarrier]
  (repeat' split) <;> simp_all [Quiet]

@[simp] theorem State.countArrival_quiet (s : State) (l scope owner id : Nat) (t : Option ThreadId) (clock : List Nat) : Quiet s (s.countArrival l scope owner id t clock) := by
  dsimp only [State.countArrival]
  (repeat' split) <;> simp_all [Quiet]

@[simp] theorem State.sendArrival_quiet (s : State) (scope owner id : Nat) : Quiet s (s.sendArrival scope owner id) := by simp [Quiet, State.sendArrival]

@[simp] theorem State.spillRecord_quiet (s : State) (k : CoreId) (t : ThreadId) (key : Nat × Nat) : Quiet s (s.spillRecord k t key) := by
  simp [Quiet, State.spillRecord]

@[simp] theorem State.barSpill_quiet (s : State) (scope owner id : Nat) : Quiet s (s.barSpill scope owner id) := by
  dsimp only [State.barSpill]
  (repeat' split) <;> simp_all [Quiet]

@[simp] theorem State.endSpill_quiet (s : State) (l scope owner id : Nat) : Quiet s (s.endSpill l scope owner id) := by
  simp [Quiet, State.endSpill]

@[simp] theorem State.checkDies_quiet (s : State) (l : Nat) : Quiet s (s.checkDies l) := by simp [Quiet, State.checkDies]

@[simp] theorem State.exitBarriers_quiet (s : State) (l t : Nat) : Quiet s (s.exitBarriers l t) := by simp [Quiet, State.exitBarriers]

/-! ## Retire -/

@[simp] theorem State.unpin_quiet (s : State) (l : Nat) (k : CoreId) : Quiet s (s.unpin l k) := by
  dsimp only [State.unpin]
  (repeat' split) <;> simp_all [Quiet]

@[simp] theorem State.chainEnded_quiet (s : State) (k : CoreId) : Quiet s (s.chainEnded k) := by simp [Quiet, State.chainEnded]

@[simp] theorem State.dropChains_quiet (s : State) (l t : Nat) (k : CoreId) : Quiet s (s.dropChains l t k) := by
  dsimp only [State.dropChains]
  (repeat' split) <;> simp_all [Quiet]

@[simp] theorem State.preemptDone_quiet (s : State) (vf : Nat) : Quiet s (s.preemptDone vf) := by
  dsimp only [State.preemptDone]
  (repeat' split) <;> simp_all [Quiet]

@[simp] theorem State.teamRetire_tame (s : State) (l t : Nat) : Tame s (s.teamRetire l t) := by
  dsimp only [State.teamRetire]
  (repeat' split) <;> simp_all [Tame]

@[simp] theorem State.tryRetire_tame (s : State) (l t : Nat) : Tame s (s.tryRetire l t) := by
  dsimp only [State.tryRetire]
  (repeat' split) <;> simp_all [Tame]

@[simp] theorem State.crewLeave_quiet (s : State) (c : CrewId) : Quiet s (s.crewLeave c) := by
  dsimp only [State.crewLeave]
  (repeat' split) <;> simp_all [Quiet]

@[simp] theorem State.endThread_tame (s : State) : Tame s s.endThread := by
  dsimp only [State.endThread]
  (repeat' split) <;> simp_all [Tame]

/-! ## Int -/

theorem alu3_quiet (sp : Bool) (d a b : Reg) (s : State) (f : Word → Word → Word) {t' : State} : alu3 sp d a b s f = .next t' → Quiet s t' := by
  unfold alu3
  exact issue_quiet _ _ _ _ _ (fun s => by simp [Quiet])

theorem alu3d_quiet (sp : Bool) (d a b : Reg) (s : State) (f : Word → Word → Word → Word) {t' : State} : alu3d sp d a b s f = .next t' → Quiet s t' := by
  unfold alu3d
  exact issue_quiet _ _ _ _ _ (fun s => by simp [Quiet])

theorem alu2_quiet (sp : Bool) (d a : Reg) (s : State) (f : Word → Word) {t' : State} : alu2 sp d a s f = .next t' → Quiet s t' := by
  unfold alu2
  exact issue_quiet _ _ _ _ _ (fun s => by simp [Quiet])

theorem aluW_quiet (sp : Bool) (d a b : Reg) (s : State) (f : Word → Word → DWord) {t' : State} : aluW sp d a b s f = .next t' → Quiet s t' := by
  unfold aluW
  exact issue_quiet _ _ _ _ _ (fun s => by simp [Quiet])

theorem aluWd_quiet (sp : Bool) (d a b : Reg) (s : State) (f : DWord → Word → Word → DWord) {t' : State} : aluWd sp d a b s f = .next t' → Quiet s t' := by
  unfold aluWd
  exact issue_quiet _ _ _ _ _ (fun s => by simp [Quiet])

theorem aluP_quiet (sp : Bool) (d a b : Reg) (s : State) (f : DWord → DWord → DWord) {t' : State} : aluP sp d a b s f = .next t' → Quiet s t' := by
  unfold aluP
  exact issue_quiet _ _ _ _ _ (fun s => by simp [Quiet])

theorem aluPs_quiet (sp : Bool) (d a b : Reg) (s : State) (f : DWord → Word → DWord) {t' : State} : aluPs sp d a b s f = .next t' → Quiet s t' := by
  unfold aluPs
  exact issue_quiet _ _ _ _ _ (fun s => by simp [Quiet])

theorem cmpP_quiet (sp : Bool) (d a b : Reg) (s : State) (f : DWord → DWord → Bool) {t' : State} : cmpP sp d a b s f = .next t' → Quiet s t' := by
  unfold cmpP
  exact issue_quiet _ _ _ _ _ (fun s => by simp [Quiet])

theorem divide_quiet (sp : Bool) (d a b : Reg) (s : State) (dv : Word → Word → Word × Word × BitVec 2) (q : Word × Word × BitVec 2 → Word) {t' : State} : divide sp d a b s dv q = .next t' → Quiet s t' := by
  unfold divide
  exact issue_quiet _ _ _ _ _ (fun s => by simp [Quiet])

theorem execAdd_quiet (sp : Bool) (d a b : Reg) (s : State) {t' : State} : execAdd sp d a b s = .next t' → Quiet s t' := by
  unfold execAdd
  exact issue_quiet _ _ _ _ _ (fun s => by simp [Quiet])

theorem execSub_quiet (sp : Bool) (d a b : Reg) (s : State) {t' : State} : execSub sp d a b s = .next t' → Quiet s t' := by
  unfold execSub
  exact issue_quiet _ _ _ _ _ (fun s => by simp [Quiet])

theorem execMullo_quiet (sp : Bool) (d a b : Reg) (s : State) {t' : State} : execMullo sp d a b s = .next t' → Quiet s t' := by
  unfold execMullo
  exact issue_quiet _ _ _ _ _ (fun s => by simp [Quiet])

theorem execMulhiS32_quiet (sp : Bool) (d a b : Reg) (s : State) {t' : State} : execMulhiS32 sp d a b s = .next t' → Quiet s t' := by
  unfold execMulhiS32
  exact issue_quiet _ _ _ _ _ (fun s => by simp [Quiet])

theorem execMulhiN32_quiet (sp : Bool) (d a b : Reg) (s : State) {t' : State} : execMulhiN32 sp d a b s = .next t' → Quiet s t' := by
  unfold execMulhiN32
  exact issue_quiet _ _ _ _ _ (fun s => by simp [Quiet])

theorem execMulwS32_quiet (sp : Bool) (d a b : Reg) (s : State) {t' : State} : execMulwS32 sp d a b s = .next t' → Quiet s t' := by
  unfold execMulwS32
  exact issue_quiet _ _ _ _ _ (fun s => by simp [Quiet])

theorem execMulwN32_quiet (sp : Bool) (d a b : Reg) (s : State) {t' : State} : execMulwN32 sp d a b s = .next t' → Quiet s t' := by
  unfold execMulwN32
  exact issue_quiet _ _ _ _ _ (fun s => by simp [Quiet])

theorem execMad_quiet (sp : Bool) (d a b : Reg) (s : State) {t' : State} : execMad sp d a b s = .next t' → Quiet s t' := by
  unfold execMad
  exact issue_quiet _ _ _ _ _ (fun s => by simp [Quiet])

theorem execDivS32_quiet (sp : Bool) (d a b : Reg) (s : State) {t' : State} : execDivS32 sp d a b s = .next t' → Quiet s t' := by
  unfold execDivS32
  exact issue_quiet _ _ _ _ _ (fun s => by simp [Quiet])

theorem execDivN32_quiet (sp : Bool) (d a b : Reg) (s : State) {t' : State} : execDivN32 sp d a b s = .next t' → Quiet s t' := by
  unfold execDivN32
  exact issue_quiet _ _ _ _ _ (fun s => by simp [Quiet])

theorem execRemS32_quiet (sp : Bool) (d a b : Reg) (s : State) {t' : State} : execRemS32 sp d a b s = .next t' → Quiet s t' := by
  unfold execRemS32
  exact issue_quiet _ _ _ _ _ (fun s => by simp [Quiet])

theorem execRemN32_quiet (sp : Bool) (d a b : Reg) (s : State) {t' : State} : execRemN32 sp d a b s = .next t' → Quiet s t' := by
  unfold execRemN32
  exact issue_quiet _ _ _ _ _ (fun s => by simp [Quiet])

theorem execAnd_quiet (sp : Bool) (d a b : Reg) (s : State) {t' : State} : execAnd sp d a b s = .next t' → Quiet s t' := by
  unfold execAnd
  exact issue_quiet _ _ _ _ _ (fun s => by simp [Quiet])

theorem execOr_quiet (sp : Bool) (d a b : Reg) (s : State) {t' : State} : execOr sp d a b s = .next t' → Quiet s t' := by
  unfold execOr
  exact issue_quiet _ _ _ _ _ (fun s => by simp [Quiet])

theorem execXor_quiet (sp : Bool) (d a b : Reg) (s : State) {t' : State} : execXor sp d a b s = .next t' → Quiet s t' := by
  unfold execXor
  exact issue_quiet _ _ _ _ _ (fun s => by simp [Quiet])

theorem execAndn_quiet (sp : Bool) (d a b : Reg) (s : State) {t' : State} : execAndn sp d a b s = .next t' → Quiet s t' := by
  unfold execAndn
  exact issue_quiet _ _ _ _ _ (fun s => by simp [Quiet])

theorem execOrn_quiet (sp : Bool) (d a b : Reg) (s : State) {t' : State} : execOrn sp d a b s = .next t' → Quiet s t' := by
  unfold execOrn
  exact issue_quiet _ _ _ _ _ (fun s => by simp [Quiet])

theorem execShl_quiet (sp : Bool) (d a b : Reg) (s : State) {t' : State} : execShl sp d a b s = .next t' → Quiet s t' := by
  unfold execShl
  exact issue_quiet _ _ _ _ _ (fun s => by simp [Quiet])

theorem execShr_quiet (sp : Bool) (d a b : Reg) (s : State) {t' : State} : execShr sp d a b s = .next t' → Quiet s t' := by
  unfold execShr
  exact issue_quiet _ _ _ _ _ (fun s => by simp [Quiet])

theorem execSar_quiet (sp : Bool) (d a b : Reg) (s : State) {t' : State} : execSar sp d a b s = .next t' → Quiet s t' := by
  unfold execSar
  exact issue_quiet _ _ _ _ _ (fun s => by simp [Quiet])

theorem execRotl_quiet (sp : Bool) (d a b : Reg) (s : State) {t' : State} : execRotl sp d a b s = .next t' → Quiet s t' := by
  unfold execRotl
  exact issue_quiet _ _ _ _ _ (fun s => by simp [Quiet])

theorem execRotr_quiet (sp : Bool) (d a b : Reg) (s : State) {t' : State} : execRotr sp d a b s = .next t' → Quiet s t' := by
  unfold execRotr
  exact issue_quiet _ _ _ _ _ (fun s => by simp [Quiet])

theorem execMinS32_quiet (sp : Bool) (d a b : Reg) (s : State) {t' : State} : execMinS32 sp d a b s = .next t' → Quiet s t' := by
  unfold execMinS32
  exact issue_quiet _ _ _ _ _ (fun s => by simp [Quiet])

theorem execMinN32_quiet (sp : Bool) (d a b : Reg) (s : State) {t' : State} : execMinN32 sp d a b s = .next t' → Quiet s t' := by
  unfold execMinN32
  exact issue_quiet _ _ _ _ _ (fun s => by simp [Quiet])

theorem execMaxS32_quiet (sp : Bool) (d a b : Reg) (s : State) {t' : State} : execMaxS32 sp d a b s = .next t' → Quiet s t' := by
  unfold execMaxS32
  exact issue_quiet _ _ _ _ _ (fun s => by simp [Quiet])

theorem execMaxN32_quiet (sp : Bool) (d a b : Reg) (s : State) {t' : State} : execMaxN32 sp d a b s = .next t' → Quiet s t' := by
  unfold execMaxN32
  exact issue_quiet _ _ _ _ _ (fun s => by simp [Quiet])

theorem execSad_quiet (sp : Bool) (d a b : Reg) (s : State) {t' : State} : execSad sp d a b s = .next t' → Quiet s t' := by
  unfold execSad
  exact issue_quiet _ _ _ _ _ (fun s => by simp [Quiet])

theorem execSel_quiet (sp : Bool) (d a b : Reg) (s : State) {t' : State} : execSel sp d a b s = .next t' → Quiet s t' := by
  unfold execSel
  exact issue_quiet _ _ _ _ _ (fun s => by simp [Quiet])

theorem execSeteq_quiet (sp : Bool) (d a b : Reg) (s : State) {t' : State} : execSeteq sp d a b s = .next t' → Quiet s t' := by
  unfold execSeteq
  exact issue_quiet _ _ _ _ _ (fun s => by simp [Quiet])

theorem execSetne_quiet (sp : Bool) (d a b : Reg) (s : State) {t' : State} : execSetne sp d a b s = .next t' → Quiet s t' := by
  unfold execSetne
  exact issue_quiet _ _ _ _ _ (fun s => by simp [Quiet])

theorem execSetltS32_quiet (sp : Bool) (d a b : Reg) (s : State) {t' : State} : execSetltS32 sp d a b s = .next t' → Quiet s t' := by
  unfold execSetltS32
  exact issue_quiet _ _ _ _ _ (fun s => by simp [Quiet])

theorem execSetltN32_quiet (sp : Bool) (d a b : Reg) (s : State) {t' : State} : execSetltN32 sp d a b s = .next t' → Quiet s t' := by
  unfold execSetltN32
  exact issue_quiet _ _ _ _ _ (fun s => by simp [Quiet])

theorem execSetleS32_quiet (sp : Bool) (d a b : Reg) (s : State) {t' : State} : execSetleS32 sp d a b s = .next t' → Quiet s t' := by
  unfold execSetleS32
  exact issue_quiet _ _ _ _ _ (fun s => by simp [Quiet])

theorem execSetleN32_quiet (sp : Bool) (d a b : Reg) (s : State) {t' : State} : execSetleN32 sp d a b s = .next t' → Quiet s t' := by
  unfold execSetleN32
  exact issue_quiet _ _ _ _ _ (fun s => by simp [Quiet])

theorem execClz_quiet (sp : Bool) (d a : Reg) (s : State) {t' : State} : execClz sp d a s = .next t' → Quiet s t' := by
  unfold execClz
  exact issue_quiet _ _ _ _ _ (fun s => by simp [Quiet])

theorem execPopc_quiet (sp : Bool) (d a : Reg) (s : State) {t' : State} : execPopc sp d a s = .next t' → Quiet s t' := by
  unfold execPopc
  exact issue_quiet _ _ _ _ _ (fun s => by simp [Quiet])

theorem execBrev_quiet (sp : Bool) (d a : Reg) (s : State) {t' : State} : execBrev sp d a s = .next t' → Quiet s t' := by
  unfold execBrev
  exact issue_quiet _ _ _ _ _ (fun s => by simp [Quiet])

theorem execBfxS32_quiet (sp : Bool) (d a b : Reg) (s : State) {t' : State} : execBfxS32 sp d a b s = .next t' → Quiet s t' := by
  unfold execBfxS32
  exact issue_quiet _ _ _ _ _ (fun s => by simp [Quiet])

theorem execBfxN32_quiet (sp : Bool) (d a b : Reg) (s : State) {t' : State} : execBfxN32 sp d a b s = .next t' → Quiet s t' := by
  unfold execBfxN32
  exact issue_quiet _ _ _ _ _ (fun s => by simp [Quiet])

theorem execBfi_quiet (sp : Bool) (d a b : Reg) (s : State) {t' : State} : execBfi sp d a b s = .next t' → Quiet s t' := by
  unfold execBfi
  exact issue_quiet _ _ _ _ _ (fun s => by simp [Quiet])

theorem execAdd64_quiet (sp : Bool) (d a b : Reg) (s : State) {t' : State} : execAdd64 sp d a b s = .next t' → Quiet s t' := by
  unfold execAdd64
  exact issue_quiet _ _ _ _ _ (fun s => by simp [Quiet])

theorem execSub64_quiet (sp : Bool) (d a b : Reg) (s : State) {t' : State} : execSub64 sp d a b s = .next t' → Quiet s t' := by
  unfold execSub64
  exact issue_quiet _ _ _ _ _ (fun s => by simp [Quiet])

theorem execShl64_quiet (sp : Bool) (d a b : Reg) (s : State) {t' : State} : execShl64 sp d a b s = .next t' → Quiet s t' := by
  unfold execShl64
  exact issue_quiet _ _ _ _ _ (fun s => by simp [Quiet])

theorem execShr64_quiet (sp : Bool) (d a b : Reg) (s : State) {t' : State} : execShr64 sp d a b s = .next t' → Quiet s t' := by
  unfold execShr64
  exact issue_quiet _ _ _ _ _ (fun s => by simp [Quiet])

theorem execSar64_quiet (sp : Bool) (d a b : Reg) (s : State) {t' : State} : execSar64 sp d a b s = .next t' → Quiet s t' := by
  unfold execSar64
  exact issue_quiet _ _ _ _ _ (fun s => by simp [Quiet])

theorem execSeteq64_quiet (sp : Bool) (d a b : Reg) (s : State) {t' : State} : execSeteq64 sp d a b s = .next t' → Quiet s t' := by
  unfold execSeteq64
  exact issue_quiet _ _ _ _ _ (fun s => by simp [Quiet])

theorem execSetlt64S_quiet (sp : Bool) (d a b : Reg) (s : State) {t' : State} : execSetlt64S sp d a b s = .next t' → Quiet s t' := by
  unfold execSetlt64S
  exact issue_quiet _ _ _ _ _ (fun s => by simp [Quiet])

theorem execSetlt64N_quiet (sp : Bool) (d a b : Reg) (s : State) {t' : State} : execSetlt64N sp d a b s = .next t' → Quiet s t' := by
  unfold execSetlt64N
  exact issue_quiet _ _ _ _ _ (fun s => by simp [Quiet])

theorem execMad64N32_quiet (sp : Bool) (d a b : Reg) (s : State) {t' : State} : execMad64N32 sp d a b s = .next t' → Quiet s t' := by
  unfold execMad64N32
  exact issue_quiet _ _ _ _ _ (fun s => by simp [Quiet])

theorem execMad64S32_quiet (sp : Bool) (d a b : Reg) (s : State) {t' : State} : execMad64S32 sp d a b s = .next t' → Quiet s t' := by
  unfold execMad64S32
  exact issue_quiet _ _ _ _ _ (fun s => by simp [Quiet])

theorem execMov_quiet (sp : Bool) (d a : Reg) (s : State) {t' : State} : execMov sp d a s = .next t' → Quiet s t' := by
  unfold execMov
  exact issue_quiet _ _ _ _ _ (fun s => by simp [Quiet])

theorem execMov64_quiet (sp : Bool) (d a : Reg) (s : State) {t' : State} : execMov64 sp d a s = .next t' → Quiet s t' := by
  unfold execMov64
  exact issue_quiet _ _ _ _ _ (fun s => by simp [Quiet])

/-! ## Imm -/

theorem aluI_quiet (sp : Bool) (d a : Reg) (s : State) (f : Word → Word) {t' : State} : aluI sp d a s f = .next t' → Quiet s t' := by
  unfold aluI
  exact issue_quiet _ _ _ _ _ (fun s => by simp [Quiet])

theorem aluU_quiet (rd sp : Bool) (d : Reg) (s : State) (f : Word → Word → Word) {t' : State} : aluU rd sp d s f = .next t' → Quiet s t' := by
  unfold aluU
  exact issue_quiet _ _ _ _ _ (fun s => by simp [Quiet])

theorem execAddi_quiet (sp : Bool) (d a : Reg) (imm : BitVec 10) (s : State) {t' : State} : execAddi sp d a imm s = .next t' → Quiet s t' := by
  unfold execAddi
  exact issue_quiet _ _ _ _ _ (fun s => by simp [Quiet])

theorem execAndi_quiet (sp : Bool) (d a : Reg) (imm : BitVec 10) (s : State) {t' : State} : execAndi sp d a imm s = .next t' → Quiet s t' := by
  unfold execAndi
  exact issue_quiet _ _ _ _ _ (fun s => by simp [Quiet])

theorem execOri_quiet (sp : Bool) (d a : Reg) (imm : BitVec 10) (s : State) {t' : State} : execOri sp d a imm s = .next t' → Quiet s t' := by
  unfold execOri
  exact issue_quiet _ _ _ _ _ (fun s => by simp [Quiet])

theorem execXori_quiet (sp : Bool) (d a : Reg) (imm : BitVec 10) (s : State) {t' : State} : execXori sp d a imm s = .next t' → Quiet s t' := by
  unfold execXori
  exact issue_quiet _ _ _ _ _ (fun s => by simp [Quiet])

theorem execShli_quiet (sp : Bool) (d a : Reg) (imm : BitVec 5) (s : State) {t' : State} : execShli sp d a imm s = .next t' → Quiet s t' := by
  unfold execShli
  exact issue_quiet _ _ _ _ _ (fun s => by simp [Quiet])

theorem execShri_quiet (sp : Bool) (d a : Reg) (imm : BitVec 5) (s : State) {t' : State} : execShri sp d a imm s = .next t' → Quiet s t' := by
  unfold execShri
  exact issue_quiet _ _ _ _ _ (fun s => by simp [Quiet])

theorem execSari_quiet (sp : Bool) (d a : Reg) (imm : BitVec 5) (s : State) {t' : State} : execSari sp d a imm s = .next t' → Quiet s t' := by
  unfold execSari
  exact issue_quiet _ _ _ _ _ (fun s => by simp [Quiet])

theorem execSetltiS32_quiet (sp : Bool) (d a : Reg) (imm : BitVec 10) (s : State) {t' : State} : execSetltiS32 sp d a imm s = .next t' → Quiet s t' := by
  unfold execSetltiS32
  exact issue_quiet _ _ _ _ _ (fun s => by simp [Quiet])

theorem execLds_quiet (sp : Bool) (d : Reg) (imm : BitVec 18) (s : State) {t' : State} : execLds sp d imm s = .next t' → Quiet s t' := by
  unfold execLds
  exact issue_quiet _ _ _ _ _ (fun s => by simp [Quiet])

theorem execLdh_quiet (sp : Bool) (d : Reg) (imm : BitVec 18) (s : State) {t' : State} : execLdh sp d imm s = .next t' → Quiet s t' := by
  unfold execLdh
  exact issue_quiet _ _ _ _ _ (fun s => by simp [Quiet])

theorem execOrl_quiet (sp : Bool) (d : Reg) (imm : BitVec 18) (s : State) {t' : State} : execOrl sp d imm s = .next t' → Quiet s t' := by
  unfold execOrl
  exact issue_quiet _ _ _ _ _ (fun s => by simp [Quiet])

theorem execAddpc_quiet (sp : Bool) (d : Reg) (imm : BitVec 18) (s : State) {t' : State} : execAddpc sp d imm s = .next t' → Quiet s t' := by
  unfold execAddpc
  exact issue_quiet _ _ _ _ _ (fun s => by simp [Quiet])

/-! ## Flt -/

theorem flt3_quiet (sp : Bool) (d a b : Reg) (s : State) (f : BitVec 2 → Nat → Nat → FRes) {t' : State} : flt3 sp d a b s f = .next t' → Quiet s t' := by
  unfold flt3
  exact issue_quiet _ _ _ _ _ (fun s => by simp [Quiet])

theorem flt2_quiet (sp : Bool) (d a : Reg) (s : State) (f : BitVec 2 → Word → FRes) {t' : State} : flt2 sp d a s f = .next t' → Quiet s t' := by
  unfold flt2
  exact issue_quiet _ _ _ _ _ (fun s => by simp [Quiet])

theorem fltCmp_quiet (sp : Bool) (d a b : Reg) (s : State) (rel : FVal → FVal → Bool) (quiet : Bool) {t' : State} : fltCmp sp d a b s rel quiet = .next t' → Quiet s t' := by
  unfold fltCmp
  exact issue_quiet _ _ _ _ _ (fun s => by simp [Quiet])

theorem dbl3_quiet (rd sp : Bool) (d a b : Reg) (s : State) (f : BitVec 2 → Nat → Nat → Nat → FRes) {t' : State} : dbl3 rd sp d a b s f = .next t' → Quiet s t' := by
  unfold dbl3
  exact issue_quiet _ _ _ _ _ (fun s => by simp [Quiet])

theorem dbl2_quiet (sp : Bool) (d a : Reg) (s : State) (f : BitVec 2 → Nat → FRes) {t' : State} : dbl2 sp d a s f = .next t' → Quiet s t' := by
  unfold dbl2
  exact issue_quiet _ _ _ _ _ (fun s => by simp [Quiet])

theorem dblCmp_quiet (sp : Bool) (d a b : Reg) (s : State) (rel : FVal → FVal → Bool) (quiet : Bool) {t' : State} : dblCmp sp d a b s rel quiet = .next t' → Quiet s t' := by
  unfold dblCmp
  exact issue_quiet _ _ _ _ _ (fun s => by simp [Quiet])

theorem flt2x_quiet (rd sp : Bool) (d a b : Reg) (s : State) (f : BitVec 2 → Nat → Nat → Nat → FRes) {t' : State} : flt2x rd sp d a b s f = .next t' → Quiet s t' := by
  unfold flt2x
  exact issue_quiet _ _ _ _ _ (fun s => by simp [Quiet])

theorem execFadd_quiet (sp : Bool) (d a b : Reg) (s : State) {t' : State} : execFadd sp d a b s = .next t' → Quiet s t' := by
  unfold execFadd
  exact issue_quiet _ _ _ _ _ (fun s => by simp [Quiet])

theorem execFsub_quiet (sp : Bool) (d a b : Reg) (s : State) {t' : State} : execFsub sp d a b s = .next t' → Quiet s t' := by
  unfold execFsub
  exact issue_quiet _ _ _ _ _ (fun s => by simp [Quiet])

theorem execFmul_quiet (sp : Bool) (d a b : Reg) (s : State) {t' : State} : execFmul sp d a b s = .next t' → Quiet s t' := by
  unfold execFmul
  exact issue_quiet _ _ _ _ _ (fun s => by simp [Quiet])

theorem execFma_quiet (sp : Bool) (d a b : Reg) (s : State) {t' : State} : execFma sp d a b s = .next t' → Quiet s t' := by
  unfold execFma
  exact issue_quiet _ _ _ _ _ (fun s => by simp [Quiet])

theorem execFmin_quiet (sp : Bool) (d a b : Reg) (s : State) {t' : State} : execFmin sp d a b s = .next t' → Quiet s t' := by
  unfold execFmin
  exact issue_quiet _ _ _ _ _ (fun s => by simp [Quiet])

theorem execFmax_quiet (sp : Bool) (d a b : Reg) (s : State) {t' : State} : execFmax sp d a b s = .next t' → Quiet s t' := by
  unfold execFmax
  exact issue_quiet _ _ _ _ _ (fun s => by simp [Quiet])

theorem execFdiv_quiet (sp : Bool) (d a b : Reg) (s : State) {t' : State} : execFdiv sp d a b s = .next t' → Quiet s t' := by
  unfold execFdiv
  exact issue_quiet _ _ _ _ _ (fun s => by simp [Quiet])

theorem execFsqrt_quiet (sp : Bool) (d a : Reg) (s : State) {t' : State} : execFsqrt sp d a s = .next t' → Quiet s t' := by
  unfold execFsqrt
  exact issue_quiet _ _ _ _ _ (fun s => by simp [Quiet])

theorem execFrcp_quiet (sp : Bool) (d a : Reg) (s : State) {t' : State} : execFrcp sp d a s = .next t' → Quiet s t' := by
  unfold execFrcp
  exact issue_quiet _ _ _ _ _ (fun s => by simp [Quiet])

theorem execFrsq_quiet (sp : Bool) (d a : Reg) (s : State) {t' : State} : execFrsq sp d a s = .next t' → Quiet s t' := by
  unfold execFrsq
  exact issue_quiet _ _ _ _ _ (fun s => by simp [Quiet])

theorem execFexp2_quiet (sp : Bool) (d a : Reg) (s : State) {t' : State} : execFexp2 sp d a s = .next t' → Quiet s t' := by
  unfold execFexp2
  exact issue_quiet _ _ _ _ _ (fun s => by simp [Quiet])

theorem execFlog2_quiet (sp : Bool) (d a : Reg) (s : State) {t' : State} : execFlog2 sp d a s = .next t' → Quiet s t' := by
  unfold execFlog2
  exact issue_quiet _ _ _ _ _ (fun s => by simp [Quiet])

theorem execFabs_quiet (sp : Bool) (d a : Reg) (s : State) {t' : State} : execFabs sp d a s = .next t' → Quiet s t' := by
  unfold execFabs
  exact issue_quiet _ _ _ _ _ (fun s => by simp [Quiet])

theorem execFneg_quiet (sp : Bool) (d a : Reg) (s : State) {t' : State} : execFneg sp d a s = .next t' → Quiet s t' := by
  unfold execFneg
  exact issue_quiet _ _ _ _ _ (fun s => by simp [Quiet])

theorem execFrint_quiet (sp : Bool) (d a : Reg) (s : State) {t' : State} : execFrint sp d a s = .next t' → Quiet s t' := by
  unfold execFrint
  exact issue_quiet _ _ _ _ _ (fun s => by simp [Quiet])

theorem execFclass_quiet (sp : Bool) (d a : Reg) (s : State) {t' : State} : execFclass sp d a s = .next t' → Quiet s t' := by
  unfold execFclass
  exact issue_quiet _ _ _ _ _ (fun s => by simp [Quiet])

theorem execFseteq_quiet (sp : Bool) (d a b : Reg) (s : State) {t' : State} : execFseteq sp d a b s = .next t' → Quiet s t' := by
  unfold execFseteq
  exact issue_quiet _ _ _ _ _ (fun s => by simp [Quiet])

theorem execFsetlt_quiet (sp : Bool) (d a b : Reg) (s : State) {t' : State} : execFsetlt sp d a b s = .next t' → Quiet s t' := by
  unfold execFsetlt
  exact issue_quiet _ _ _ _ _ (fun s => by simp [Quiet])

theorem execFsetle_quiet (sp : Bool) (d a b : Reg) (s : State) {t' : State} : execFsetle sp d a b s = .next t' → Quiet s t' := by
  unfold execFsetle
  exact issue_quiet _ _ _ _ _ (fun s => by simp [Quiet])

theorem execFsetun_quiet (sp : Bool) (d a b : Reg) (s : State) {t' : State} : execFsetun sp d a b s = .next t' → Quiet s t' := by
  unfold execFsetun
  exact issue_quiet _ _ _ _ _ (fun s => by simp [Quiet])

theorem execDadd_quiet (sp : Bool) (d a b : Reg) (s : State) {t' : State} : execDadd sp d a b s = .next t' → Quiet s t' := by
  unfold execDadd
  exact issue_quiet _ _ _ _ _ (fun s => by simp [Quiet])

theorem execDsub_quiet (sp : Bool) (d a b : Reg) (s : State) {t' : State} : execDsub sp d a b s = .next t' → Quiet s t' := by
  unfold execDsub
  exact issue_quiet _ _ _ _ _ (fun s => by simp [Quiet])

theorem execDmul_quiet (sp : Bool) (d a b : Reg) (s : State) {t' : State} : execDmul sp d a b s = .next t' → Quiet s t' := by
  unfold execDmul
  exact issue_quiet _ _ _ _ _ (fun s => by simp [Quiet])

theorem execDfma_quiet (sp : Bool) (d a b : Reg) (s : State) {t' : State} : execDfma sp d a b s = .next t' → Quiet s t' := by
  unfold execDfma
  exact issue_quiet _ _ _ _ _ (fun s => by simp [Quiet])

theorem execDmin_quiet (sp : Bool) (d a b : Reg) (s : State) {t' : State} : execDmin sp d a b s = .next t' → Quiet s t' := by
  unfold execDmin
  exact issue_quiet _ _ _ _ _ (fun s => by simp [Quiet])

theorem execDmax_quiet (sp : Bool) (d a b : Reg) (s : State) {t' : State} : execDmax sp d a b s = .next t' → Quiet s t' := by
  unfold execDmax
  exact issue_quiet _ _ _ _ _ (fun s => by simp [Quiet])

theorem execDdiv_quiet (sp : Bool) (d a b : Reg) (s : State) {t' : State} : execDdiv sp d a b s = .next t' → Quiet s t' := by
  unfold execDdiv
  exact issue_quiet _ _ _ _ _ (fun s => by simp [Quiet])

theorem execDsqrt_quiet (sp : Bool) (d a : Reg) (s : State) {t' : State} : execDsqrt sp d a s = .next t' → Quiet s t' := by
  unfold execDsqrt
  exact issue_quiet _ _ _ _ _ (fun s => by simp [Quiet])

theorem execDrint_quiet (sp : Bool) (d a : Reg) (s : State) {t' : State} : execDrint sp d a s = .next t' → Quiet s t' := by
  unfold execDrint
  exact issue_quiet _ _ _ _ _ (fun s => by simp [Quiet])

theorem execDseteq_quiet (sp : Bool) (d a b : Reg) (s : State) {t' : State} : execDseteq sp d a b s = .next t' → Quiet s t' := by
  unfold execDseteq
  exact issue_quiet _ _ _ _ _ (fun s => by simp [Quiet])

theorem execDsetlt_quiet (sp : Bool) (d a b : Reg) (s : State) {t' : State} : execDsetlt sp d a b s = .next t' → Quiet s t' := by
  unfold execDsetlt
  exact issue_quiet _ _ _ _ _ (fun s => by simp [Quiet])

theorem execDsetle_quiet (sp : Bool) (d a b : Reg) (s : State) {t' : State} : execDsetle sp d a b s = .next t' → Quiet s t' := by
  unfold execDsetle
  exact issue_quiet _ _ _ _ _ (fun s => by simp [Quiet])

theorem execHadd2_quiet (sp : Bool) (d a b : Reg) (s : State) {t' : State} : execHadd2 sp d a b s = .next t' → Quiet s t' := by
  unfold execHadd2
  exact issue_quiet _ _ _ _ _ (fun s => by simp [Quiet])

theorem execHmul2_quiet (sp : Bool) (d a b : Reg) (s : State) {t' : State} : execHmul2 sp d a b s = .next t' → Quiet s t' := by
  unfold execHmul2
  exact issue_quiet _ _ _ _ _ (fun s => by simp [Quiet])

theorem execHfma2_quiet (sp : Bool) (d a b : Reg) (s : State) {t' : State} : execHfma2 sp d a b s = .next t' → Quiet s t' := by
  unfold execHfma2
  exact issue_quiet _ _ _ _ _ (fun s => by simp [Quiet])

theorem execBadd2_quiet (sp : Bool) (d a b : Reg) (s : State) {t' : State} : execBadd2 sp d a b s = .next t' → Quiet s t' := by
  unfold execBadd2
  exact issue_quiet _ _ _ _ _ (fun s => by simp [Quiet])

theorem execBmul2_quiet (sp : Bool) (d a b : Reg) (s : State) {t' : State} : execBmul2 sp d a b s = .next t' → Quiet s t' := by
  unfold execBmul2
  exact issue_quiet _ _ _ _ _ (fun s => by simp [Quiet])

theorem execBfma2_quiet (sp : Bool) (d a b : Reg) (s : State) {t' : State} : execBfma2 sp d a b s = .next t' → Quiet s t' := by
  unfold execBfma2
  exact issue_quiet _ _ _ _ _ (fun s => by simp [Quiet])

/-! ## Cvt -/

theorem cvt_quiet (sp : Bool) (d a : Reg) (dw aw : Nat) (s : State) (f : BitVec 2 → Nat → List Word × BitVec 5) {t' : State} : cvt sp d a dw aw s f = .next t' → Quiet s t' := by
  unfold cvt
  exact issue_quiet _ _ _ _ _ (fun s => by simp [Quiet])

theorem execCvtF32S32_quiet (sp : Bool) (d a : Reg) (s : State) {t' : State} : execCvtF32S32 sp d a s = .next t' → Quiet s t' := by
  unfold execCvtF32S32
  exact issue_quiet _ _ _ _ _ (fun s => by simp [Quiet])

theorem execCvtF32N32_quiet (sp : Bool) (d a : Reg) (s : State) {t' : State} : execCvtF32N32 sp d a s = .next t' → Quiet s t' := by
  unfold execCvtF32N32
  exact issue_quiet _ _ _ _ _ (fun s => by simp [Quiet])

theorem execCvtS32F32_quiet (sp : Bool) (d a : Reg) (s : State) {t' : State} : execCvtS32F32 sp d a s = .next t' → Quiet s t' := by
  unfold execCvtS32F32
  exact issue_quiet _ _ _ _ _ (fun s => by simp [Quiet])

theorem execCvtN32F32_quiet (sp : Bool) (d a : Reg) (s : State) {t' : State} : execCvtN32F32 sp d a s = .next t' → Quiet s t' := by
  unfold execCvtN32F32
  exact issue_quiet _ _ _ _ _ (fun s => by simp [Quiet])

theorem execCvtF64F32_quiet (sp : Bool) (d a : Reg) (s : State) {t' : State} : execCvtF64F32 sp d a s = .next t' → Quiet s t' := by
  unfold execCvtF64F32
  exact issue_quiet _ _ _ _ _ (fun s => by simp [Quiet])

theorem execCvtF32F64_quiet (sp : Bool) (d a : Reg) (s : State) {t' : State} : execCvtF32F64 sp d a s = .next t' → Quiet s t' := by
  unfold execCvtF32F64
  exact issue_quiet _ _ _ _ _ (fun s => by simp [Quiet])

theorem execCvtF64S32_quiet (sp : Bool) (d a : Reg) (s : State) {t' : State} : execCvtF64S32 sp d a s = .next t' → Quiet s t' := by
  unfold execCvtF64S32
  exact issue_quiet _ _ _ _ _ (fun s => by simp [Quiet])

theorem execCvtS32F64_quiet (sp : Bool) (d a : Reg) (s : State) {t' : State} : execCvtS32F64 sp d a s = .next t' → Quiet s t' := by
  unfold execCvtS32F64
  exact issue_quiet _ _ _ _ _ (fun s => by simp [Quiet])

theorem execCvtF64S64_quiet (sp : Bool) (d a : Reg) (s : State) {t' : State} : execCvtF64S64 sp d a s = .next t' → Quiet s t' := by
  unfold execCvtF64S64
  exact issue_quiet _ _ _ _ _ (fun s => by simp [Quiet])

theorem execCvtS64F64_quiet (sp : Bool) (d a : Reg) (s : State) {t' : State} : execCvtS64F64 sp d a s = .next t' → Quiet s t' := by
  unfold execCvtS64F64
  exact issue_quiet _ _ _ _ _ (fun s => by simp [Quiet])

theorem execCvtF64N64_quiet (sp : Bool) (d a : Reg) (s : State) {t' : State} : execCvtF64N64 sp d a s = .next t' → Quiet s t' := by
  unfold execCvtF64N64
  exact issue_quiet _ _ _ _ _ (fun s => by simp [Quiet])

theorem execCvtN64F64_quiet (sp : Bool) (d a : Reg) (s : State) {t' : State} : execCvtN64F64 sp d a s = .next t' → Quiet s t' := by
  unfold execCvtN64F64
  exact issue_quiet _ _ _ _ _ (fun s => by simp [Quiet])

theorem pack_quiet (f : Fmt) (sp : Bool) (d a b : Reg) (s : State) {t' : State} : pack f sp d a b s = .next t' → Quiet s t' := by
  unfold pack
  exact issue_quiet _ _ _ _ _ (fun s => by simp [Quiet])

theorem unpack_quiet (f : Fmt) (sp : Bool) (d a : Reg) (s : State) {t' : State} : unpack f sp d a s = .next t' → Quiet s t' := by
  unfold unpack
  exact issue_quiet _ _ _ _ _ (fun s => by simp [Quiet])

theorem execPackF16_quiet (sp : Bool) (d a b : Reg) (s : State) {t' : State} : execPackF16 sp d a b s = .next t' → Quiet s t' := by
  unfold execPackF16
  exact issue_quiet _ _ _ _ _ (fun s => by simp [Quiet])

theorem execPackBf16_quiet (sp : Bool) (d a b : Reg) (s : State) {t' : State} : execPackBf16 sp d a b s = .next t' → Quiet s t' := by
  unfold execPackBf16
  exact issue_quiet _ _ _ _ _ (fun s => by simp [Quiet])

theorem execUnpkF16_quiet (sp : Bool) (d a : Reg) (s : State) {t' : State} : execUnpkF16 sp d a s = .next t' → Quiet s t' := by
  unfold execUnpkF16
  exact issue_quiet _ _ _ _ _ (fun s => by simp [Quiet])

theorem execUnpkBf16_quiet (sp : Bool) (d a : Reg) (s : State) {t' : State} : execUnpkBf16 sp d a s = .next t' → Quiet s t' := by
  unfold execUnpkBf16
  exact issue_quiet _ _ _ _ _ (fun s => by simp [Quiet])

theorem execSext8_quiet (sp : Bool) (d a : Reg) (s : State) {t' : State} : execSext8 sp d a s = .next t' → Quiet s t' := by
  unfold execSext8
  exact issue_quiet _ _ _ _ _ (fun s => by simp [Quiet])

theorem execSext16_quiet (sp : Bool) (d a : Reg) (s : State) {t' : State} : execSext16 sp d a s = .next t' → Quiet s t' := by
  unfold execSext16
  exact issue_quiet _ _ _ _ _ (fun s => by simp [Quiet])

theorem execQntN8_quiet (sp : Bool) (d a b : Reg) (s : State) {t' : State} : execQntN8 sp d a b s = .next t' → Quiet s t' := by
  unfold execQntN8
  exact issue_quiet _ _ _ _ _ (fun s => by simp [Quiet])

theorem execDqntN8_quiet (sp : Bool) (d a b : Reg) (s : State) {t' : State} : execDqntN8 sp d a b s = .next t' → Quiet s t' := by
  unfold execDqntN8
  exact issue_quiet _ _ _ _ _ (fun s => by simp [Quiet])

/-! ## Par -/

theorem execMeet_quiet (sp : Bool) (a : Reg) (s : State) {t' : State} : execMeet sp a s = .next t' → Quiet s t' := by
  unfold execMeet
  exact issue_quiet _ _ _ _ _ (fun s => by simp [Quiet])

theorem execMeetq_quiet (sp : Bool) (d : Reg) (s : State) {t' : State} : execMeetq sp d s = .next t' → Quiet s t' := by
  unfold execMeetq
  exact issue_quiet _ _ _ _ _ (fun s => by simp [Quiet])

theorem crewWord_quiet (sp : Bool) (ops : List Opnd) (d a : Reg) (s : State) (f : List (Option Word) → Thread → Word × BitVec 5) {t' : State} : crewWord sp ops d a s f = .next t' → Quiet s t' := by
  unfold crewWord
  refine issue_quiet _ _ _ _ _ (fun s => ?_)
  grind [crewWord, State.converge_quiet, State.convergeAll_quiet]

theorem execCshfl_quiet (sp : Bool) (d a b : Reg) (s : State) {t' : State} : execCshfl sp d a b s = .next t' → Quiet s t' := by
  grind [execCshfl, crewWord_quiet]

theorem execCshflx_quiet (sp : Bool) (d a b : Reg) (s : State) {t' : State} : execCshflx sp d a b s = .next t' → Quiet s t' := by
  grind [execCshflx, crewWord_quiet]

theorem execCup_quiet (sp : Bool) (d a b : Reg) (s : State) {t' : State} : execCup sp d a b s = .next t' → Quiet s t' := by
  grind [execCup, crewWord_quiet]

theorem execCdn_quiet (sp : Bool) (d a b : Reg) (s : State) {t' : State} : execCdn sp d a b s = .next t' → Quiet s t' := by
  grind [execCdn, crewWord_quiet]

theorem execCbcast_quiet (sp : Bool) (d a b : Reg) (s : State) {t' : State} : execCbcast sp d a b s = .next t' → Quiet s t' := by
  unfold execCbcast
  refine issue_quiet _ _ _ _ _ (fun s => ?_)
  grind [execCbcast, State.converge_quiet, State.convergeAll_quiet]

theorem execCvany_quiet (sp : Bool) (d a : Reg) (s : State) {t' : State} : execCvany sp d a s = .next t' → Quiet s t' := by
  grind [execCvany, crewWord_quiet]

theorem execCvall_quiet (sp : Bool) (d a : Reg) (s : State) {t' : State} : execCvall sp d a s = .next t' → Quiet s t' := by
  grind [execCvall, crewWord_quiet]

theorem execCballot_quiet (sp : Bool) (d a : Reg) (s : State) {t' : State} : execCballot sp d a s = .next t' → Quiet s t' := by
  grind [execCballot, crewWord_quiet]

theorem execCradd_quiet (sp : Bool) (d a : Reg) (s : State) {t' : State} : execCradd sp d a s = .next t' → Quiet s t' := by
  grind [execCradd, crewWord_quiet]

theorem execCrminS32_quiet (sp : Bool) (d a : Reg) (s : State) {t' : State} : execCrminS32 sp d a s = .next t' → Quiet s t' := by
  grind [execCrminS32, crewWord_quiet]

theorem execCrmaxS32_quiet (sp : Bool) (d a : Reg) (s : State) {t' : State} : execCrmaxS32 sp d a s = .next t' → Quiet s t' := by
  grind [execCrmaxS32, crewWord_quiet]

theorem execCscan_quiet (sp : Bool) (d a : Reg) (s : State) {t' : State} : execCscan sp d a s = .next t' → Quiet s t' := by
  grind [execCscan, crewWord_quiet]

theorem execCrfadd_quiet (sp : Bool) (d a : Reg) (s : State) {t' : State} : execCrfadd sp d a s = .next t' → Quiet s t' := by
  grind [execCrfadd, crewWord_quiet]

theorem execCscanf_quiet (sp : Bool) (d a : Reg) (s : State) {t' : State} : execCscanf sp d a s = .next t' → Quiet s t' := by
  grind [execCscanf, crewWord_quiet]

theorem scratchLoad_tame (n w : Nat) (sp : Bool) (d a : Reg) (s : State) {t' : State} : scratchLoad n w sp d a s = .next t' → Tame s t' := by
  unfold scratchLoad
  refine issue_tame _ _ _ _ _ (fun s => ?_)
  grind [scratchLoad, State.loadThread_tame]

theorem scratchStore_tame (n w : Nat) (sp : Bool) (d a : Reg) (s : State) {t' : State} : scratchStore n w sp d a s = .next t' → Tame s t' := by
  unfold scratchStore
  refine issue_tame _ _ _ _ _ (fun s => ?_)
  grind [scratchStore, State.storeThread_tame]

theorem execSld32_tame (sp : Bool) (d a : Reg) (s : State) {t' : State} : execSld32 sp d a s = .next t' → Tame s t' := by
  grind [execSld32, scratchLoad_tame]

theorem execSst32_tame (sp : Bool) (d a : Reg) (s : State) {t' : State} : execSst32 sp d a s = .next t' → Tame s t' := by
  grind [execSst32, scratchStore_tame]

theorem execSld64_tame (sp : Bool) (d a : Reg) (s : State) {t' : State} : execSld64 sp d a s = .next t' → Tame s t' := by
  grind [execSld64, scratchLoad_tame]

theorem execSst64_tame (sp : Bool) (d a : Reg) (s : State) {t' : State} : execSst64 sp d a s = .next t' → Tame s t' := by
  grind [execSst64, scratchStore_tame]

theorem execQld32_tame (sp : Bool) (d a : Reg) (s : State) {t' : State} : execQld32 sp d a s = .next t' → Tame s t' := by
  unfold execQld32
  refine issue_tame _ _ _ _ _ (fun s => ?_)
  dsimp only
  (repeat' split) <;> simp_all [Tame]

theorem execQst32_tame (sp : Bool) (d a : Reg) (s : State) {t' : State} : execQst32 sp d a s = .next t' → Tame s t' := by
  unfold execQst32
  refine issue_tame _ _ _ _ _ (fun s => ?_)
  dsimp only
  (repeat' split) <;> simp_all [Tame]

@[simp] theorem State.setLease_quiet (s : State) (lease : Nat → Nat → Nat) (measured : Bool) (a : Reg) : Quiet s (s.setLease lease measured a) := by
  dsimp only [State.setLease]
  (repeat' split) <;> simp_all [Quiet]

theorem execLease_quiet (sp : Bool) (a : Reg) (s : State) {t' : State} : execLease sp a s = .next t' → Quiet s t' := by
  unfold execLease
  refine issue_quiet _ _ _ _ _ (fun s => ?_)
  grind [execLease, State.converge_quiet, State.setLease_quiet, State.convergeAll_quiet]

theorem execLeasem_quiet (sp : Bool) (a : Reg) (s : State) {t' : State} : execLeasem sp a s = .next t' → Quiet s t' := by
  unfold execLeasem
  refine issue_quiet _ _ _ _ _ (fun s => ?_)
  grind [execLeasem, State.converge_quiet, State.setLease_quiet, State.convergeAll_quiet]

theorem execWork_quiet (sp : Bool) (d : Reg) (s : State) {t' : State} : execWork sp d s = .next t' → Quiet s t' := by
  unfold execWork
  exact issue_quiet _ _ _ _ _ (fun s => by simp [Quiet])

theorem execSteal_quiet (sp : Bool) (d : Reg) (s : State) {t' : State} : execSteal sp d s = .next t' → Quiet s t' := by
  unfold execSteal
  exact issue_quiet _ _ _ _ _ (fun s => by simp [Quiet])

theorem execExit_tame (_sp : Bool) (s : State) {t' : State} : execExit _sp s = .next t' → Tame s t' := by
  unfold execExit
  refine issue_tame _ _ _ _ _ (fun s => ?_)
  grind [execExit, State.endThread_tame]

end Sys2Proof.Machine
end

