-- ==== Sys2Proof/Laws/KeepSync.lean ====
section
/-! SUPPORT. What the operations of Atomic, Sync, Sys, EngineIo leave of the clocks and of memory. -/

namespace Sys2Proof.Machine

/-! ## Atomic -/

@[simp] theorem State.atomPlace_tame (s : State) (ea : DWord) (n : Nat) (k : AccKind) (hostOk global : Bool) (det : Nat) :
    Tame s (s.atomPlace ea n k hostOk global det).st := by
  have scr (team off : Nat) : Tame s (
      if global then AtomPlace.stop (s.raise 0x06 1 ea)
      else if s.hatched s.cur.id.launch team off n k.writes then .stop (s.parkCur (.stalled 5))
      else if s.unorderedScr team off n then .stop (s.parkCur (.stalled 15))
      else match s.stashReady s.cur.id.launch team off n with
        | .wait s => .stop (s.parkCur (.stalled 15))
        | .ok s _ => .ok (s.bankAccess team off n) (.scr team off)).st := by
    split
    · simp [Tame]
    split
    · simp [Tame]
    split
    · simp [Tame]
    split
    · exact (State.stashReady_wait_tame (by assumption)).trans (by simp [Tame])
    · exact (State.stashReady_ok_tame (by assumption)).trans (by simp [Tame])
  unfold State.atomPlace
  dsimp only
  split
  · simp [Tame]
  split
  · simp [Tame]
  · exact scr _ _
  · exact scr _ _
  · split
    · exact (State.checkGlobal_stop_quiet _ _ _ _ _ _ _ (by assumption)).tame
    · split <;> simp [Tame]

theorem State.atomPlace_ok_tame (s : State) (ea : DWord) (n : Nat) (k : AccKind) (hostOk global : Bool) (det : Nat) {t'} {v0}
    (h' : s.atomPlace ea n k hostOk global det = .ok t' v0) : Tame s t' := by
  simpa [h'] using State.atomPlace_tame s ea n k hostOk global det

theorem State.atomPlace_stop_tame (s : State) (ea : DWord) (n : Nat) (k : AccKind) (hostOk global : Bool) (det : Nat) {t'} 
    (h' : s.atomPlace ea n k hostOk global det = .stop t' ) : Tame s t' := by
  simpa [h'] using State.atomPlace_tame s ea n k hostOk global det

theorem atom_tame (op : AtomOp) (w wb : Nat) (sp : Bool) (sc : BitVec 2) (d a b : Reg) (s : State) {t' : State} : atom op w wb sp sc d a b s = .next t' → Tame s t' := by
  unfold atom
  refine issue_tame _ _ _ _ _ (fun s => ?_)
  dsimp only
  split
  · exact State.atomPlace_stop_tame _ _ _ _ _ _ _ (by assumption)
  refine (State.atomPlace_ok_tame _ _ _ _ _ _ _ (by assumption)).trans ?_
  split
  · simp [Tame]
  split
  · split
    · exact (State.route_wait_tame _ _ _ (by assumption)).trans (by simp [Tame])
    · exact (State.route_stash_tame _ _ _ (by assumption)).trans (by split <;> simp [Tame])
    · exact (State.route_mem_tame _ _ _ (by assumption)).trans (by simp [Tame])
  · simp +contextual [Tame]

theorem execAadd_tame (sp : Bool) (sc : BitVec 2) (d a b : Reg) (s : State) {t' : State} : execAadd sp sc d a b s = .next t' → Tame s t' := by
  grind [execAadd, atom_tame]

theorem execAadd64_tame (sp : Bool) (sc : BitVec 2) (d a b : Reg) (s : State) {t' : State} : execAadd64 sp sc d a b s = .next t' → Tame s t' := by
  grind [execAadd64, atom_tame]

theorem execAminS32_tame (sp : Bool) (sc : BitVec 2) (d a b : Reg) (s : State) {t' : State} : execAminS32 sp sc d a b s = .next t' → Tame s t' := by
  grind [execAminS32, atom_tame]

theorem execAminN32_tame (sp : Bool) (sc : BitVec 2) (d a b : Reg) (s : State) {t' : State} : execAminN32 sp sc d a b s = .next t' → Tame s t' := by
  grind [execAminN32, atom_tame]

theorem execAmaxS32_tame (sp : Bool) (sc : BitVec 2) (d a b : Reg) (s : State) {t' : State} : execAmaxS32 sp sc d a b s = .next t' → Tame s t' := by
  grind [execAmaxS32, atom_tame]

theorem execAmaxN32_tame (sp : Bool) (sc : BitVec 2) (d a b : Reg) (s : State) {t' : State} : execAmaxN32 sp sc d a b s = .next t' → Tame s t' := by
  grind [execAmaxN32, atom_tame]

theorem execAand_tame (sp : Bool) (sc : BitVec 2) (d a b : Reg) (s : State) {t' : State} : execAand sp sc d a b s = .next t' → Tame s t' := by
  grind [execAand, atom_tame]

theorem execAor_tame (sp : Bool) (sc : BitVec 2) (d a b : Reg) (s : State) {t' : State} : execAor sp sc d a b s = .next t' → Tame s t' := by
  grind [execAor, atom_tame]

theorem execAxor_tame (sp : Bool) (sc : BitVec 2) (d a b : Reg) (s : State) {t' : State} : execAxor sp sc d a b s = .next t' → Tame s t' := by
  grind [execAxor, atom_tame]

theorem execAxchg_tame (sp : Bool) (sc : BitVec 2) (d a b : Reg) (s : State) {t' : State} : execAxchg sp sc d a b s = .next t' → Tame s t' := by
  grind [execAxchg, atom_tame]

theorem execAxchg64_tame (sp : Bool) (sc : BitVec 2) (d a b : Reg) (s : State) {t' : State} : execAxchg64 sp sc d a b s = .next t' → Tame s t' := by
  grind [execAxchg64, atom_tame]

theorem execAcas_tame (sp : Bool) (sc : BitVec 2) (d a b : Reg) (s : State) {t' : State} : execAcas sp sc d a b s = .next t' → Tame s t' := by
  grind [execAcas, atom_tame]

theorem execAcas64_tame (sp : Bool) (sc : BitVec 2) (d a b : Reg) (s : State) {t' : State} : execAcas64 sp sc d a b s = .next t' → Tame s t' := by
  grind [execAcas64, atom_tame]

theorem execAfadd_tame (sp : Bool) (sc : BitVec 2) (d a b : Reg) (s : State) {t' : State} : execAfadd sp sc d a b s = .next t' → Tame s t' := by
  grind [execAfadd, atom_tame]

theorem execAfadd64_tame (sp : Bool) (sc : BitVec 2) (d a b : Reg) (s : State) {t' : State} : execAfadd64 sp sc d a b s = .next t' → Tame s t' := by
  grind [execAfadd64, atom_tame]

theorem execAincw_tame (sp : Bool) (sc : BitVec 2) (d a b : Reg) (s : State) {t' : State} : execAincw sp sc d a b s = .next t' → Tame s t' := by
  grind [execAincw, atom_tame]

@[simp] theorem State.dropReq_quiet (s : State) (id : Nat) : Quiet s (s.dropReq id) := by simp [Quiet, State.dropReq]

@[simp] theorem State.homePerform_tame (s : State) (r : Request) (g : GAddr) (n : Nat) (new : Option (List Byte)) : Tame s (s.homePerform r g n new) := by
  dsimp only [State.homePerform]
  (repeat' split) <;> simp_all [Tame]

@[simp] theorem State.atomFindL1_tame (s : State) (r : Request) (g : GAddr) (n : Nat) : Tame s (s.atomFindL1 r g n).st := by
  unfold State.atomFindL1
  dsimp only
  split
  · exact Tame.trans (State.touchLine_quiet ..).tame (Tame.trans (State.l1Alloc_tame ..) (State.consumeL1_quiet ..).tame)
  · split
    · exact State.stashFlush_tame ..
    · rename_i bs hw
      have h := (State.stashFlush_tame ..).trans ((State.touchLine_quiet ..).tame.trans ((State.wholeLine_tame _ _ _ hw).trans
        ((State.consumeAt_quiet _ g.vf r.core g.pa n).tame.trans (State.l1Fill_tame _ r.core g (crewOf r.t) (numbered bs)))))
      split
      · exact h
      · exact State.stashFlush_tame ..

@[simp] theorem State.atomFind_tame (s : State) (r : Request) (l1 : Bool) (scope n : Nat) (pl : Place) :
    Tame s (s.atomFind r l1 scope n pl).st := by
  cases pl with
  | scr t off => exact Tried.andThen_tame (State.stashTouch_tame ..) (fun s _ => (State.consumeScratch_quiet ..).tame)
  | glob g =>
    unfold State.atomFind
    dsimp only
    split
    · split
      · exact State.stashFlush_tame ..
      · simp [Tame]
    split
    · split
      · exact (State.consumeScratch_quiet ..).tame
      · exact State.atomFindL1_tame ..
    · split
      · exact State.stashFlush_tame ..
      · rename_i hw
        exact (State.stashFlush_tame ..).trans ((State.wholeLine_tame _ _ _ hw).trans (State.consumeAt_quiet ..).tame)

@[simp] theorem State.atomWrite_tame (s : State) (r : Request) (l1 : Bool) (scope : Nat) (bs : List Byte) (x0 : Place) : Tame s (s.atomWrite r l1 scope bs x0) := by
  dsimp only [State.atomWrite]
  (repeat' split) <;> simp_all [Tame]

@[simp] theorem State.atomAct_tame (s : State) (r : Request) (op : AtomOp) (l1 : Bool) (scope : Nat) (pl : Place) (b c : DWord) :
    Tame s (s.atomAct r op l1 scope pl b c).st :=
  Tried.andThen_tame (State.atomFind_tame ..) (fun _ _ => State.atomWrite_tame ..)

theorem execAtomicPerform_tame (req : Nat) (s : State) {t' : State} (h : execAtomicPerform req s = .next t') :
    Tame s t' := by
  unfold execAtomicPerform at h
  split at h
  · cases h; simp [Tame]
  split at h
  · split at h
    · cases h; exact Tried.eq_tame (State.atomAct_tame ..) (by assumption)
    · cases h
      exact (Tried.eq_tame (State.atomAct_tame ..) (by assumption)).trans (by simp [Tame])
  · split at h
    · cases h; exact Tried.eq_tame (State.atomAct_tame ..) (by assumption)
    · cases h
      exact (Tried.eq_tame (State.atomAct_tame ..) (by assumption)).trans (by simp [Tame])
  · cases h; simp [Tame]

/-! ## Sync -/

theorem execFence_tame (sp : Bool) (kind : BitVec 2) (sc : BitVec 3) (s : State) {t' : State} : execFence sp kind sc s = .next t' → Tame s t' := by
  unfold execFence
  refine issue_tame _ _ _ _ _ (fun s => ?_)
  dsimp only
  (repeat' split) <;> simp_all [Tame]

@[simp] theorem State.scStamp_quiet (s : State) : Quiet s s.scStamp.1 := by simp [Quiet, State.scStamp]

@[simp] theorem State.scIssue_tame (s : State) (f : Nat) (g : GAddr) (b c : Word) (dst : Option Reg) : Tame s (s.scIssue f g b c dst) := by
  dsimp only [State.scIssue]
  (repeat' split) <;> simp_all [Tame]

@[simp] theorem State.scWord_tame (s : State) (f : Nat) (ea : DWord) (b c : Word) (dst : Option Reg) (k : AccKind) (rel : Bool) : Tame s (s.scWord f ea b c dst k rel) := by
  grind [State.scWord, State.scIssue_tame, State.atomPlace_tame, State.atomPlace_ok_tame, State.atomPlace_stop_tame, State.parkCur_quiet, State.releaseActs_tame]

theorem execLdsc_tame (sp : Bool) (d a : Reg) (s : State) {t' : State} : execLdsc sp d a s = .next t' → Tame s t' := by
  unfold execLdsc
  refine issue_tame _ _ _ _ _ (fun s => ?_)
  grind [execLdsc, State.scWord_tame]

theorem execStsc_tame (sp : Bool) (a b : Reg) (s : State) {t' : State} : execStsc sp a b s = .next t' → Tame s t' := by
  unfold execStsc
  refine issue_tame _ _ _ _ _ (fun s => ?_)
  grind [execStsc, State.scWord_tame]

theorem execCassc_tame (sp : Bool) (d a b : Reg) (s : State) {t' : State} : execCassc sp d a b s = .next t' → Tame s t' := by
  unfold execCassc
  refine issue_tame _ _ _ _ _ (fun s => ?_)
  grind [execCassc, State.scWord_tame]

theorem execScClockPublish_quiet (k : CoreId) (s : State) {t' : State} : execScClockPublish k s = .next t' → Quiet s t' := by
  grind [execScClockPublish, State.setCore_quiet]

theorem execScAccessPerform_tame (req : Nat) (s : State) {t' : State} : execScAccessPerform req s = .next t' → Tame s t' := by
  grind [execScAccessPerform, State.homePerform_tame, State.setCore_quiet, State.dropReq_quiet, State.stashFlush_tame]

@[simp] theorem State.watchRead_tame (s : State) (t : Thread) (w : Watch) : Tame s (s.watchRead t w).st := by
  unfold State.watchRead
  dsimp only
  split
  · split
    · simp [Tame]
    · exact Tried.andThen_tame (State.stashTouch_tame ..) (fun s _ => (State.consumeScratch_quiet ..).tame)
  · split
    · simp [Tame]
    · dsimp only [Tried.st]
      split <;> simp +contextual [Tame]

@[simp] theorem State.watchStep_tame (s : State) (id : ThreadId) : Tame s (s.watchStep id) := by
  unfold State.watchStep
  split
  · simp [Tame]
  split
  · simp [Tame]
  split
  · exact Tried.eq_tame (State.watchRead_tame ..) (by assumption)
  · refine (Tried.eq_tame (State.watchRead_tame ..) (by assumption)).trans ?_
    dsimp only [Tried.st]
    split <;> simp [Tame]

theorem waitc_tame (op : Nat) (d a b : Reg) (s : State) {t' : State} : waitc op d a b s = .next t' → Tame s t' := by
  unfold waitc
  refine issue_tame _ _ _ _ _ (fun s => ?_)
  grind [waitc, State.writeBackRange_tame, State.watchStep_tame, State.setCur_quiet, State.blockCur_quiet, State.atomPlace_tame, State.atomPlace_ok_tame, State.atomPlace_stop_tame]

theorem execWaitcEq_tame (_sp : Bool) (d a b : Reg) (s : State) {t' : State} : execWaitcEq _sp d a b s = .next t' → Tame s t' := by
  grind [execWaitcEq, waitc_tame]

theorem execWaitcNe_tame (_sp : Bool) (d a b : Reg) (s : State) {t' : State} : execWaitcNe _sp d a b s = .next t' → Tame s t' := by
  grind [execWaitcNe, waitc_tame]

theorem execWaitcGeS32_tame (_sp : Bool) (d a b : Reg) (s : State) {t' : State} : execWaitcGeS32 _sp d a b s = .next t' → Tame s t' := by
  grind [execWaitcGeS32, waitc_tame]

theorem execWaitcGeN32_tame (_sp : Bool) (d a b : Reg) (s : State) {t' : State} : execWaitcGeN32 _sp d a b s = .next t' → Tame s t' := by
  grind [execWaitcGeN32, waitc_tame]

theorem execWaitcLtS32_tame (_sp : Bool) (d a b : Reg) (s : State) {t' : State} : execWaitcLtS32 _sp d a b s = .next t' → Tame s t' := by
  grind [execWaitcLtS32, waitc_tame]

theorem execWaitcLtN32_tame (_sp : Bool) (d a b : Reg) (s : State) {t' : State} : execWaitcLtN32 _sp d a b s = .next t' → Tame s t' := by
  grind [execWaitcLtN32, waitc_tame]

theorem execMonitorReread_tame (t : ThreadId) (s : State) {t' : State} : execMonitorReread t s = .next t' → Tame s t' := by
  grind [execMonitorReread, State.watchStep_tame]

theorem execWaitcPollTimer_tame (t : ThreadId) (s : State) {t' : State} : execWaitcPollTimer t s = .next t' → Tame s t' := by
  unfold execWaitcPollTimer
  dsimp only
  split
  · split
    · split <;> intro h <;> cases h
      · exact (State.modThread_quiet ..).tame.trans (State.watchStep_tame ..)
      · rename_i h
        obtain ⟨x, -, h⟩ := Option.map_eq_some_iff.1 h
        exact Tried.eq_tame (State.watchRead_tame ..) h
      · simp [Tame]
    · intro h; cases h; simp [Tame]
  · intro h; cases h; simp [Tame]

theorem redto_tame (op : AtomOp) (sp : Bool) (d a b : Reg) (s : State) {t' : State} : redto op sp d a b s = .next t' → Tame s t' := by
  unfold redto
  refine issue_tame _ _ _ _ _ (fun s => ?_)
  grind [redto, State.writeBackRange_tame, State.atomPlace_tame, State.atomPlace_ok_tame, State.atomPlace_stop_tame, State.parkCur_quiet, State.request_quiet, State.fresh_quiet, State.advance_quiet, State.raise_quiet, State.releaseActs_tame]

theorem execRedtoAdd_tame (sp : Bool) (d a b : Reg) (s : State) {t' : State} : execRedtoAdd sp d a b s = .next t' → Tame s t' := by
  grind [execRedtoAdd, redto_tame]

theorem execRedtoFadd_tame (sp : Bool) (d a b : Reg) (s : State) {t' : State} : execRedtoFadd sp d a b s = .next t' → Tame s t' := by
  grind [execRedtoFadd, redto_tame]

theorem execRedtoMinS32_tame (sp : Bool) (d a b : Reg) (s : State) {t' : State} : execRedtoMinS32 sp d a b s = .next t' → Tame s t' := by
  grind [execRedtoMinS32, redto_tame]

theorem execRedtoMaxS32_tame (sp : Bool) (d a b : Reg) (s : State) {t' : State} : execRedtoMaxS32 sp d a b s = .next t' → Tame s t' := by
  grind [execRedtoMaxS32, redto_tame]

theorem execRedtoOr_tame (sp : Bool) (d a b : Reg) (s : State) {t' : State} : execRedtoOr sp d a b s = .next t' → Tame s t' := by
  grind [execRedtoOr, redto_tame]

@[simp] theorem State.spillFor_quiet (s : State) (k : CoreId) (t : ThreadId) (scope owner id : Nat) : Quiet s (s.spillFor k t scope owner id) := by
  dsimp only [State.spillFor]
  (repeat' split) <;> simp_all [Quiet]

@[simp] theorem State.deliver_tame (s : State) (d : Delivery) : Tame s (s.deliver d).st := by
  unfold State.deliver
  split
  · simp [Tame]
  split
  · exact (State.setTeam_quiet ..).tame
  · exact Tried.andThen_tame (State.stashTouch_tame ..) (fun _ _ => (State.writeScratch_quiet ..).tame)

theorem execRedtoDelivery_tame (req : Nat) (s : State) {t' : State} (h : execRedtoDelivery req s = .next t') : Tame s t' := by
  unfold execRedtoDelivery at h
  dsimp only at h
  split at h
  · cases h; simp [Tame]
  split at h
  · cases h; simp [Tame]
  split at h
  · cases h
    split
    · exact Tried.eq_tame (State.deliver_tame ..) (by assumption)
    · exact (Tried.eq_tame (State.deliver_tame ..) (by assumption)).trans (by simp [Tame])
  split at h
  · cases h; simp [Tame]
  split at h <;> cases h
  · exact (State.useBarrier_quiet _ _ _ _ _ (by assumption)).tame.trans (Tried.eq_tame (State.deliver_tame ..) (by assumption))
  · exact (State.useBarrier_quiet _ _ _ _ _ (by assumption)).tame.trans ((Tried.eq_tame (State.deliver_tame ..) (by assumption)).trans
      (by simp [Tame]))

theorem State.barrierWord_quiet (s : State) (sc : BitVec 3) (a : Reg) (k : State → Nat → Nat → State)
    (hk : ∀ s o i, Quiet s (k s o i)) : Quiet s (s.barrierWord sc a k) := by
  unfold State.barrierWord
  dsimp only
  split
  · simp [Quiet]
  · split
    · simp [Quiet]
    · rename_i hu
      exact ((State.useBarrier_quiet _ _ _ _ _ hu).trans (by simp [Quiet])).trans (hk _ _ _)

theorem State.barrierWord_tame (s : State) (sc : BitVec 3) (a : Reg) (k : State → Nat → Nat → State)
    (hk : ∀ s o i, Tame s (k s o i)) : Tame s (s.barrierWord sc a k) := by
  unfold State.barrierWord
  dsimp only
  split
  · simp [Tame]
  · split
    · simp [Tame]
    · rename_i hu
      exact ((State.useBarrier_quiet _ _ _ _ _ hu).trans (by simp [Quiet])).tame.trans (hk _ _ _)

theorem State.arrive_tame (s : State) (sc : BitVec 3) (owner id reason : Nat) (k : State → State) (hk : ∀ s, Quiet s (k s)) :
    Tame s (s.arrive sc owner id reason k) := by
  unfold State.arrive
  dsimp only
  split
  · simp +contextual [Tame]
  · exact Tame.trans (by simp +contextual [Tame]) (hk _).tame

@[simp] theorem State.blockAt_quiet (s : State) (scope owner id : Nat) (noted : Option Nat) :
    Quiet s (s.blockAt scope owner id noted) := by
  simp [Quiet, State.blockAt]

theorem execBar_tame (_sp : Bool) (a : Reg) (sc : BitVec 3) (s : State) {t' : State} :
    execBar _sp a sc s = .next t' → Tame s t' := by
  unfold execBar
  exact issue_tame _ _ _ _ _ (fun s => State.barrierWord_tame _ _ _ _ (fun s o i => State.arrive_tame _ _ _ _ _ _ (by simp [Quiet])))

theorem execBara_tame (sp : Bool) (a : Reg) (sc : BitVec 3) (s : State) {t' : State} :
    execBara sp a sc s = .next t' → Tame s t' := by
  unfold execBara
  exact issue_tame _ _ _ _ _ (fun s => State.barrierWord_tame _ _ _ _ (fun s o i => State.arrive_tame _ _ _ _ _ _ (by simp [Quiet])))

theorem execBarw_quiet (_sp : Bool) (a : Reg) (sc : BitVec 3) (s : State) {t' : State} :
    execBarw _sp a sc s = .next t' → Quiet s t' := by
  unfold execBarw
  refine issue_quiet _ _ _ _ _ (fun s => State.barrierWord_quiet _ _ _ _ (fun s o i => ?_))
  dsimp only
  split <;> simp [Quiet]

theorem execBarinit_quiet (sp : Bool) (d a : Reg) (sc : BitVec 3) (s : State) {t' : State} :
    execBarinit sp d a sc s = .next t' → Quiet s t' := by
  unfold execBarinit
  refine issue_quiet _ _ _ _ _ (fun s => State.barrierWord_quiet _ _ _ _ (fun s o i => ?_))
  dsimp only
  split <;> simp [Quiet]

@[simp] theorem State.groupArrivals_quiet (s : State) : Quiet s s.groupArrivals :=
  foldl_quiet _ (fun s _ => State.checkBarrier_quiet s ..) _ _

theorem execBarrierArrival_quiet (arr : Nat) (s : State) {t' : State} : execBarrierArrival arr s = .next t' → Quiet s t' := by
  grind [execBarrierArrival, State.countArrival_quiet, State.useBarrier_quiet, State.useEyelet_quiet, State.spillFor_quiet, State.endSpill_quiet, State.groupArrivals_quiet]

/-! ## Sys -/

theorem execRds_quiet (sp : Bool) (d : Reg) (sel : BitVec 7) (s : State) {t' : State} : execRds sp d sel s = .next t' → Quiet s t' := by
  unfold execRds
  refine issue_quiet _ _ _ _ _ (fun s => ?_)
  dsimp only
  (repeat' split) <;> simp_all [Quiet]

theorem execWrs_quiet (sp : Bool) (a : Reg) (sel : BitVec 7) (s : State) {t' : State} : execWrs sp a sel s = .next t' → Quiet s t' := by
  unfold execWrs
  refine issue_quiet _ _ _ _ _ (fun s => ?_)
  dsimp only
  (repeat' split) <;> simp_all [Quiet]

theorem execWin_quiet (sp : Bool) (a : Reg) (s : State) {t' : State} : execWin sp a s = .next t' → Quiet s t' := by
  unfold execWin
  refine issue_quiet _ _ _ _ _ (fun s => ?_)
  dsimp only
  (repeat' split) <;> simp_all [Quiet]

theorem execNop_quiet (sp : Bool) (s : State) {t' : State} : execNop sp s = .next t' → Quiet s t' := by
  unfold execNop
  exact issue_quiet _ _ _ _ _ (fun s => by simp [Quiet])

theorem execReservedHint_quiet (sp : Bool) (_f : BitVec 5) (_d _a _b : Reg) (s : State) {t' : State} : execReservedHint sp _f _d _a _b s = .next t' → Quiet s t' := by
  unfold execReservedHint
  exact issue_quiet _ _ _ _ _ (fun s => by simp [Quiet])

theorem execTrap_quiet (sp : Bool) (b : BitVec 7) (s : State) {t' : State} : execTrap sp b s = .next t' → Quiet s t' := by
  unfold execTrap
  exact issue_quiet _ _ _ _ _ (fun s => by simp [Quiet])

@[simp] theorem State.trapReturn_quiet (s : State) (tgt : Word) : Quiet s (s.trapReturn tgt) := by simp [Quiet, State.trapReturn]

theorem execTret_quiet (sp : Bool) (s : State) {t' : State} : execTret sp s = .next t' → Quiet s t' := by
  unfold execTret
  refine issue_quiet _ _ _ _ _ (fun s => ?_)
  grind [execTret, State.trapReturn_quiet, State.raise_quiet]

theorem execBkpt_quiet (sp : Bool) (s : State) {t' : State} : execBkpt sp s = .next t' → Quiet s t' := by
  unfold execBkpt
  refine issue_quiet _ _ _ _ _ (fun s => ?_)
  dsimp only
  (repeat' split) <;> simp_all [Quiet]

theorem execIllegalWordFetch_quiet (f : FetchFault) (s : State) {t' : State} (h : execIllegalWordFetch f s = .next t') :
    Quiet s t' := by
  cases f <;> cases h <;> simp [Quiet]

/-! ## EngineIo -/

@[simp] theorem State.readPlace_tame (s : State) (k : CoreId) (g : GAddr) (n : Nat) (home : Bool) :
    Tame s (s.readPlace k g n home).st := by
  unfold State.readPlace
  dsimp only
  split
  · split
    · simp +contextual [Tame]
    · split <;> simp +contextual [Tame]
  · split
    · simp +contextual [Tame]
    · rename_i hw
      refine (State.stashFlush_tame ..).trans ((State.wholeLine_tame _ _ _ hw).trans ?_)
      split <;> simp +contextual [Tame]

theorem State.readPlace_ok_tame (s : State) (k : CoreId) (g : GAddr) (n : Nat) (home : Bool) {t'} {v0}
    (h' : s.readPlace k g n home = .ok t' v0) : Tame s t' := by
  simpa [h'] using State.readPlace_tame s k g n home

theorem State.readPlace_fault_tame (s : State) (k : CoreId) (g : GAddr) (n : Nat) (home : Bool) {t'} {v0 v1}
    (h' : s.readPlace k g n home = .fault t' v0 v1) : Tame s t' := by
  simpa [h'] using State.readPlace_tame s k g n home

theorem State.readPlace_deny_tame (s : State) (k : CoreId) (g : GAddr) (n : Nat) (home : Bool) {t'} 
    (h' : s.readPlace k g n home = .deny t' ) : Tame s t' := by
  simpa [h'] using State.readPlace_tame s k g n home

theorem State.readPlace_wait_tame (s : State) (k : CoreId) (g : GAddr) (n : Nat) (home : Bool) {t'} 
    (h' : s.readPlace k g n home = .wait t' ) : Tame s t' := by
  simpa [h'] using State.readPlace_tame s k g n home

@[simp] theorem State.engRead_tame (s : State) (k : CoreId) (l t va n cap : Nat) (needR home : Bool) :
    Tame s (s.engRead k l t va n cap needR home).st := by
  unfold State.engRead
  split
  · simp [Tame]
  split
  · exact State.entryNow_fault_tame _ _ _ _ _ (by assumption)
  · exact State.entryNow_deny_tame _ _ _ _ _ (by assumption)
  · exact State.entryNow_wait_tame _ _ _ _ _ (by assumption)
  · refine (State.entryNow_ok_tame _ _ _ _ _ (by assumption)).trans ?_
    split
    · simp [Tame]
    · exact State.readPlace_tame ..

theorem State.engRead_ok_tame (s : State) (k : CoreId) (l t va n cap : Nat) (needR home : Bool) {t'} {v0}
    (h' : s.engRead k l t va n cap needR home = .ok t' v0) : Tame s t' := by
  simpa [h'] using State.engRead_tame s k l t va n cap needR home

theorem State.engRead_fault_tame (s : State) (k : CoreId) (l t va n cap : Nat) (needR home : Bool) {t'} {v0 v1}
    (h' : s.engRead k l t va n cap needR home = .fault t' v0 v1) : Tame s t' := by
  simpa [h'] using State.engRead_tame s k l t va n cap needR home

theorem State.engRead_deny_tame (s : State) (k : CoreId) (l t va n cap : Nat) (needR home : Bool) {t'} 
    (h' : s.engRead k l t va n cap needR home = .deny t' ) : Tame s t' := by
  simpa [h'] using State.engRead_tame s k l t va n cap needR home

theorem State.engRead_wait_tame (s : State) (k : CoreId) (l t va n cap : Nat) (needR home : Bool) {t'} 
    (h' : s.engRead k l t va n cap needR home = .wait t' ) : Tame s t' := by
  simpa [h'] using State.engRead_tame s k l t va n cap needR home

@[simp] theorem State.engWrite_tame (s : State) (k : CoreId) (l t va cap : Nat) (bs : List (Nat × Byte)) :
    Tame s (s.engWrite k l t va cap bs).st := by
  unfold State.engWrite
  split
  · simp [Tame]
  split
  · exact State.entryNow_fault_tame _ _ _ _ _ (by assumption)
  · exact State.entryNow_deny_tame _ _ _ _ _ (by assumption)
  · exact State.entryNow_wait_tame _ _ _ _ _ (by assumption)
  · refine (State.entryNow_ok_tame _ _ _ _ _ (by assumption)).trans ?_
    split
    · simp [Tame]
    dsimp only
    split
    · exact (State.stashFlush_tame ..).trans ((State.l1Clean_tame ..).trans ((State.l1Drop_quiet ..).tame.trans
        (State.homeStore_tame ..)))
    · exact (State.stashFlush_tame ..).trans ((State.l1Drop_quiet ..).tame.trans (State.dieWrite_tame ..))

@[simp] theorem State.engMayWrite_tame (s : State) (k : CoreId) (l va : Nat) : Tame s (s.engMayWrite k l va).st := by
  unfold State.engMayWrite
  split
  · simp [Tame]
  split
  · exact State.entryNow_fault_tame _ _ _ _ _ (by assumption)
  · exact State.entryNow_deny_tame _ _ _ _ _ (by assumption)
  · exact State.entryNow_wait_tame _ _ _ _ _ (by assumption)
  · split <;> exact State.entryNow_ok_tame _ _ _ _ _ (by assumption)

theorem State.engWrite_ok_tame (s : State) (k : CoreId) (l t va cap : Nat) (bs : List (Nat × Byte)) {t'} {v0}
    (h' : s.engWrite k l t va cap bs = .ok t' v0) : Tame s t' := by
  simpa [h'] using State.engWrite_tame s k l t va cap bs

theorem State.engWrite_fault_tame (s : State) (k : CoreId) (l t va cap : Nat) (bs : List (Nat × Byte)) {t'} {v0 v1}
    (h' : s.engWrite k l t va cap bs = .fault t' v0 v1) : Tame s t' := by
  simpa [h'] using State.engWrite_tame s k l t va cap bs

theorem State.engWrite_deny_tame (s : State) (k : CoreId) (l t va cap : Nat) (bs : List (Nat × Byte)) {t'} 
    (h' : s.engWrite k l t va cap bs = .deny t' ) : Tame s t' := by
  simpa [h'] using State.engWrite_tame s k l t va cap bs

theorem State.engWrite_wait_tame (s : State) (k : CoreId) (l t va cap : Nat) (bs : List (Nat × Byte)) {t'} 
    (h' : s.engWrite k l t va cap bs = .wait t' ) : Tame s t' := by
  simpa [h'] using State.engWrite_tame s k l t va cap bs

@[simp] theorem State.engReadN_tame (s : State) (k : CoreId) (l t va cap : Nat) (needR home : Bool) (fuel n : Nat) :
    Tame s (s.engReadN k l t va cap needR home fuel n).st := by
  induction fuel generalizing s va n with
  | zero => simp [Tame, State.engReadN]
  | succ fuel ih =>
    unfold State.engReadN
    dsimp only
    split
    · rename_i u _ h
      have h1 := State.engRead_ok_tame _ _ _ _ _ _ _ _ _ h
      split
      · exact h1
      · have h2 := ih u (va + min n (64 - va % 64)) (n - min n (64 - va % 64))
        split
        · rename_i h3; rw [h3] at h2; exact h1.trans h2
        · exact h1.trans h2
    · exact State.engRead_tame ..

theorem State.engReadN_ok_tame (s : State) (k : CoreId) (l t va cap : Nat) (needR home : Bool) (x0 : Nat) (x1 : Nat) {t'} {v0}
    (h' : s.engReadN k l t va cap needR home x0 x1 = .ok t' v0) : Tame s t' := by
  simpa [h'] using State.engReadN_tame s k l t va cap needR home x0 x1

theorem State.engReadN_fault_tame (s : State) (k : CoreId) (l t va cap : Nat) (needR home : Bool) (x0 : Nat) (x1 : Nat) {t'} {v0 v1}
    (h' : s.engReadN k l t va cap needR home x0 x1 = .fault t' v0 v1) : Tame s t' := by
  simpa [h'] using State.engReadN_tame s k l t va cap needR home x0 x1

theorem State.engReadN_deny_tame (s : State) (k : CoreId) (l t va cap : Nat) (needR home : Bool) (x0 : Nat) (x1 : Nat) {t'} 
    (h' : s.engReadN k l t va cap needR home x0 x1 = .deny t' ) : Tame s t' := by
  simpa [h'] using State.engReadN_tame s k l t va cap needR home x0 x1

theorem State.engReadN_wait_tame (s : State) (k : CoreId) (l t va cap : Nat) (needR home : Bool) (x0 : Nat) (x1 : Nat) {t'} 
    (h' : s.engReadN k l t va cap needR home x0 x1 = .wait t' ) : Tame s t' := by
  simpa [h'] using State.engReadN_tame s k l t va cap needR home x0 x1

@[simp] theorem State.touchRange_tame (s : State) (l t off n : Nat) : Tame s (s.touchRange l t off n).st := by
  unfold State.touchRange
  split
  · simp [Tame]
  split
  · simp [Tame]
  · exact State.tryAll_tame _ _ _ (fun _ _ => State.stashTouch_tame ..)

theorem State.touchRange_ok_tame {s u : State} {l t off n : Nat} (h : s.touchRange l t off n = .ok u ()) : Tame s u :=
  Tried.eq_tame (State.touchRange_tame ..) h

theorem State.touchRange_wait_tame {s u : State} {l t off n : Nat} (h : s.touchRange l t off n = .wait u) : Tame s u :=
  Tried.eq_tame (State.touchRange_tame ..) h

@[simp] theorem State.agentFault_quiet (s : State) (k : CoreId) (t : ThreadId) (va kind level : Nat) : Quiet s (s.agentFault k t va kind level).1 := by
  dsimp only [State.agentFault]
  (repeat' split) <;> simp_all [Quiet]

@[simp] theorem State.placeHatch_quiet (s : State) (l op : Nat) (rs : List Range) : Quiet s (s.placeHatch l op rs) := by
  unfold State.placeHatch
  exact foldl_quiet _ (fun s x => by simp [Quiet]) _ _

@[simp] theorem State.freeHatch_quiet (s : State) (op : Nat) : Quiet s (s.freeHatch op) := by simp [Quiet, State.freeHatch]

@[simp] theorem State.setEng_quiet (s : State) (e : EngineOp) : Quiet s (s.setEng e) := by simp [Quiet, State.setEng]

@[simp] theorem State.startEng_quiet (s : State) (kind : EngKind) (st : EngState) (status : Word) (rs : List Range) (d : Reg) : Quiet s (s.startEng kind st status rs d) := by simp [Quiet, State.startEng]

@[simp] theorem State.finishEng_quiet (s : State) (e : EngineOp) (status : Word) : Quiet s (s.finishEng e status) := by simp [Quiet, State.finishEng]

@[simp] theorem State.stallEng_quiet (s : State) (e : EngineOp) (va level : Nat) : Quiet s (s.stallEng e va level) := by simp [Quiet, State.stallEng]

@[simp] theorem State.reenter_quiet (s : State) (e : EngineOp) (full : Bool) (st : EngState) (rs : List Range) :
    Quiet s (s.reenter e full st rs) := by
  dsimp only [State.reenter]
  split
  · simp [Quiet]
  · exact (State.setEng_quiet ..).trans (State.placeHatch_quiet ..)

theorem IoRes.andThen_tame (u : State) (r : IoRes) (f : State → IoRes) (hr : Tame u r.st) (hf : ∀ s, Tame s (f s).st) :
    Tame u (r.andThen f).st := by
  cases r with
  | ok s b => exact Tame.trans hr (hf s)
  | fault s a b => exact hr
  | deny s => exact hr
  | wait s => exact hr

theorem IoRes.foldl_andThen_tame {α : Type} (f : State → α → IoRes) (items : List α) (r : IoRes) {u : State} (hr : Tame u r.st)
    (hf : ∀ s x, Tame s (f s x).st) : Tame u (items.foldl (fun o x => o.andThen (fun s => f s x)) r).st :=
  List.foldlRecOn items _ (motive := fun (o : IoRes) => Tame u o.st) hr (fun _ keep x _ => IoRes.andThen_tame _ _ _ keep (fun s => hf s x))

theorem IoRes.next_tame (u : State) (r : IoRes) (ok : State → List Byte → State) (fault : State → Nat → Nat → State)
    (deny wait : State → State) (hr : Tame u r.st) (h1 : ∀ s b, Tame s (ok s b)) (h2 : ∀ s a b, Tame s (fault s a b))
    (h3 : ∀ s, Tame s (deny s)) (h4 : ∀ s, Tame s (wait s)) : Tame u (r.next ok fault deny wait) := by
  cases r with
  | ok s b => exact Tame.trans hr (h1 s b)
  | fault s a b => exact Tame.trans hr (h2 s a b)
  | deny s => exact Tame.trans hr (h3 s)
  | wait s => exact Tame.trans hr (h4 s)

@[simp] theorem State.quick_quiet (s : State) (d : Reg) (status : Word) : Quiet s (s.quick d status) := by simp [Quiet, State.quick]

theorem State.withRight_quiet (s : State) (f : Nat) (k : State → State) (hk : Quiet s (k s)) : Quiet s (s.withRight f k) := by
  unfold State.withRight
  split
  · exact hk
  · simp [Quiet]

theorem State.withRight_tame (s : State) (f : Nat) (k : State → State) (hk : Tame s (k s)) : Tame s (s.withRight f k) := by
  unfold State.withRight
  split
  · exact hk
  · simp [Tame]

end Sys2Proof.Machine
end

