-- ==== Sys2Proof/Laws/KeepLaunch.lean ====
section
/-! SUPPORT. What the operations of Code, Part, Launch, Packet, Welt, FrontEnd leave of the clocks and of memory. -/

namespace Sys2Proof.Machine

/-! ## Code -/

@[simp] theorem State.giveToken_quiet (s : State) (l t seg : Nat) : Quiet s (s.giveToken l t seg) := by
  dsimp only [State.giveToken]
  (repeat' split) <;> simp_all [Quiet]

theorem ovLoad_quiet (token sp : Bool) (d a : Reg) (s : State) {t' : State} : ovLoad token sp d a s = .next t' → Quiet s t' := by
  unfold ovLoad
  refine issue_quiet _ _ _ _ _ (fun s => ?_)
  dsimp only
  (repeat' split) <;> simp_all [Quiet]

theorem execOvld_quiet (sp : Bool) (d a : Reg) (s : State) {t' : State} : execOvld sp d a s = .next t' → Quiet s t' := by
  unfold execOvld
  refine issue_quiet _ _ _ _ _ (fun s => ?_)
  dsimp only
  (repeat' split) <;> simp_all [Quiet]

theorem execOvtok_quiet (sp : Bool) (d a : Reg) (s : State) {t' : State} : execOvtok sp d a s = .next t' → Quiet s t' := by
  unfold execOvtok
  refine issue_quiet _ _ _ _ _ (fun s => ?_)
  dsimp only
  (repeat' split) <;> simp_all [Quiet]

theorem execOvrel_quiet (sp : Bool) (a : Reg) (s : State) {t' : State} : execOvrel sp a s = .next t' → Quiet s t' := by
  unfold execOvrel
  exact issue_quiet _ _ _ _ _ (fun s => by simp [Quiet])

theorem execOvq_quiet (sp : Bool) (d a : Reg) (s : State) {t' : State} : execOvq sp d a s = .next t' → Quiet s t' := by
  unfold execOvq
  refine issue_quiet _ _ _ _ _ (fun s => ?_)
  dsimp only
  (repeat' split) <;> simp_all [Quiet]

@[simp] theorem State.resumeSettled_quiet (s : State) (k : CoreId) (vf coid seg : Nat) : Quiet s (s.resumeSettled k vf coid seg) := by simp [Quiet, State.resumeSettled]

@[simp] theorem State.endOverlay_quiet (s : State) (w : LacerWait) (code detail : Nat) : Quiet s (s.endOverlay w code detail) := by
  dsimp only [State.endOverlay]
  (repeat' split) <;> simp_all [Quiet]

@[simp] theorem State.endOverlays_quiet (s : State) (k : CoreId) (vf coid seg code : Nat) (detail : LacerWait → Nat) : Quiet s (s.endOverlays k vf coid seg code detail) := by simp [Quiet, State.endOverlays]

theorem State.abandonLoad_quiet (s : State) (k : CoreId) (e : SegEntry) (trap : State → Thread → State) (code detail kill : Nat)
    (ht : ∀ s t, Quiet s (trap s t)) : Quiet s (s.abandonLoad k e trap code detail kill) := by
  unfold State.abandonLoad
  exact (State.setCore_quiet ..).trans ((foldl_quiet trap ht _ _).trans ((State.endOverlays_quiet ..).trans
    (foldl_quiet _ (fun s _ => State.killLaunch_quiet s ..) _ _)))

@[simp] theorem State.popLacer_quiet (s : State) (k : CoreId) : Quiet s (s.popLacer k) := by simp [Quiet, State.popLacer]

theorem execLacerLoadDecision_quiet (k : CoreId) (s : State) {t' : State} : execLacerLoadDecision k s = .next t' → Quiet s t' := by
  grind [execLacerLoadDecision, State.endOverlay_quiet, State.resumeSettled_quiet, State.evictFor_quiet, State.setCore_quiet, State.popLacer_quiet, State.startLoad_quiet, State.modSeg_quiet]

theorem execOvfullTimeout_quiet (k : CoreId) (s : State) {t' : State} : execOvfullTimeout k s = .next t' → Quiet s t' := by
  unfold execOvfullTimeout
  split
  · simp +contextual [Quiet]
  split <;> intro h <;> cases h
  · exact Quiet.trans (t := s.popLacer k) (by simp [Quiet]) (foldl_quiet _ (fun s x => by simp [Quiet]) _ _)
  · simp [Quiet]

@[simp] theorem State.segRead_tame (s : State) (k : CoreId) (l va x0 x1 : Nat) : Tame s (s.segRead k l va x0 x1).st := by
  induction x0 generalizing s va x1 with
  | zero => simp [Tame, State.segRead]
  | succ fuel ih =>
    unfold State.segRead
    split
    · simp [Tame]
    dsimp only
    split
    · simp [Tame]
    split
    · exact State.entryNow_fault_tame _ _ _ _ _ (by assumption)
    · exact State.entryNow_deny_tame _ _ _ _ _ (by assumption)
    · exact State.entryNow_wait_tame _ _ _ _ _ (by assumption)
    rename_i v _ _ u e _
    refine (State.entryNow_ok_tame _ _ _ _ _ (by assumption)).trans ?_
    split
    · simp [Tame]
    refine Tame.trans (State.stashFlush_tame u (lineOf (u.gaddr v l 0 e va 3).pa) false) ?_
    split
    · simp [Tame]
    · rename_i h'
      refine Tame.trans (State.wholeLine_tame _ _ _ h')
        (Tame.trans (State.consumeAt_quiet _ v.id k (u.gaddr v l 0 e va 3).pa (min x1 (128 - va % 128))).tame ?_)
      refine Tame.trans (ih _ (va + min x1 (128 - va % 128)) (x1 - min x1 (128 - va % 128))) ?_
      generalize State.segRead _ k l _ fuel _ = r
      cases r <;> simp [Tame]

theorem State.segRead_ok_tame (s : State) (k : CoreId) (l va : Nat) (x0 : Nat) (x1 : Nat) {t'} {v0}
    (h' : s.segRead k l va x0 x1 = .ok t' v0) : Tame s t' := by
  simpa [h'] using State.segRead_tame s k l va x0 x1

theorem State.segRead_fault_tame (s : State) (k : CoreId) (l va : Nat) (x0 : Nat) (x1 : Nat) {t'} {v0 v1}
    (h' : s.segRead k l va x0 x1 = .fault t' v0 v1) : Tame s t' := by
  simpa [h'] using State.segRead_tame s k l va x0 x1

theorem State.segRead_lack_tame (s : State) (k : CoreId) (l va : Nat) (x0 : Nat) (x1 : Nat) {t'} {v0}
    (h' : s.segRead k l va x0 x1 = .lack t' v0) : Tame s t' := by
  simpa [h'] using State.segRead_tame s k l va x0 x1

theorem State.segRead_wait_tame (s : State) (k : CoreId) (l va : Nat) (x0 : Nat) (x1 : Nat) {t'} 
    (h' : s.segRead k l va x0 x1 = .wait t' ) : Tame s t' := by
  simpa [h'] using State.segRead_tame s k l va x0 x1

@[simp] theorem State.startPinned_quiet (s : State) (k : CoreId) : Quiet s (s.startPinned k) := by simp [Quiet, State.startPinned]

@[simp] theorem State.endSegLoad_quiet (s : State) (k : CoreId) (e : SegEntry) (ws : List Word) : Quiet s (s.endSegLoad k e ws) := by
  dsimp only [State.endSegLoad]
  split <;> simp [Quiet]

theorem execSegmentLoadComplete_tame (k : CoreId) (entry : Nat) (s : State) {t' : State} :
    execSegmentLoadComplete k entry s = .next t' → Tame s t' := by
  unfold execSegmentLoadComplete
  split
  · intro h; cases h; simp [Tame]
  split
  · split
    · intro h; cases h; simp [Tame]
    split
    · intro h; cases h; exact (State.segRead_ok_tame _ _ _ _ _ _ (by assumption)).trans (Quiet.tame (by simp [Quiet]))
    · intro h; cases h; exact State.segRead_wait_tame _ _ _ _ _ _ (by assumption)
    · intro h; cases h
      exact (State.segRead_lack_tame _ _ _ _ _ _ (by assumption)).trans (Quiet.tame (State.abandonLoad_quiet _ _ _ _ _ _ _ (by simp [Quiet])))
    · intro h; cases h
      exact (State.segRead_fault_tame _ _ _ _ _ _ (by assumption)).trans
        ((State.agentFault_quiet ..).trans (State.modSeg_quiet ..)).tame
  · intro h; cases h; simp [Tame]

/-! ## Part -/

@[simp] theorem State.partAddr_tame (s : State) (v : Vf) (l va : Nat) (write : Bool) : Tame s (s.partAddr v l va write).1 := by
  dsimp only [State.partAddr]
  (repeat' split) <;> simp_all [Tame]

@[simp] theorem State.partPlaces_tame (s : State) (v : Vf) (l va : Nat) (write : Bool) (fuel n : Nat) :
    Tame s (s.partPlaces v l va write fuel n).1 := by
  induction fuel generalizing s va n with
  | zero => simp [Tame, State.partPlaces]
  | succ fuel ih =>
    have ha := State.partAddr_tame s v l va write
    unfold State.partPlaces
    split
    · simp [Tame]
    dsimp only
    split <;> rename_i h <;> rw [h] at ha
    · exact ha
    · exact ha.trans (ih ..)

theorem State.partPlaces_eq_tame {s : State} {v : Vf} {l va : Nat} {write : Bool} {fuel n : Nat} {t' : State} {ps : List (GAddr × Nat)}
    {e : PartEnd} (h : s.partPlaces v l va write fuel n = (t', ps, e)) : Tame s t' := by
  simpa [h] using State.partPlaces_tame s v l va write fuel n

theorem PartEnd.answer_st (e : PartEnd) (s : State) (bs : List Byte) : (e.answer s bs).st = s := by cases e <;> rfl

@[simp] theorem State.partGet_tame (s : State) (v : Vf) (ps : List (GAddr × Nat)) : Tame s (s.partGet v ps).st := by
  unfold State.partGet
  split
  · simp [Tame]
  · exact foldl_tame _ (fun s x => (State.stashFlush_tame s (lineOf x.1.pa) false).trans (Quiet.tame (by simp [Quiet]))) _ _

@[simp] theorem State.partRead_tame (s : State) (v : Vf) (l va fuel n : Nat) : Tame s (s.partRead v l va fuel n).st := by
  unfold State.partRead
  split <;> rename_i h
  · exact (State.partPlaces_eq_tame h).trans (State.partGet_tame ..)
  · rw [PartEnd.answer_st]; exact State.partPlaces_eq_tame h

theorem State.partRead_ok_tame (s : State) (v : Vf) (l va fuel n : Nat) {t'} {v0}
    (h' : s.partRead v l va fuel n = .ok t' v0) : Tame s t' := by
  simpa [h'] using State.partRead_tame s v l va fuel n

theorem State.partRead_fault_tame (s : State) (v : Vf) (l va fuel n : Nat) {t'} {v0 v1}
    (h' : s.partRead v l va fuel n = .fault t' v0 v1) : Tame s t' := by
  simpa [h'] using State.partRead_tame s v l va fuel n

theorem State.partRead_deny_tame (s : State) (v : Vf) (l va fuel n : Nat) {t'}
    (h' : s.partRead v l va fuel n = .deny t') : Tame s t' := by
  simpa [h'] using State.partRead_tame s v l va fuel n

theorem State.partRead_wait_tame (s : State) (v : Vf) (l va fuel n : Nat) {t'}
    (h' : s.partRead v l va fuel n = .wait t') : Tame s t' := by
  simpa [h'] using State.partRead_tame s v l va fuel n

@[simp] theorem State.partPut_tame (s : State) (ps : List (GAddr × Nat)) (bs : List Byte) : Tame s (s.partPut ps bs) := by
  induction ps generalizing s bs with
  | nil => simp [Tame, State.partPut]
  | cons p ps ih =>
    refine Tame.trans (State.stashFlush_tame s (lineOf p.1.pa) true) (Tame.trans ?_ (ih _ _))
    split
    · exact State.homeWrite_tame ..
    · exact State.sendHome_tame ..

@[simp] theorem State.partWrite_tame (s : State) (v : Vf) (l va fuel : Nat) (bs : List Byte) : Tame s (s.partWrite v l va fuel bs).st := by
  unfold State.partWrite
  split <;> rename_i h
  · exact State.partPlaces_eq_tame h
  · rw [PartEnd.answer_st]; exact (State.partPlaces_eq_tame h).trans (State.partPut_tame ..)

theorem State.partWrite_ok_tame (s : State) (v : Vf) (l va fuel : Nat) (bs : List Byte) {t'} {v0}
    (h' : s.partWrite v l va fuel bs = .ok t' v0) : Tame s t' := by
  simpa [h'] using State.partWrite_tame s v l va fuel bs

theorem State.partWrite_fault_tame (s : State) (v : Vf) (l va fuel : Nat) (bs : List Byte) {t'} {v0 v1}
    (h' : s.partWrite v l va fuel bs = .fault t' v0 v1) : Tame s t' := by
  simpa [h'] using State.partWrite_tame s v l va fuel bs

theorem State.partWrite_deny_tame (s : State) (v : Vf) (l va fuel : Nat) (bs : List Byte) {t'}
    (h' : s.partWrite v l va fuel bs = .deny t') : Tame s t' := by
  simpa [h'] using State.partWrite_tame s v l va fuel bs

theorem State.partWrite_wait_tame (s : State) (v : Vf) (l va fuel : Nat) (bs : List Byte) {t'}
    (h' : s.partWrite v l va fuel bs = .wait t') : Tame s t' := by
  simpa [h'] using State.partWrite_tame s v l va fuel bs

@[simp] theorem State.frontRecord_quiet (s : State) (vf l va kind level : Nat) : Quiet s (s.frontRecord vf l va kind level) := by simp [Quiet, State.frontRecord]

@[simp] theorem State.interrupt_quiet (s : State) (vector : Nat) : Quiet s (s.interrupt vector) := by simp [Quiet, State.interrupt]

@[simp] theorem State.trace_tame (s : State) (kind d l team thread : Nat) : Tame s (s.trace kind d l team thread) := by
  dsimp only [State.trace]
  (repeat' split) <;> simp_all [Tame]

@[simp] theorem State.traceEvent_tame (s : State) (kind d l : Nat) : Tame s (s.traceEvent kind d l) := by
  unfold State.traceEvent
  simp_all [Tame]

/-! ## Launch -/

@[simp] theorem State.slotWrite_tame (s : State) (v : Vf) (k : CoreId) (l va : Nat) (bs : List Byte) :
    Tame s (s.slotWrite v k l va bs).st := by
  unfold State.slotWrite
  split <;> rename_i h
  · exact State.partPlaces_eq_tame h
  · rw [PartEnd.answer_st]
    exact (State.partPlaces_eq_tame h).trans ((foldl_quiet _ (fun s x => State.l1Drop_quiet ..) _ _).tame.trans (State.partPut_tame ..))

@[simp] theorem State.launchTry_tame (s : State) (k : CoreId) (t : ThreadId) (q : Word) (a : Nat) (got : Option (List Byte)) :
    Tame s (s.launchTry k t q a got).st := by
  unfold State.launchTry
  split
  · simp [Tame]
  dsimp only
  split
  · simp [Tame]
  split
  · simp [Tame]
  split
  · simp [Tame]
  rename_i v _ _ _ _
  have hw (f : State → State) (hf : ∀ u, Quiet u (f u)) (w : Word) (va : Nat) (s : State) (bs : List Byte) :
      Tame s (LaunchTry.st (match s.slotWrite v k t.launch va bs with
        | .ok s _ => .done (f s) w
        | .fault s va lv => .fault s va lv (some bs)
        | .deny s => .done s (statusOf 0x93 2)
        | .wait s => .wait s)) := by
    have h := State.slotWrite_tame s v k t.launch va bs
    split <;> rename_i e <;> rw [e] at h
    · exact Tame.trans h (Quiet.tame (hf _))
    · exact h
    · exact h
    · exact h
  split
  · refine hw (fun s => match s.vf? v.id with
      | some v => s.setVf (v.setQueue q.toNat { v.queue q.toNat with
                tail := _
                since := _ })
      | none => s) ?_ _ _ _ _
    intro u; dsimp only; split <;> simp [Quiet]
  split
  · refine (State.engReadN_ok_tame _ _ _ _ _ _ _ _ _ _ (by assumption)).trans (hw (fun s => match s.vf? v.id with
      | some v => s.setVf (v.setQueue q.toNat { v.queue q.toNat with
                tail := _
                since := _ })
      | none => s) ?_ _ _ _ _)
    intro u; dsimp only; split <;> simp [Quiet]
  · exact State.engReadN_fault_tame _ _ _ _ _ _ _ _ _ _ (by assumption)
  · exact State.engReadN_deny_tame _ _ _ _ _ _ _ _ _ _ (by assumption)
  · exact State.engReadN_wait_tame _ _ _ _ _ _ _ _ _ _ (by assumption)

theorem State.launchTry_done_tame (s : State) (k : CoreId) (t : ThreadId) (q : Word) (a : Nat) (got : Option (List Byte)) {t'} {v0}
    (h' : s.launchTry k t q a got = .done t' v0) : Tame s t' := by
  simpa [h'] using State.launchTry_tame s k t q a got

theorem State.launchTry_fault_tame (s : State) (k : CoreId) (t : ThreadId) (q : Word) (a : Nat) (got : Option (List Byte)) {t'} {v0 v1 v2}
    (h' : s.launchTry k t q a got = .fault t' v0 v1 v2) : Tame s t' := by
  simpa [h'] using State.launchTry_tame s k t q a got

theorem State.launchTry_wait_tame (s : State) (k : CoreId) (t : ThreadId) (q : Word) (a : Nat) (got : Option (List Byte)) {t'} 
    (h' : s.launchTry k t q a got = .wait t' ) : Tame s t' := by
  simpa [h'] using State.launchTry_tame s k t q a got

@[simp] theorem State.launchGo_tame (s : State) (r : Request) (q : Word) (a : Nat) (got : Option (List Byte)) :
    Tame s (s.launchGo r q a got) := by
  unfold State.launchGo
  dsimp only
  split
  · exact (State.launchTry_done_tame (h' := by assumption)).trans (Quiet.tame (by simp [Quiet]))
  · exact (State.launchTry_fault_tame (h' := by assumption)).trans (Quiet.tame (by simp [Quiet]))
  · exact (State.launchTry_wait_tame (h' := by assumption)).trans (Quiet.tame (by simp [Quiet]))

theorem execLaunch_tame (sp : Bool) (d a b : Reg) (s : State) {t' : State} : execLaunch sp d a b s = .next t' → Tame s t' := by
  unfold execLaunch
  refine issue_tame _ _ _ _ _ (fun s => ?_)
  dsimp only
  split
  · simp +contextual [Tame]
  refine Tame.trans (State.releaseActs_tame s s.cur.id.launch s.cur.id.team 4) ?_
  split
  · exact (State.launchTry_wait_tame (h' := by assumption)).trans (Quiet.tame (by simp [Quiet]))
  · exact (State.launchTry_done_tame (h' := by assumption)).trans (Quiet.tame (by simp [Quiet]))
  · exact (State.launchTry_fault_tame (h' := by assumption)).trans (by simp [Tame])

/-! ## Packet -/

/-! ## Welt -/

@[simp] theorem State.updateReplica_tame (s : State) (m : WeltMsg) : Tame s (s.updateReplica m) := by
  dsimp only [State.updateReplica]
  (repeat' split) <;> simp_all [Tame]

@[simp] theorem State.updateCopy_tame (s : State) (m : WeltMsg) : Tame s (s.updateCopy m) := by
  dsimp only [State.updateCopy]
  (repeat' split) <;> simp_all [Tame]

@[simp] theorem State.applyHome_tame (s : State) (m : WeltMsg) : Tame s (s.applyHome m) :=
  State.withPoison_tame _ _ _ _ _ (fun _ => State.homeWrite_tame ..)

@[simp] theorem State.applyMsg_tame (s : State) (m : WeltMsg) : Tame s (s.applyMsg m) := by
  dsimp only [State.applyMsg]
  (repeat' split) <;> simp_all [Tame]

theorem execWriteApply_tame (msg : Nat) (s : State) {t' : State} : execWriteApply msg s = .next t' → Tame s t' := by
  grind [execWriteApply, State.barrierLeave_quiet, State.applyMsg_tame, State.stir_quiet]

@[simp] theorem State.fillFrom_tame (s : State) (r : Request) (g : GAddr) : Tame s (s.fillFrom r g) := by
  dsimp only [State.fillFrom]
  (repeat' split) <;> simp_all [Tame]

@[simp] theorem State.fillCopy_tame (s : State) (r : Request) (g : GAddr) : Tame s (s.fillCopy r g) := by
  dsimp only [State.fillCopy]
  (repeat' split) <;> simp_all [Tame]

@[simp] theorem State.takeClock_quiet (s : State) (r : Reply) : Quiet s (s.takeClock r) := by
  dsimp only [State.takeClock]
  split <;> simp [Quiet]

@[simp] theorem State.servePart_tame (s : State) (r : Request) (g : GAddr) (src n base : Nat) (got : List (Nat × Byte)) : Tame s (s.servePart r g src n base got).1 := by
  unfold State.servePart
  simp_all [Tame]

@[simp] theorem State.againPart_tame (s : State) (r : Request) (pass : List Nat) (ea : Nat) : Tame s (s.againPart r pass ea).st := by
  have scr (team off : Nat) : Tame s (
      if s.hatched r.t.launch team off 8 false then Again.wait s
      else match s.stashTouch r.t.launch team off with
        | .wait s => .wait s
        | .ok s _ => .bytes (s.consumeScratch r.core r.t.launch team off 8) (s.scratchBytes r.t.launch team off 8)).st := by
    split
    · simp [Tame]
    split
    · exact Tried.eq_tame (State.stashTouch_tame ..) (by assumption)
    · exact (Tried.eq_tame (State.stashTouch_tame ..) (by assumption)).trans (State.consumeScratch_quiet ..).tame
  unfold State.againPart
  dsimp only
  split
  · simp [Tame]
  · exact scr _ _
  · exact scr _ _
  · split
    · simp [Tame]
    split
    · split <;> simp [Tame]
    split
    · exact State.entryNow_wait_tame _ _ _ _ _ (by assumption)
    · exact State.entryNow_fault_tame _ _ _ _ _ (by assumption)
    · exact State.entryNow_deny_tame _ _ _ _ _ (by assumption)
    refine (State.entryNow_ok_tame _ _ _ _ _ (by assumption)).trans ?_
    split
    · simp [Tame]
    split
    · simp [Tame]
    split <;> rename_i h <;> have hr := State.routeOf_eq_tame h
    · exact hr
    · exact Tame.trans hr (State.consumeScratch_quiet ..).tame
    · split <;> exact hr

@[simp] theorem State.keepReq_quiet (s : State) (r : Request) (kind : ReqKind) : Quiet s (s.keepReq r kind) := ⟨rfl, rfl, rfl⟩

@[simp] theorem State.againTrap_quiet (s : State) (r : Request) (pc : Word) (code info addr : Nat) :
    Quiet s (s.againTrap r pc code info addr) :=
  (State.dropReq_quiet ..).trans ((State.modThread_quiet ..).trans (State.trapThread_quiet ..))

@[simp] theorem Again.stop_tame (x : Again) (r : Request) (ea : Nat) (pc : Word) (pass : List Nat) (va : Nat) :
    Tame x.st (x.stop r ea pc pass va) := by
  unfold Again.stop
  split
  · dsimp only
    split
    · exact (State.agentFault_quiet ..).tame
    · exact ((State.agentFault_quiet ..).trans (State.keepReq_quiet ..)).tame
  · split
    · simp [Tame, State.keepReq]
    · simp [Tame]
  · exact (State.againTrap_quiet ..).tame
  all_goals simp [Tame]

@[simp] theorem State.againBytes_tame (s : State) (r : Request) (base : Nat) (x : Again) (h : Tame s x.st) :
    Tame s (s.againBytes r base x).1 := by
  unfold State.againBytes
  split
  · exact h
  · exact Tame.trans h (State.lduGlobal_tame _ _ _ _ base)
  · simp [Tame]

theorem Again.on_st (x : Again) (s : State) : (x.on s).st = s := by cases x <;> rfl

/-- What has passed its checks is the state of the answer. -/
theorem Again.passed_st {x : Again} {t : State} (h : x.passed = some t) : x.st = t := by
  cases x <;> simp_all [Again.passed]

@[simp] theorem State.again_tame (s : State) (r : Request) (ea : Nat) (pc : Word) (pass : List Nat) : Tame s (s.again r ea pc pass) := by
  unfold State.again
  dsimp only
  have h1 := State.againPart_tame s r pass (ea - ea % 8)
  split
  · exact h1.trans (Again.stop_tame ..)
  rename_i s1 hp1
  rw [Again.passed_st hp1] at h1
  have h2 : Tame s1 (if ea % 8 = 0 then Again.bytes s1 [] else s1.againPart r pass ((ea - ea % 8 + 8) % 2 ^ 64)).st := by
    split
    · simp [Tame]
    · exact State.againPart_tame ..
  split
  · exact h1.trans (h2.trans (Again.stop_tame ..))
  rename_i s2 hp2
  rw [Again.passed_st hp2] at h2
  have found (u : State) (base : Nat) (x : Again) : Tame u (u.againBytes r base (x.on u)).1 :=
    State.againBytes_tame _ _ _ _ (by rw [Again.on_st]; exact ⟨rfl, rfl, id⟩)
  have h (x y : Again) : Tame s ((s2.againBytes r 0 (x.on s2)).1.againBytes r 8 (y.on (s2.againBytes r 0 (x.on s2)).1)).1 :=
    h1.trans (h2.trans ((found s2 0 x).trans (found _ 8 y)))
  split
  · exact (h _ _).trans ((State.dropReq_quiet ..).trans (State.reply_quiet ..)).tame
  · exact h _ _

theorem execRemoteRequestServe_tame (req : Nat) (s : State) {t' : State} : execRemoteRequestServe req s = .next t' → Tame s t' := by
  grind [execRemoteRequestServe, State.dropReq_quiet, State.reply_quiet, State.launchGo_tame, State.servePart_tame, State.fillCopy_tame,
    State.again_tame, State.againTrap_quiet, State.keepReq_quiet]

theorem execRemoteLineSendTimer_tame (d line : Nat) (s : State) {t' : State} : execRemoteLineSendTimer d line s = .next t' → Tame s t' := by
  grind [execRemoteLineSendTimer, State.sendLine_tame]

theorem execL1WritebackTimer_tame (k : CoreId) (line : Nat) (s : State) {t' : State} : execL1WritebackTimer k line s = .next t' → Tame s t' := by
  grind [execL1WritebackTimer, State.l1Clean_tame]

theorem execLongLatencyReply_quiet (req : Nat) (s : State) {t' : State} : execLongLatencyReply req s = .next t' → Quiet s t' := by
  grind [execLongLatencyReply, State.acquireActs_quiet, State.barrierLeave_quiet, State.stir_quiet, State.modThread_quiet, State.takeClock_quiet]

theorem execSwitchPointLeave_quiet (t : ThreadId) (s : State) {t' : State} : execSwitchPointLeave t s = .next t' → Quiet s t' := by
  grind [execSwitchPointLeave, State.renewStored_quiet, State.modThread_quiet]

/-! ## FrontEnd -/

@[simp] theorem State.newRound_quiet (s : State) : Quiet s s.newRound := by simp [Quiet, State.newRound]

@[simp] theorem State.addUnit_quiet (s : State) (vf q l : Nat) (head : Word) (chained : Bool) : Quiet s (s.addUnit vf q l head chained) := by simp [Quiet, State.addUnit]

@[simp] theorem State.endUnit_quiet (s : State) (vf q : Nat) : Quiet s (s.endUnit vf q) := by simp [Quiet, State.endUnit]

@[simp] theorem State.dropUnit_quiet (s : State) (vf q : Nat) (head : Word) : Quiet s (s.dropUnit vf q head) := by simp [Quiet, State.dropUnit]

@[simp] theorem State.packetDone_quiet (s : State) (vf q : Nat) (chained : Bool) (f : Queue → Queue) : Quiet s (s.packetDone vf q chained f) := by
  dsimp only [State.packetDone]
  (repeat' split) <;> simp_all [Quiet]

@[simp] theorem State.packetOff_quiet (s : State) (vf q : Nat) (chained : Bool) (f : Queue → Queue) : Quiet s (s.packetOff vf q chained f) := by
  dsimp only [State.packetOff]
  (repeat' split) <;> simp_all [Quiet]

@[simp] theorem State.refuseLaunch_quiet (s : State) (vf q : Nat) (chained : Bool) (p : Packet) (status detail : Nat) : Quiet s (s.refuseLaunch vf q chained p status detail) := by simp [Quiet, State.refuseLaunch]

@[simp] theorem State.accept_tame (s : State) (v : Vf) (q : Nat) (p : Packet) (i : Image) (chained : Bool) : Tame s (s.accept v q p i chained) := by
  dsimp only [State.accept]
  (repeat' split) <;> simp_all [Tame]

@[simp] theorem State.modQueue_quiet (s : State) (vf q : Nat) (f : Queue → Queue) : Quiet s (s.modQueue vf q f) := by
  dsimp only [State.modQueue]
  (repeat' split) <;> simp_all [Quiet]

@[simp] theorem State.frontWait_quiet (s : State) (vf q l va kind level : Nat) : Quiet s (s.frontWait vf q l va kind level) := by simp [Quiet, State.frontWait]

@[simp] theorem State.dropPacket_quiet (s : State) (vf q : Nat) (chained : Bool) : Quiet s (s.dropPacket vf q chained) := by simp [Quiet, State.dropPacket]

theorem State.serveOnce_tame (s : State) (vf q : Nat) (chained : Bool) (a : Nat) (again : State → State)
    (ih : ∀ s, Tame s (again s)) : Tame s (s.serveOnce vf q chained a again) := by
  unfold State.serveOnce
  split
  · simp +contextual [Tame]
  dsimp only
  split
  · split
    · simp +contextual [Tame]
    split
    · exact (State.partRead_ok_tame _ _ _ _ _ _ (by assumption)).trans ((Quiet.tame (State.modQueue_quiet ..)).trans (ih _))
    · exact (State.partRead_fault_tame _ _ _ _ _ _ (by assumption)).trans (Quiet.tame (by simp [Quiet]))
    · exact (State.partRead_deny_tame _ _ _ _ _ _ (by assumption)).trans (by simp [Tame])
    · exact State.partRead_wait_tame _ _ _ _ _ _ (by assumption)
  · split
    · simp +contextual [Tame]
    · simp +contextual [Tame]
    split
    · simp +contextual [Tame]
    split
    · exact (State.partRead_ok_tame _ _ _ _ _ _ (by assumption)).trans ((Quiet.tame (State.modQueue_quiet ..)).trans (ih _))
    · exact (State.partRead_fault_tame _ _ _ _ _ _ (by assumption)).trans (Quiet.tame (by simp [Quiet]))
    · exact (State.partRead_deny_tame _ _ _ _ _ _ (by assumption)).trans (by simp [Tame])
    · exact State.partRead_wait_tame _ _ _ _ _ _ (by assumption)

@[simp] theorem State.servePacket_tame (s : State) (vf q : Nat) (chained : Bool) (a x0 : Nat) :
    Tame s (s.servePacket vf q chained a x0) := by
  induction x0 generalizing s with
  | zero => simp [Tame, State.servePacket]
  | succ fuel ih => exact State.serveOnce_tame s vf q chained a _ ih

@[simp] theorem State.refusalWrite_tame (s : State) (v : Vf) (q : Nat) (x : Queue) (w : Nat × List Byte) : Tame s (s.refusalWrite v q x w) := by
  grind [State.refusalWrite, State.frontWait_quiet, State.partWrite_tame, State.partWrite_ok_tame, State.partWrite_fault_tame, State.partWrite_deny_tame, State.partWrite_wait_tame, State.modQueue_quiet]

@[simp] theorem State.readConsts_tame (s : State) (v : Vf) (q : Nat) (x : Queue) (l : Launch) : Tame s (s.readConsts v q x l) := by
  grind [State.readConsts, State.frontWait_quiet, State.partRead_tame, State.partRead_ok_tame, State.partRead_fault_tame, State.partRead_deny_tame, State.partRead_wait_tame, State.killLaunch_quiet, State.modQueue_quiet, State.setLaunch_quiet]

@[simp] theorem State.seePrio_tame (s : State) (v : Vf) (x : Queue) : Tame s (s.seePrio v x).st := by
  unfold State.seePrio
  split
  · exact State.partRead_ok_tame _ _ _ _ _ _ (by assumption)
  · exact State.partRead_fault_tame _ _ _ _ _ _ (by assumption)
  · exact State.partRead_deny_tame _ _ _ _ _ _ (by assumption)
  · exact State.partRead_wait_tame _ _ _ _ _ _ (by assumption)

@[simp] theorem State.seePrios_tame (s : State) (v : Vf) : Tame s (s.seePrios v).st := by
  unfold State.seePrios
  dsimp only
  split
  · simp [Tame]
  · exact State.tryAll_tame _ _ _ (fun _ _ => State.seePrio_tame ..)

theorem execPacketServe_tame (vf q : Nat) (s : State) {t' : State} : execPacketServe vf q s = .next t' → Tame s t' := by
  unfold execPacketServe
  dsimp only
  (repeat' split) <;> intro h <;> cases h <;> first
    | exact ⟨rfl, rfl, id⟩
    | exact State.refusalWrite_tame ..
    | exact State.readConsts_tame ..
    | exact State.servePacket_tame ..
    | exact Tried.eq_tame (State.seePrios_tame ..) (by assumption)
    | exact (Tried.eq_tame (State.seePrios_tame ..) (by assumption)).trans (State.newRound_quiet _).tame
    | exact (Tried.eq_tame (State.seePrios_tame ..) (by assumption)).trans (State.servePacket_tame ..)

end Sys2Proof.Machine
end

