-- ==== Sys2Proof/Laws/KeepEngines.lean ====
section
/-! SUPPORT. What the operations of Streamer, Skiver, Tile, Graver, Stylus, Engine, LaunchEnd leave of the clocks and of memory. -/

namespace Sys2Proof.Machine

/-! ## Streamer -/

@[simp] theorem State.keepRecord_quiet (s : State) (k : CoreId) (vf handle : Nat) (bs : List Byte) : Quiet s (s.keepRecord k vf handle bs) := by simp [Quiet, State.keepRecord]

@[simp] theorem State.lookRecord_tame (s : State) (k : CoreId) (l t handle : Nat) : Tame s (s.lookRecord k l t handle).st := by
  unfold State.lookRecord
  split
  · simp [Tame]
  split
  · exact (State.engReadN_ok_tame _ _ _ _ _ _ _ _ _ _ (by assumption)).trans (State.keepRecord_quiet ..).tame
  · exact State.engReadN_tame ..

theorem State.lookRecord_ok_tame (s : State) (k : CoreId) (l t handle : Nat) {t'} {v0}
    (h' : s.lookRecord k l t handle = .ok t' v0) : Tame s t' := by
  simpa [h'] using State.lookRecord_tame s k l t handle

theorem State.lookRecord_fault_tame (s : State) (k : CoreId) (l t handle : Nat) {t'} {v0 v1}
    (h' : s.lookRecord k l t handle = .fault t' v0 v1) : Tame s t' := by
  simpa [h'] using State.lookRecord_tame s k l t handle

theorem State.lookRecord_deny_tame (s : State) (k : CoreId) (l t handle : Nat) {t'}
    (h' : s.lookRecord k l t handle = .deny t') : Tame s t' := by
  simpa [h'] using State.lookRecord_tame s k l t handle

theorem State.lookRecord_wait_tame (s : State) (k : CoreId) (l t handle : Nat) {t'}
    (h' : s.lookRecord k l t handle = .wait t') : Tame s t' := by
  simpa [h'] using State.lookRecord_tame s k l t handle

@[simp] theorem State.issueCopy_quiet (s : State) (multi : Bool) (h : Nat) (w : List Word) (rec : Option (List Byte))
    (rs : List Range) (d : Reg) : Quiet s (s.issueCopy multi h w rec rs d) := by
  unfold State.issueCopy
  split <;> simp [Quiet]

theorem copyWord_tame (multi sp : Bool) (f : Nat) (d a b : Reg) (s : State) {t' : State} :
    copyWord multi sp f d a b s = .next t' → Tame s t' := by
  unfold copyWord
  refine issue_tame _ _ _ _ _ (fun s => State.withRight_tame _ _ _ ?_)
  dsimp only
  split
  · simp [Tame]
  split
  · simp [Tame]
  split
  · exact (State.issueCopy_quiet ..).tame
  split
  · simp [Tame]
  split
  · simp [Tame]
  split
  · exact (State.lookRecord_ok_tame _ _ _ _ _ (by assumption)).trans (State.issueCopy_quiet ..).tame
  · exact (State.lookRecord_fault_tame _ _ _ _ _ (by assumption)).trans (State.issueCopy_quiet ..).tame
  · exact (State.lookRecord_deny_tame _ _ _ _ _ (by assumption)).trans (State.startEng_quiet ..).tame
  · exact (State.lookRecord_wait_tame _ _ _ _ _ (by assumption)).trans (by simp [Tame])

theorem execCopy_tame (sp : Bool) (d a b : Reg) (s : State) {t' : State} : execCopy sp d a b s = .next t' → Tame s t' :=
  fun h => copyWord_tame _ _ _ _ _ _ _ h

theorem execCopym_tame (sp : Bool) (d a b : Reg) (s : State) {t' : State} : execCopym sp d a b s = .next t' → Tame s t' :=
  fun h => copyWord_tame _ _ _ _ _ _ _ h

theorem execRecfl_quiet (sp : Bool) (d a : Reg) (s : State) {t' : State} : execRecfl sp d a s = .next t' → Quiet s t' := by
  unfold execRecfl
  refine issue_quiet _ _ _ _ _ (fun s => State.withRight_quiet _ _ _ ?_)
  split <;> simp [Quiet]

@[simp] theorem State.beginRecfl_quiet (s : State) (e : EngineOp) (h : Nat) : Quiet s (s.beginRecfl e h) := by
  dsimp only [State.beginRecfl]
  (repeat' split) <;> simp_all [Quiet]

@[simp] theorem State.copyIn_tame (s : State) (e : EngineOp) (b : List Byte) (w : List Word) (sk : Nat) (ts : List Nat)
    (n j : Nat) : Tame s (s.copyIn e b w sk ts n j) := by
  induction n generalizing s j with
  | zero => simp [Tame, State.copyIn]
  | succ n ih =>
    have put (s : State) (bs : List Byte) :
        Tame s (ts.foldl (fun s x => s.writeScratch e.t.launch x (boxScratch b w j) bs) s) := by simp [Tame]
    unfold State.copyIn
    dsimp only
    split
    · exact (put _ _).trans (ih _ _)
    · split
      · simp [Tame]
      · split
        · exact (State.engRead_ok_tame _ _ _ _ _ _ _ _ _ (by assumption)).trans ((put _ _).trans (ih _ _))
        · exact (State.engRead_fault_tame _ _ _ _ _ _ _ _ _ (by assumption)).trans (by simp [Tame])
        · exact (State.engRead_deny_tame _ _ _ _ _ _ _ _ _ (by assumption)).trans (by simp [Tame])
        · exact (State.engRead_wait_tame _ _ _ _ _ _ _ _ _ (by assumption)).trans (by simp [Tame])

@[simp] theorem State.copyOut_tame (s : State) (e : EngineOp) (b : List Byte) (w : List Word) (n : Nat) (fuel j : Nat) :
    Tame s (s.copyOut e b w n fuel j) := by
  induction fuel generalizing s j with
  | zero => simp [Tame, State.copyOut]
  | succ fuel ih =>
    unfold State.copyOut
    split
    · simp [Tame]
    split
    · exact ih _ _
    split
    · simp [Tame]
    · dsimp only
      split
      · exact (State.engWrite_ok_tame _ _ _ _ _ _ _ (by assumption)).trans (ih _ _)
      · exact (State.engWrite_fault_tame _ _ _ _ _ _ _ (by assumption)).trans (by simp [Tame])
      · exact (State.engWrite_deny_tame _ _ _ _ _ _ _ (by assumption)).trans (by simp [Tame])
      · exact (State.engWrite_wait_tame _ _ _ _ _ _ _ (by assumption)).trans (by simp [Tame])

@[simp] theorem State.runCopy_tame (s : State) (e : EngineOp) (multi : Bool) (h : Nat) (w : List Word) (b : List Byte)
    (sk : Nat) : Tame s (s.runCopy e multi h w b sk) := by
  unfold State.runCopy
  dsimp only
  split
  · simp [Tame]
  have all := State.tryAll_tame s (s.copyTargets e.t multi w sk) (fun s x => s.touchRange e.t.launch x (blkOff w) (boxBytes b))
    (fun _ _ => State.touchRange_tame ..)
  split
  · exact (Tried.eq_tame all (by assumption)).trans (State.setEng_quiet ..).tame
  · refine (Tried.eq_tame all (by assumption)).trans ?_
    split
    · exact State.copyIn_tame ..
    · exact (State.consumeScratch_quiet ..).tame.trans (State.copyOut_tame ..)

@[simp] theorem State.renewHatch_quiet (s : State) (l no : Nat) (rs : List Range) : Quiet s (s.renewHatch l no rs) := by
  simp [Quiet, State.renewHatch]

@[simp] theorem State.beginCopy_tame (s : State) (e : EngineOp) (multi : Bool) (h : Nat) (w : List Word)
    (rec : Option (List Byte)) (skipped : Option Nat) : Tame s (s.beginCopy e multi h w rec skipped) := by
  unfold State.beginCopy
  split
  · exact State.runCopy_tame ..
  dsimp only
  generalize (if multi = true then s.skipMask e.t w else 0) = sk
  split
  · exact (State.finishEng_quiet ..).tame
  split
  · exact (State.renewHatch_quiet ..).tame.trans (State.runCopy_tame ..)
  split
  · exact (State.lookRecord_ok_tame _ _ _ _ _ (by assumption)).trans
      ((State.renewHatch_quiet ..).tame.trans (State.runCopy_tame ..))
  · exact (State.lookRecord_fault_tame _ _ _ _ _ (by assumption)).trans (by simp [Tame])
  · exact (State.lookRecord_deny_tame _ _ _ _ _ (by assumption)).trans (by simp [Tame])
  · exact (State.lookRecord_wait_tame _ _ _ _ _ (by assumption)).trans (by simp [Tame])

theorem execSmap_quiet (sp : Bool) (d a b : Reg) (s : State) {t' : State} : execSmap sp d a b s = .next t' → Quiet s t' := by
  unfold execSmap
  refine issue_quiet _ _ _ _ _ (fun s => ?_)
  dsimp only
  (repeat' split) <;> simp_all [Quiet]

theorem execSunmap_tame (sp : Bool) (d a : Reg) (s : State) {t' : State} : execSunmap sp d a s = .next t' → Tame s t' := by
  unfold execSunmap
  refine issue_tame _ _ _ _ _ (fun s => ?_)
  dsimp only
  split
  · simp [Tame]
  rename_i tm _
  split
  · simp [Tame]
  rename_i m _
  have hm : Tame s (m.filled.foldl (fun s f => if tm.stashedDirty (lineOf f.2.pa) then (s.stashClean tm m f.1 f.2 true).stashOut (lineOf f.2.pa) true
      (fun u => u.launch != tm.launch || u.idx != tm.idx) else s.stashClean tm m f.1 f.2 true) s) := by
    refine foldl_tame _ (fun s x => ?_) _ _
    split <;> simp +contextual [Tame]
  refine hm.trans (Quiet.tame ?_)
  split <;> simp [Quiet]

/-! ## Skiver -/

@[simp] theorem State.issueJob_quiet (s : State) (a : Nat) (b : List Byte) (d : Reg) : Quiet s (s.issueJob a b d) := by
  dsimp only [State.issueJob]
  (repeat' split) <;> simp_all [Quiet]

@[simp] theorem State.djob_tame (s : State) (a : Nat) (d : Reg) : Tame s (s.djob a d) := by
  unfold State.djob
  split
  · simp [Tame]
  split
  · simp [Tame]
  split
  · simp [Tame]
  split
  · simp [Tame]
  split
  · simp [Tame]
  split
  · simp [Tame]
  · dsimp only
    split
    · simp [Tame]
    · exact IoRes.next_tame s _ _ _ _ _ (State.readPlace_tame ..) (by simp [Tame]) (by simp [Tame]) (by simp [Tame])
        (by simp [Tame])

theorem execDjob_tame (sp : Bool) (d a : Reg) (s : State) {t' : State} : execDjob sp d a s = .next t' → Tame s t' := by
  unfold execDjob
  exact issue_tame _ _ _ _ _ (fun s => State.withRight_tame _ _ _ (State.djob_tame ..))

@[simp] theorem State.jobRead_tame (s : State) (e : EngineOp) (a : Nat) (needR : Bool) : Tame s (s.jobRead e a needR).st := by
  unfold State.jobRead
  split
  · exact State.engRead_tame ..
  split
  · exact Tried.eq_tame (State.touchRange_tame ..) (by assumption)
  · exact (Tried.eq_tame (State.touchRange_tame ..) (by assumption)).trans (by simp [Tame])

theorem State.jobRead_ok_tame (s : State) (e : EngineOp) (a : Nat) (needR : Bool) {t'} {v0}
    (h' : s.jobRead e a needR = .ok t' v0) : Tame s t' := by
  simpa [h'] using State.jobRead_tame s e a needR

theorem State.jobRead_fault_tame (s : State) (e : EngineOp) (a : Nat) (needR : Bool) {t'} {v0 v1}
    (h' : s.jobRead e a needR = .fault t' v0 v1) : Tame s t' := by
  simpa [h'] using State.jobRead_tame s e a needR

theorem State.jobRead_deny_tame (s : State) (e : EngineOp) (a : Nat) (needR : Bool) {t'} 
    (h' : s.jobRead e a needR = .deny t' ) : Tame s t' := by
  simpa [h'] using State.jobRead_tame s e a needR

theorem State.jobRead_wait_tame (s : State) (e : EngineOp) (a : Nat) (needR : Bool) {t'} 
    (h' : s.jobRead e a needR = .wait t' ) : Tame s t' := by
  simpa [h'] using State.jobRead_tame s e a needR

@[simp] theorem State.jobWrite_tame (s : State) (e : EngineOp) (a : Nat) (v : Byte) : Tame s (s.jobWrite e a v).st := by
  unfold State.jobWrite
  split
  · exact State.engWrite_tame ..
  split
  · exact Tried.eq_tame (State.touchRange_tame ..) (by assumption)
  · exact (Tried.eq_tame (State.touchRange_tame ..) (by assumption)).trans (by simp [Tame])

theorem State.jobWrite_ok_tame (s : State) (e : EngineOp) (a : Nat) (v : Byte) {t'} {v0}
    (h' : s.jobWrite e a v = .ok t' v0) : Tame s t' := by
  simpa [h'] using State.jobWrite_tame s e a v

theorem State.jobWrite_fault_tame (s : State) (e : EngineOp) (a : Nat) (v : Byte) {t'} {v0 v1}
    (h' : s.jobWrite e a v = .fault t' v0 v1) : Tame s t' := by
  simpa [h'] using State.jobWrite_tame s e a v

theorem State.jobWrite_deny_tame (s : State) (e : EngineOp) (a : Nat) (v : Byte) {t'} 
    (h' : s.jobWrite e a v = .deny t' ) : Tame s t' := by
  simpa [h'] using State.jobWrite_tame s e a v

theorem State.jobWrite_wait_tame (s : State) (e : EngineOp) (a : Nat) (v : Byte) {t'} 
    (h' : s.jobWrite e a v = .wait t' ) : Tame s t' := by
  simpa [h'] using State.jobWrite_tame s e a v

@[simp] theorem State.stopJob_quiet (s : State) (e : EngineOp) (j : JobCard) (x : SkiverAt) (code : Nat) : Quiet s (s.stopJob e j x code) := by simp [Quiet, State.stopJob]

theorem IoRes.forJob_tame (u : State) (r : IoRes) (e : EngineOp) (j : JobCard) (x : SkiverAt) (k : State → List Byte → State)
    (hr : Tame u r.st) (hk : ∀ s b, Tame s (k s b)) : Tame u (r.forJob e j x k) :=
  IoRes.next_tame u r _ _ _ _ hr hk (by simp [Tame]) (by simp [Tame]) (by simp [Tame])

@[simp] theorem State.decodeJob_tame (s : State) (e : EngineOp) (j : JobCard) (n : Nat) (x : SkiverAt) :
    Tame s (s.decodeJob e j n x) := by
  induction n generalizing s x with
  | zero => simp [Tame, State.decodeJob]
  | succ n ih =>
    have stop (s : State) (c : Nat) : Tame s (s.stopJob e j x c) := by simp [Tame]
    have stream (s : State) (k : State → Nat → State) (hk : ∀ s t, Tame s (k s t)) : Tame s (
        if j.srcLen ≤ x.i then s.stopJob e j x 5
        else (s.jobRead e (j.src + x.i) true).forJob e j x (fun s bs => k s (natOf bs))) := by
      split
      · exact stop _ _
      · exact IoRes.forJob_tame s _ _ _ _ _ (State.jobRead_tame ..) (fun s b => hk _ _)
    have output (s : State) (v : Byte) (x' : SkiverAt) : Tame s ((s.jobWrite e (j.dst + x.p) v).forJob e j x (fun s _ =>
        s.decodeJob e j n { x' with p := x.p + 1, rem := x.rem - 1, tok := if x.rem ≤ 1 then 0 else x.tok })) :=
      IoRes.forJob_tame s _ _ _ _ _ (State.jobWrite_tame ..) (fun s b => ih _ _)
    unfold State.decodeJob
    dsimp only
    split
    · refine stream s (fun s t => if t = 0xFF then s.stopJob e j x 0
        else if t ≤ 0x7F then s.decodeJob e j n { x with i := x.i + 1, tok := 1, rem := t + 1 }
        else s.decodeJob e j n { x with i := x.i + 1, tok := 3, rem := t % 128 + 3 }) (fun s t => ?_)
      split
      · exact stop _ _
      split <;> exact ih _ _
    split
    · exact stream s (fun s t => s.decodeJob e j n { x with i := x.i + 1, tok := 4, dist := t }) (fun s t => ih _ _)
    split
    · refine stream s (fun s t => if x.dist + 256 * t = 0 ∨ x.p + j.dictLen < x.dist + 256 * t then s.stopJob e j x 3
        else s.decodeJob e j n { x with i := x.i + 1, tok := 2, dist := x.dist + 256 * t }) (fun s t => ?_)
      split
      · exact stop _ _
      · exact ih _ _
    split
    · refine stream s (fun s t => if x.p = j.cap then s.stopJob e j x 4 else
        (s.jobWrite e (j.dst + x.p) (BitVec.ofNat 8 t)).forJob e j x (fun s _ =>
          s.decodeJob e j n { x with i := x.i + 1, p := x.p + 1, rem := x.rem - 1, tok := if x.rem ≤ 1 then 0 else x.tok }))
        (fun s t => ?_)
      split
      · exact stop _ _
      · exact output _ _ { x with i := x.i + 1 }
    split
    · exact stop _ _
    · exact IoRes.forJob_tame s _ _ _ _ _ (State.jobRead_tame ..) (fun s b => output _ _ _)

@[simp] theorem State.beginJob_tame (s : State) (e : EngineOp) (j : JobCard) (x : SkiverAt) : Tame s (s.beginJob e j x) := by
  unfold State.beginJob
  simp_all [Tame]

theorem execSkiverJobStop_tame (op : Nat) (s : State) {t' : State} (h : execSkiverJobStop op s = .next t') : Tame s t' := by
  unfold execSkiverJobStop at h
  split at h
  · cases h; simp [Tame]
  split at h
  · cases h
    split
    · simp [Tame]
    · exact IoRes.next_tame s _ _ _ _ _ (State.engWrite_tame ..) (by simp [Tame]) (by simp [Tame]) (by simp [Tame]) (by simp [Tame])
  · cases h; simp [Tame]

/-! ## Tile -/

/-! ## Graver -/

@[simp] theorem State.issueTask_quiet (s : State) (r : TaskRec) (d : Reg) : Quiet s (s.issueTask r d) := by
  dsimp only [State.issueTask]
  (repeat' split) <;> simp_all [Quiet]

theorem execTask_tame (sp : Bool) (d a : Reg) (s : State) {t' : State} : execTask sp d a s = .next t' → Tame s t' := by
  unfold execTask
  refine issue_tame _ _ _ _ _ (fun s => ?_)
  grind [execTask, State.consumeScratch_quiet, State.issueTask_quiet, State.stashTouch_ok_tame, State.stashTouch_wait_tame, State.quick_quiet, State.parkCur_quiet]

theorem execDprog_quiet (sp : Bool) (d a b : Reg) (s : State) {t' : State} : execDprog sp d a b s = .next t' → Quiet s t' := by
  unfold execDprog
  refine issue_quiet _ _ _ _ _ (fun s => ?_)
  dsimp only
  (repeat' split) <;> simp_all [Quiet]

@[simp] theorem State.beginDprog_tame (s : State) (e : EngineOp) (a slot : Nat) : Tame s (s.beginDprog e a slot) := by
  grind [State.beginDprog, State.consumeScratch_quiet, State.touchRange_ok_tame, State.touchRange_wait_tame, State.finishEng_quiet]

@[simp] theorem State.installProg_quiet (s : State) (e : EngineOp) : Quiet s (s.installProg e) := by
  dsimp only [State.installProg]
  (repeat' split) <;> simp_all [Quiet]

@[simp] theorem State.setChain_quiet (s : State) (c : Chain) : Quiet s (s.setChain c) := by simp [Quiet, State.setChain]

@[simp] theorem State.endTask_quiet (s : State) (e : EngineOp) (status : Word) : Quiet s (s.endTask e status) := by
  dsimp only [State.endTask]
  (repeat' split) <;> simp_all [Quiet]

@[simp] theorem State.latch_quiet (s : State) (g : CoreId) (key : List Nat) : Quiet s (s.latch g key) := by simp [Quiet, State.latch]

@[simp] theorem State.drainWrite_tame (s : State) (e : EngineOp) (r : TaskRec) (run : List (List (Nat × List Byte))) :
    Tame s (s.drainWrite e r run).st :=
  IoRes.foldl_andThen_tame _ _ _ (IoRes.foldl_andThen_tame _ _ _ ⟨rfl, rfl, id⟩ (fun _ _ => State.engMayWrite_tame ..))
    (fun _ _ => State.engWrite_tame ..)

@[simp] theorem State.drainStore_tame (s : State) (e : EngineOp) (r : TaskRec) (c : Chain) (p : DrainProg) (fuel i : Nat) :
    Tame s (s.drainStore e r c p fuel i) := by
  induction fuel generalizing s i with
  | zero => simp [Tame, State.drainStore]
  | succ fuel ih =>
    unfold State.drainStore
    split
    · simp [Tame]
    · exact IoRes.next_tame s _ _ _ _ _ (State.drainWrite_tame ..) (fun s _ => ih _ _) (by simp [Tame]) (by simp [Tame])
        (by simp [Tame])

@[simp] theorem State.addAddr_tame (s : State) (e : EngineOp) (va : Nat) : Tame s (s.addAddr e va).st := by
  unfold State.addAddr
  split
  · simp [Tame]
  split
  · exact State.entryNow_fault_tame _ _ _ _ _ (by assumption)
  · exact State.entryNow_deny_tame _ _ _ _ _ (by assumption)
  · exact State.entryNow_wait_tame _ _ _ _ _ (by assumption)
  · have h := State.entryNow_ok_tame _ _ _ _ _ (by assumption)
    split <;> exact h

theorem State.addAddr_ok_tame (s : State) (e : EngineOp) (va : Nat) {t'} {v0}
    (h' : s.addAddr e va = .ok t' v0) : Tame s t' := by
  simpa [h'] using State.addAddr_tame s e va

theorem State.addAddr_fault_tame (s : State) (e : EngineOp) (va : Nat) {t'} {v0}
    (h' : s.addAddr e va = .fault t' v0) : Tame s t' := by
  simpa [h'] using State.addAddr_tame s e va

theorem State.addAddr_deny_tame (s : State) (e : EngineOp) (va : Nat) {t'}
    (h' : s.addAddr e va = .deny t') : Tame s t' := by
  simpa [h'] using State.addAddr_tame s e va

theorem State.addAddr_wait_tame (s : State) (e : EngineOp) (va : Nat) {t'}
    (h' : s.addAddr e va = .wait t') : Tame s t' := by
  simpa [h'] using State.addAddr_tame s e va

@[simp] theorem State.readyAdd_tame (s : State) (e : EngineOp) (t : Tile) (status : Word) : Tame s (s.readyAdd e t status) := by
  dsimp only [State.readyAdd]
  (repeat' split) <;> simp_all [Tame]

@[simp] theorem State.drainAdd_tame (s : State) (e : EngineOp) (r : TaskRec) (sat : Bool) (ps : List (Nat × List Byte))
    (i : Nat) (t : Tile) : Tame s (s.drainAdd e r sat ps i t) := by
  induction ps generalizing s i t with
  | nil => exact State.readyAdd_tame ..
  | cons p ps ih =>
    unfold State.drainAdd
    split
    · exact (State.addAddr_ok_tame _ _ _ (by assumption)).trans (ih _ _ _)
    · exact (State.addAddr_fault_tame _ _ _ (by assumption)).trans (by simp [Tame])
    · exact (State.addAddr_deny_tame _ _ _ (by assumption)).trans (State.readyAdd_tame ..)
    · exact (State.addAddr_wait_tame _ _ _ (by assumption)).trans (by simp [Tame])

@[simp] theorem State.drainScratch_tame (s : State) (e : EngineOp) (r : TaskRec) (c : Chain) (p : DrainProg) (team off : Nat)
    (add : Bool) : Tame s (s.drainScratch e r c p team off add).st := by
  unfold State.drainScratch
  refine Tried.andThen_tame (State.tryAll_tame _ _ _ (fun _ _ => State.touchRange_tame ..)) (fun s _ => Quiet.tame ?_)
  dsimp only [Tried.st]
  split
  · exact foldl_quiet _ (fun s x => State.writeScratch_quiet ..) _ _
  · exact foldl_quiet _ (fun s x => foldl_quiet _ (fun s x => State.writeScratch_quiet ..) _ _) _ _

@[simp] theorem State.runDrain_tame (s : State) (e : EngineOp) (r : TaskRec) (prog : Option DrainProg) : Tame s (s.runDrain e r prog) := by
  have scr (c : Chain) (p : DrainProg) (team off : Nat) (add : Bool) (st : Word) :
      Tame s (match s.drainScratch e r c p team off add with
        | .ok s _ => s.endTask e st
        | .wait s => s.setEng { e with st := .running }) := by
    split
    · exact (Tried.eq_tame (State.drainScratch_tame ..) (by assumption)).trans (State.endTask_quiet ..).tame
    · exact (Tried.eq_tame (State.drainScratch_tame ..) (by assumption)).trans (State.setEng_quiet ..).tame
  unfold State.runDrain
  dsimp only
  split
  · split
    · simp [Tame]
    split
    · exact scr ..
    · exact scr ..
    · split
      · exact State.drainAdd_tame ..
      · exact State.drainStore_tame ..
  · simp [Tame]
  · simp [Tame]

@[simp] theorem State.beginTask_tame (s : State) (e : EngineOp) (r : TaskRec) (prog : Option DrainProg) (opens : Bool)
    (g : CoreId) (slot : Nat) : Tame s (s.beginTask e r prog opens g slot) := by
  unfold State.beginTask
  dsimp only
  split
  · exact Tried.eq_tame (State.tryAll_tame _ _ _ (fun _ _ => State.touchRange_tame ..)) (by assumption)
  · refine (Tried.eq_tame (State.tryAll_tame _ _ _ (fun _ _ => State.touchRange_tame ..)) (by assumption)).trans ?_
    generalize (if opens = true then _ else _ : Chain) = c
    split <;> split <;>
      first
        | exact Tame.trans (Quiet.tame (by simp [Quiet])) (State.runDrain_tame ..)
        | exact Quiet.tame (by simp [Quiet])

theorem execCobblerDispatch_tame (op : Nat) (s : State) {t' : State} : execCobblerDispatch op s = .next t' → Tame s t' := by
  grind [execCobblerDispatch, State.runDrain_tame, State.beginTask_tame, State.endTask_quiet, State.setEng_quiet]

theorem execEslotTimeout_quiet (op : Nat) (s : State) {t' : State} : execEslotTimeout op s = .next t' → Quiet s t' := by
  grind [execEslotTimeout, State.endTask_quiet]

@[simp] theorem State.applyTileLine_tame (s : State) (d : Nat) (t : Tile) (line : Nat) : Tame s (s.applyTileLine d t line) := by
  unfold State.applyTileLine
  dsimp only
  split
  · simp [Tame]
  · refine Tame.trans (State.stashFlush_tame s line true) ?_
    split
    · exact State.homeWrite_tame ..
    · refine Tame.trans ?_ (foldl_tame _ (fun s m => State.applyMsg_tame s m) _ _)
      simp +contextual [Tame]

@[simp] theorem State.applyTile_tame (s : State) (d : Nat) (t : Tile) : Tame s (s.applyTile d t) := by
  unfold State.applyTile
  dsimp only
  refine Tame.trans ?_ (Quiet.tame (State.stir_quiet _))
  exact (foldl_tame _ (fun s x => State.applyTileLine_tame s d t x) _ _).trans
    (foldl_tame _ (fun s x => State.applyTileLine_tame s d t x) _ _)

@[simp] theorem State.afterTile_quiet (s : State) (k : CoreId) (t : Tile) : Quiet s (s.afterTile k t) := by simp [Quiet, State.afterTile]

theorem execAddOnStorePerform_tame (op : Nat) (s : State) {t' : State} : execAddOnStorePerform op s = .next t' → Tame s t' := by
  grind [execAddOnStorePerform, State.setLaunch_quiet, State.applyTile_tame, State.afterTile_quiet, State.endTask_quiet]

theorem execTicketTileApply_tame (l : Nat) (s : State) {t' : State} : execTicketTileApply l s = .next t' → Tame s t' := by
  grind [execTicketTileApply, State.setLaunch_quiet, State.applyTile_tame, State.afterTile_quiet]

/-! ## Stylus -/

@[simp] theorem State.setSlot_quiet (s : State) (x : CandSlot) : Quiet s (s.setSlot x) := by simp [Quiet, State.setSlot]

theorem State.withSlot_quiet (s : State) (table : Bool) (k : State → CandSlot → State) (hk : ∀ x, Quiet s (k s x)) :
    Quiet s (s.withSlot table k) := by
  unfold State.withSlot
  (repeat' split) <;> first | exact hk _ | simp [Quiet]

theorem State.withSlot_tame (s : State) (table : Bool) (k : State → CandSlot → State) (hk : ∀ x, Tame s (k s x)) :
    Tame s (s.withSlot table k) := by
  unfold State.withSlot
  (repeat' split) <;> first | exact hk _ | simp [Tame]

@[simp] theorem State.endLoad_quiet (s : State) (x : CandSlot) (req : Nat) (got : List Byte) (code detail n : Nat) : Quiet s (s.endLoad x req got code detail n) := by simp [Quiet, State.endLoad]

@[simp] theorem State.keepLoad_quiet (s : State) (x : CandSlot) (req a c : Nat) (got : List Byte) (rid : Option Nat) : Quiet s (s.keepLoad x req a c got rid) := by simp [Quiet, State.keepLoad]

@[simp] theorem State.runLoad_tame (s : State) (x : CandSlot) (req a c : Nat) (fuel : Nat) (got : List Byte) :
    Tame s (s.runLoad x req a c fuel got) := by
  induction fuel generalizing s got with
  | zero => simp [Tame, State.runLoad]
  | succ fuel ih =>
    unfold State.runLoad
    split
    · simp [Tame]
    · simp [Tame]
    · dsimp only
      split
      · simp [Tame]
      · split
        · exact (State.engRead_ok_tame _ _ _ _ _ _ _ _ _ (by assumption)).trans (ih _ _)
        · exact (State.engRead_fault_tame _ _ _ _ _ _ _ _ _ (by assumption)).trans (by simp [Tame])
        · exact (State.engRead_deny_tame _ _ _ _ _ _ _ _ _ (by assumption)).trans (by simp [Tame])
        · exact (State.engRead_wait_tame _ _ _ _ _ _ _ _ _ (by assumption)).trans (by simp [Tame])

@[simp] theorem State.tryLoad_tame (s : State) (t : ThreadId) : Tame s (s.tryLoad t) := by
  dsimp only [State.tryLoad]
  (repeat' split) <;> simp_all [Tame]

theorem execCload_tame (sp : Bool) (d a b : Reg) (s : State) {t' : State} : execCload sp d a b s = .next t' → Tame s t' := by
  unfold execCload
  refine issue_tame _ _ _ _ _ (fun s => State.withSlot_tame _ _ _ (fun x => ?_))
  exact Tame.trans (Quiet.tame (by simp [Quiet])) (State.tryLoad_tame ..)

@[simp] theorem State.regainPipe_quiet (s : State) (x : CandSlot) : Quiet s (s.regainPipe x) := by
  dsimp only [State.regainPipe]
  split <;> simp [Quiet]

theorem execCrun_quiet (sp : Bool) (d a b : Reg) (s : State) {t' : State} : execCrun sp d a b s = .next t' → Quiet s t' := by
  unfold execCrun
  refine issue_quiet _ _ _ _ _ (fun s => State.withSlot_quiet _ _ _ (fun x => ?_))
  dsimp only
  (repeat' split) <;> simp [Quiet]

theorem execCandidateStop_tame (t : ThreadId) (s : State) {t' : State} : execCandidateStop t s = .next t' → Tame s t' := by
  grind [execCandidateStop, State.tryLoad_tame, State.useStored_quiet, State.setSlot_quiet, State.reply_quiet, State.regainPipe_quiet]

theorem execSinit_quiet (sp : Bool) (s : State) {t' : State} : execSinit sp s = .next t' → Quiet s t' := by
  unfold execSinit
  exact issue_quiet _ _ _ _ _ (fun s => State.withSlot_quiet _ _ _ (fun x => by simp [Quiet]))

theorem execSfold_quiet (sp : Bool) (a b : Reg) (s : State) {t' : State} : execSfold sp a b s = .next t' → Quiet s t' := by
  unfold execSfold
  exact issue_quiet _ _ _ _ _ (fun s => State.withSlot_quiet _ _ _ (fun x => by simp [Quiet]))

theorem execSget_quiet (sp : Bool) (d : Reg) (s : State) {t' : State} : execSget sp d s = .next t' → Quiet s t' := by
  unfold execSget
  exact issue_quiet _ _ _ _ _ (fun s => State.withSlot_quiet _ _ _ (fun x => by simp [Quiet]))

@[simp] theorem proofWord_tame (query : Bool) (d : Reg) (h l c : Word) (s : State) : Tame s (proofWord query d h l c s) := by
  unfold proofWord
  refine State.withSlot_tame _ _ _ (fun x => ?_)
  dsimp only
  split
  · exact (State.checkGlobal_stop_quiet _ _ _ _ _ _ _ (by assumption)).tame
  split
  · simp [Tame]
  · simp +contextual [Tame]

theorem execProof_tame (sp : Bool) (d a b : Reg) (s : State) {t' : State} : execProof sp d a b s = .next t' → Tame s t' := by
  unfold execProof
  refine issue_tame _ _ _ _ _ (fun s => ?_)
  grind [execProof, proofWord_tame]

theorem execProofq_tame (sp : Bool) (d a : Reg) (s : State) {t' : State} : execProofq sp d a s = .next t' → Tame s t' := by
  unfold execProofq
  refine issue_tame _ _ _ _ _ (fun s => ?_)
  grind [execProofq, proofWord_tame]

@[simp] theorem State.noteFull_quiet (s : State) (t : ThreadId) (va : Nat) : Quiet s (s.noteFull t va) := by
  dsimp only [State.noteFull]
  (repeat' split) <;> simp_all [Quiet]

theorem execProofPerform_tame (req : Nat) (s : State) {t' : State} : execProofPerform req s = .next t' → Tame s t' := by
  grind [execProofPerform, State.consumeAt_quiet, State.noteFull_quiet, State.homePerform_tame, State.dropReq_quiet, State.stashFlush_tame, State.reply_quiet, State.seenAtHome_quiet]

theorem execProofqPerform_tame (req : Nat) (s : State) {t' : State} : execProofqPerform req s = .next t' → Tame s t' := by
  grind [execProofqPerform, State.homePerform_tame, State.dropReq_quiet, State.reply_quiet]

/-! ## Engine -/

@[simp] theorem State.reenterCopy_quiet (s : State) (e : EngineOp) (multi : Bool) (w : List Word) (rec : Option (List Byte)) :
    Quiet s (s.reenterCopy e multi w rec) := State.reenter_quiet ..

@[simp] theorem State.reenterJob_quiet (s : State) (e : EngineOp) (j : JobCard) (result : Option (Nat × Nat)) :
    Quiet s (s.reenterJob e j result) := by
  unfold State.reenterJob
  split <;> exact State.reenter_quiet ..

theorem execEngineOpBegin_tame (op : Nat) (s : State) {t' : State} : execEngineOpBegin op s = .next t' → Tame s t' := by
  grind [execEngineOpBegin, State.reenterCopy_quiet, State.reenterJob_quiet, State.beginJob_tame, State.beginCopy_tame, State.beginDprog_tame, State.beginRecfl_quiet, State.setEng_quiet]

theorem execEngineRetire_tame (op : Nat) (s : State) {t' : State} : execEngineRetire op s = .next t' → Tame s t' := by
  grind [execEngineRetire, State.tryRetire_tame, State.freeHatch_quiet, State.wake_quiet, State.reply_quiet, State.installProg_quiet]

/-! ## LaunchEnd -/

@[simp] theorem State.writeBackAll_tame (s : State) : Tame s s.writeBackAll := by
  unfold State.writeBackAll
  exact Tame.trans (foldl_tame _ (fun s (c : Core) => State.l1CleanAll_tame s c.id) _ _)
    (foldl_tame _ (fun s (d : Die) => State.sendAll_tame s d.id _) _ _)

@[simp] theorem State.toStage_quiet (s : State) (l : Launch) (n : Nat) (out : List (Nat × List Byte)) : Quiet s (s.toStage l n out) := by simp [Quiet, State.toStage]

@[simp] theorem State.endWrite_tame (s : State) (v : Vf) (l : Launch) (w : Nat × List Byte) : Tame s (s.endWrite v l w) := by
  grind [State.endWrite, State.setLaunch_quiet, State.partWrite_tame, State.partWrite_ok_tame, State.partWrite_fault_tame, State.partWrite_deny_tame, State.partWrite_wait_tame, State.frontRecord_quiet]

@[simp] theorem State.signalStep_quiet (s : State) (l : Launch) : Quiet s (s.signalStep l) := by
  dsimp only [State.signalStep]
  (repeat' split) <;> simp_all [Quiet]

@[simp] theorem State.forget_quiet (s : State) (l : Nat) : Quiet s (s.forget l) := by simp [Quiet, State.forget]

@[simp] theorem State.finishLaunch_tame (s : State) (l : Launch) : Tame s (s.finishLaunch l) := by
  dsimp only [State.finishLaunch]
  (repeat' split) <;> simp_all [Tame]

theorem execLaunchEnd_tame (l : Nat) (s : State) {t' : State} : execLaunchEnd l s = .next t' → Tame s t' := by
  unfold execLaunchEnd
  dsimp only
  (repeat' split) <;> intro h <;> cases h
  all_goals simp +contextual [Tame]

end Sys2Proof.Machine
end

