-- ==== Sys2Proof/Laws/KeepPlace.lean ====
section
/-! SUPPORT. What the operations of Place, Lease, Traps, Faults leave of the clocks and of memory. -/

namespace Sys2Proof.Machine

/-! ## Place -/

@[simp] theorem State.setCarve_tame (s : State) (k : CoreId) (carve : Nat) : Tame s (s.setCarve k carve) := by
  dsimp only [State.setCarve]
  (repeat' split) <;> simp_all [Tame]

@[simp] theorem State.pinLaunch_quiet (s : State) (k : CoreId) (l : Launch) (t : Nat) : Quiet s (s.pinLaunch k l t) := by
  dsimp only [State.pinLaunch]
  (repeat' split) <;> simp_all [Quiet]

@[simp] theorem State.seatCrew_quiet (s : State) (k : CoreId) (c : Crew) : Quiet s (s.seatCrew k c) := by simp [Quiet, State.seatCrew]

@[simp] theorem State.standTeam_quiet (s : State) (l t : Nat) : Quiet s (s.standTeam l t) := by
  dsimp only [State.standTeam]
  (repeat' split) <;> simp_all [Quiet]

@[simp] theorem State.placeTeam_tame (s : State) (l : Launch) (t : Nat) (k : CoreId) : Tame s (s.placeTeam l t k) := by
  dsimp only [State.placeTeam]
  (repeat' split) <;> simp_all [Tame]

theorem State.placeNext_tame (s : State) (v : Vf) (l : Launch) (spread : Bool) {t' : State} :
    s.placeNext v l spread = some t' → Tame s t' := by
  unfold State.placeNext
  split
  · simp
  · intro h
    obtain ⟨ks, -, rfl⟩ := Option.map_eq_some_iff.1 h
    exact foldl_tame _ (fun s x => State.placeTeam_tame ..) _ _

theorem State.placeGrid_tame (s : State) (v : Vf) (l : Launch) (spread : Bool) (x0 : Nat) {t' : State} :
    s.placeGrid v l spread x0 = some t' → Tame s t' := by
  induction x0 generalizing s with
  | zero =>
    unfold State.placeGrid
    intro h
    split at h <;> cases h
    simp [Tame]
  | succ n ih =>
    unfold State.placeGrid
    split
    · intro h; cases h; simp [Tame]
    · intro h
      obtain ⟨u, hu, h⟩ := Option.bind_eq_some_iff.1 h
      exact (State.placeNext_tame _ _ _ _ hu).trans (ih _ h)

theorem State.placeSome_tame (s : State) (v : Vf) (l : Launch) {t' : State} : s.placeSome v l = some t' → Tame s t' := by
  grind [State.placeSome, State.placeGrid_tame, State.placeNext_tame]

theorem execTeamPlacement_tame (l : Nat) (s : State) {t' : State} : execTeamPlacement l s = .next t' → Tame s t' := by
  unfold execTeamPlacement
  (repeat' split) <;> intro h <;> cases h <;> try simp [Tame]
  cases hp : s.placeSome _ _ with
  | none => simp
  | some u => exact State.placeSome_tame _ _ _ hp

@[simp] theorem State.takeWork_quiet (s : State) (t : ThreadId) : Quiet s (s.takeWork t).1 := by
  dsimp only [State.takeWork]
  (repeat' split) <;> simp_all [Quiet]

@[simp] theorem State.takeSteal_quiet (s : State) (t : ThreadId) : Quiet s (s.takeSteal t).1 := by
  dsimp only [State.takeSteal]
  (repeat' split) <;> simp_all [Quiet]

theorem execWorkPieceServe_quiet (req : Nat) (s : State) {t' : State} : execWorkPieceServe req s = .next t' → Quiet s t' := by
  grind [execWorkPieceServe, State.takeWork_quiet, State.dropReq_quiet, State.setDie_quiet, State.reply_quiet, State.takeSteal_quiet, State.setCore_quiet]

/-! ## Lease -/

@[simp] theorem State.reform_quiet (s : State) (d : Nat) : Quiet s (s.reform d) := by simp [Quiet, State.reform]

@[simp] theorem State.useCrewTable_quiet (s : State) (d q : Nat) : Quiet s (s.useCrewTable d q) := by
  unfold State.useCrewTable
  refine foldl_quiet _ (fun s x => ?_) _ _
  grind [State.useCrewTable, State.useStored_quiet]

@[simp] theorem State.requeue_quiet (s : State) (d : Nat) : Quiet s (s.requeue d) := by simp [Quiet, State.requeue]

theorem execReformBoundary_quiet (d : Nat) (s : State) {t' : State} : execReformBoundary d s = .next t' → Quiet s t' := by
  unfold execReformBoundary
  generalize List.range 13 = l
  (repeat' split) <;> intro h <;> cases h <;> simp [Quiet]

theorem execActivationDecision_quiet (k : CoreId) (s : State) {t' : State} : execActivationDecision k s = .next t' → Quiet s t' := by
  grind [execActivationDecision, State.setCore_quiet]

theorem execDueCountExpiry_quiet (c : CrewId) (s : State) {t' : State} : execDueCountExpiry c s = .next t' → Quiet s t' := by
  grind [execDueCountExpiry, State.triggerDecision_quiet, State.setCrew_quiet]

theorem execLeaseWindowExpiry_quiet (c : CrewId) (s : State) {t' : State} : execLeaseWindowExpiry c s = .next t' → Quiet s t' := by
  grind [execLeaseWindowExpiry, State.grow_quiet, State.triggerDecision_quiet, State.setCrew_quiet]

/-! ## Traps -/

theorem execCrewdivDetect_quiet (c : CrewId) (s : State) {t' : State} : execCrewdivDetect c s = .next t' → Quiet s t' := by
  unfold execCrewdivDetect
  split
  · intro h; cases h; simp [Quiet]
  · intro h; cases h
    refine (State.fresh_quiet s).trans (foldl_quiet _ (fun s x => ?_) _ _)
    split <;> simp [Quiet]

theorem execTrapTaken_quiet (c : CrewId) (s : State) {t' : State} : execTrapTaken c s = .next t' → Quiet s t' := by
  grind [execTrapTaken, State.takeTrap_quiet]

@[simp] theorem State.leaveLacer_quiet (s : State) (l : Nat) : Quiet s (s.leaveLacer l) := by simp [Quiet, State.leaveLacer]

@[simp] theorem State.killTeam_quiet (s : State) (l now : Nat) (t : Team) : Quiet s (s.killTeam l now t) := by
  dsimp only [State.killTeam]
  (repeat' split) <;> simp_all [Quiet]

@[simp] theorem State.dropEngines_quiet (s : State) (l : Nat) : Quiet s (s.dropEngines l) := by
  unfold State.dropEngines
  exact Quiet.trans ⟨rfl, rfl, rfl⟩ (foldl_quiet _ (fun s x => State.freeHatch_quiet ..) _ _)

@[simp] theorem State.retireTeams_tame (s : State) (l : Nat) : Tame s (s.retireTeams l) := by
  unfold State.retireTeams
  exact (foldl_tame _ (fun s x => State.tryRetire_tame ..) _ _).trans (State.stir_quiet _).tame

@[simp] theorem State.stopLaunch_tame (s : State) (x : Launch) : Tame s (s.stopLaunch x) := by
  unfold State.stopLaunch
  simp_all [Tame]

theorem execLaunchKill_tame (l : Nat) (s : State) {t' : State} : execLaunchKill l s = .next t' → Tame s t' := by
  grind [execLaunchKill, State.stopLaunch_tame, State.takePermit_quiet, State.dropEngines_quiet, State.retireTeams_tame]

theorem execPermitBackoffExpiry_quiet (t : ThreadId) (s : State) {t' : State} : execPermitBackoffExpiry t s = .next t' → Quiet s t' := by
  grind [execPermitBackoffExpiry, State.modThread_quiet]

/-! ## Faults -/

@[simp] theorem State.backOffStarter_quiet (s : State) (t : ThreadId) : Quiet s (s.backOffStarter t) := by simp [Quiet, State.backOffStarter]

@[simp] theorem State.parkWalkers_quiet (s : State) (w : Walk) (rid : Nat) : Quiet s (s.parkWalkers w rid) := by
  unfold State.parkWalkers
  exact (foldl_quiet _ (fun s x => State.modThread_quiet ..) _ _).trans (foldl_quiet _ (fun s x => State.meetRelease_quiet ..) _ _)

@[simp] theorem State.walkDone_tame (s : State) (w : Walk) (v : Vf) : Tame s (s.walkDone w v) := by
  unfold State.walkDone
  split
  · simp +contextual [Tame]
  · refine Quiet.tame ?_
    dsimp only
    (repeat' split) <;> simp [Quiet]

theorem execPageWalkComplete_tame (walk : Nat) (s : State) {t' : State} (h : execPageWalkComplete walk s = .next t') : Tame s t' := by
  unfold execPageWalkComplete at h
  split at h
  · cases h; simp [Tame]
  rename_i w _
  dsimp only at h
  split at h <;> cases h
  · exact ⟨rfl, rfl, id⟩
  rename_i v _
  split
  · have h0 : Tame s { s with walks := s.walks.filter (fun x => x.id != walk) } := ⟨rfl, rfl, id⟩
    exact h0.trans ((State.flushWalk_tame _ v w.va).trans ((State.walked_quiet _ w.die v w.va).tame.trans (State.walkDone_tame _ w v)))
  · simp [Tame]

@[simp] theorem State.failThread_quiet (s : State) (r : FRec) (how : Settle) (t : Thread) (va : Nat) : Quiet s (s.failThread r how t va) := by
  dsimp only [State.failThread]
  (repeat' split) <;> simp_all [Quiet]

@[simp] theorem State.settleParked_quiet (s : State) (r : FRec) (how : Settle) : Quiet s (s.settleParked r how) := by
  unfold State.settleParked
  refine foldl_quiet _ (fun s x => ?_) _ _
  grind [State.settleParked, State.modThread_quiet, State.failThread_quiet]

@[simp] theorem State.settleStopped_quiet (s : State) (r : FRec) (how : Settle) : Quiet s (s.settleStopped r how) := by
  unfold State.settleStopped
  refine foldl_quiet _ (fun s x => ?_) _ _
  grind [State.settleStopped, State.modThread_quiet, State.failThread_quiet, State.trapThread_quiet]

@[simp] theorem State.failEng_tame (s : State) (e : EngineOp) : Tame s (s.failEng e) := by
  dsimp only [State.failEng]
  (repeat' split) <;> simp_all [Tame]

@[simp] theorem State.settleEngines_tame (s : State) (r : FRec) (how : Settle) : Tame s (s.settleEngines r how) := by
  dsimp only [State.settleEngines]
  (repeat' split) <;> simp_all [Tame]

@[simp] theorem State.settleLoads_quiet (s : State) (r : FRec) (how : Settle) : Quiet s (s.settleLoads r how) := by
  unfold State.settleLoads
  refine foldl_quiet _ (fun s x => ?_) _ _
  grind [State.settleLoads, State.keepLoad_quiet, State.endLoad_quiet]

@[simp] theorem State.settleCopies_quiet (s : State) (r : FRec) (how : Settle) : Quiet s (s.settleCopies r how) := by
  unfold State.settleCopies
  refine foldl_quiet _ (fun s x => ?_) _ _
  grind [State.settleCopies, State.dropReq_quiet, State.reply_quiet]

@[simp] theorem State.settleLacer_quiet (s : State) (r : FRec) (how : Settle) : Quiet s (s.settleLacer r how) := by
  unfold State.settleLacer
  refine foldl_quiet _ (fun s c => foldl_quiet _ (fun s e => ?_) _ _) _ _
  split
  · simp [Quiet]
  split
  · simp [Quiet]
  · exact State.abandonLoad_quiet _ _ _ _ _ _ _ (by simp [Quiet])
  · exact State.abandonLoad_quiet _ _ _ _ _ _ _ (by simp [Quiet])

@[simp] theorem State.settleFront_quiet (s : State) (r : FRec) (how : Settle) : Quiet s (s.settleFront r how) := by simp [Quiet, State.settleFront]

@[simp] theorem State.settleSpill_quiet (s : State) (r : FRec) (how : Settle) : Quiet s (s.settleSpill r how) := by
  dsimp only [State.settleSpill]
  (repeat' split) <;> simp_all [Quiet]

@[simp] theorem State.settleAgain_quiet (s : State) (r : FRec) (how : Settle) : Quiet s (s.settleAgain r how) := ⟨rfl, rfl, rfl⟩

@[simp] theorem State.settle_tame (s : State) (r : FRec) (how : Settle) : Tame s (s.settle r how) := by
  dsimp only [State.settle]
  (repeat' split) <;> simp_all [Tame]

@[simp] theorem State.recordWritten_tame (s : State) (v : Vf) (r : FRec) : Tame s (s.recordWritten v r) := by
  dsimp only [State.recordWritten]
  (repeat' split) <;> simp_all [Tame]

theorem execFaultRecordWrite_tame (vf : Nat) (s : State) {t' : State} : execFaultRecordWrite vf s = .next t' → Tame s t' := by
  grind [execFaultRecordWrite, State.settle_tame, State.recordWritten_tame, State.partWrite_tame, State.partWrite_ok_tame, State.partWrite_fault_tame, State.partWrite_deny_tame, State.partWrite_wait_tame]

@[simp] theorem State.masterTouch_quiet (s : State) (vf : Nat) : Quiet s (s.masterTouch vf) := by simp [Quiet, State.masterTouch]

theorem execResume_tame (vf : Nat) (v : DWord) (s : State) {t' : State} : execResume vf v s = .next t' → Tame s t' := by
  grind [execResume, State.masterTouch_quiet, State.settle_tame]

theorem execFqhead_quiet (vf : Nat) (v : Word) (s : State) {t' : State} : execFqhead vf v s = .next t' → Quiet s t' := by
  grind [execFqhead, State.setVf_quiet]

@[simp] theorem State.removeTlb_quiet (s : State) (v : Vf) : Quiet s (s.removeTlb v) := by
  dsimp only [State.removeTlb]
  (repeat' split) <;> simp_all [Quiet]

theorem execInvalva_quiet (vf : Nat) (va : DWord) (s : State) {t' : State} : execInvalva vf va s = .next t' → Quiet s t' := by
  grind [execInvalva, State.setVf_quiet, State.removeTlb_quiet]

theorem execInvalvaRemovalComplete_quiet (vf : Nat) (s : State) {t' : State} : execInvalvaRemovalComplete vf s = .next t' → Quiet s t' := by
  grind [execInvalvaRemovalComplete, State.setVf_quiet, State.removeTlb_quiet]

end Sys2Proof.Machine
end

