-- ==== Sys2Proof/Laws/KeepHost.lean ====
section
/-! SUPPORT. What the operations of Image, Preempt, Reliability, HostOps, Tick, Load leave of the clocks and of memory. -/

namespace Sys2Proof.Machine

/-! ## Image -/

@[simp] theorem State.readImage_quiet (s : State) (tm : Team) (b : List Byte) : Quiet s (s.readImage tm b) := by
  have h (u : State) (l : List Crew) : Quiet u (l.foldl State.setCrew u) := foldl_quiet _ (fun _ _ => State.setCrew_quiet ..) _ _
  simp only [Quiet] at h
  unfold State.readImage
  dsimp only
  split <;> simp [Quiet, h]

/-! ## Preempt -/

@[simp] theorem State.beginSave_quiet (s : State) (l q : Nat) (auto : Bool) : Quiet s (s.beginSave l q auto) := by simp [Quiet, State.beginSave]

@[simp] theorem State.preemptLaunch_quiet (s : State) (l : Nat) : Quiet s (s.preemptLaunch l) := by simp [Quiet, State.preemptLaunch]

theorem execPreempt_quiet (vf : Nat) (l : DWord) (s : State) {t' : State} : execPreempt vf l s = .next t' → Quiet s t' := by
  grind [execPreempt, State.setVf_quiet, State.preemptLaunch_quiet, State.preemptDone_quiet]

theorem execAutoSwapOut_quiet (l team : Nat) (s : State) {t' : State} : execAutoSwapOut l team s = .next t' → Quiet s t' := by
  grind [execAutoSwapOut, State.beginSave_quiet]

@[simp] theorem State.abandonEngines_quiet (s : State) (l q : Nat) : Quiet s (s.abandonEngines l q) :=
  foldl_quiet _ (fun s e => by simp [Quiet]) _ _

@[simp] theorem State.clearLacer_quiet (s : State) (l q : Nat) : Quiet s (s.clearLacer l q) := by
  unfold State.clearLacer
  exact foldl_quiet _ (fun s c => Quiet.trans (by simp [Quiet]) (foldl_quiet _ (fun s r => by simp [Quiet]) _ _)) _ _

@[simp] theorem State.holdReplies_quiet (s : State) (l q : Nat) : Quiet s (s.holdReplies l q) := by
  unfold State.holdReplies
  exact foldl_quiet _ (fun s x => by simp [Quiet]) _ _

@[simp] theorem State.imagePlaces_tame (s : State) (v : Vf) (ts : List (Team × Nat)) : Tame s (s.imagePlaces v ts).1 := by
  induction ts generalizing s with
  | nil => simp [Tame, State.imagePlaces]
  | cons p ps ih =>
    unfold State.imagePlaces
    dsimp only
    split
    · simp [Tame]
    split
    · exact (State.partPlaces_eq_tame (by assumption)).trans (ih _)
    · exact State.partPlaces_eq_tame (by assumption)

theorem State.imagePlaces_eq_tame {s : State} {v : Vf} {ts : List (Team × Nat)} {t' : State} {ps : List (List (GAddr × Nat))} {e : PartEnd}
    (h : s.imagePlaces v ts = (t', ps, e)) : Tame s t' := by
  have := State.imagePlaces_tame s v ts
  rwa [h] at this

@[simp] theorem State.writeImages_tame (s : State) (v : Vf) (ts : List (Team × Nat)) : Tame s (s.writeImages v ts).st := by
  unfold State.writeImages
  split
  · refine (State.imagePlaces_eq_tame (by assumption)).trans (foldl_tame _ (fun s x => ?_) _ _)
    exact (State.setTeam_quiet ..).tame.trans (State.partPut_tame ..)
  · rw [PartEnd.answer_st]
    exact State.imagePlaces_eq_tame (by assumption)

@[simp] theorem State.leaveCore_quiet (s : State) (t : Team) : Quiet s (s.leaveCore t) := by
  have h (u : State) (cs : List Crew) : Quiet u (cs.foldl (fun s c => s.setCrew { c with
      active := false
      dueActivated := false
      due := false
      eligible := 0
      seenEligible := false
      grower := false }) u) := foldl_quiet _ (fun _ _ => State.setCrew_quiet ..) _ _
  simp only [Quiet] at h
  unfold State.leaveCore
  dsimp only
  split <;> simp [Quiet, h]

@[simp] theorem State.takeTags_quiet (s : State) (t : Team) : Quiet s (s.takeTags t) := by
  unfold State.takeTags
  exact foldl_quiet _ (fun s x => by simp [Quiet]) _ _

@[simp] theorem State.resettle_quiet (s : State) (k : CoreId) (t : Thread) : Quiet s (s.resettle k t) := by
  dsimp only [State.resettle]
  (repeat' split) <;> simp_all [Quiet]

@[simp] theorem State.resumeTeam_quiet (s : State) (l t : Nat) (k : CoreId) : Quiet s (s.resumeTeam l t k) := by
  unfold State.resumeTeam
  dsimp only
  exact Quiet.trans (State.mapThreads_quiet s _) (foldl_quiet _ (fun s x => State.resettle_quiet ..) _ _)

@[simp] theorem State.refuseSave_quiet (s : State) (vf l q : Nat) : Quiet s (s.refuseSave vf l q) := by
  have crews (u : State) (cs : List Crew) : Quiet u (cs.foldl (fun s c => s.setCrew { c with tags := [] }) u) :=
    foldl_quiet _ (fun _ _ => State.setCrew_quiet ..) _ _
  have back (f : State → Team → Team) (u : State) (ts : List Team) : Quiet u (ts.foldl (fun s t =>
      (State.setTeam ((s.teamCrews l t.idx).foldl (fun s c => s.setCrew { c with tags := [] }) s) (f s t)).resumeTeam l t.idx t.core) u) :=
    foldl_quiet _ (fun _ _ => (crews _ _).trans ((State.setTeam_quiet ..).trans (State.resumeTeam_quiet ..))) _ _
  unfold State.refuseSave
  dsimp only
  have h := back (fun s t => { t with st := if (State.pinsDone ((s.teamCrews l t.idx).foldl (fun s c => s.setCrew { c with tags := [] }) s) t) then .resident else .pinning, auto := false })
    s ((s.quadTeams l q).filter (fun t => t.st == .saving))
  (repeat' split)
  · exact h
  · exact h.trans (State.setVf_quiet ..)
  · exact h

@[simp] theorem State.saveQuad_tame (s : State) (v : Vf) (l q : Nat) : Tame s (s.saveQuad v l q) := by
  have clean (u : State) (ts : List Team) : Tame u (ts.foldl (fun s t => (s.stashCleanTeam l t.idx).takeTags t) u) :=
    foldl_tame _ (fun s (t : Team) => (State.stashCleanTeam_tame s l t.idx).trans (Quiet.tame (State.takeTags_quiet ..))) _ _
  have leave (u : State) (ts : List Team) : Tame u (ts.foldl (fun s t => s.leaveCore t) u) :=
    (foldl_quiet _ (fun s t => State.leaveCore_quiet s t) _ _).tame
  have start : Quiet s (State.mapThreads { s with slots := s.slots.map (fun (x : CandSlot) => if s.inQuad l q x.owner then x.saved else x) }
      (fun t => if s.inQuad l q t.id then State.saveThread { s with slots := s.slots.map (fun (x : CandSlot) => if s.inQuad l q x.owner then x.saved else x) } t else t)) := by
    simp [Quiet]
  unfold State.saveQuad
  dsimp only
  generalize hu : List.foldl (fun s (t : Team) => State.takeTags (s.stashCleanTeam l t.idx) t) _ _ = u
  have h1 : Tame s u := hu ▸ start.tame.trans (clean _ _)
  refine h1.trans ?_
  split
  · exact (State.refuseSave_quiet ..).tame
  have w (u : State) (ts : List (Team × Nat)) (r : IoRes) (h : u.writeImages v ts = r) : Tame u r.st :=
    h ▸ State.writeImages_tame u v ts
  split <;> refine (w _ _ _ (by assumption)).trans ?_
  · exact (leave _ _).trans (State.stir_quiet _).tame
  · simp [Tame]
  · exact (State.refuseSave_quiet ..).tame
  · exact (State.refuseSave_quiet ..).tame

theorem execSaveComplete_tame (l quad : Nat) (s : State) {t' : State} : execSaveComplete l quad s = .next t' → Tame s t' := by
  have act (u : State) (ts : List Team) : Tame u (ts.foldl (fun s t => s.releaseActs l t.idx 5) u) :=
    foldl_tame _ (fun s t => State.releaseActs_tame ..) _ _
  unfold execSaveComplete
  dsimp only
  split
  · split
    · intro h; cases h; exact (State.preemptDone_quiet ..).tame
    · intro h; cases h
      have h0 : Quiet s (((s.abandonEngines l quad).clearLacer l quad).holdReplies l quad) := by simp [Quiet]
      have h1 := h0.tame.trans (act _ ((s.quadTeams l quad).filter (fun t => t.st == .saving)))
      split
      · exact h1.trans ((State.saveQuad_tame ..).trans (State.preemptDone_quiet ..).tame)
      · exact h1
  · intro h; cases h; simp [Tame]

theorem execLateReplyWrite_tame (req : Nat) (s : State) {t' : State} : execLateReplyWrite req s = .next t' → Tame s t' := by
  have got (u : State) (r : Reply) : Tame u (State.modThread { u.takeClock r with replies := u.replies.filter (fun x => x.req != req) } r.t
      (fun t => t.hold req r.val)) := Tame.trans (State.takeClock_quiet u r).tame (by simp [Tame])
  unfold execLateReplyWrite
  split
  · intro h; cases h; simp [Tame]
  split
  · intro h; cases h; simp [Tame]
  dsimp only
  split
  · split
    · intro h; cases h; exact State.partPlaces_tame ..
    split
    · intro h; cases h; exact (State.partPlaces_tame ..).trans (State.partPlaces_tame ..)
    · intro h; cases h
      refine Tame.trans (Tame.trans ?_ (State.partPut_tame ..)) (State.partPut_tame ..)
      exact ((State.partPlaces_tame ..).trans (State.partPlaces_tame ..)).trans (got _ _)
  · intro h; cases h; exact got _ _

@[simp] theorem State.takeOver_quiet (s : State) (v : Vf) (l : Nat) : Quiet s (s.takeOver v l) := by
  unfold State.takeOver
  split <;> simp [State.adopt, Quiet]

@[simp] theorem State.allow_quiet (s : State) (l : Nat) : Quiet s (s.allow l) := by simp [State.allow, Quiet]

theorem execRestorel_quiet (vf : Nat) (l : DWord) (s : State) {t' : State} : execRestorel vf l s = .next t' → Quiet s t' := by
  unfold execRestorel
  intro h; cases h
  split
  · simp [Quiet]
  · split
    · split
      · exact State.takeOver_quiet ..
      · exact State.allow_quiet ..
    · exact State.allow_quiet ..

@[simp] theorem State.retakeTokens_quiet (s : State) (l : Launch) (t : Nat) (k : CoreId) : Quiet s (s.retakeTokens l t k) := by
  unfold State.retakeTokens
  split
  · simp [Quiet]
  · refine foldl_quiet _ (fun s x => ?_) _ _
    dsimp only
    split <;> simp [Quiet]

@[simp] theorem State.bindChains_quiet (s : State) (l t : Nat) (k : CoreId) : Quiet s (s.bindChains l t k) := by
  unfold State.bindChains
  refine foldl_quiet _ (fun s x => ?_) _ _
  grind [State.bindChains, State.setChain_quiet]

@[simp] theorem State.bringTags_quiet (s : State) (k : CoreId) (c : Crew) : Quiet s (s.bringTags k c) := by simp [Quiet, State.bringTags]

@[simp] theorem State.moveRequests_quiet (s : State) (l t : Nat) (k : CoreId) : Quiet s (s.moveRequests l t k) := by simp [Quiet, State.moveRequests]

@[simp] theorem State.restoreTeam_tame (s : State) (l : Launch) (t : Nat) (k : CoreId) : Tame s (s.restoreTeam l t k) := by
  have tags (u : State) (cs : List Crew) : Quiet u (cs.foldl (fun s c => s.bringTags k c) u) :=
    foldl_quiet _ (fun _ _ => State.bringTags_quiet ..) _ _
  have seat (f : Crew → Crew) (u : State) (cs : List Crew) : Quiet u (cs.foldl (fun s c => s.seatCrew k (f c)) u) :=
    foldl_quiet _ (fun _ _ => State.seatCrew_quiet ..) _ _
  unfold State.restoreTeam
  split
  · simp [Tame]
  · dsimp only
    refine Tame.trans (Tame.trans ?_ (State.standTeam_quiet ..).tame) (State.triggerDecision_quiet ..).tame
    refine Tame.trans (Tame.trans ?_ (State.resumeTeam_quiet ..).tame) (State.moveRequests_quiet ..).tame
    refine Tame.trans (Tame.trans ?_ (State.retakeTokens_quiet ..).tame) (State.bindChains_quiet ..).tame
    refine Tame.trans ?_ (Quiet.tame ⟨rfl, rfl, rfl⟩)
    refine Tame.trans (Tame.trans ?_ (tags _ _).tame) (seat _ _ _).tame
    refine Tame.trans (Tame.trans ?_ (State.setTeam_quiet ..).tame) (State.acquireActs_quiet ..).tame
    simp +contextual [Tame]

@[simp] theorem State.imageOf_tame (s : State) (v : Vf) (tm : Team) : Tame s (s.imageOf v tm).st := by
  have h := State.partRead_tame s v tm.launch (v.savebase + tm.image.getD 0 * v.savestride) 2 8
  unfold State.imageOf
  dsimp only
  split <;> rename_i e
  · rw [e] at h
    split
    · exact h
    · exact h.trans (State.partRead_tame ..)
  · exact h

@[simp] theorem State.readImages_tame (s : State) (v : Vf) (ts : List Team) : Tame s (s.readImages v ts).st := by
  induction ts generalizing s with
  | nil => simp [Tame, State.readImages]
  | cons t ts ih =>
    have h := State.imageOf_tame s v t
    unfold State.readImages
    split <;> rename_i e
    · rw [e] at h
      exact h.trans ((State.readImage_quiet ..).tame.trans (ih _))
    · exact h

@[simp] theorem State.landWord_quiet (s : State) (l t : Nat) (x : Nat × Word) : Quiet s (s.landWord l t x) := by
  unfold State.landWord
  dsimp only
  split <;> simp [Quiet]

@[simp] theorem State.landLate_tame (s : State) (l t : Nat) : Tame s (s.landLate l t) := by
  unfold State.landLate
  split
  · simp [Tame]
  split
  · simp [Tame]
  rename_i tm _ _
  have all := State.tryAll_tame s tm.late (fun s x => (s.stashTouch l t x.1).andThen (fun s _ => .ok (s.landWord l t x) ()))
    (fun s x => Tried.andThen_tame (State.stashTouch_tame ..) (fun _ _ => (State.landWord_quiet ..).tame))
  split
  · exact (Tried.eq_tame all (by assumption)).trans ((State.startPinned_quiet ..).trans (State.triggerDecision_quiet ..)).tame
  · exact Tried.eq_tame all (by assumption)

@[simp] theorem State.returnTo_tame (s : State) (l : Launch) (ts : List (Team × CoreId)) : Tame s (s.returnTo l ts) := by
  unfold State.returnTo
  refine Tame.trans (foldl_tame _ (fun s x => ?_) _ _) (foldl_tame _ (fun s t => State.landLate_tame ..) _ _)
  split
  · exact (State.setTeam_quiet ..).tame
  · exact State.restoreTeam_tame ..

@[simp] theorem State.noteRestored_quiet (s : State) (vf : Nat) : Quiet s (s.noteRestored vf) := by
  unfold State.noteRestored
  split <;> simp [Quiet]

theorem execTeamRestore_tame (l quad : Nat) (s : State) {t' : State} : execTeamRestore l quad s = .next t' → Tame s t' := by
  have read (v : Vf) (ts : List Team) (r : IoRes) (h : s.readImages v ts = r) : Tame s r.st := h ▸ State.readImages_tame s v ts
  unfold execTeamRestore
  dsimp only
  split
  · split
    · intro h; cases h
      exact (foldl_tame _ (fun s t => State.landLate_tame ..) _ _).trans (State.stir_quiet _).tame
    split
    · intro h; cases h; simp [Tame]
    split
    · intro h; cases h; simp [Tame]
    split <;> rename_i e <;> intro h <;> cases h
    · exact (read _ _ _ e).trans ((State.returnTo_tame ..).trans ((State.noteRestored_quiet ..).trans ((State.stir_quiet _).trans
        ((State.checkDies_quiet ..).trans (State.barrierLeave_quiet _)))).tame)
    · exact read _ _ _ e
    · simp [Tame]
    · simp [Tame]
  · intro h; cases h; simp [Tame]

@[simp] theorem State.setEyecmd_quiet (s : State) (vf n : Nat) : Quiet s (s.setEyecmd vf n) := by
  dsimp only [State.setEyecmd]
  (repeat' split) <;> simp_all [Quiet]

@[simp] theorem State.holdEyecmd_quiet (s : State) (vf : Nat) (fill : Bool) (k : CoreId) (entry : Nat) : Quiet s (s.holdEyecmd vf fill k entry) := by
  dsimp only [State.holdEyecmd]
  (repeat' split) <;> simp_all [Quiet]

theorem execEyeletSpill_tame (vf : Nat) (k : CoreId) (entry : Nat) (s : State) {t' : State} : execEyeletSpill vf k entry s = .next t' → Tame s t' := by
  grind [execEyeletSpill, State.stir_quiet, State.holdEyecmd_quiet, State.setBarrier_quiet, State.setEyecmd_quiet, State.partWrite_tame, State.partWrite_ok_tame, State.partWrite_fault_tame, State.partWrite_deny_tame, State.partWrite_wait_tame]

theorem execEyeletFill_tame (vf : Nat) (k : CoreId) (entry : Nat) (s : State) {t' : State} : execEyeletFill vf k entry s = .next t' → Tame s t' := by
  grind [execEyeletFill, State.holdEyecmd_quiet, State.endSpill_quiet, State.barrierLeave_quiet, State.checkBarrier_quiet, State.partRead_tame, State.partRead_ok_tame, State.partRead_fault_tame, State.partRead_deny_tame, State.partRead_wait_tame, State.setBarrier_quiet, State.setEyecmd_quiet, State.stir_quiet]

theorem execMigctl_quiet (vf : Nat) (x : Word) (s : State) {t' : State} : execMigctl vf x s = .next t' → Quiet s t' := by
  unfold execMigctl
  dsimp only
  (repeat' split) <;> (try intro h) <;> (try cases h) <;>
    simp +contextual (disch := first | (simp; done) | (intros; (repeat' split) <;> simp)) [Quiet]

theorem execMigrationQuiesced_quiet (vf : Nat) (s : State) {t' : State} : execMigrationQuiesced vf s = .next t' → Quiet s t' := by
  grind [execMigrationQuiesced, State.setVf_quiet]

theorem execVtime_quiet (vf : Nat) (x : DWord) (s : State) {t' : State} : execVtime vf x s = .next t' → Quiet s t' := by
  grind [execVtime, State.setVf_quiet]

/-! ## Reliability -/

@[simp] theorem State.writeSignals_tame (s : State) (v : Vf) (x0 : List (Nat × Nat × Nat × Nat)) :
    Tame s (s.writeSignals v x0) := by
  induction x0 generalizing s with
  | nil => simp [Tame, State.writeSignals]
  | cons p ps ih =>
    have step (u : State) : Tame u { u with intervals := modOldest v.id (fun i => { i with signals := ps }) u.intervals } := by
      simp [Tame]
    unfold State.writeSignals
    dsimp only
    split
    · exact (State.partWrite_fault_tame _ _ _ _ _ _ (by assumption)).trans (Quiet.tame (by simp [Quiet]))
    · exact (State.partWrite_ok_tame _ _ _ _ _ _ (by assumption)).trans ((step _).trans (ih _))
    · exact (State.partWrite_deny_tame _ _ _ _ _ _ (by assumption)).trans ((step _).trans (ih _))
    · exact State.partWrite_wait_tame _ _ _ _ _ _ (by assumption)

@[simp] theorem State.checkLines_quiet (s : State) (vf : Nat) (i : Interval) : Quiet s (s.checkLines vf i) :=
  foldl_quiet _ (fun _ _ => State.consumeAt_quiet ..) _ _

theorem execIntervalClose_tame (vf : Nat) (s : State) {t' : State} : execIntervalClose vf s = .next t' → Tame s t' := by
  grind [execIntervalClose, State.checkLines_quiet, State.writeSignals_tame]

@[simp] theorem State.dropUnderWay_quiet (s : State) (vf : Nat) (lines : List Nat) : Quiet s (s.dropUnderWay vf lines) := by
  have send (u : State) (rs : List Request) : Quiet u (rs.foldl (fun s r => match launchVf r.t.launch == vf, r.goesTo with
      | true, some g => s.addMsg r.core.die r.tag (homeOf g.pa) g [] true false
      | _, _ => s) u) := foldl_quiet _ (fun s r => by split <;> simp [Quiet]) _ _
  have free (u : State) (es : List EngineOp) : Quiet u (es.foldl (fun s e => s.freeHatch e.no) u) :=
    foldl_quiet _ (fun s e => State.freeHatch_quiet ..) _ _
  unfold State.dropUnderWay
  exact (send s s.requests).trans (Quiet.trans ⟨rfl, rfl, rfl⟩ (free _ _))

@[simp] theorem State.stopAndForget_tame (s : State) (x : Launch) : Tame s (s.stopAndForget x) := by
  dsimp only [State.stopAndForget]
  (repeat' split) <;> simp_all [Tame]

@[simp] theorem State.restoreLine_tame (s : State) (e : Nat × List Byte) : Tame s (s.restoreLine e) := by
  unfold State.restoreLine
  simp_all [Tame]

@[simp] theorem State.rollback_tame (s : State) (v : Vf) (bad : FaultLoc) : Tame s (s.rollback v bad) := by
  have stop (u : State) (ls : List Launch) : Tame u (ls.foldl State.stopAndForget u) :=
    foldl_tame _ (fun s x => by simp +contextual [Tame]) _ _
  have back (u : State) (es : List (Nat × List Byte)) : Tame u (es.foldl State.restoreLine u) :=
    foldl_tame _ (fun s x => State.restoreLine_tame ..) _ _
  unfold State.rollback
  dsimp only
  have h0 : Tame s (((s.openIntervals v.id).reverse.flatMap (fun i => i.log)).foldl State.restoreLine
      (((s.dropUnderWay v.id (((s.openIntervals v.id).reverse.flatMap (fun i => i.log)).map (fun e => e.1))).launches.filter
        (fun x => x.vf == v.id)).foldl State.stopAndForget
        (s.dropUnderWay v.id (((s.openIntervals v.id).reverse.flatMap (fun i => i.log)).map (fun e => e.1))))) :=
    (State.dropUnderWay_quiet ..).tame.trans ((stop _ _).trans (back _ _))
  refine Tame.trans (Tame.trans ?_ (State.traceEvent_tame ..)) (State.stir_quiet _).tame
  refine Tame.trans ?_ (State.preemptDone_quiet ..).tame
  refine Tame.trans (t := match State.vf? _ v.id with | none => _ | some w => State.setVf _ _) ?_ ⟨rfl, rfl, id⟩
  split
  · exact h0
  · exact h0.trans (Quiet.tame (by simp [Quiet]))

@[simp] theorem State.killContext_quiet (s : State) (vf : Nat) (k : CoreId) : Quiet s (s.killContext vf k) := by simp [Quiet, State.killContext]

theorem execUncorrectableConsumed_tame (vf : Nat) (s : State) {t' : State} : execUncorrectableConsumed vf s = .next t' → Tame s t' := by
  grind [execUncorrectableConsumed, State.killContext_quiet, State.rollback_tame]

@[simp] theorem State.scrub_quiet (s : State) : Quiet s s.scrub := by
  unfold State.scrub
  exact Quiet.trans ⟨rfl, rfl, rfl⟩ (foldl_quiet _ (fun s f => State.countErr_quiet ..) _ _)

theorem execSingleFault_quiet (loc : FaultLoc) (s : State) {t' : State} : execSingleFault loc s = .next t' → Quiet s t' := by
  grind [execSingleFault]

theorem execTimingReplay_quiet (k : CoreId) (quarter : Nat) (s : State) {t' : State} : execTimingReplay k quarter s = .next t' → Quiet s t' := by
  grind [execTimingReplay, State.consume_quiet, State.countErr_quiet, State.setCore_quiet]

theorem execSchedulerRebuild_quiet (die quad : Nat) (s : State) {t' : State} : execSchedulerRebuild die quad s = .next t' → Quiet s t' := by
  grind [execSchedulerRebuild, State.setDie_quiet, State.useCrewTable_quiet]

theorem execVoltageEvaluation_quiet (die dom : Nat) (s : State) {t' : State} : execVoltageEvaluation die dom s = .next t' → Quiet s t' := by
  grind [execVoltageEvaluation, State.setDie_quiet, State.interrupt_quiet]

theorem execThrottleStart_tame (die : Nat) (s : State) {t' : State} : execThrottleStart die s = .next t' → Tame s t' := by
  grind [execThrottleStart, State.setDie_quiet, State.traceEvent_tame]

theorem execThrottleEnd_tame (die : Nat) (s : State) {t' : State} : execThrottleEnd die s = .next t' → Tame s t' := by
  grind [execThrottleEnd, State.setDie_quiet, State.traceEvent_tame]

theorem execTraceCaptureStop_quiet (s : State) {t' : State} : execTraceCaptureStop s = .next t' → Quiet s t' := by
  grind [execTraceCaptureStop]

theorem execPowerOn_quiet (failing : Option Nat) (s : State) {t' : State} : execPowerOn failing s = .next t' → Quiet s t' := by
  unfold execPowerOn
  (repeat' split) <;> intro h <;> cases h <;> exact ⟨rfl, rfl, rfl⟩

theorem execMemoryInitComplete_wf (s : State) {t' : State} :
    execMemoryInitComplete s = .next t' → s.mem.wf = true → t'.mem.wf = true := by
  unfold execMemoryInitComplete
  split <;> intro h <;> cases h
  · exact Memory.filter_wf _
  · exact id

@[simp] theorem State.masterWrite_tame (s : State) (v : Vf) (x : Nat × Nat × Nat × List Byte) (rest : List (Nat × Nat × Nat × List Byte)) :
    Tame s (s.masterWrite v x rest) := by
  have write (r : IoRes) (h : (s.masterTouch v.id).partWrite v 0 x.2.2.1 (x.2.2.2.length + 1) x.2.2.2 = r) : Tame s r.st :=
    h ▸ (State.masterTouch_quiet s v.id).tame.trans (State.partWrite_tame ..)
  unfold State.masterWrite
  dsimp only
  split <;> exact write _ (by assumption)

theorem execMasterMemoryWrite_tame (m vf va : Nat) (bs : List Byte) (s : State) {t' : State} : execMasterMemoryWrite m vf va bs s = .next t' → Tame s t' := by
  grind [execMasterMemoryWrite, State.masterWrite_tame]

/-! ## HostOps -/

theorem execQueueTail_quiet (vf q : Nat) (x : Word) (s : State) {t' : State} : execQueueTail vf q x s = .next t' → Quiet s t' := by
  grind [execQueueTail, State.modQueue_quiet, State.masterTouch_quiet]

@[simp] theorem State.semBlock_quiet (s : State) (m i v : Nat) : Quiet s (s.semBlock m i v) := by
  dsimp only [State.semBlock]
  (repeat' split) <;> simp_all [Quiet]

theorem execSemAcquire_quiet (m i : Nat) (s : State) {t' : State} : execSemAcquire m i s = .next t' → Quiet s t' := by
  grind [execSemAcquire, State.semBlock_quiet]

theorem execSemRelease_quiet (m i : Nat) (s : State) {t' : State} : execSemRelease m i s = .next t' → Quiet s t' := by
  grind [execSemRelease, State.semBlock_quiet]

theorem execFrameQuota_quiet (vf : Nat) (k : CoreId) (n : Nat) (s : State) {t' : State} : execFrameQuota vf k n s = .next t' → Quiet s t' := by
  grind [execFrameQuota, State.setVf_quiet, State.lacerStir_quiet]

theorem execDiemask_quiet (vf : Nat) (x : Word) (s : State) {t' : State} : execDiemask vf x s = .next t' → Quiet s t' := by
  grind [execDiemask, State.setVf_quiet]

theorem execVfCreate_quiet (vf : Nat) (f0 f1 : Word) (s : State) {t' : State} : execVfCreate vf f0 f1 s = .next t' → Quiet s t' := by
  grind [execVfCreate]

@[simp] theorem State.forgetVf_quiet (s : State) (vf : Nat) : Quiet s (s.forgetVf vf) := by
  unfold State.forgetVf
  dsimp only
  simp +contextual (disch := first | (simp; done) | (intros; (repeat' split) <;> simp)) [Quiet]

theorem execVfDestroy_quiet (vf : Nat) (s : State) {t' : State} : execVfDestroy vf s = .next t' → Quiet s t' := by
  grind [execVfDestroy, State.stir_quiet, State.forgetVf_quiet]

@[simp] theorem State.modVf_quiet (s : State) (vf : Nat) (f : Vf → Vf) : Quiet s (s.modVf vf f) := by
  dsimp only [State.modVf]
  (repeat' split) <;> simp_all [Quiet]

theorem execRegisterWrite_quiet (r : HostReg) (v : DWord) (s : State) {t' : State} : execRegisterWrite r v s = .next t' → Quiet s t' := by
  unfold execRegisterWrite
  dsimp only
  (repeat' split) <;> (try intro h) <;> (try cases h) <;>
    simp +contextual (disch := first | (simp; done) | (intros; (repeat' split) <;> simp)) [Quiet]

/-! ## Tick -/

@[simp] theorem State.focus_quiet (s : State) (t : ThreadId) : Quiet s (s.focus t) := by
  dsimp only [State.focus]
  (repeat' split) <;> simp_all [Quiet]

@[simp] theorem State.useCode_quiet (s : State) (k : CoreId) (vf coid : Nat) (pc : Word) : Quiet s (s.useCode k vf coid pc) := by simp [Quiet, State.useCode]

@[simp] theorem State.endCycle_mem (s : State) : s.endCycle.mem = s.mem := by
  have scrubbed (c : Bool) (u : State) : (if c then u.scrub else u).mem = u.mem := by
    cases c
    · rfl
    · exact (State.scrub_quiet u).2.2
  unfold State.endCycle
  split
  · rfl
  · exact scrubbed _ _

/-! ## Load -/

@[simp] theorem State.loadProgram_quiet (s : State) : Quiet s s.loadProgram := by simp [Quiet, State.loadProgram]

@[simp] theorem State.placeWord_quiet (s : State) (w : Word) : Quiet s (s.placeWord w) := by simp [Quiet, State.placeWord]

@[simp] theorem State.loadWord_quiet (s : State) (w : Word) : Quiet s (s.loadWord w) := by
  dsimp only [State.loadWord]
  (repeat' split) <;> simp_all [Quiet]

end Sys2Proof.Machine
end

