-- ==== Sys2Proof/Laws/PerInstr.lean ====
section
/-! SUPPORT. One law of every constructor of `Instr`, as syntax: bit 31 of an instruction's word is its switch-point bit S (R34). -/

namespace Sys2Proof

theorem append_above {n k i : Nat} (x : BitVec n) (y : BitVec k) (h : k ≤ i) : (x ++ y).getLsbD i = x.getLsbD (i - k) := by
  simp [BitVec.getLsbD_append, Nat.not_lt.mpr h]
theorem formA_switch (sp : Bool) (m : BitVec 4) (f : BitVec 6) (d a b : Reg) : (formA sp m f d a b).getLsbD 31 = sp := by
  exact (append_above (BitVec.ofBool sp ++ m ++ f ++ d ++ a) b (by decide)).trans <| (append_above (BitVec.ofBool sp ++ m ++ f ++ d) a (by decide)).trans <| (append_above (BitVec.ofBool sp ++ m ++ f) d (by decide)).trans <| (append_above (BitVec.ofBool sp ++ m) f (by decide)).trans <| (append_above (BitVec.ofBool sp) m (by decide)).trans <| by simp
theorem formI_switch (sp : Bool) (m : BitVec 4) (f : BitVec 3) (d a : Reg) (imm : BitVec 10) : (formI sp m f d a imm).getLsbD 31 = sp := by
  exact (append_above (BitVec.ofBool sp ++ m ++ f ++ d ++ a) imm (by decide)).trans <| (append_above (BitVec.ofBool sp ++ m ++ f ++ d) a (by decide)).trans <| (append_above (BitVec.ofBool sp ++ m ++ f) d (by decide)).trans <| (append_above (BitVec.ofBool sp ++ m) f (by decide)).trans <| (append_above (BitVec.ofBool sp) m (by decide)).trans <| by simp
theorem formU_switch (sp : Bool) (m : BitVec 4) (u : BitVec 2) (d : Reg) (imm : BitVec 18) : (formU sp m u d imm).getLsbD 31 = sp := by
  exact (append_above (BitVec.ofBool sp ++ m ++ u ++ d) imm (by decide)).trans <| (append_above (BitVec.ofBool sp ++ m ++ u) d (by decide)).trans <| (append_above (BitVec.ofBool sp ++ m) u (by decide)).trans <| (append_above (BitVec.ofBool sp) m (by decide)).trans <| by simp
theorem formB_switch (sp : Bool) (m : BitVec 4) (c : BitVec 3) (a : Reg) (off : BitVec 17) : (formB sp m c a off).getLsbD 31 = sp := by
  exact (append_above (BitVec.ofBool sp ++ m ++ c ++ a) off (by decide)).trans <| (append_above (BitVec.ofBool sp ++ m ++ c) a (by decide)).trans <| (append_above (BitVec.ofBool sp ++ m) c (by decide)).trans <| (append_above (BitVec.ofBool sp) m (by decide)).trans <| by simp
theorem formJ_switch (sp : Bool) (m : BitVec 4) (k : BitVec 2) (off : BitVec 25) : (formJ sp m k off).getLsbD 31 = sp := by
  exact (append_above (BitVec.ofBool sp ++ m ++ k) off (by decide)).trans <| (append_above (BitVec.ofBool sp ++ m) k (by decide)).trans <| (append_above (BitVec.ofBool sp) m (by decide)).trans <| by simp
theorem formM_switch (sp : Bool) (m : BitVec 4) (z : BitVec 3) (p : BitVec 2) (d a : Reg) (off : BitVec 8) :
    (formM sp m z p d a off).getLsbD 31 = sp := by
  exact (append_above (BitVec.ofBool sp ++ m ++ z ++ p ++ d ++ a) off (by decide)).trans <| (append_above (BitVec.ofBool sp ++ m ++ z ++ p ++ d) a (by decide)).trans <| (append_above (BitVec.ofBool sp ++ m ++ z ++ p) d (by decide)).trans <| (append_above (BitVec.ofBool sp ++ m ++ z) p (by decide)).trans <| (append_above (BitVec.ofBool sp ++ m) z (by decide)).trans <| (append_above (BitVec.ofBool sp) m (by decide)).trans <| by simp

/-- The switch-point bit S of an instruction; a step that is no word has none. -/
def Instr.switches : Instr → Bool
  | .add sp _ _ _ => sp
  | .sub sp _ _ _ => sp
  | .mullo sp _ _ _ => sp
  | .mulhiS32 sp _ _ _ => sp
  | .mulhiN32 sp _ _ _ => sp
  | .mulwS32 sp _ _ _ => sp
  | .mulwN32 sp _ _ _ => sp
  | .mad sp _ _ _ => sp
  | .divS32 sp _ _ _ => sp
  | .divN32 sp _ _ _ => sp
  | .remS32 sp _ _ _ => sp
  | .remN32 sp _ _ _ => sp
  | .and sp _ _ _ => sp
  | .or sp _ _ _ => sp
  | .xor sp _ _ _ => sp
  | .andn sp _ _ _ => sp
  | .orn sp _ _ _ => sp
  | .shl sp _ _ _ => sp
  | .shr sp _ _ _ => sp
  | .sar sp _ _ _ => sp
  | .rotl sp _ _ _ => sp
  | .rotr sp _ _ _ => sp
  | .minS32 sp _ _ _ => sp
  | .minN32 sp _ _ _ => sp
  | .maxS32 sp _ _ _ => sp
  | .maxN32 sp _ _ _ => sp
  | .sad sp _ _ _ => sp
  | .sel sp _ _ _ => sp
  | .seteq sp _ _ _ => sp
  | .setne sp _ _ _ => sp
  | .setltS32 sp _ _ _ => sp
  | .setltN32 sp _ _ _ => sp
  | .setleS32 sp _ _ _ => sp
  | .setleN32 sp _ _ _ => sp
  | .clz sp _ _ => sp
  | .popc sp _ _ => sp
  | .brev sp _ _ => sp
  | .bfxS32 sp _ _ _ => sp
  | .bfxN32 sp _ _ _ => sp
  | .bfi sp _ _ _ => sp
  | .add64 sp _ _ _ => sp
  | .sub64 sp _ _ _ => sp
  | .shl64 sp _ _ _ => sp
  | .shr64 sp _ _ _ => sp
  | .sar64 sp _ _ _ => sp
  | .seteq64 sp _ _ _ => sp
  | .setlt64S sp _ _ _ => sp
  | .setlt64N sp _ _ _ => sp
  | .mad64N32 sp _ _ _ => sp
  | .mad64S32 sp _ _ _ => sp
  | .mov sp _ _ => sp
  | .mov64 sp _ _ => sp
  | .addi sp _ _ _ => sp
  | .andi sp _ _ _ => sp
  | .ori sp _ _ _ => sp
  | .xori sp _ _ _ => sp
  | .shli sp _ _ _ => sp
  | .shri sp _ _ _ => sp
  | .sari sp _ _ _ => sp
  | .setltiS32 sp _ _ _ => sp
  | .fadd sp _ _ _ => sp
  | .fsub sp _ _ _ => sp
  | .fmul sp _ _ _ => sp
  | .fma sp _ _ _ => sp
  | .fmin sp _ _ _ => sp
  | .fmax sp _ _ _ => sp
  | .fdiv sp _ _ _ => sp
  | .fsqrt sp _ _ => sp
  | .frcp sp _ _ => sp
  | .frsq sp _ _ => sp
  | .fexp2 sp _ _ => sp
  | .flog2 sp _ _ => sp
  | .fabs sp _ _ => sp
  | .fneg sp _ _ => sp
  | .frint sp _ _ => sp
  | .fclass sp _ _ => sp
  | .fseteq sp _ _ _ => sp
  | .fsetlt sp _ _ _ => sp
  | .fsetle sp _ _ _ => sp
  | .fsetun sp _ _ _ => sp
  | .dadd sp _ _ _ => sp
  | .dsub sp _ _ _ => sp
  | .dmul sp _ _ _ => sp
  | .dfma sp _ _ _ => sp
  | .dmin sp _ _ _ => sp
  | .dmax sp _ _ _ => sp
  | .ddiv sp _ _ _ => sp
  | .dsqrt sp _ _ => sp
  | .drint sp _ _ => sp
  | .dseteq sp _ _ _ => sp
  | .dsetlt sp _ _ _ => sp
  | .dsetle sp _ _ _ => sp
  | .hadd2 sp _ _ _ => sp
  | .hmul2 sp _ _ _ => sp
  | .hfma2 sp _ _ _ => sp
  | .badd2 sp _ _ _ => sp
  | .bmul2 sp _ _ _ => sp
  | .bfma2 sp _ _ _ => sp
  | .cvtF32S32 sp _ _ => sp
  | .cvtF32N32 sp _ _ => sp
  | .cvtS32F32 sp _ _ => sp
  | .cvtN32F32 sp _ _ => sp
  | .cvtF64F32 sp _ _ => sp
  | .cvtF32F64 sp _ _ => sp
  | .cvtF64S32 sp _ _ => sp
  | .cvtS32F64 sp _ _ => sp
  | .cvtF64S64 sp _ _ => sp
  | .cvtS64F64 sp _ _ => sp
  | .cvtF64N64 sp _ _ => sp
  | .cvtN64F64 sp _ _ => sp
  | .packF16 sp _ _ _ => sp
  | .packBf16 sp _ _ _ => sp
  | .unpkF16 sp _ _ => sp
  | .unpkBf16 sp _ _ => sp
  | .sext8 sp _ _ => sp
  | .sext16 sp _ _ => sp
  | .qntN8 sp _ _ _ => sp
  | .dqntN8 sp _ _ _ => sp
  | .lds sp _ _ => sp
  | .ldh sp _ _ => sp
  | .orl sp _ _ => sp
  | .addpc sp _ _ => sp
  | .beqz sp _ _ => sp
  | .bnez sp _ _ => sp
  | .bltz sp _ _ => sp
  | .bgez sp _ _ => sp
  | .bgtz sp _ _ => sp
  | .blez sp _ _ => sp
  | .bra sp _ => sp
  | .jmp sp _ => sp
  | .call sp _ => sp
  | .ld8S sp _ _ _ _ => sp
  | .ld8N sp _ _ _ _ => sp
  | .ld16S sp _ _ _ _ => sp
  | .ld16N sp _ _ _ _ => sp
  | .ld32 sp _ _ _ _ => sp
  | .ld64 sp _ _ _ _ => sp
  | .ld128 sp _ _ _ _ => sp
  | .st8 sp _ _ _ _ => sp
  | .st16 sp _ _ _ _ => sp
  | .st32 sp _ _ _ _ => sp
  | .st64 sp _ _ _ _ => sp
  | .st128 sp _ _ _ _ => sp
  | .aadd sp _ _ _ _ => sp
  | .aadd64 sp _ _ _ _ => sp
  | .aminS32 sp _ _ _ _ => sp
  | .aminN32 sp _ _ _ _ => sp
  | .amaxS32 sp _ _ _ _ => sp
  | .amaxN32 sp _ _ _ _ => sp
  | .aand sp _ _ _ _ => sp
  | .aor sp _ _ _ _ => sp
  | .axor sp _ _ _ _ => sp
  | .axchg sp _ _ _ _ => sp
  | .axchg64 sp _ _ _ _ => sp
  | .acas sp _ _ _ _ => sp
  | .acas64 sp _ _ _ _ => sp
  | .afadd sp _ _ _ _ => sp
  | .afadd64 sp _ _ _ _ => sp
  | .aincw sp _ _ _ _ => sp
  | .fence sp _ _ => sp
  | .ldsc sp _ _ => sp
  | .stsc sp _ _ => sp
  | .cassc sp _ _ _ => sp
  | .waitcEq sp _ _ _ => sp
  | .waitcNe sp _ _ _ => sp
  | .waitcGeS32 sp _ _ _ => sp
  | .waitcGeN32 sp _ _ _ => sp
  | .waitcLtS32 sp _ _ _ => sp
  | .waitcLtN32 sp _ _ _ => sp
  | .redtoAdd sp _ _ _ => sp
  | .redtoFadd sp _ _ _ => sp
  | .redtoMinS32 sp _ _ _ => sp
  | .redtoMaxS32 sp _ _ _ => sp
  | .redtoOr sp _ _ _ => sp
  | .bar sp _ _ => sp
  | .bara sp _ _ => sp
  | .barw sp _ _ => sp
  | .barinit sp _ _ _ => sp
  | .meet sp _ => sp
  | .meetq sp _ => sp
  | .cshfl sp _ _ _ => sp
  | .cshflx sp _ _ _ => sp
  | .cup sp _ _ _ => sp
  | .cdn sp _ _ _ => sp
  | .cbcast sp _ _ _ => sp
  | .cvany sp _ _ => sp
  | .cvall sp _ _ => sp
  | .cballot sp _ _ => sp
  | .cradd sp _ _ => sp
  | .crfadd sp _ _ => sp
  | .crminS32 sp _ _ => sp
  | .crmaxS32 sp _ _ => sp
  | .cscan sp _ _ => sp
  | .cscanf sp _ _ => sp
  | .sld32 sp _ _ => sp
  | .sst32 sp _ _ => sp
  | .sld64 sp _ _ => sp
  | .sst64 sp _ _ => sp
  | .qld32 sp _ _ => sp
  | .qst32 sp _ _ => sp
  | .lease sp _ => sp
  | .leasem sp _ => sp
  | .work sp _ => sp
  | .steal sp _ => sp
  | .exit sp => sp
  | .copy sp _ _ _ => sp
  | .copym sp _ _ _ => sp
  | .recfl sp _ _ => sp
  | .task sp _ _ => sp
  | .dprog sp _ _ _ => sp
  | .djob sp _ _ => sp
  | .ovld sp _ _ => sp
  | .ovtok sp _ _ => sp
  | .ovrel sp _ => sp
  | .ovq sp _ _ => sp
  | .smap sp _ _ _ => sp
  | .sunmap sp _ _ => sp
  | .cload sp _ _ _ => sp
  | .crun sp _ _ _ => sp
  | .sinit sp => sp
  | .sfold sp _ _ => sp
  | .sget sp _ => sp
  | .proof sp _ _ _ => sp
  | .proofq sp _ _ => sp
  | .nop sp => sp
  | .rds sp _ _ => sp
  | .wrs sp _ _ => sp
  | .win sp _ => sp
  | .jr sp _ => sp
  | .callx sp _ => sp
  | .ret sp => sp
  | .trap sp _ => sp
  | .tret sp => sp
  | .bkpt sp => sp
  | .launch sp _ _ _ => sp
  | .ldu sp _ _ => sp
  | .ocall sp _ => sp
  | .pref sp _ => sp
  | .reservedHint sp _ _ _ _ => sp
  | .illegalWordFetch _ => false
  | .reformBoundary _ => false
  | .longLatencyReply _ => false
  | .switchPointLeave _ => false
  | .crewdivDetect _ => false
  | .trapTaken _ => false
  | .launchKill _ => false
  | .permitBackoffExpiry _ => false
  | .lacerLoadDecision _ => false
  | .segmentLoadComplete _ _ => false
  | .ovfullTimeout _ => false
  | .packetServe _ _ => false
  | .teamPlacement _ => false
  | .launchEnd _ => false
  | .activationDecision _ => false
  | .dueCountExpiry _ => false
  | .leaseWindowExpiry _ => false
  | .l1WritebackTimer _ _ => false
  | .pageWalkComplete _ => false
  | .faultRecordWrite _ => false
  | .atomicPerform _ => false
  | .scAccessPerform _ => false
  | .scClockPublish _ => false
  | .monitorReread _ => false
  | .waitcPollTimer _ => false
  | .redtoDelivery _ => false
  | .barrierArrival _ => false
  | .workPieceServe _ => false
  | .engineOpBegin _ => false
  | .engineRetire _ => false
  | .skiverJobStop _ => false
  | .cobblerDispatch _ => false
  | .eslotTimeout _ => false
  | .addOnStorePerform _ => false
  | .ticketTileApply _ => false
  | .candidateStop _ => false
  | .proofPerform _ => false
  | .proofqPerform _ => false
  | .writeApply _ => false
  | .remoteRequestServe _ => false
  | .remoteLineSendTimer _ _ => false
  | .autoSwapOut _ _ => false
  | .lateReplyWrite _ => false
  | .teamRestore _ _ => false
  | .migrationQuiesced _ => false
  | .intervalClose _ => false
  | .uncorrectableConsumed _ => false
  | .timingReplay _ _ => false
  | .schedulerRebuild _ _ => false
  | .voltageEvaluation _ _ => false
  | .throttleStart _ => false
  | .throttleEnd _ => false
  | .traceCaptureStop => false
  | .powerOn _ => false
  | .memoryInitComplete => false
  | .queueTail _ _ _ => false
  | .resume _ _ => false
  | .fqhead _ _ => false
  | .invalva _ _ => false
  | .preempt _ _ => false
  | .restorel _ _ => false
  | .eyeletSpill _ _ _ => false
  | .eyeletFill _ _ _ => false
  | .migctl _ _ => false
  | .vtime _ _ => false
  | .semAcquire _ _ => false
  | .semRelease _ _ => false
  | .frameQuota _ _ _ => false
  | .diemask _ _ => false
  | .vfCreate _ _ _ => false
  | .vfDestroy _ => false
  | .registerWrite _ _ => false
  | .masterMemoryWrite _ _ _ _ => false
  | .singleFault _ => false
  | .invalvaRemovalComplete _ => false
  | .saveComplete _ _ => false

end Sys2Proof

namespace Sys2Proof.Laws.SwitchBit

/-- R34: bit 31 of the word of an instruction is its S. -/
def Statement (i : Instr) : Prop := ∀ w, encode i = some w → w.getLsbD 31 = i.switches

theorem add (x0 : Bool) (x1 : Reg) (x2 : Reg) (x3 : Reg) : Statement (.add x0 x1 x2 x3) := by
  rintro _ ⟨⟩; exact formA_switch ..
theorem sub (x0 : Bool) (x1 : Reg) (x2 : Reg) (x3 : Reg) : Statement (.sub x0 x1 x2 x3) := by
  rintro _ ⟨⟩; exact formA_switch ..
theorem mullo (x0 : Bool) (x1 : Reg) (x2 : Reg) (x3 : Reg) : Statement (.mullo x0 x1 x2 x3) := by
  rintro _ ⟨⟩; exact formA_switch ..
theorem mulhiS32 (x0 : Bool) (x1 : Reg) (x2 : Reg) (x3 : Reg) : Statement (.mulhiS32 x0 x1 x2 x3) := by
  rintro _ ⟨⟩; exact formA_switch ..
theorem mulhiN32 (x0 : Bool) (x1 : Reg) (x2 : Reg) (x3 : Reg) : Statement (.mulhiN32 x0 x1 x2 x3) := by
  rintro _ ⟨⟩; exact formA_switch ..
theorem mulwS32 (x0 : Bool) (x1 : Reg) (x2 : Reg) (x3 : Reg) : Statement (.mulwS32 x0 x1 x2 x3) := by
  rintro _ ⟨⟩; exact formA_switch ..
theorem mulwN32 (x0 : Bool) (x1 : Reg) (x2 : Reg) (x3 : Reg) : Statement (.mulwN32 x0 x1 x2 x3) := by
  rintro _ ⟨⟩; exact formA_switch ..
theorem mad (x0 : Bool) (x1 : Reg) (x2 : Reg) (x3 : Reg) : Statement (.mad x0 x1 x2 x3) := by
  rintro _ ⟨⟩; exact formA_switch ..
theorem divS32 (x0 : Bool) (x1 : Reg) (x2 : Reg) (x3 : Reg) : Statement (.divS32 x0 x1 x2 x3) := by
  rintro _ ⟨⟩; exact formA_switch ..
theorem divN32 (x0 : Bool) (x1 : Reg) (x2 : Reg) (x3 : Reg) : Statement (.divN32 x0 x1 x2 x3) := by
  rintro _ ⟨⟩; exact formA_switch ..
theorem remS32 (x0 : Bool) (x1 : Reg) (x2 : Reg) (x3 : Reg) : Statement (.remS32 x0 x1 x2 x3) := by
  rintro _ ⟨⟩; exact formA_switch ..
theorem remN32 (x0 : Bool) (x1 : Reg) (x2 : Reg) (x3 : Reg) : Statement (.remN32 x0 x1 x2 x3) := by
  rintro _ ⟨⟩; exact formA_switch ..
theorem and (x0 : Bool) (x1 : Reg) (x2 : Reg) (x3 : Reg) : Statement (.and x0 x1 x2 x3) := by
  rintro _ ⟨⟩; exact formA_switch ..
theorem or (x0 : Bool) (x1 : Reg) (x2 : Reg) (x3 : Reg) : Statement (.or x0 x1 x2 x3) := by
  rintro _ ⟨⟩; exact formA_switch ..
theorem xor (x0 : Bool) (x1 : Reg) (x2 : Reg) (x3 : Reg) : Statement (.xor x0 x1 x2 x3) := by
  rintro _ ⟨⟩; exact formA_switch ..
theorem andn (x0 : Bool) (x1 : Reg) (x2 : Reg) (x3 : Reg) : Statement (.andn x0 x1 x2 x3) := by
  rintro _ ⟨⟩; exact formA_switch ..
theorem orn (x0 : Bool) (x1 : Reg) (x2 : Reg) (x3 : Reg) : Statement (.orn x0 x1 x2 x3) := by
  rintro _ ⟨⟩; exact formA_switch ..
theorem shl (x0 : Bool) (x1 : Reg) (x2 : Reg) (x3 : Reg) : Statement (.shl x0 x1 x2 x3) := by
  rintro _ ⟨⟩; exact formA_switch ..
theorem shr (x0 : Bool) (x1 : Reg) (x2 : Reg) (x3 : Reg) : Statement (.shr x0 x1 x2 x3) := by
  rintro _ ⟨⟩; exact formA_switch ..
theorem sar (x0 : Bool) (x1 : Reg) (x2 : Reg) (x3 : Reg) : Statement (.sar x0 x1 x2 x3) := by
  rintro _ ⟨⟩; exact formA_switch ..
theorem rotl (x0 : Bool) (x1 : Reg) (x2 : Reg) (x3 : Reg) : Statement (.rotl x0 x1 x2 x3) := by
  rintro _ ⟨⟩; exact formA_switch ..
theorem rotr (x0 : Bool) (x1 : Reg) (x2 : Reg) (x3 : Reg) : Statement (.rotr x0 x1 x2 x3) := by
  rintro _ ⟨⟩; exact formA_switch ..
theorem minS32 (x0 : Bool) (x1 : Reg) (x2 : Reg) (x3 : Reg) : Statement (.minS32 x0 x1 x2 x3) := by
  rintro _ ⟨⟩; exact formA_switch ..
theorem minN32 (x0 : Bool) (x1 : Reg) (x2 : Reg) (x3 : Reg) : Statement (.minN32 x0 x1 x2 x3) := by
  rintro _ ⟨⟩; exact formA_switch ..
theorem maxS32 (x0 : Bool) (x1 : Reg) (x2 : Reg) (x3 : Reg) : Statement (.maxS32 x0 x1 x2 x3) := by
  rintro _ ⟨⟩; exact formA_switch ..
theorem maxN32 (x0 : Bool) (x1 : Reg) (x2 : Reg) (x3 : Reg) : Statement (.maxN32 x0 x1 x2 x3) := by
  rintro _ ⟨⟩; exact formA_switch ..
theorem sad (x0 : Bool) (x1 : Reg) (x2 : Reg) (x3 : Reg) : Statement (.sad x0 x1 x2 x3) := by
  rintro _ ⟨⟩; exact formA_switch ..
theorem sel (x0 : Bool) (x1 : Reg) (x2 : Reg) (x3 : Reg) : Statement (.sel x0 x1 x2 x3) := by
  rintro _ ⟨⟩; exact formA_switch ..
theorem seteq (x0 : Bool) (x1 : Reg) (x2 : Reg) (x3 : Reg) : Statement (.seteq x0 x1 x2 x3) := by
  rintro _ ⟨⟩; exact formA_switch ..
theorem setne (x0 : Bool) (x1 : Reg) (x2 : Reg) (x3 : Reg) : Statement (.setne x0 x1 x2 x3) := by
  rintro _ ⟨⟩; exact formA_switch ..
theorem setltS32 (x0 : Bool) (x1 : Reg) (x2 : Reg) (x3 : Reg) : Statement (.setltS32 x0 x1 x2 x3) := by
  rintro _ ⟨⟩; exact formA_switch ..
theorem setltN32 (x0 : Bool) (x1 : Reg) (x2 : Reg) (x3 : Reg) : Statement (.setltN32 x0 x1 x2 x3) := by
  rintro _ ⟨⟩; exact formA_switch ..
theorem setleS32 (x0 : Bool) (x1 : Reg) (x2 : Reg) (x3 : Reg) : Statement (.setleS32 x0 x1 x2 x3) := by
  rintro _ ⟨⟩; exact formA_switch ..
theorem setleN32 (x0 : Bool) (x1 : Reg) (x2 : Reg) (x3 : Reg) : Statement (.setleN32 x0 x1 x2 x3) := by
  rintro _ ⟨⟩; exact formA_switch ..
theorem clz (x0 : Bool) (x1 : Reg) (x2 : Reg) : Statement (.clz x0 x1 x2) := by
  rintro _ ⟨⟩; exact formA_switch ..
theorem popc (x0 : Bool) (x1 : Reg) (x2 : Reg) : Statement (.popc x0 x1 x2) := by
  rintro _ ⟨⟩; exact formA_switch ..
theorem brev (x0 : Bool) (x1 : Reg) (x2 : Reg) : Statement (.brev x0 x1 x2) := by
  rintro _ ⟨⟩; exact formA_switch ..
theorem bfxS32 (x0 : Bool) (x1 : Reg) (x2 : Reg) (x3 : Reg) : Statement (.bfxS32 x0 x1 x2 x3) := by
  rintro _ ⟨⟩; exact formA_switch ..
theorem bfxN32 (x0 : Bool) (x1 : Reg) (x2 : Reg) (x3 : Reg) : Statement (.bfxN32 x0 x1 x2 x3) := by
  rintro _ ⟨⟩; exact formA_switch ..
theorem bfi (x0 : Bool) (x1 : Reg) (x2 : Reg) (x3 : Reg) : Statement (.bfi x0 x1 x2 x3) := by
  rintro _ ⟨⟩; exact formA_switch ..
theorem add64 (x0 : Bool) (x1 : Reg) (x2 : Reg) (x3 : Reg) : Statement (.add64 x0 x1 x2 x3) := by
  rintro _ ⟨⟩; exact formA_switch ..
theorem sub64 (x0 : Bool) (x1 : Reg) (x2 : Reg) (x3 : Reg) : Statement (.sub64 x0 x1 x2 x3) := by
  rintro _ ⟨⟩; exact formA_switch ..
theorem shl64 (x0 : Bool) (x1 : Reg) (x2 : Reg) (x3 : Reg) : Statement (.shl64 x0 x1 x2 x3) := by
  rintro _ ⟨⟩; exact formA_switch ..
theorem shr64 (x0 : Bool) (x1 : Reg) (x2 : Reg) (x3 : Reg) : Statement (.shr64 x0 x1 x2 x3) := by
  rintro _ ⟨⟩; exact formA_switch ..
theorem sar64 (x0 : Bool) (x1 : Reg) (x2 : Reg) (x3 : Reg) : Statement (.sar64 x0 x1 x2 x3) := by
  rintro _ ⟨⟩; exact formA_switch ..
theorem seteq64 (x0 : Bool) (x1 : Reg) (x2 : Reg) (x3 : Reg) : Statement (.seteq64 x0 x1 x2 x3) := by
  rintro _ ⟨⟩; exact formA_switch ..
theorem setlt64S (x0 : Bool) (x1 : Reg) (x2 : Reg) (x3 : Reg) : Statement (.setlt64S x0 x1 x2 x3) := by
  rintro _ ⟨⟩; exact formA_switch ..
theorem setlt64N (x0 : Bool) (x1 : Reg) (x2 : Reg) (x3 : Reg) : Statement (.setlt64N x0 x1 x2 x3) := by
  rintro _ ⟨⟩; exact formA_switch ..
theorem mad64N32 (x0 : Bool) (x1 : Reg) (x2 : Reg) (x3 : Reg) : Statement (.mad64N32 x0 x1 x2 x3) := by
  rintro _ ⟨⟩; exact formA_switch ..
theorem mad64S32 (x0 : Bool) (x1 : Reg) (x2 : Reg) (x3 : Reg) : Statement (.mad64S32 x0 x1 x2 x3) := by
  rintro _ ⟨⟩; exact formA_switch ..
theorem mov (x0 : Bool) (x1 : Reg) (x2 : Reg) : Statement (.mov x0 x1 x2) := by
  rintro _ ⟨⟩; exact formA_switch ..
theorem mov64 (x0 : Bool) (x1 : Reg) (x2 : Reg) : Statement (.mov64 x0 x1 x2) := by
  rintro _ ⟨⟩; exact formA_switch ..
theorem addi (x0 : Bool) (x1 : Reg) (x2 : Reg) (x3 : BitVec 10) : Statement (.addi x0 x1 x2 x3) := by
  rintro _ ⟨⟩; exact formI_switch ..
theorem andi (x0 : Bool) (x1 : Reg) (x2 : Reg) (x3 : BitVec 10) : Statement (.andi x0 x1 x2 x3) := by
  rintro _ ⟨⟩; exact formI_switch ..
theorem ori (x0 : Bool) (x1 : Reg) (x2 : Reg) (x3 : BitVec 10) : Statement (.ori x0 x1 x2 x3) := by
  rintro _ ⟨⟩; exact formI_switch ..
theorem xori (x0 : Bool) (x1 : Reg) (x2 : Reg) (x3 : BitVec 10) : Statement (.xori x0 x1 x2 x3) := by
  rintro _ ⟨⟩; exact formI_switch ..
theorem shli (x0 : Bool) (x1 : Reg) (x2 : Reg) (x3 : BitVec 5) : Statement (.shli x0 x1 x2 x3) := by
  rintro _ ⟨⟩; exact formI_switch ..
theorem shri (x0 : Bool) (x1 : Reg) (x2 : Reg) (x3 : BitVec 5) : Statement (.shri x0 x1 x2 x3) := by
  rintro _ ⟨⟩; exact formI_switch ..
theorem sari (x0 : Bool) (x1 : Reg) (x2 : Reg) (x3 : BitVec 5) : Statement (.sari x0 x1 x2 x3) := by
  rintro _ ⟨⟩; exact formI_switch ..
theorem setltiS32 (x0 : Bool) (x1 : Reg) (x2 : Reg) (x3 : BitVec 10) : Statement (.setltiS32 x0 x1 x2 x3) := by
  rintro _ ⟨⟩; exact formI_switch ..
theorem fadd (x0 : Bool) (x1 : Reg) (x2 : Reg) (x3 : Reg) : Statement (.fadd x0 x1 x2 x3) := by
  rintro _ ⟨⟩; exact formA_switch ..
theorem fsub (x0 : Bool) (x1 : Reg) (x2 : Reg) (x3 : Reg) : Statement (.fsub x0 x1 x2 x3) := by
  rintro _ ⟨⟩; exact formA_switch ..
theorem fmul (x0 : Bool) (x1 : Reg) (x2 : Reg) (x3 : Reg) : Statement (.fmul x0 x1 x2 x3) := by
  rintro _ ⟨⟩; exact formA_switch ..
theorem fma (x0 : Bool) (x1 : Reg) (x2 : Reg) (x3 : Reg) : Statement (.fma x0 x1 x2 x3) := by
  rintro _ ⟨⟩; exact formA_switch ..
theorem fmin (x0 : Bool) (x1 : Reg) (x2 : Reg) (x3 : Reg) : Statement (.fmin x0 x1 x2 x3) := by
  rintro _ ⟨⟩; exact formA_switch ..
theorem fmax (x0 : Bool) (x1 : Reg) (x2 : Reg) (x3 : Reg) : Statement (.fmax x0 x1 x2 x3) := by
  rintro _ ⟨⟩; exact formA_switch ..
theorem fdiv (x0 : Bool) (x1 : Reg) (x2 : Reg) (x3 : Reg) : Statement (.fdiv x0 x1 x2 x3) := by
  rintro _ ⟨⟩; exact formA_switch ..
theorem fsqrt (x0 : Bool) (x1 : Reg) (x2 : Reg) : Statement (.fsqrt x0 x1 x2) := by
  rintro _ ⟨⟩; exact formA_switch ..
theorem frcp (x0 : Bool) (x1 : Reg) (x2 : Reg) : Statement (.frcp x0 x1 x2) := by
  rintro _ ⟨⟩; exact formA_switch ..
theorem frsq (x0 : Bool) (x1 : Reg) (x2 : Reg) : Statement (.frsq x0 x1 x2) := by
  rintro _ ⟨⟩; exact formA_switch ..
theorem fexp2 (x0 : Bool) (x1 : Reg) (x2 : Reg) : Statement (.fexp2 x0 x1 x2) := by
  rintro _ ⟨⟩; exact formA_switch ..
theorem flog2 (x0 : Bool) (x1 : Reg) (x2 : Reg) : Statement (.flog2 x0 x1 x2) := by
  rintro _ ⟨⟩; exact formA_switch ..
theorem fabs (x0 : Bool) (x1 : Reg) (x2 : Reg) : Statement (.fabs x0 x1 x2) := by
  rintro _ ⟨⟩; exact formA_switch ..
theorem fneg (x0 : Bool) (x1 : Reg) (x2 : Reg) : Statement (.fneg x0 x1 x2) := by
  rintro _ ⟨⟩; exact formA_switch ..
theorem frint (x0 : Bool) (x1 : Reg) (x2 : Reg) : Statement (.frint x0 x1 x2) := by
  rintro _ ⟨⟩; exact formA_switch ..
theorem fclass (x0 : Bool) (x1 : Reg) (x2 : Reg) : Statement (.fclass x0 x1 x2) := by
  rintro _ ⟨⟩; exact formA_switch ..
theorem fseteq (x0 : Bool) (x1 : Reg) (x2 : Reg) (x3 : Reg) : Statement (.fseteq x0 x1 x2 x3) := by
  rintro _ ⟨⟩; exact formA_switch ..
theorem fsetlt (x0 : Bool) (x1 : Reg) (x2 : Reg) (x3 : Reg) : Statement (.fsetlt x0 x1 x2 x3) := by
  rintro _ ⟨⟩; exact formA_switch ..
theorem fsetle (x0 : Bool) (x1 : Reg) (x2 : Reg) (x3 : Reg) : Statement (.fsetle x0 x1 x2 x3) := by
  rintro _ ⟨⟩; exact formA_switch ..
theorem fsetun (x0 : Bool) (x1 : Reg) (x2 : Reg) (x3 : Reg) : Statement (.fsetun x0 x1 x2 x3) := by
  rintro _ ⟨⟩; exact formA_switch ..
theorem dadd (x0 : Bool) (x1 : Reg) (x2 : Reg) (x3 : Reg) : Statement (.dadd x0 x1 x2 x3) := by
  rintro _ ⟨⟩; exact formA_switch ..
theorem dsub (x0 : Bool) (x1 : Reg) (x2 : Reg) (x3 : Reg) : Statement (.dsub x0 x1 x2 x3) := by
  rintro _ ⟨⟩; exact formA_switch ..
theorem dmul (x0 : Bool) (x1 : Reg) (x2 : Reg) (x3 : Reg) : Statement (.dmul x0 x1 x2 x3) := by
  rintro _ ⟨⟩; exact formA_switch ..
theorem dfma (x0 : Bool) (x1 : Reg) (x2 : Reg) (x3 : Reg) : Statement (.dfma x0 x1 x2 x3) := by
  rintro _ ⟨⟩; exact formA_switch ..
theorem dmin (x0 : Bool) (x1 : Reg) (x2 : Reg) (x3 : Reg) : Statement (.dmin x0 x1 x2 x3) := by
  rintro _ ⟨⟩; exact formA_switch ..
theorem dmax (x0 : Bool) (x1 : Reg) (x2 : Reg) (x3 : Reg) : Statement (.dmax x0 x1 x2 x3) := by
  rintro _ ⟨⟩; exact formA_switch ..
theorem ddiv (x0 : Bool) (x1 : Reg) (x2 : Reg) (x3 : Reg) : Statement (.ddiv x0 x1 x2 x3) := by
  rintro _ ⟨⟩; exact formA_switch ..
theorem dsqrt (x0 : Bool) (x1 : Reg) (x2 : Reg) : Statement (.dsqrt x0 x1 x2) := by
  rintro _ ⟨⟩; exact formA_switch ..
theorem drint (x0 : Bool) (x1 : Reg) (x2 : Reg) : Statement (.drint x0 x1 x2) := by
  rintro _ ⟨⟩; exact formA_switch ..
theorem dseteq (x0 : Bool) (x1 : Reg) (x2 : Reg) (x3 : Reg) : Statement (.dseteq x0 x1 x2 x3) := by
  rintro _ ⟨⟩; exact formA_switch ..
theorem dsetlt (x0 : Bool) (x1 : Reg) (x2 : Reg) (x3 : Reg) : Statement (.dsetlt x0 x1 x2 x3) := by
  rintro _ ⟨⟩; exact formA_switch ..
theorem dsetle (x0 : Bool) (x1 : Reg) (x2 : Reg) (x3 : Reg) : Statement (.dsetle x0 x1 x2 x3) := by
  rintro _ ⟨⟩; exact formA_switch ..
theorem hadd2 (x0 : Bool) (x1 : Reg) (x2 : Reg) (x3 : Reg) : Statement (.hadd2 x0 x1 x2 x3) := by
  rintro _ ⟨⟩; exact formA_switch ..
theorem hmul2 (x0 : Bool) (x1 : Reg) (x2 : Reg) (x3 : Reg) : Statement (.hmul2 x0 x1 x2 x3) := by
  rintro _ ⟨⟩; exact formA_switch ..
theorem hfma2 (x0 : Bool) (x1 : Reg) (x2 : Reg) (x3 : Reg) : Statement (.hfma2 x0 x1 x2 x3) := by
  rintro _ ⟨⟩; exact formA_switch ..
theorem badd2 (x0 : Bool) (x1 : Reg) (x2 : Reg) (x3 : Reg) : Statement (.badd2 x0 x1 x2 x3) := by
  rintro _ ⟨⟩; exact formA_switch ..
theorem bmul2 (x0 : Bool) (x1 : Reg) (x2 : Reg) (x3 : Reg) : Statement (.bmul2 x0 x1 x2 x3) := by
  rintro _ ⟨⟩; exact formA_switch ..
theorem bfma2 (x0 : Bool) (x1 : Reg) (x2 : Reg) (x3 : Reg) : Statement (.bfma2 x0 x1 x2 x3) := by
  rintro _ ⟨⟩; exact formA_switch ..
theorem cvtF32S32 (x0 : Bool) (x1 : Reg) (x2 : Reg) : Statement (.cvtF32S32 x0 x1 x2) := by
  rintro _ ⟨⟩; exact formA_switch ..
theorem cvtF32N32 (x0 : Bool) (x1 : Reg) (x2 : Reg) : Statement (.cvtF32N32 x0 x1 x2) := by
  rintro _ ⟨⟩; exact formA_switch ..
theorem cvtS32F32 (x0 : Bool) (x1 : Reg) (x2 : Reg) : Statement (.cvtS32F32 x0 x1 x2) := by
  rintro _ ⟨⟩; exact formA_switch ..
theorem cvtN32F32 (x0 : Bool) (x1 : Reg) (x2 : Reg) : Statement (.cvtN32F32 x0 x1 x2) := by
  rintro _ ⟨⟩; exact formA_switch ..
theorem cvtF64F32 (x0 : Bool) (x1 : Reg) (x2 : Reg) : Statement (.cvtF64F32 x0 x1 x2) := by
  rintro _ ⟨⟩; exact formA_switch ..
theorem cvtF32F64 (x0 : Bool) (x1 : Reg) (x2 : Reg) : Statement (.cvtF32F64 x0 x1 x2) := by
  rintro _ ⟨⟩; exact formA_switch ..
theorem cvtF64S32 (x0 : Bool) (x1 : Reg) (x2 : Reg) : Statement (.cvtF64S32 x0 x1 x2) := by
  rintro _ ⟨⟩; exact formA_switch ..
theorem cvtS32F64 (x0 : Bool) (x1 : Reg) (x2 : Reg) : Statement (.cvtS32F64 x0 x1 x2) := by
  rintro _ ⟨⟩; exact formA_switch ..
theorem cvtF64S64 (x0 : Bool) (x1 : Reg) (x2 : Reg) : Statement (.cvtF64S64 x0 x1 x2) := by
  rintro _ ⟨⟩; exact formA_switch ..
theorem cvtS64F64 (x0 : Bool) (x1 : Reg) (x2 : Reg) : Statement (.cvtS64F64 x0 x1 x2) := by
  rintro _ ⟨⟩; exact formA_switch ..
theorem cvtF64N64 (x0 : Bool) (x1 : Reg) (x2 : Reg) : Statement (.cvtF64N64 x0 x1 x2) := by
  rintro _ ⟨⟩; exact formA_switch ..
theorem cvtN64F64 (x0 : Bool) (x1 : Reg) (x2 : Reg) : Statement (.cvtN64F64 x0 x1 x2) := by
  rintro _ ⟨⟩; exact formA_switch ..
theorem packF16 (x0 : Bool) (x1 : Reg) (x2 : Reg) (x3 : Reg) : Statement (.packF16 x0 x1 x2 x3) := by
  rintro _ ⟨⟩; exact formA_switch ..
theorem packBf16 (x0 : Bool) (x1 : Reg) (x2 : Reg) (x3 : Reg) : Statement (.packBf16 x0 x1 x2 x3) := by
  rintro _ ⟨⟩; exact formA_switch ..
theorem unpkF16 (x0 : Bool) (x1 : Reg) (x2 : Reg) : Statement (.unpkF16 x0 x1 x2) := by
  rintro _ ⟨⟩; exact formA_switch ..
theorem unpkBf16 (x0 : Bool) (x1 : Reg) (x2 : Reg) : Statement (.unpkBf16 x0 x1 x2) := by
  rintro _ ⟨⟩; exact formA_switch ..
theorem sext8 (x0 : Bool) (x1 : Reg) (x2 : Reg) : Statement (.sext8 x0 x1 x2) := by
  rintro _ ⟨⟩; exact formA_switch ..
theorem sext16 (x0 : Bool) (x1 : Reg) (x2 : Reg) : Statement (.sext16 x0 x1 x2) := by
  rintro _ ⟨⟩; exact formA_switch ..
theorem qntN8 (x0 : Bool) (x1 : Reg) (x2 : Reg) (x3 : Reg) : Statement (.qntN8 x0 x1 x2 x3) := by
  rintro _ ⟨⟩; exact formA_switch ..
theorem dqntN8 (x0 : Bool) (x1 : Reg) (x2 : Reg) (x3 : Reg) : Statement (.dqntN8 x0 x1 x2 x3) := by
  rintro _ ⟨⟩; exact formA_switch ..
theorem lds (x0 : Bool) (x1 : Reg) (x2 : BitVec 18) : Statement (.lds x0 x1 x2) := by
  rintro _ ⟨⟩; exact formU_switch ..
theorem ldh (x0 : Bool) (x1 : Reg) (x2 : BitVec 18) : Statement (.ldh x0 x1 x2) := by
  rintro _ ⟨⟩; exact formU_switch ..
theorem orl (x0 : Bool) (x1 : Reg) (x2 : BitVec 18) : Statement (.orl x0 x1 x2) := by
  rintro _ ⟨⟩; exact formU_switch ..
theorem addpc (x0 : Bool) (x1 : Reg) (x2 : BitVec 18) : Statement (.addpc x0 x1 x2) := by
  rintro _ ⟨⟩; exact formU_switch ..
theorem beqz (x0 : Bool) (x1 : Reg) (x2 : BitVec 17) : Statement (.beqz x0 x1 x2) := by
  rintro _ ⟨⟩; exact formB_switch ..
theorem bnez (x0 : Bool) (x1 : Reg) (x2 : BitVec 17) : Statement (.bnez x0 x1 x2) := by
  rintro _ ⟨⟩; exact formB_switch ..
theorem bltz (x0 : Bool) (x1 : Reg) (x2 : BitVec 17) : Statement (.bltz x0 x1 x2) := by
  rintro _ ⟨⟩; exact formB_switch ..
theorem bgez (x0 : Bool) (x1 : Reg) (x2 : BitVec 17) : Statement (.bgez x0 x1 x2) := by
  rintro _ ⟨⟩; exact formB_switch ..
theorem bgtz (x0 : Bool) (x1 : Reg) (x2 : BitVec 17) : Statement (.bgtz x0 x1 x2) := by
  rintro _ ⟨⟩; exact formB_switch ..
theorem blez (x0 : Bool) (x1 : Reg) (x2 : BitVec 17) : Statement (.blez x0 x1 x2) := by
  rintro _ ⟨⟩; exact formB_switch ..
theorem bra (x0 : Bool) (x1 : BitVec 17) : Statement (.bra x0 x1) := by
  rintro _ ⟨⟩; exact formB_switch ..
theorem jmp (x0 : Bool) (x1 : BitVec 25) : Statement (.jmp x0 x1) := by
  rintro _ ⟨⟩; exact formJ_switch ..
theorem call (x0 : Bool) (x1 : BitVec 25) : Statement (.call x0 x1) := by
  rintro _ ⟨⟩; exact formJ_switch ..
theorem ld8S (x0 : Bool) (x1 : BitVec 2) (x2 : Reg) (x3 : Reg) (x4 : BitVec 8) : Statement (.ld8S x0 x1 x2 x3 x4) := by
  rintro _ ⟨⟩; exact formM_switch ..
theorem ld8N (x0 : Bool) (x1 : BitVec 2) (x2 : Reg) (x3 : Reg) (x4 : BitVec 8) : Statement (.ld8N x0 x1 x2 x3 x4) := by
  rintro _ ⟨⟩; exact formM_switch ..
theorem ld16S (x0 : Bool) (x1 : BitVec 2) (x2 : Reg) (x3 : Reg) (x4 : BitVec 8) : Statement (.ld16S x0 x1 x2 x3 x4) := by
  rintro _ ⟨⟩; exact formM_switch ..
theorem ld16N (x0 : Bool) (x1 : BitVec 2) (x2 : Reg) (x3 : Reg) (x4 : BitVec 8) : Statement (.ld16N x0 x1 x2 x3 x4) := by
  rintro _ ⟨⟩; exact formM_switch ..
theorem ld32 (x0 : Bool) (x1 : BitVec 2) (x2 : Reg) (x3 : Reg) (x4 : BitVec 8) : Statement (.ld32 x0 x1 x2 x3 x4) := by
  rintro _ ⟨⟩; exact formM_switch ..
theorem ld64 (x0 : Bool) (x1 : BitVec 2) (x2 : Reg) (x3 : Reg) (x4 : BitVec 8) : Statement (.ld64 x0 x1 x2 x3 x4) := by
  rintro _ ⟨⟩; exact formM_switch ..
theorem ld128 (x0 : Bool) (x1 : BitVec 2) (x2 : Reg) (x3 : Reg) (x4 : BitVec 8) : Statement (.ld128 x0 x1 x2 x3 x4) := by
  rintro _ ⟨⟩; exact formM_switch ..
theorem st8 (x0 : Bool) (x1 : BitVec 2) (x2 : Reg) (x3 : Reg) (x4 : BitVec 8) : Statement (.st8 x0 x1 x2 x3 x4) := by
  rintro _ ⟨⟩; exact formM_switch ..
theorem st16 (x0 : Bool) (x1 : BitVec 2) (x2 : Reg) (x3 : Reg) (x4 : BitVec 8) : Statement (.st16 x0 x1 x2 x3 x4) := by
  rintro _ ⟨⟩; exact formM_switch ..
theorem st32 (x0 : Bool) (x1 : BitVec 2) (x2 : Reg) (x3 : Reg) (x4 : BitVec 8) : Statement (.st32 x0 x1 x2 x3 x4) := by
  rintro _ ⟨⟩; exact formM_switch ..
theorem st64 (x0 : Bool) (x1 : BitVec 2) (x2 : Reg) (x3 : Reg) (x4 : BitVec 8) : Statement (.st64 x0 x1 x2 x3 x4) := by
  rintro _ ⟨⟩; exact formM_switch ..
theorem st128 (x0 : Bool) (x1 : BitVec 2) (x2 : Reg) (x3 : Reg) (x4 : BitVec 8) : Statement (.st128 x0 x1 x2 x3 x4) := by
  rintro _ ⟨⟩; exact formM_switch ..
theorem aadd (x0 : Bool) (x1 : BitVec 2) (x2 : Reg) (x3 : Reg) (x4 : Reg) : Statement (.aadd x0 x1 x2 x3 x4) := by
  rintro _ ⟨⟩; exact formA_switch ..
theorem aadd64 (x0 : Bool) (x1 : BitVec 2) (x2 : Reg) (x3 : Reg) (x4 : Reg) : Statement (.aadd64 x0 x1 x2 x3 x4) := by
  rintro _ ⟨⟩; exact formA_switch ..
theorem aminS32 (x0 : Bool) (x1 : BitVec 2) (x2 : Reg) (x3 : Reg) (x4 : Reg) : Statement (.aminS32 x0 x1 x2 x3 x4) := by
  rintro _ ⟨⟩; exact formA_switch ..
theorem aminN32 (x0 : Bool) (x1 : BitVec 2) (x2 : Reg) (x3 : Reg) (x4 : Reg) : Statement (.aminN32 x0 x1 x2 x3 x4) := by
  rintro _ ⟨⟩; exact formA_switch ..
theorem amaxS32 (x0 : Bool) (x1 : BitVec 2) (x2 : Reg) (x3 : Reg) (x4 : Reg) : Statement (.amaxS32 x0 x1 x2 x3 x4) := by
  rintro _ ⟨⟩; exact formA_switch ..
theorem amaxN32 (x0 : Bool) (x1 : BitVec 2) (x2 : Reg) (x3 : Reg) (x4 : Reg) : Statement (.amaxN32 x0 x1 x2 x3 x4) := by
  rintro _ ⟨⟩; exact formA_switch ..
theorem aand (x0 : Bool) (x1 : BitVec 2) (x2 : Reg) (x3 : Reg) (x4 : Reg) : Statement (.aand x0 x1 x2 x3 x4) := by
  rintro _ ⟨⟩; exact formA_switch ..
theorem aor (x0 : Bool) (x1 : BitVec 2) (x2 : Reg) (x3 : Reg) (x4 : Reg) : Statement (.aor x0 x1 x2 x3 x4) := by
  rintro _ ⟨⟩; exact formA_switch ..
theorem axor (x0 : Bool) (x1 : BitVec 2) (x2 : Reg) (x3 : Reg) (x4 : Reg) : Statement (.axor x0 x1 x2 x3 x4) := by
  rintro _ ⟨⟩; exact formA_switch ..
theorem axchg (x0 : Bool) (x1 : BitVec 2) (x2 : Reg) (x3 : Reg) (x4 : Reg) : Statement (.axchg x0 x1 x2 x3 x4) := by
  rintro _ ⟨⟩; exact formA_switch ..
theorem axchg64 (x0 : Bool) (x1 : BitVec 2) (x2 : Reg) (x3 : Reg) (x4 : Reg) : Statement (.axchg64 x0 x1 x2 x3 x4) := by
  rintro _ ⟨⟩; exact formA_switch ..
theorem acas (x0 : Bool) (x1 : BitVec 2) (x2 : Reg) (x3 : Reg) (x4 : Reg) : Statement (.acas x0 x1 x2 x3 x4) := by
  rintro _ ⟨⟩; exact formA_switch ..
theorem acas64 (x0 : Bool) (x1 : BitVec 2) (x2 : Reg) (x3 : Reg) (x4 : Reg) : Statement (.acas64 x0 x1 x2 x3 x4) := by
  rintro _ ⟨⟩; exact formA_switch ..
theorem afadd (x0 : Bool) (x1 : BitVec 2) (x2 : Reg) (x3 : Reg) (x4 : Reg) : Statement (.afadd x0 x1 x2 x3 x4) := by
  rintro _ ⟨⟩; exact formA_switch ..
theorem afadd64 (x0 : Bool) (x1 : BitVec 2) (x2 : Reg) (x3 : Reg) (x4 : Reg) : Statement (.afadd64 x0 x1 x2 x3 x4) := by
  rintro _ ⟨⟩; exact formA_switch ..
theorem aincw (x0 : Bool) (x1 : BitVec 2) (x2 : Reg) (x3 : Reg) (x4 : Reg) : Statement (.aincw x0 x1 x2 x3 x4) := by
  rintro _ ⟨⟩; exact formA_switch ..
theorem fence (x0 : Bool) (x1 : BitVec 2) (x2 : BitVec 3) : Statement (.fence x0 x1 x2) := by
  rintro _ ⟨⟩; exact formA_switch ..
theorem ldsc (x0 : Bool) (x1 : Reg) (x2 : Reg) : Statement (.ldsc x0 x1 x2) := by
  rintro _ ⟨⟩; exact formA_switch ..
theorem stsc (x0 : Bool) (x1 : Reg) (x2 : Reg) : Statement (.stsc x0 x1 x2) := by
  rintro _ ⟨⟩; exact formA_switch ..
theorem cassc (x0 : Bool) (x1 : Reg) (x2 : Reg) (x3 : Reg) : Statement (.cassc x0 x1 x2 x3) := by
  rintro _ ⟨⟩; exact formA_switch ..
theorem waitcEq (x0 : Bool) (x1 : Reg) (x2 : Reg) (x3 : Reg) : Statement (.waitcEq x0 x1 x2 x3) := by
  rintro _ ⟨⟩; exact formA_switch ..
theorem waitcNe (x0 : Bool) (x1 : Reg) (x2 : Reg) (x3 : Reg) : Statement (.waitcNe x0 x1 x2 x3) := by
  rintro _ ⟨⟩; exact formA_switch ..
theorem waitcGeS32 (x0 : Bool) (x1 : Reg) (x2 : Reg) (x3 : Reg) : Statement (.waitcGeS32 x0 x1 x2 x3) := by
  rintro _ ⟨⟩; exact formA_switch ..
theorem waitcGeN32 (x0 : Bool) (x1 : Reg) (x2 : Reg) (x3 : Reg) : Statement (.waitcGeN32 x0 x1 x2 x3) := by
  rintro _ ⟨⟩; exact formA_switch ..
theorem waitcLtS32 (x0 : Bool) (x1 : Reg) (x2 : Reg) (x3 : Reg) : Statement (.waitcLtS32 x0 x1 x2 x3) := by
  rintro _ ⟨⟩; exact formA_switch ..
theorem waitcLtN32 (x0 : Bool) (x1 : Reg) (x2 : Reg) (x3 : Reg) : Statement (.waitcLtN32 x0 x1 x2 x3) := by
  rintro _ ⟨⟩; exact formA_switch ..
theorem redtoAdd (x0 : Bool) (x1 : Reg) (x2 : Reg) (x3 : Reg) : Statement (.redtoAdd x0 x1 x2 x3) := by
  rintro _ ⟨⟩; exact formA_switch ..
theorem redtoFadd (x0 : Bool) (x1 : Reg) (x2 : Reg) (x3 : Reg) : Statement (.redtoFadd x0 x1 x2 x3) := by
  rintro _ ⟨⟩; exact formA_switch ..
theorem redtoMinS32 (x0 : Bool) (x1 : Reg) (x2 : Reg) (x3 : Reg) : Statement (.redtoMinS32 x0 x1 x2 x3) := by
  rintro _ ⟨⟩; exact formA_switch ..
theorem redtoMaxS32 (x0 : Bool) (x1 : Reg) (x2 : Reg) (x3 : Reg) : Statement (.redtoMaxS32 x0 x1 x2 x3) := by
  rintro _ ⟨⟩; exact formA_switch ..
theorem redtoOr (x0 : Bool) (x1 : Reg) (x2 : Reg) (x3 : Reg) : Statement (.redtoOr x0 x1 x2 x3) := by
  rintro _ ⟨⟩; exact formA_switch ..
theorem bar (x0 : Bool) (x1 : Reg) (x2 : BitVec 3) : Statement (.bar x0 x1 x2) := by
  rintro _ ⟨⟩; exact formA_switch ..
theorem bara (x0 : Bool) (x1 : Reg) (x2 : BitVec 3) : Statement (.bara x0 x1 x2) := by
  rintro _ ⟨⟩; exact formA_switch ..
theorem barw (x0 : Bool) (x1 : Reg) (x2 : BitVec 3) : Statement (.barw x0 x1 x2) := by
  rintro _ ⟨⟩; exact formA_switch ..
theorem barinit (x0 : Bool) (x1 : Reg) (x2 : Reg) (x3 : BitVec 3) : Statement (.barinit x0 x1 x2 x3) := by
  rintro _ ⟨⟩; exact formA_switch ..
theorem meet (x0 : Bool) (x1 : Reg) : Statement (.meet x0 x1) := by
  rintro _ ⟨⟩; exact formA_switch ..
theorem meetq (x0 : Bool) (x1 : Reg) : Statement (.meetq x0 x1) := by
  rintro _ ⟨⟩; exact formA_switch ..
theorem cshfl (x0 : Bool) (x1 : Reg) (x2 : Reg) (x3 : Reg) : Statement (.cshfl x0 x1 x2 x3) := by
  rintro _ ⟨⟩; exact formA_switch ..
theorem cshflx (x0 : Bool) (x1 : Reg) (x2 : Reg) (x3 : Reg) : Statement (.cshflx x0 x1 x2 x3) := by
  rintro _ ⟨⟩; exact formA_switch ..
theorem cup (x0 : Bool) (x1 : Reg) (x2 : Reg) (x3 : Reg) : Statement (.cup x0 x1 x2 x3) := by
  rintro _ ⟨⟩; exact formA_switch ..
theorem cdn (x0 : Bool) (x1 : Reg) (x2 : Reg) (x3 : Reg) : Statement (.cdn x0 x1 x2 x3) := by
  rintro _ ⟨⟩; exact formA_switch ..
theorem cbcast (x0 : Bool) (x1 : Reg) (x2 : Reg) (x3 : Reg) : Statement (.cbcast x0 x1 x2 x3) := by
  rintro _ ⟨⟩; exact formA_switch ..
theorem cvany (x0 : Bool) (x1 : Reg) (x2 : Reg) : Statement (.cvany x0 x1 x2) := by
  rintro _ ⟨⟩; exact formA_switch ..
theorem cvall (x0 : Bool) (x1 : Reg) (x2 : Reg) : Statement (.cvall x0 x1 x2) := by
  rintro _ ⟨⟩; exact formA_switch ..
theorem cballot (x0 : Bool) (x1 : Reg) (x2 : Reg) : Statement (.cballot x0 x1 x2) := by
  rintro _ ⟨⟩; exact formA_switch ..
theorem cradd (x0 : Bool) (x1 : Reg) (x2 : Reg) : Statement (.cradd x0 x1 x2) := by
  rintro _ ⟨⟩; exact formA_switch ..
theorem crfadd (x0 : Bool) (x1 : Reg) (x2 : Reg) : Statement (.crfadd x0 x1 x2) := by
  rintro _ ⟨⟩; exact formA_switch ..
theorem crminS32 (x0 : Bool) (x1 : Reg) (x2 : Reg) : Statement (.crminS32 x0 x1 x2) := by
  rintro _ ⟨⟩; exact formA_switch ..
theorem crmaxS32 (x0 : Bool) (x1 : Reg) (x2 : Reg) : Statement (.crmaxS32 x0 x1 x2) := by
  rintro _ ⟨⟩; exact formA_switch ..
theorem cscan (x0 : Bool) (x1 : Reg) (x2 : Reg) : Statement (.cscan x0 x1 x2) := by
  rintro _ ⟨⟩; exact formA_switch ..
theorem cscanf (x0 : Bool) (x1 : Reg) (x2 : Reg) : Statement (.cscanf x0 x1 x2) := by
  rintro _ ⟨⟩; exact formA_switch ..
theorem sld32 (x0 : Bool) (x1 : Reg) (x2 : Reg) : Statement (.sld32 x0 x1 x2) := by
  rintro _ ⟨⟩; exact formA_switch ..
theorem sst32 (x0 : Bool) (x1 : Reg) (x2 : Reg) : Statement (.sst32 x0 x1 x2) := by
  rintro _ ⟨⟩; exact formA_switch ..
theorem sld64 (x0 : Bool) (x1 : Reg) (x2 : Reg) : Statement (.sld64 x0 x1 x2) := by
  rintro _ ⟨⟩; exact formA_switch ..
theorem sst64 (x0 : Bool) (x1 : Reg) (x2 : Reg) : Statement (.sst64 x0 x1 x2) := by
  rintro _ ⟨⟩; exact formA_switch ..
theorem qld32 (x0 : Bool) (x1 : Reg) (x2 : Reg) : Statement (.qld32 x0 x1 x2) := by
  rintro _ ⟨⟩; exact formA_switch ..
theorem qst32 (x0 : Bool) (x1 : Reg) (x2 : Reg) : Statement (.qst32 x0 x1 x2) := by
  rintro _ ⟨⟩; exact formA_switch ..
theorem lease (x0 : Bool) (x1 : Reg) : Statement (.lease x0 x1) := by
  rintro _ ⟨⟩; exact formA_switch ..
theorem leasem (x0 : Bool) (x1 : Reg) : Statement (.leasem x0 x1) := by
  rintro _ ⟨⟩; exact formA_switch ..
theorem work (x0 : Bool) (x1 : Reg) : Statement (.work x0 x1) := by
  rintro _ ⟨⟩; exact formA_switch ..
theorem steal (x0 : Bool) (x1 : Reg) : Statement (.steal x0 x1) := by
  rintro _ ⟨⟩; exact formA_switch ..
theorem exit (x0 : Bool) : Statement (.exit x0) := by
  rintro _ ⟨⟩; exact formA_switch ..
theorem copy (x0 : Bool) (x1 : Reg) (x2 : Reg) (x3 : Reg) : Statement (.copy x0 x1 x2 x3) := by
  rintro _ ⟨⟩; exact formA_switch ..
theorem copym (x0 : Bool) (x1 : Reg) (x2 : Reg) (x3 : Reg) : Statement (.copym x0 x1 x2 x3) := by
  rintro _ ⟨⟩; exact formA_switch ..
theorem recfl (x0 : Bool) (x1 : Reg) (x2 : Reg) : Statement (.recfl x0 x1 x2) := by
  rintro _ ⟨⟩; exact formA_switch ..
theorem task (x0 : Bool) (x1 : Reg) (x2 : Reg) : Statement (.task x0 x1 x2) := by
  rintro _ ⟨⟩; exact formA_switch ..
theorem dprog (x0 : Bool) (x1 : Reg) (x2 : Reg) (x3 : Reg) : Statement (.dprog x0 x1 x2 x3) := by
  rintro _ ⟨⟩; exact formA_switch ..
theorem djob (x0 : Bool) (x1 : Reg) (x2 : Reg) : Statement (.djob x0 x1 x2) := by
  rintro _ ⟨⟩; exact formA_switch ..
theorem ovld (x0 : Bool) (x1 : Reg) (x2 : Reg) : Statement (.ovld x0 x1 x2) := by
  rintro _ ⟨⟩; exact formA_switch ..
theorem ovtok (x0 : Bool) (x1 : Reg) (x2 : Reg) : Statement (.ovtok x0 x1 x2) := by
  rintro _ ⟨⟩; exact formA_switch ..
theorem ovrel (x0 : Bool) (x1 : Reg) : Statement (.ovrel x0 x1) := by
  rintro _ ⟨⟩; exact formA_switch ..
theorem ovq (x0 : Bool) (x1 : Reg) (x2 : Reg) : Statement (.ovq x0 x1 x2) := by
  rintro _ ⟨⟩; exact formA_switch ..
theorem smap (x0 : Bool) (x1 : Reg) (x2 : Reg) (x3 : Reg) : Statement (.smap x0 x1 x2 x3) := by
  rintro _ ⟨⟩; exact formA_switch ..
theorem sunmap (x0 : Bool) (x1 : Reg) (x2 : Reg) : Statement (.sunmap x0 x1 x2) := by
  rintro _ ⟨⟩; exact formA_switch ..
theorem cload (x0 : Bool) (x1 : Reg) (x2 : Reg) (x3 : Reg) : Statement (.cload x0 x1 x2 x3) := by
  rintro _ ⟨⟩; exact formA_switch ..
theorem crun (x0 : Bool) (x1 : Reg) (x2 : Reg) (x3 : Reg) : Statement (.crun x0 x1 x2 x3) := by
  rintro _ ⟨⟩; exact formA_switch ..
theorem sinit (x0 : Bool) : Statement (.sinit x0) := by
  rintro _ ⟨⟩; exact formA_switch ..
theorem sfold (x0 : Bool) (x1 : Reg) (x2 : Reg) : Statement (.sfold x0 x1 x2) := by
  rintro _ ⟨⟩; exact formA_switch ..
theorem sget (x0 : Bool) (x1 : Reg) : Statement (.sget x0 x1) := by
  rintro _ ⟨⟩; exact formA_switch ..
theorem proof (x0 : Bool) (x1 : Reg) (x2 : Reg) (x3 : Reg) : Statement (.proof x0 x1 x2 x3) := by
  rintro _ ⟨⟩; exact formA_switch ..
theorem proofq (x0 : Bool) (x1 : Reg) (x2 : Reg) : Statement (.proofq x0 x1 x2) := by
  rintro _ ⟨⟩; exact formA_switch ..
theorem nop (x0 : Bool) : Statement (.nop x0) := by
  rintro _ ⟨⟩; exact formA_switch ..
theorem rds (x0 : Bool) (x1 : Reg) (x2 : BitVec 7) : Statement (.rds x0 x1 x2) := by
  rintro _ ⟨⟩; exact formA_switch ..
theorem wrs (x0 : Bool) (x1 : Reg) (x2 : BitVec 7) : Statement (.wrs x0 x1 x2) := by
  rintro _ ⟨⟩; exact formA_switch ..
theorem win (x0 : Bool) (x1 : Reg) : Statement (.win x0 x1) := by
  rintro _ ⟨⟩; exact formA_switch ..
theorem jr (x0 : Bool) (x1 : Reg) : Statement (.jr x0 x1) := by
  rintro _ ⟨⟩; exact formA_switch ..
theorem callx (x0 : Bool) (x1 : Reg) : Statement (.callx x0 x1) := by
  rintro _ ⟨⟩; exact formA_switch ..
theorem ret (x0 : Bool) : Statement (.ret x0) := by
  rintro _ ⟨⟩; exact formA_switch ..
theorem trap (x0 : Bool) (x1 : BitVec 7) : Statement (.trap x0 x1) := by
  rintro _ ⟨⟩; exact formA_switch ..
theorem tret (x0 : Bool) : Statement (.tret x0) := by
  rintro _ ⟨⟩; exact formA_switch ..
theorem bkpt (x0 : Bool) : Statement (.bkpt x0) := by
  rintro _ ⟨⟩; exact formA_switch ..
theorem launch (x0 : Bool) (x1 : Reg) (x2 : Reg) (x3 : Reg) : Statement (.launch x0 x1 x2 x3) := by
  rintro _ ⟨⟩; exact formA_switch ..
theorem ldu (x0 : Bool) (x1 : Reg) (x2 : Reg) : Statement (.ldu x0 x1 x2) := by
  rintro _ ⟨⟩; exact formA_switch ..
theorem ocall (x0 : Bool) (x1 : Reg) : Statement (.ocall x0 x1) := by
  rintro _ ⟨⟩; exact formA_switch ..
theorem pref (x0 : Bool) (x1 : Reg) : Statement (.pref x0 x1) := by
  rintro _ ⟨⟩; exact formA_switch ..
theorem reservedHint (x0 : Bool) (x1 : BitVec 5) (x2 : Reg) (x3 : Reg) (x4 : Reg) : Statement (.reservedHint x0 x1 x2 x3 x4) := by
  rintro _ ⟨⟩; exact formA_switch ..
theorem illegalWordFetch (x0 : FetchFault) : Statement (.illegalWordFetch x0) := by
  rintro _ ⟨⟩
theorem reformBoundary (x0 : Nat) : Statement (.reformBoundary x0) := by
  rintro _ ⟨⟩
theorem longLatencyReply (x0 : Nat) : Statement (.longLatencyReply x0) := by
  rintro _ ⟨⟩
theorem switchPointLeave (x0 : ThreadId) : Statement (.switchPointLeave x0) := by
  rintro _ ⟨⟩
theorem crewdivDetect (x0 : CrewId) : Statement (.crewdivDetect x0) := by
  rintro _ ⟨⟩
theorem trapTaken (x0 : CrewId) : Statement (.trapTaken x0) := by
  rintro _ ⟨⟩
theorem launchKill (x0 : Nat) : Statement (.launchKill x0) := by
  rintro _ ⟨⟩
theorem permitBackoffExpiry (x0 : ThreadId) : Statement (.permitBackoffExpiry x0) := by
  rintro _ ⟨⟩
theorem lacerLoadDecision (x0 : CoreId) : Statement (.lacerLoadDecision x0) := by
  rintro _ ⟨⟩
theorem segmentLoadComplete (x0 : CoreId) (x1 : Nat) : Statement (.segmentLoadComplete x0 x1) := by
  rintro _ ⟨⟩
theorem ovfullTimeout (x0 : CoreId) : Statement (.ovfullTimeout x0) := by
  rintro _ ⟨⟩
theorem packetServe (x0 : Nat) (x1 : Nat) : Statement (.packetServe x0 x1) := by
  rintro _ ⟨⟩
theorem teamPlacement (x0 : Nat) : Statement (.teamPlacement x0) := by
  rintro _ ⟨⟩
theorem launchEnd (x0 : Nat) : Statement (.launchEnd x0) := by
  rintro _ ⟨⟩
theorem activationDecision (x0 : CoreId) : Statement (.activationDecision x0) := by
  rintro _ ⟨⟩
theorem dueCountExpiry (x0 : CrewId) : Statement (.dueCountExpiry x0) := by
  rintro _ ⟨⟩
theorem leaseWindowExpiry (x0 : CrewId) : Statement (.leaseWindowExpiry x0) := by
  rintro _ ⟨⟩
theorem l1WritebackTimer (x0 : CoreId) (x1 : Nat) : Statement (.l1WritebackTimer x0 x1) := by
  rintro _ ⟨⟩
theorem pageWalkComplete (x0 : Nat) : Statement (.pageWalkComplete x0) := by
  rintro _ ⟨⟩
theorem faultRecordWrite (x0 : Nat) : Statement (.faultRecordWrite x0) := by
  rintro _ ⟨⟩
theorem atomicPerform (x0 : Nat) : Statement (.atomicPerform x0) := by
  rintro _ ⟨⟩
theorem scAccessPerform (x0 : Nat) : Statement (.scAccessPerform x0) := by
  rintro _ ⟨⟩
theorem scClockPublish (x0 : CoreId) : Statement (.scClockPublish x0) := by
  rintro _ ⟨⟩
theorem monitorReread (x0 : ThreadId) : Statement (.monitorReread x0) := by
  rintro _ ⟨⟩
theorem waitcPollTimer (x0 : ThreadId) : Statement (.waitcPollTimer x0) := by
  rintro _ ⟨⟩
theorem redtoDelivery (x0 : Nat) : Statement (.redtoDelivery x0) := by
  rintro _ ⟨⟩
theorem barrierArrival (x0 : Nat) : Statement (.barrierArrival x0) := by
  rintro _ ⟨⟩
theorem workPieceServe (x0 : Nat) : Statement (.workPieceServe x0) := by
  rintro _ ⟨⟩
theorem engineOpBegin (x0 : Nat) : Statement (.engineOpBegin x0) := by
  rintro _ ⟨⟩
theorem engineRetire (x0 : Nat) : Statement (.engineRetire x0) := by
  rintro _ ⟨⟩
theorem skiverJobStop (x0 : Nat) : Statement (.skiverJobStop x0) := by
  rintro _ ⟨⟩
theorem cobblerDispatch (x0 : Nat) : Statement (.cobblerDispatch x0) := by
  rintro _ ⟨⟩
theorem eslotTimeout (x0 : Nat) : Statement (.eslotTimeout x0) := by
  rintro _ ⟨⟩
theorem addOnStorePerform (x0 : Nat) : Statement (.addOnStorePerform x0) := by
  rintro _ ⟨⟩
theorem ticketTileApply (x0 : Nat) : Statement (.ticketTileApply x0) := by
  rintro _ ⟨⟩
theorem candidateStop (x0 : ThreadId) : Statement (.candidateStop x0) := by
  rintro _ ⟨⟩
theorem proofPerform (x0 : Nat) : Statement (.proofPerform x0) := by
  rintro _ ⟨⟩
theorem proofqPerform (x0 : Nat) : Statement (.proofqPerform x0) := by
  rintro _ ⟨⟩
theorem writeApply (x0 : Nat) : Statement (.writeApply x0) := by
  rintro _ ⟨⟩
theorem remoteRequestServe (x0 : Nat) : Statement (.remoteRequestServe x0) := by
  rintro _ ⟨⟩
theorem remoteLineSendTimer (x0 : Nat) (x1 : Nat) : Statement (.remoteLineSendTimer x0 x1) := by
  rintro _ ⟨⟩
theorem autoSwapOut (x0 : Nat) (x1 : Nat) : Statement (.autoSwapOut x0 x1) := by
  rintro _ ⟨⟩
theorem lateReplyWrite (x0 : Nat) : Statement (.lateReplyWrite x0) := by
  rintro _ ⟨⟩
theorem teamRestore (x0 : Nat) (x1 : Nat) : Statement (.teamRestore x0 x1) := by
  rintro _ ⟨⟩
theorem migrationQuiesced (x0 : Nat) : Statement (.migrationQuiesced x0) := by
  rintro _ ⟨⟩
theorem intervalClose (x0 : Nat) : Statement (.intervalClose x0) := by
  rintro _ ⟨⟩
theorem uncorrectableConsumed (x0 : Nat) : Statement (.uncorrectableConsumed x0) := by
  rintro _ ⟨⟩
theorem timingReplay (x0 : CoreId) (x1 : Nat) : Statement (.timingReplay x0 x1) := by
  rintro _ ⟨⟩
theorem schedulerRebuild (x0 : Nat) (x1 : Nat) : Statement (.schedulerRebuild x0 x1) := by
  rintro _ ⟨⟩
theorem voltageEvaluation (x0 : Nat) (x1 : Nat) : Statement (.voltageEvaluation x0 x1) := by
  rintro _ ⟨⟩
theorem throttleStart (x0 : Nat) : Statement (.throttleStart x0) := by
  rintro _ ⟨⟩
theorem throttleEnd (x0 : Nat) : Statement (.throttleEnd x0) := by
  rintro _ ⟨⟩
theorem traceCaptureStop : Statement (.traceCaptureStop) := by
  rintro _ ⟨⟩
theorem powerOn (x0 : Option Nat) : Statement (.powerOn x0) := by
  rintro _ ⟨⟩
theorem memoryInitComplete : Statement (.memoryInitComplete) := by
  rintro _ ⟨⟩
theorem queueTail (x0 : Nat) (x1 : Nat) (x2 : Word) : Statement (.queueTail x0 x1 x2) := by
  rintro _ ⟨⟩
theorem resume (x0 : Nat) (x1 : DWord) : Statement (.resume x0 x1) := by
  rintro _ ⟨⟩
theorem fqhead (x0 : Nat) (x1 : Word) : Statement (.fqhead x0 x1) := by
  rintro _ ⟨⟩
theorem invalva (x0 : Nat) (x1 : DWord) : Statement (.invalva x0 x1) := by
  rintro _ ⟨⟩
theorem preempt (x0 : Nat) (x1 : DWord) : Statement (.preempt x0 x1) := by
  rintro _ ⟨⟩
theorem restorel (x0 : Nat) (x1 : DWord) : Statement (.restorel x0 x1) := by
  rintro _ ⟨⟩
theorem eyeletSpill (x0 : Nat) (x1 : CoreId) (x2 : Nat) : Statement (.eyeletSpill x0 x1 x2) := by
  rintro _ ⟨⟩
theorem eyeletFill (x0 : Nat) (x1 : CoreId) (x2 : Nat) : Statement (.eyeletFill x0 x1 x2) := by
  rintro _ ⟨⟩
theorem migctl (x0 : Nat) (x1 : Word) : Statement (.migctl x0 x1) := by
  rintro _ ⟨⟩
theorem vtime (x0 : Nat) (x1 : DWord) : Statement (.vtime x0 x1) := by
  rintro _ ⟨⟩
theorem semAcquire (x0 : Nat) (x1 : Nat) : Statement (.semAcquire x0 x1) := by
  rintro _ ⟨⟩
theorem semRelease (x0 : Nat) (x1 : Nat) : Statement (.semRelease x0 x1) := by
  rintro _ ⟨⟩
theorem frameQuota (x0 : Nat) (x1 : CoreId) (x2 : Nat) : Statement (.frameQuota x0 x1 x2) := by
  rintro _ ⟨⟩
theorem diemask (x0 : Nat) (x1 : Word) : Statement (.diemask x0 x1) := by
  rintro _ ⟨⟩
theorem vfCreate (x0 : Nat) (x1 : Word) (x2 : Word) : Statement (.vfCreate x0 x1 x2) := by
  rintro _ ⟨⟩
theorem vfDestroy (x0 : Nat) : Statement (.vfDestroy x0) := by
  rintro _ ⟨⟩
theorem registerWrite (x0 : HostReg) (x1 : DWord) : Statement (.registerWrite x0 x1) := by
  rintro _ ⟨⟩
theorem masterMemoryWrite (x0 : Nat) (x1 : Nat) (x2 : Nat) (x3 : List Byte) : Statement (.masterMemoryWrite x0 x1 x2 x3) := by
  rintro _ ⟨⟩
theorem singleFault (x0 : FaultLoc) : Statement (.singleFault x0) := by
  rintro _ ⟨⟩
theorem invalvaRemovalComplete (x0 : Nat) : Statement (.invalvaRemovalComplete x0) := by
  rintro _ ⟨⟩
theorem saveComplete (x0 : Nat) (x1 : Nat) : Statement (.saveComplete x0 x1) := by
  rintro _ ⟨⟩

end Sys2Proof.Laws.SwitchBit
end

