-- ==== Sys2Proof/Machine/AsmText.lean ====
section
/-! DEFINITION. zlasm's source text: lines, tokens, numbers and expressions (R337, R338). No step of the machine uses it. -/

namespace Sys2Proof.Machine

abbrev Text := List Char

/-! ## Tokens -/

/-- A token of a line: a word (an identifier, a mnemonic, a directive or a name), a number, or an operator or mark. -/
inductive AsmToken where
  | word (t : Text)
  | num (n : Nat)
  | sym (t : Text)
  deriving DecidableEq, Repr

/-- What is not case-sensitive is compared in lower case (R337). -/
def lowered (t : Text) : Text := t.map Char.toLower

/-- An identifier: a letter or an underscore, then letters, digits and underscores (R337). -/
def isIdent : Text → Bool
  | [] => false
  | c :: cs => (c.isAlpha || c == '_') && cs.all (fun x => x.isAlphanum || x == '_')

/-- A character of a word: those of an identifier, and the dots of mnemonics and directives. -/
def wordChar (c : Char) : Bool := c.isAlphanum || c == '_' || c == '.'

/-- The value of a digit in a base. -/
def digitOf (base : Nat) (c : Char) : Option Nat :=
  let n := c.toNat
  let v := if c.isDigit then n - 48 else if 97 ≤ n ∧ n ≤ 102 then n - 87 else if 65 ≤ n ∧ n ≤ 70 then n - 55 else base
  if v < base then some v else none

/-- A number of digits; underscores may stand between digits and are ignored (R338). DEDUCED (log entry 33). -/
def digitsOf (base : Nat) (t : Text) : Option Nat :=
  if t.isEmpty || t.head? == some '_' || t.getLast? == some '_' then none
  else (t.filter (fun c => c != '_')).foldl (fun acc c => do
    let a ← acc
    let v ← digitOf base c
    pure (a * base + v)) (some 0)

/-- A number: hex with 0x, binary with 0b, or decimal (R338). -/
def numberOfText : Text → Option Nat
  | '0' :: 'x' :: ds => digitsOf 16 ds
  | '0' :: 'b' :: ds => digitsOf 2 ds
  | ds => digitsOf 10 ds

/-- The tokens of a line without its comment; none where a character or a number is no part of the language. -/
def asmLex : Nat → Text → Option (List AsmToken)
  | _, [] => some []
  | 0, _ => none
  | n + 1, c :: cs =>
    if c == ' ' || c == '\t' || c == '\r' then asmLex n cs
    else if wordChar c then do
      let w := (c :: cs).takeWhile wordChar
      let rest ← asmLex n ((c :: cs).dropWhile wordChar)
      if c.isDigit then pure (.num (← numberOfText w) :: rest) else pure (.word w :: rest)
    else match c, cs with
      | '<', '<' :: r => (asmLex n r).map (fun ts => .sym ['<', '<'] :: ts)
      | '>', '>' :: r => (asmLex n r).map (fun ts => .sym ['>', '>'] :: ts)
      | _, _ =>
        if [':', ',', '(', ')', '[', ']', '^', '+', '-', '~', '*', '/', '%', '&', '|'].contains c
        then (asmLex n cs).map (fun ts => .sym [c] :: ts) else none

/-! ## Lines -/

/-- A source line: its label, and its statement: whether a caret stands before it, its mnemonic or directive in lower case (`[]` for
none), and its operands (R8, R337). -/
structure AsmLine where
  label : Option Text
  caret : Bool
  head  : Text
  args  : List (List AsmToken)
  deriving DecidableEq, Repr

/-- Splits at every token of a kind. -/
def splitTokens (at_ : AsmToken) : List AsmToken → List (List AsmToken)
  | [] => [[]]
  | t :: ts =>
    if t == at_ then [] :: splitTokens at_ ts
    else match splitTokens at_ ts with
      | [] => [[t]]
      | x :: xs => (t :: x) :: xs

/-- The statement of a line. -/
def asmStatement (label : Option Text) : List AsmToken → Option AsmLine
  | [] => some ⟨label, false, [], []⟩
  | .sym ['^'] :: .word w :: ts => some ⟨label, true, lowered w, if ts.isEmpty then [] else splitTokens (.sym [',']) ts⟩
  | .word w :: ts => some ⟨label, false, lowered w, if ts.isEmpty then [] else splitTokens (.sym [',']) ts⟩
  | _ => none

/-- A line: a label, one statement and a comment, each optional (R337). -/
def asmLine (t : Text) : Option AsmLine := do
  let code := t.takeWhile (fun c => c != ';')
  match ← asmLex code.length code with
  | .word w :: .sym [':'] :: ts => if isIdent w then asmStatement (some w) ts else none
  | ts => asmStatement none ts

/-- The lines of a source file. -/
def textLines : Text → List Text
  | [] => [[]]
  | c :: cs =>
    if c == '\n' then [] :: textLines cs
    else match textLines cs with
      | [] => [[c]]
      | x :: xs => (c :: x) :: xs

/-! ## Expressions -/

/-- The binary operators, by the row of the table of R338, the loosest first. -/
inductive AsmOp where
  | or | xor | and | shl | shr | add | sub | mul | div | rem
  deriving DecidableEq, Repr

inductive AsmExpr where
  | num (n : Int)
  | label (t : Text)
  | neg (e : AsmExpr)
  | not (e : AsmExpr)
  | bin (op : AsmOp) (a b : AsmExpr)
  deriving DecidableEq, Repr

/-- The operator of a token in a row: 0 for or, to 5 for the products. -/
def asmOpAt : Nat → AsmToken → Option AsmOp
  | 0, .sym ['|'] => some .or
  | 1, .sym ['^'] => some .xor
  | 2, .sym ['&'] => some .and
  | 3, .sym ['<', '<'] => some .shl
  | 3, .sym ['>', '>'] => some .shr
  | 4, .sym ['+'] => some .add
  | 4, .sym ['-'] => some .sub
  | 5, .sym ['*'] => some .mul
  | 5, .sym ['/'] => some .div
  | 5, .sym ['%'] => some .rem
  | _, _ => none

/-- Reads an expression of a row, and of the rows that bind more tightly; `left` is what of it stands read already. Operators of one
row apply left to right (R338). Row 6 holds the unary operators, numbers, labels and parentheses. -/
def asmParse : Nat → Nat → Option AsmExpr → List AsmToken → Option (AsmExpr × List AsmToken)
  | 0, _, _, _ => none
  | n + 1, row, some left, ts =>
    match ts with
    | t :: rest =>
      match asmOpAt row t with
      | some op => do
        let (right, rest') ← asmParse n (row + 1) none rest
        asmParse n row (some (.bin op left right)) rest'
      | none => some (left, ts)
    | [] => some (left, [])
  | n + 1, row, none, ts =>
    if row < 6 then do
      let (left, rest) ← asmParse n (row + 1) none ts
      asmParse n row (some left) rest
    else match ts with
      | .num v :: rest => some (.num v, rest)
      | .word w :: rest => if isIdent w then some (.label w, rest) else none
      | .sym ['-'] :: rest => (asmParse n 6 none rest).map (fun (x : AsmExpr × List AsmToken) => (.neg x.1, x.2))
      | .sym ['~'] :: rest => (asmParse n 6 none rest).map (fun (x : AsmExpr × List AsmToken) => (.not x.1, x.2))
      | .sym ['('] :: rest =>
        match asmParse n 0 none rest with
        | some (e, .sym [')'] :: rest') => some (e, rest')
        | _ => none
      | _ => none

/-- The expression that the tokens of an operand are. -/
def asmExpr (ts : List AsmToken) : Option AsmExpr :=
  match asmParse (16 * (ts.length + 1)) 0 none ts with
  | some (e, []) => some e
  | _ => none

/-- Bitwise and, or and exclusive or on unbounded integers in two's complement. -/
def intAnd : Int → Int → Int
  | .ofNat a, .ofNat b => .ofNat (a &&& b)
  | .ofNat a, .negSucc b => .ofNat (a - (a &&& b))
  | .negSucc a, .ofNat b => .ofNat (b - (b &&& a))
  | .negSucc a, .negSucc b => .negSucc (a ||| b)
def intNot (a : Int) : Int := -a - 1
def intOr (a b : Int) : Int := intNot (intAnd (intNot a) (intNot b))
def intXor (a b : Int) : Int := intOr (intAnd a (intNot b)) (intAnd (intNot a) b)

/-- The value of an operation; none for a division by zero (R338). A shift by a negative count is refused (DEDUCED, log entry 33). -/
def AsmOp.value : AsmOp → Int → Int → Option Int
  | .or, a, b => some (intOr a b)
  | .xor, a, b => some (intXor a b)
  | .and, a, b => some (intAnd a b)
  | .shl, a, b => if b < 0 then none else some (a * 2 ^ b.toNat)
  | .shr, a, b => if b < 0 then none else some (a.fdiv (2 ^ b.toNat))
  | .add, a, b => some (a + b)
  | .sub, a, b => some (a - b)
  | .mul, a, b => some (a * b)
  | .div, a, b => if b = 0 then none else some (a.tdiv b)
  | .rem, a, b => if b = 0 then none else some (a.tmod b)

/-- Where a label stands: a segment and a byte offset, a candidate and a word, or neither (R341, R342). -/
inductive AsmPos where
  | seg (s off : Nat)
  | cand (c j : Nat)
  | nowhere
  deriving DecidableEq, Repr

/-- The position of a label. -/
def labelPos (labels : List (Text × AsmPos)) (t : Text) : Option AsmPos := (labels.find? (fun x => x.1 == t)).map (fun x => x.2)

/-- The value of an expression on unbounded integers; a label stands for its code address (R338). -/
def AsmExpr.value (labels : List (Text × AsmPos)) : AsmExpr → Option Int
  | .num n => some n
  | .label t => match labelPos labels t with
    | some (.seg s off) => some (s * 2 ^ 16 + off)
    | _ => none
  | .neg e => (e.value labels).map (fun x => -x)
  | .not e => (e.value labels).map intNot
  | .bin op a b => do
    let x ← a.value labels
    let y ← b.value labels
    op.value x y

/-- The value of an operand within a range. -/
def asmValue (labels : List (Text × AsmPos)) (lo hi : Int) (ts : List AsmToken) : Option Int := do
  let v ← (← asmExpr ts).value labels
  if lo ≤ v ∧ v ≤ hi then pure v else none

end Sys2Proof.Machine
end

