-- ==== Sys2Proof/Machine/AsmWord.lean ====
section
/-! DEFINITION. zlasm's instructions: the mnemonics of the opcode map with their shapes (R41 to R56, R339) and the operands of each
(R8 to R10, R36, R37, R40, R160, R340). No step of the machine uses it. -/

namespace Sys2Proof.Machine

/-! ## Mnemonics -/

/-- The shape of a field (R37), where it is written: `sel` the selector of RDS or, with `w`, of WRS; `code` the user code of TRAP;
`fixed` a value that a modifier gives, or 0 where the field is unused. -/
inductive AsmShape where
  | r | p | q | o8
  | sel (w : Bool)
  | code
  | fixed (n : Nat)
  deriving DecidableEq, Repr

/-- The form of an instruction: its major class with its selector, and the shapes that the form leaves open (R35). -/
inductive AsmForm where
  | a (m f : Nat) (d a b : AsmShape)
  | i (f : Nat)
  | u (f : Nat)
  | b (cond : Nat)
  | j (kind : Nat)
  | m (major size : Nat)
  deriving DecidableEq, Repr

/-- Numbers a list from a number on. -/
def numberedFrom (n : Nat) (l : List String) : List (Nat × String) := (List.range l.length).zip l |>.map (fun x => (n + x.1, x.2))

/-- Consecutive selectors of an A-format class with one set of shapes. -/
def asmRun (m f : Nat) (d a b : AsmShape) (names : List String) : List (Text × AsmForm) :=
  (numberedFrom f names).map (fun x => (lowered x.2.toList, .a m x.1 d a b))

/-- Consecutive selectors of a class of another format. -/
def asmRow (form : Nat → AsmForm) (names : List String) : List (Text × AsmForm) :=
  (numberedFrom 0 names).map (fun x => (lowered x.2.toList, form x.1))

/-- The unused field. -/
def noField : AsmShape := .fixed 0

/-- INT (R41). -/
def asmInt : List (Text × AsmForm) := List.flatten [
  asmRun 0 0 .r .r .r ["ADD", "SUB", "MULLO", "MULHI.s32", "MULHI.n32"],
  asmRun 0 5 .p .r .r ["MULW.s32", "MULW.n32"],
  asmRun 0 7 .r .r .r ["MAD", "DIV.s32", "DIV.n32", "REM.s32", "REM.n32", "AND", "OR", "XOR", "ANDN", "ORN"],
  asmRun 0 17 .r .r .r ["SHL", "SHR", "SAR", "ROTL", "ROTR", "MIN.s32", "MIN.n32", "MAX.s32", "MAX.n32", "SAD", "SEL"],
  asmRun 0 28 .r .r .r ["SETEQ", "SETNE", "SETLT.s32", "SETLT.n32", "SETLE.s32", "SETLE.n32"],
  asmRun 0 34 .r .r noField ["CLZ", "POPC", "BREV"],
  asmRun 0 37 .r .r .r ["BFX.s32", "BFX.n32", "BFI"],
  asmRun 0 40 .p .p .p ["ADD64", "SUB64"],
  asmRun 0 42 .p .p .r ["SHL64", "SHR64", "SAR64"],
  asmRun 0 45 .r .p .p ["SETEQ64", "SETLT64.s", "SETLT64.n"],
  asmRun 0 48 .p .r .r ["MAD64.n32", "MAD64.s32"],
  asmRun 0 50 .r .r noField ["MOV"],
  asmRun 0 51 .p .p noField ["MOV64"]]

/-- FLT and CVT (R43, R44). -/
def asmFloat : List (Text × AsmForm) := List.flatten [
  asmRun 2 0 .r .r .r ["FADD", "FSUB", "FMUL", "FMA", "FMIN", "FMAX", "FDIV"],
  asmRun 2 7 .r .r noField ["FSQRT", "FRCP", "FRSQ", "FEXP2", "FLOG2", "FABS", "FNEG", "FRINT", "FCLASS"],
  asmRun 2 16 .r .r .r ["FSETEQ", "FSETLT", "FSETLE", "FSETUN"],
  asmRun 2 20 .p .p .p ["DADD", "DSUB", "DMUL", "DFMA", "DMIN", "DMAX", "DDIV"],
  asmRun 2 27 .p .p noField ["DSQRT", "DRINT"],
  asmRun 2 29 .r .p .p ["DSETEQ", "DSETLT", "DSETLE"],
  asmRun 2 32 .r .r .r ["HADD2", "HMUL2", "HFMA2", "BADD2", "BMUL2", "BFMA2"],
  asmRun 3 0 .r .r noField ["CVT.f32.s32", "CVT.f32.n32", "CVT.s32.f32", "CVT.n32.f32"],
  asmRun 3 4 .p .r noField ["CVT.f64.f32"],
  asmRun 3 5 .r .p noField ["CVT.f32.f64"],
  asmRun 3 6 .p .r noField ["CVT.f64.s32"],
  asmRun 3 7 .r .p noField ["CVT.s32.f64"],
  asmRun 3 8 .p .p noField ["CVT.f64.s64", "CVT.s64.f64", "CVT.f64.n64", "CVT.n64.f64"],
  asmRun 3 12 .r .r .r ["PACK.f16", "PACK.bf16"],
  asmRun 3 14 .p .r noField ["UNPK.f16", "UNPK.bf16"],
  asmRun 3 16 .r .r noField ["SEXT8", "SEXT16"],
  asmRun 3 18 .r .r .r ["QNT.n8", "DQNT.n8"]]

/-- INTI, UIMM, BR, J, LD and ST (R42, R45 to R48). -/
def asmImm : List (Text × AsmForm) := List.flatten [
  asmRow .i ["ADDI", "ANDI", "ORI", "XORI", "SHLI", "SHRI", "SARI", "SETLTI.s32"],
  asmRow .u ["LDS", "LDH", "ORL", "ADDPC"],
  asmRow .b ["BEQZ", "BNEZ", "BLTZ", "BGEZ", "BGTZ", "BLEZ", "BRA"],
  asmRow .j ["JMP", "CALL"],
  asmRow (.m 7) ["LD8.s", "LD8.n", "LD16.s", "LD16.n", "LD32", "LD64", "LD128"],
  [("st8".toList, .m 8 0), ("st16".toList, .m 8 2), ("st32".toList, .m 8 4), ("st64".toList, .m 8 5), ("st128".toList, .m 8 6)]]

/-- ATOM: the scope is a modifier in F[5:4] (R50, R339). -/
def asmAtom : List (Text × AsmForm) :=
  (numberedFrom 0 [".core", ".die", ".pkg", ".pod"]).flatMap (fun sc =>
    let run (f : Nat) (d b : AsmShape) (names : List String) : List (Text × AsmForm) :=
      asmRun 9 (16 * sc.1 + f) d .p b (names.map (fun n => n ++ sc.2))
    List.flatten [
      run 0 .r .r ["AADD"], run 1 .p .p ["AADD64"],
      run 2 .r .r ["AMIN.s32", "AMIN.n32", "AMAX.s32", "AMAX.n32", "AAND", "AOR", "AXOR", "AXCHG"],
      run 10 .p .p ["AXCHG64"], run 11 .r .p ["ACAS"], run 12 .p .q ["ACAS64"], run 13 .r .r ["AFADD"], run 14 .p .p ["AFADD64"],
      run 15 .r .r ["AINCW"]])

/-- The scopes of R51, from 1 on. -/
def asmScopes : List (Nat × String) := numberedFrom 1 [".core", ".quad", ".die", ".pkg", ".pod"]

/-- SYNC: the kind and the scope are modifiers in B (R51, R339). -/
def asmSync : List (Text × AsmForm) := List.flatten [
  (numberedFrom 1 [".acq", ".rel", ".acqrel"]).flatMap (fun k => asmScopes.flatMap (fun sc =>
    asmRun 10 0 noField noField (.fixed (8 * k.1 + sc.1)) ["FENCE" ++ k.2 ++ sc.2])),
  asmRun 10 1 .r .p noField ["LDSC"],
  asmRun 10 2 noField .p .r ["STSC"],
  asmRun 10 3 .r .p .p ["CASSC"],
  asmRun 10 4 .r .p .r ["WAITC.EQ", "WAITC.NE", "WAITC.GE.s32", "WAITC.GE.n32", "WAITC.LT.s32", "WAITC.LT.n32"],
  asmRun 10 10 .p .p .r ["REDTO.ADD", "REDTO.FADD", "REDTO.MIN.s32", "REDTO.MAX.s32", "REDTO.OR"],
  asmScopes.flatMap (fun sc => asmRun 10 15 noField .r (.fixed sc.1) (["BAR", "BARA", "BARW"].map (fun n => n ++ sc.2))),
  asmScopes.flatMap (fun sc => asmRun 10 18 .r .r (.fixed sc.1) ["BARINIT" ++ sc.2])]

/-- PAR (R52). -/
def asmPar : List (Text × AsmForm) := List.flatten [
  asmRun 11 0 noField .r noField ["MEET"],
  asmRun 11 1 .r noField noField ["MEETQ"],
  asmRun 11 2 .r .r .r ["CSHFL", "CSHFLX", "CUP", "CDN", "CBCAST"],
  asmRun 11 7 .r .r noField ["CVANY", "CVALL", "CBALLOT", "CRADD", "CRFADD", "CRMIN.s32", "CRMAX.s32", "CSCAN", "CSCANF", "SLD32", "SST32"],
  asmRun 11 18 .p .r noField ["SLD64", "SST64"],
  asmRun 11 20 .r .p noField ["QLD32", "QST32"],
  asmRun 11 22 noField .r noField ["LEASE", "LEASEM"],
  asmRun 11 24 .q noField noField ["WORK", "STEAL"],
  asmRun 11 26 noField noField noField ["EXIT"]]

/-- ENG, STY, SYS and the one hint with a name (R53 to R56). -/
def asmRest : List (Text × AsmForm) := List.flatten [
  asmRun 12 0 .r .p .o8 ["COPY", "COPYM"],
  asmRun 12 2 .r .p noField ["RECFL"],
  asmRun 12 3 .r .r noField ["TASK"],
  asmRun 12 4 .r .r .r ["DPROG"],
  asmRun 12 5 .r .p noField ["DJOB"],
  asmRun 12 6 .r .r noField ["OVLD", "OVTOK"],
  asmRun 12 8 noField .r noField ["OVREL"],
  asmRun 12 9 .r .r noField ["OVQ"],
  asmRun 12 10 .r .p .p ["SMAP"],
  asmRun 12 11 .r .r noField ["SUNMAP"],
  asmRun 13 0 .r .p .r ["CLOAD"],
  asmRun 13 1 .p .q .r ["CRUN"],
  asmRun 13 2 noField noField noField ["SINIT"],
  asmRun 13 3 noField .r .r ["SFOLD"],
  asmRun 13 4 .p noField noField ["SGET"],
  asmRun 13 5 .p .p .r ["PROOF"],
  asmRun 13 6 .p .p noField ["PROOFQ"],
  asmRun 14 0 noField noField noField ["NOP"],
  asmRun 14 1 .r noField (.sel false) ["RDS"],
  asmRun 14 2 noField .r (.sel true) ["WRS"],
  asmRun 14 3 noField .r noField ["WIN", "JR", "CALLX"],
  asmRun 14 6 noField noField noField ["RET"],
  asmRun 14 7 noField noField .code ["TRAP"],
  asmRun 14 8 noField noField noField ["TRET", "BKPT"],
  asmRun 14 10 .r .p .r ["LAUNCH"],
  asmRun 14 60 .p .p noField ["LDU"],
  asmRun 14 61 noField noField .r ["OCALL"],
  asmRun 15 0 noField .p noField ["PREF"]]

/-- The form of a mnemonic in lower case. -/
def asmForm (t : Text) : Option AsmForm :=
  ((List.flatten [asmInt, asmFloat, asmImm, asmAtom, asmSync, asmPar, asmRest]).find? (fun x => x.1 == t)).map (fun x => x.2)

/-! ## Operands -/

/-- What the operands of a word are read by: the labels, the .regs value in force, and where the word stands. -/
structure AsmEnv where
  labels : List (Text × AsmPos)
  regs   : Nat
  here   : AsmPos
  deriving DecidableEq, Repr

/-- The special registers of R16 that a name stands for; k0 to k63 are beside them. -/
def specialNames : List (Nat × String) :=
  numberedFrom 0 ["TIDX", "TIDY", "TIDZ", "NTIDX", "NTIDY", "NTIDZ", "TEAMX", "TEAMY", "TEAMZ", "NTEAMX", "NTEAMY", "NTEAMZ", "CREW",
    "RANK", "QRANK", "QSIZE", "CORE", "DIE", "LAUNCHLO", "LAUNCHHI", "CLOCKLO", "CLOCKHI", "FPMODE", "FPFLAGS", "INTFLAGS", "WINBASE",
    "REGALLOC", "LK", "CARVE", "LEASE", "FEATURE0", "FEATURE1", "PHYSREV", "MIGEPOCH", "NBV", "MODE", "TRAPCODE", "TRAPPC", "TRAPMASK",
    "TRAPINFO", "TRAPADDRLO", "TRAPADDRHI"] ++
  (List.range 16).map (fun i => (48 + i, "STALL" ++ toString i)) ++
  (List.range 64).map (fun i => (64 + i, "k" ++ toString i))

/-- The selector of a special-register name (R10). -/
def specialSel (t : Text) : Option Nat :=
  (specialNames.find? (fun x => lowered x.2.toList == lowered t)).map (fun x => x.1)

/-- A register operand of a width and alignment: its base name (R37, R340). While .regs is below 128 every register it covers lies
below .regs. -/
def asmReg (env : AsmEnv) (width align : Nat) : List AsmToken → Option Reg
  | [.word w] =>
    match lowered w with
    | 'w' :: ds => do
      let n ← digitsOf 10 ds
      if n % align = 0 ∧ n + width ≤ 128 ∧ (128 ≤ env.regs ∨ n + width ≤ env.regs) then pure (BitVec.ofNat 7 n) else none
    | _ => none
  | _ => none

/-- A selector operand: a name or an expression; a selector that R55 makes ILLEGAL is refused. -/
def asmSel (env : AsmEnv) (write : Bool) (ts : List AsmToken) : Option Reg := do
  let named := match ts with
    | [.word w] => specialSel w
    | _ => none
  let n ← match named with
    | some n => some n
    | none => (asmValue env.labels 0 127 ts).map Int.toNat
  let x : Reg := BitVec.ofNat 7 n
  if (if write then writable x else readable x) then pure x else none

/-- The operand of a field. -/
def asmField (env : AsmEnv) (sh : AsmShape) (ts : List AsmToken) : Option Reg :=
  match sh with
  | .r => asmReg env 1 1 ts
  | .p => asmReg env 2 2 ts
  | .q => asmReg env 4 4 ts
  | .o8 => asmReg env 8 4 ts
  | .sel write => asmSel env write ts
  | .code => (asmValue env.labels 0 127 ts).map (fun v => BitVec.ofInt 7 v)
  | .fixed n => some (BitVec.ofNat 7 n)

/-- The operands of fields in the order D, A, B; unused fields and modifiers take none (R40, R340). -/
def asmFields (env : AsmEnv) : List AsmShape → List (List AsmToken) → Option (List Reg)
  | [], [] => some []
  | [], _ :: _ => none
  | .fixed n :: shs, args => (asmFields env shs args).map (fun rs => BitVec.ofNat 7 n :: rs)
  | sh :: shs, x :: args => do
    let r ← asmField env sh x
    let rs ← asmFields env shs args
    pure (r :: rs)
  | _ :: _, [] => none

/-- The distance in words to a label of the same segment or candidate (R9, R342). -/
def asmDistance (env : AsmEnv) (t : Text) : Option Int :=
  match labelPos env.labels t, env.here with
  | some (.seg s x), .seg s' y => if s = s' then some (((x : Int) - y) / 4) else none
  | some (.cand c x), .cand c' y => if c = c' then some ((x : Int) - y) else none
  | _, _ => none

/-- A target operand within a range: a label, or an expression that gives the offset in words (R340). A plus may stand before the
expression of a branch offset (DEDUCED, log entry 33). -/
def asmTarget (env : AsmEnv) (lo hi : Int) (plus : Bool) (ts : List AsmToken) : Option Int := do
  let v ← match ts with
    | [.word w] => asmDistance env w
    | .sym ['+'] :: rest => if plus then asmValue env.labels lo hi rest else none
    | _ => asmValue env.labels lo hi ts
  if lo ≤ v ∧ v ≤ hi then pure v else none

/-- A memory operand: the pair and the offset in bytes. DEDUCED (log entry 33). -/
def asmMem (env : AsmEnv) (ts : List AsmToken) : Option (Reg × Int) :=
  match ts with
  | .sym ['['] :: .word w :: rest => do
    let a ← asmReg env 2 2 [.word w]
    if rest.getLast? != some (.sym [']']) then none else
    match rest.dropLast with
    | [] => pure (a, 0)
    | .sym ['+'] :: e => pure (a, ← (← asmExpr e).value env.labels)
    | .sym ['-'] :: e => pure (a, -(← (← asmExpr e).value env.labels))
    | _ => none
  | _ => none

/-- The trailing POL operand, in capitals or not, which R337 does not say of it; 0 without one (R160). Its n may be any expression, as any
other value of a line. DESIGN CHOICE (log entry 33). -/
def asmPol (env : AsmEnv) : List (List AsmToken) → Option (BitVec 2)
  | [] => some 0
  | [.word w :: e] => if lowered w = "pol".toList then (asmValue env.labels 0 3 e).map (fun v => BitVec.ofInt 2 v) else none
  | _ => none

/-- The shape of D of a memory word, and the access size in bytes (R48). -/
def asmSize (n : Nat) : AsmShape × Int :=
  if n < 2 then (.r, 1) else if n < 4 then (.r, 2) else if n = 4 then (.r, 4) else if n = 5 then (.p, 8) else (.q, 16)

/-- The word of an instruction; none where zlasm refuses it (R8, R9, R40, R340). -/
def asmWord (env : AsmEnv) (caret : Bool) (form : AsmForm) (args : List (List AsmToken)) : Option Word :=
  match form, args with
  | .a m f d a b, _ => do
    match ← asmFields env [d, a, b] args with
    | [x, y, z] => pure (formA caret (BitVec.ofNat 4 m) (BitVec.ofNat 6 f) x y z)
    | _ => none
  | .i f, [d, a, k] => do
    let x ← asmReg env 1 1 d
    let y ← asmReg env 1 1 a
    let shift := 4 ≤ f ∧ f ≤ 6
    let v ← if shift then asmValue env.labels 0 31 k else asmValue env.labels (-512) 511 k
    pure (formI caret 1 (BitVec.ofNat 3 f) x y (BitVec.ofInt 10 v))
  | .u f, [d, k] => do
    let x ← asmReg env 1 1 d
    let v ← if f = 3 then asmTarget env (-131072) 131071 false k
      else if f = 0 then asmValue env.labels (-131072) 131071 k else asmValue env.labels 0 262143 k
    pure (formU caret 4 (BitVec.ofNat 2 f) x (BitVec.ofInt 18 v))
  | .b 6, [t] => do
    let v ← asmTarget env (-65536) 65535 true t
    pure (formB caret 5 6 0 (BitVec.ofInt 17 v))
  | .b c, [a, t] => do
    let x ← asmReg env 1 1 a
    let v ← asmTarget env (-65536) 65535 true t
    if c = 6 then none else pure (formB caret 5 (BitVec.ofNat 3 c) x (BitVec.ofInt 17 v))
  | .j k, [t] => do
    let v ← asmTarget env (-16777216) 16777215 true t
    pure (formJ caret 6 (BitVec.ofNat 2 k) (BitVec.ofInt 25 v))
  | .m major size, d :: x :: rest => do
    let (sh, n) := asmSize size
    let r ← asmField env sh d
    let (a, off) ← asmMem env x
    let pol ← asmPol env rest
    if off % n ≠ 0 ∨ off / n < -128 ∨ 127 < off / n then none
    else pure (formM caret (BitVec.ofNat 4 major) (BitVec.ofNat 3 size) pol r a (BitVec.ofInt 8 (off / n)))
  | _, _ => none

end Sys2Proof.Machine
end

