-- ==== Sys2Proof/Machine/Asm.lean ====
section
/-! DEFINITION. zlasm: directives, candidate bodies and the code object (R161, R229, R341 to R344, with the layouts of R112 to R114).
No step of the machine uses it. -/

namespace Sys2Proof.Machine

/-! ## Positions -/

/-- Where the next word goes, how many segments and candidates are open, and the labels met. -/
structure AsmMarks where
  here   : AsmPos
  segs   : Nat
  cands  : Nat
  labels : List (Text × AsmPos)
  deriving DecidableEq, Repr

/-- A position one word on. -/
def AsmPos.next : AsmPos → AsmPos
  | .seg s off => .seg s (off + 4)
  | .cand c j => .cand c (j + 1)
  | .nowhere => .nowhere

/-- Whether a line holds a word. -/
def AsmLine.isWord (l : AsmLine) : Bool := !l.head.isEmpty && (l.head.head? != some '.' || l.head == ".word".toList)

/-- The label of a line is met, and its statement moves the position on; one name labels one position (R337). DEDUCED (log entry 33). -/
def AsmMarks.line (m : AsmMarks) (l : AsmLine) : Option AsmMarks := do
  let m ← match l.label with
    | none => some m
    | some t => if (labelPos m.labels t).isSome then none else some { m with labels := (t, m.here) :: m.labels }
  if l.isWord then pure { m with here := m.here.next }
  else if l.head == ".segment".toList then pure { m with here := .seg m.segs 0, segs := m.segs + 1 }
  else if l.head == ".candidate".toList then pure { m with here := .cand m.cands 0, cands := m.cands + 1 }
  else pure m

/-! ## Statements -/

/-- An entry of the entry table: the segment and offset of its code address, and the values in force (R114). -/
structure AsmEntry where
  seg      : Nat
  off      : Nat
  regs     : Nat
  carve    : Nat
  lease    : Nat
  producer : Nat
  deriving DecidableEq, Repr

/-- What has been assembled: the position, the values that entries record, the words of the segments and candidates, and what the
directives have set. -/
structure AsmState where
  here     : AsmPos
  opened   : Bool
  closed   : Bool
  regs     : Nat
  carve    : Nat
  lease    : Nat
  producer : Nat
  segs     : List (List Word)
  cands    : List (List Word)
  entries  : List AsmEntry
  /-- A .entry directive has stood. -/
  entered  : Bool
  trap     : Option Nat
  nbv      : Nat
  forward  : Bool
  codeid   : Option Nat
  consts   : List (Nat × Word)
  deriving DecidableEq, Repr

/-- The values before any directive (R341). -/
def AsmState.start : AsmState :=
  { here := .nowhere, opened := false, closed := false, regs := 32, carve := 0, lease := 0, producer := 0, segs := [], cands := [],
    entries := [], entered := false, trap := none, nbv := 6, forward := false, codeid := none, consts := [] }

/-- Whether a word may stand in a candidate (R227). -/
def candLegal (w : Word) : Bool := (candDecode w []).isSome

/-- A word goes where the position is; a word outside a segment or candidate, past the end of either, or not legal in its candidate is
refused (R341, R342). A .word in a candidate is judged like any other word (DEDUCED, log entry 33). -/
def AsmState.emit (s : AsmState) (w : Word) : Option AsmState :=
  match s.here with
  | .seg i off =>
    if 65536 ≤ off then none else some { s with segs := s.segs.modify i (fun ws => ws ++ [w]), here := s.here.next }
  | .cand c j =>
    if 64 ≤ j || !candLegal w then none else some { s with cands := s.cands.modify c (fun ws => ws ++ [w]), here := s.here.next }
  | .nowhere => none

/-- An entry for a label of a segment (R341). -/
def AsmState.entry (s : AsmState) (labels : List (Text × AsmPos)) : List (List AsmToken) → Option AsmEntry
  | [[.word t]] => match labelPos labels t with
    | some (.seg i off) => some ⟨i, off, s.regs, s.carve, s.lease, s.producer⟩
    | _ => none
  | _ => none

/-- The mask of a list of 1 and 2. -/
def nbvMask (labels : List (Text × AsmPos)) : List (List AsmToken) → Option Nat
  | [] => some 0
  | x :: xs => do
    let v ← asmValue labels 1 2 x
    let m ← nbvMask labels xs
    pure (m ||| 2 ^ v.toNat)

/-- A 32-bit value, from −2³¹ to 2³² − 1, a negative one in two's complement: R161 and R341 give it no signedness. DESIGN CHOICE (log
entry 33). -/
def word32 (labels : List (Text × AsmPos)) (x : List AsmToken) : Option Word :=
  (asmValue labels (-2 ^ 31) (2 ^ 32 - 1) x).map (fun v => BitVec.ofInt 32 v)

/-- A directive takes effect (R341). -/
def AsmState.directive (s : AsmState) (labels : List (Text × AsmPos)) (head : String) (args : List (List AsmToken)) : Option AsmState :=
  let value (lo hi : Int) (x : List AsmToken) : Option Nat := (asmValue labels lo hi x).map Int.toNat
  match head, args with
  | ".regs", [x] => do
    let n ← value 32 512 x
    if n % 32 = 0 then pure { s with regs := n } else none
  | ".carve", [x] => do
    let n ← value 0 256 x
    if Config.carves.contains n then pure { s with carve := n } else none
  | ".lease", [x] => do pure { s with lease := ← value 0 0xFFFF x }
  | ".producer", [x] => do pure { s with producer := ← value 0 31 x }
  | ".segment", [x] => do
    let n ← value 0 4095 x
    if n = s.segs.length then pure { s with here := .seg n 0, segs := s.segs ++ [[]] } else none
  | ".candidate", [x] => do
    let n ← (← asmExpr x).value labels
    if n = s.cands.length then pure { s with here := .cand s.cands.length 0, cands := s.cands ++ [[]] } else none
  | ".entry", _ => do
    let e ← s.entry labels args
    pure { s with entered := true, entries := s.entries ++ [e] }
  | ".trap", _ => do
    let e ← s.entry labels args
    pure { s with trap := some s.entries.length, entries := s.entries ++ [e] }
  | ".nbv", _ => do
    let m ← nbvMask labels args
    if m = 0 then none else pure { s with nbv := m }
  | ".forward", [] => some { s with forward := true }
  | ".codeid", [x] => do pure { s with codeid := some (← value 0 (2 ^ 64 - 1) x) }
  | ".const", [i, x] => do
    let n ← value 0 63 i
    let v ← word32 labels x
    pure { s with consts := (s.consts.filter (fun y => y.1 != n)) ++ [(n, v)] }
  | ".word", [x] => do s.emit (← word32 labels x)
  | ".endk", [] => some { s with closed := true }
  | _, _ => none

/-- A line: the first statement is .kernel, nothing follows .endk (R341). -/
def AsmState.line (labels : List (Text × AsmPos)) (s : AsmState) (l : AsmLine) : Option AsmState :=
  if s.closed then (if l.label.isNone && l.head.isEmpty then some s else none)
  else if l.head.isEmpty then some s
  else if !s.opened then
    match l.args with
    | [[.word t]] => if l.head == ".kernel".toList && isIdent t && !l.caret then some { s with opened := true } else none
    | _ => none
  else if l.head.head? == some '.' then (if l.caret then none else s.directive labels (String.ofList l.head) l.args)
  else do
    let form ← asmForm l.head
    s.emit (← asmWord ⟨labels, s.regs, s.here⟩ l.caret form l.args)

/-! ## The code object -/

/-- Padding of zeros up to a multiple. -/
def paddedTo (k : Nat) (bs : List Byte) : List Byte := bs ++ List.replicate ((k - bs.length % k) % k) 0

/-- The bytes of words. -/
def bytesOfWords (ws : List Word) : List Byte := ws.flatMap (fun w => bytesOf 4 w.toNat)

/-- The words zlasm has emitted. -/
def AsmState.words (s : AsmState) : List Word := s.segs.flatten ++ s.cands.flatten

/-- The fold of R344: the signature of the words of the segments, st being the segment id. -/
def segmentSig (segs : List (Nat × List Word)) : Word × Word :=
  segs.foldl (fun acc x => x.2.foldl (fun hl w => foldSig hl.1 hl.2 w (BitVec.ofNat 32 x.1)) acc) (sigH0, sigL0)

/-- The code object id (R344). -/
def AsmState.objectId (s : AsmState) : Nat :=
  s.codeid.getD (let hl := segmentSig ((List.range s.segs.length).zip s.segs); hl.1.toNat * 2 ^ 32 + hl.2.toNat)

/-- The hint-use mask, and whether a word of the deprecated two is among the words (R343). -/
def hintMask (ws : List Word) : Nat :=
  ws.foldl (fun m w => if w.extractLsb' 27 4 = 15 then m ||| 2 ^ (w.extractLsb' 21 6).toNat else m) 0
def isDeprecated (w : Word) : Bool :=
  match decodeWord w with
  | .ok (.ldu _ _ _) => true
  | .ok (.ocall _ _) => true
  | _ => false

/-- A note: type, payload length, payload padded to a multiple of 8 (R113). -/
def noteBytes (type : Nat) (payload : List Byte) : List Byte := bytesOf 4 type ++ bytesOf 4 payload.length ++ paddedTo 8 payload

/-- The code bank of the candidates (R229, R343). -/
def bankBytes (cands : List (List Word)) : List Byte :=
  let n := cands.length
  let records := (64 + n + 255) / 256 * 256
  let head := bytesOf 4 1 ++ bytesOf 4 n ++ bytesOf 4 64 ++ bytesOf 4 records ++ bytesOf 48 0
  paddedTo 256 (head ++ cands.flatMap (fun ws => bytesOf 1 ws.length)) ++ cands.flatMap (fun ws => paddedTo 256 (bytesOfWords (ws ++ List.replicate (64 - ws.length) 0)))

/-- The notes (R343). -/
def AsmState.notes (s : AsmState) : List Byte :=
  let dep := s.words.any isDeprecated
  noteBytes 1 (bytesOf 2 0x0300 ++ bytesOf 1 s.nbv ++ bytesOf 1 0 ++ bytesOf 8 (hintMask s.words) ++ bytesOf 4 (if dep then 2 ^ 10 else 0) ++
    bytesOf 4 0 ++ bytesOf 4 0) ++
  (if s.consts.isEmpty then [] else noteBytes 2 ((List.range 64).flatMap (fun i =>
    bytesOf 4 (((s.consts.find? (fun x => x.1 == i)).map (fun x => x.2.toNat)).getD 0)))) ++
  (if s.cands.isEmpty then [] else noteBytes 3 (bankBytes s.cands))

/-- The segments one after another from an offset on, each at a multiple of 16: their directory entries, and their bytes (R343). -/
def placeSegs (at_ : Nat) : List (List Word) → List Byte × List Byte
  | [] => ([], [])
  | ws :: rest =>
    let bs := bytesOfWords ws
    let next := (at_ + bs.length + 15) / 16 * 16
    let (dir, more) := placeSegs next rest
    (bytesOf 4 at_ ++ bytesOf 4 bs.length ++ bytesOf 8 0 ++ dir,
      if rest.isEmpty then bs else bs ++ List.replicate (next - at_ - bs.length) 0 ++ more)

/-- The code object of what has been assembled (R112 to R114, R343). -/
def AsmState.object (s : AsmState) : List Byte :=
  let notes := s.notes
  let table := (64 + notes.length + 31) / 32 * 32
  let dirAt := table + 32
  let entryAt := dirAt + 16 * s.segs.length
  let first := (entryAt + 16 * s.entries.length + 255) / 256 * 256
  let (dir, words) := placeSegs first s.segs
  let total := first + words.length
  let header := bytesOf 4 0x314F435A ++ bytesOf 2 1 ++ bytesOf 2 1 ++ bytesOf 2 1 ++ bytesOf 2 64 ++ bytesOf 4 0 ++ bytesOf 8 total ++
    bytesOf 4 64 ++ bytesOf 4 notes.length ++ bytesOf 4 table ++ bytesOf 28 0
  let image := bytesOf 2 0x0300 ++ bytesOf 2 (if s.forward then 1 else 0) ++ bytesOf 2 s.segs.length ++ bytesOf 2 s.entries.length ++
    bytesOf 4 dirAt ++ bytesOf 4 entryAt ++ bytesOf 8 s.objectId ++ bytesOf 2 (s.trap.getD 0xFFFF) ++ bytesOf 6 0
  let entry (e : AsmEntry) : List Byte :=
    bytesOf 4 (e.seg * 65536 + e.off) ++ bytesOf 2 e.regs ++ bytesOf 2 e.carve ++ bytesOf 2 e.lease ++ bytesOf 1 e.producer ++ bytesOf 5 0
  paddedTo 256 (paddedTo 32 (header ++ notes) ++ image ++ dir ++ s.entries.flatMap entry) ++ words

/-- What is refused at the end: an open kernel, no .entry or more than 256 entries, an entry that lies in no segment, a segment without words
(R341). A label at a segment's end lies in no segment, since R114 wants a code address inside the length (DEDUCED, log entry 33). -/
def AsmState.complete (s : AsmState) : Bool :=
  s.closed && s.entered && decide (s.entries.length ≤ 256) && s.segs.all (fun ws => !ws.isEmpty) &&
    s.entries.all (fun e => decide (e.off < 4 * (s.segs.getD e.seg []).length))

/-- The lines of a source; none where one is no line of the language. -/
def asmLines : List Text → Option (List AsmLine)
  | [] => some []
  | t :: ts => do pure ((← asmLine t) :: (← asmLines ts))

/-- zlasm: the source file of one kernel gives one code object, or is refused. -/
def assemble (source : Text) : Option (List Byte) := do
  let lines ← asmLines (textLines source)
  let marks ← lines.foldlM AsmMarks.line ⟨.nowhere, 0, 0, []⟩
  let s ← lines.foldlM (AsmState.line marks.labels) AsmState.start
  if s.complete then pure s.object else none

end Sys2Proof.Machine
end

