-- ==== Sys2Proof/Tests/Slice0.lean ====
section
/-! SUPPORT. Tests: what the checks of an encoding refuse, one word of every row of the opcode table against its instruction, examples the
spec works out, and for every statement inputs that meet its hypotheses. -/

namespace Sys2Proof.Tests

open Sys2Proof Sys2Proof.Machine

/-! ## Ill-formed terms, one for each check (R16, R37, R38, R51, R56) -/

theorem test_illFormed_pairD : wellFormed (.add64 false 7 2 4) = false := by decide
theorem test_illFormed_pairA : wellFormed (.ld32 false 0 5 7 0) = false := by decide
theorem test_illFormed_pairB : wellFormed (.acas false 0 1 2 3) = false := by decide
theorem test_illFormed_quadD : wellFormed (.work false 2) = false := by decide
theorem test_illFormed_quadA : wellFormed (.crun false 2 6 1) = false := by decide
theorem test_illFormed_quadB : wellFormed (.acas64 false 0 2 4 6) = false := by decide
theorem test_illFormed_block : wellFormed (.copy false 0 2 124) = false := by decide
theorem test_illFormed_rds : wellFormed (.rds false 0 42) = false := by decide
theorem test_illFormed_wrs : wellFormed (.wrs false 0 21) = false := by decide
theorem test_illFormed_scope : wellFormed (.bar false 0 6) = false := by decide
theorem test_illFormed_fence : wellFormed (.fence false 0 1) = false := by decide
theorem test_illFormed_hint : wellFormed (.reservedHint false 0 0 0 0) = false := by decide

/-! ## Words written out from the encoding tables (R35, R41 to R56): S is 1, D is w8, A is w12 and B is w16 -/

def decodesTo (p : Word × Instr) : Bool := (decodeWord p.1).toOption == some p.2

theorem test_decode_major_0_a : ([
  (0x80020610, .add true 8 12 16), (0x80220610, .sub true 8 12 16), (0x80420610, .mullo true 8 12 16),
  (0x80620610, .mulhiS32 true 8 12 16), (0x80820610, .mulhiN32 true 8 12 16), (0x80A20610, .mulwS32 true 8 12 16),
  (0x80C20610, .mulwN32 true 8 12 16), (0x80E20610, .mad true 8 12 16), (0x81020610, .divS32 true 8 12 16),
  (0x81220610, .divN32 true 8 12 16), (0x81420610, .remS32 true 8 12 16), (0x81620610, .remN32 true 8 12 16),
  (0x81820610, .and true 8 12 16), (0x81A20610, .or true 8 12 16), (0x81C20610, .xor true 8 12 16),
  (0x81E20610, .andn true 8 12 16), (0x82020610, .orn true 8 12 16), (0x82220610, .shl true 8 12 16),
  (0x82420610, .shr true 8 12 16), (0x82620610, .sar true 8 12 16), (0x82820610, .rotl true 8 12 16),
  (0x82A20610, .rotr true 8 12 16), (0x82C20610, .minS32 true 8 12 16), (0x82E20610, .minN32 true 8 12 16),
  (0x83020610, .maxS32 true 8 12 16), (0x83220610, .maxN32 true 8 12 16)] : List (Word × Instr)).all decodesTo = true := by decide
theorem test_decode_major_0_b : ([
  (0x83420610, .sad true 8 12 16), (0x83620610, .sel true 8 12 16), (0x83820610, .seteq true 8 12 16),
  (0x83A20610, .setne true 8 12 16), (0x83C20610, .setltS32 true 8 12 16), (0x83E20610, .setltN32 true 8 12 16),
  (0x84020610, .setleS32 true 8 12 16), (0x84220610, .setleN32 true 8 12 16), (0x84420600, .clz true 8 12),
  (0x84620600, .popc true 8 12), (0x84820600, .brev true 8 12), (0x84A20610, .bfxS32 true 8 12 16),
  (0x84C20610, .bfxN32 true 8 12 16), (0x84E20610, .bfi true 8 12 16), (0x85020610, .add64 true 8 12 16),
  (0x85220610, .sub64 true 8 12 16), (0x85420610, .shl64 true 8 12 16), (0x85620610, .shr64 true 8 12 16),
  (0x85820610, .sar64 true 8 12 16), (0x85A20610, .seteq64 true 8 12 16), (0x85C20610, .setlt64S true 8 12 16),
  (0x85E20610, .setlt64N true 8 12 16), (0x86020610, .mad64N32 true 8 12 16), (0x86220610, .mad64S32 true 8 12 16),
  (0x86420600, .mov true 8 12), (0x86620600, .mov64 true 8 12)] : List (Word × Instr)).all decodesTo = true := by decide
theorem test_decode_major_1 : ([
  (0x881032A5, .addi true 8 12 677), (0x891032A5, .andi true 8 12 677), (0x8A1032A5, .ori true 8 12 677),
  (0x8B1032A5, .xori true 8 12 677), (0x8C103015, .shli true 8 12 21), (0x8D103015, .shri true 8 12 21),
  (0x8E103015, .sari true 8 12 21), (0x8F1032A5, .setltiS32 true 8 12 677)] : List (Word × Instr)).all decodesTo = true := by decide
theorem test_decode_major_2_a : ([
  (0x90020610, .fadd true 8 12 16), (0x90220610, .fsub true 8 12 16), (0x90420610, .fmul true 8 12 16),
  (0x90620610, .fma true 8 12 16), (0x90820610, .fmin true 8 12 16), (0x90A20610, .fmax true 8 12 16),
  (0x90C20610, .fdiv true 8 12 16), (0x90E20600, .fsqrt true 8 12), (0x91020600, .frcp true 8 12),
  (0x91220600, .frsq true 8 12), (0x91420600, .fexp2 true 8 12), (0x91620600, .flog2 true 8 12),
  (0x91820600, .fabs true 8 12), (0x91A20600, .fneg true 8 12), (0x91C20600, .frint true 8 12),
  (0x91E20600, .fclass true 8 12), (0x92020610, .fseteq true 8 12 16), (0x92220610, .fsetlt true 8 12 16),
  (0x92420610, .fsetle true 8 12 16), (0x92620610, .fsetun true 8 12 16), (0x92820610, .dadd true 8 12 16),
  (0x92A20610, .dsub true 8 12 16), (0x92C20610, .dmul true 8 12 16), (0x92E20610, .dfma true 8 12 16),
  (0x93020610, .dmin true 8 12 16), (0x93220610, .dmax true 8 12 16)] : List (Word × Instr)).all decodesTo = true := by decide
theorem test_decode_major_2_b : ([
  (0x93420610, .ddiv true 8 12 16), (0x93620600, .dsqrt true 8 12), (0x93820600, .drint true 8 12),
  (0x93A20610, .dseteq true 8 12 16), (0x93C20610, .dsetlt true 8 12 16), (0x93E20610, .dsetle true 8 12 16),
  (0x94020610, .hadd2 true 8 12 16), (0x94220610, .hmul2 true 8 12 16), (0x94420610, .hfma2 true 8 12 16),
  (0x94620610, .badd2 true 8 12 16), (0x94820610, .bmul2 true 8 12 16), (0x94A20610, .bfma2 true 8 12 16)] : List (Word × Instr)).all decodesTo = true := by decide
theorem test_decode_major_3 : ([
  (0x98020600, .cvtF32S32 true 8 12), (0x98220600, .cvtF32N32 true 8 12), (0x98420600, .cvtS32F32 true 8 12),
  (0x98620600, .cvtN32F32 true 8 12), (0x98820600, .cvtF64F32 true 8 12), (0x98A20600, .cvtF32F64 true 8 12),
  (0x98C20600, .cvtF64S32 true 8 12), (0x98E20600, .cvtS32F64 true 8 12), (0x99020600, .cvtF64S64 true 8 12),
  (0x99220600, .cvtS64F64 true 8 12), (0x99420600, .cvtF64N64 true 8 12), (0x99620600, .cvtN64F64 true 8 12),
  (0x99820610, .packF16 true 8 12 16), (0x99A20610, .packBf16 true 8 12 16), (0x99C20600, .unpkF16 true 8 12),
  (0x99E20600, .unpkBf16 true 8 12), (0x9A020600, .sext8 true 8 12), (0x9A220600, .sext16 true 8 12),
  (0x9A420610, .qntN8 true 8 12 16), (0x9A620610, .dqntN8 true 8 12 16)] : List (Word × Instr)).all decodesTo = true := by decide
theorem test_decode_major_4 : ([
  (0xA022CAFE, .lds true 8 183038), (0xA222CAFE, .ldh true 8 183038), (0xA422CAFE, .orl true 8 183038),
  (0xA622CAFE, .addpc true 8 183038)] : List (Word × Instr)).all decodesTo = true := by decide
theorem test_decode_major_5 : ([
  (0xA819F00F, .beqz true 12 126991), (0xA919F00F, .bnez true 12 126991), (0xAA19F00F, .bltz true 12 126991),
  (0xAB19F00F, .bgez true 12 126991), (0xAC19F00F, .bgtz true 12 126991), (0xAD19F00F, .blez true 12 126991),
  (0xAE01F00F, .bra true 126991)] : List (Word × Instr)).all decodesTo = true := by decide
theorem test_decode_major_6 : ([
  (0xB1ABCDEF, .jmp true 28036591), (0xB3ABCDEF, .call true 28036591)] : List (Word × Instr)).all decodesTo = true := by decide
theorem test_decode_major_7 : ([
  (0xB8840CA7, .ld8S true 2 8 12 167), (0xB9840CA7, .ld8N true 2 8 12 167), (0xBA840CA7, .ld16S true 2 8 12 167),
  (0xBB840CA7, .ld16N true 2 8 12 167), (0xBC840CA7, .ld32 true 2 8 12 167), (0xBD840CA7, .ld64 true 2 8 12 167),
  (0xBE840CA7, .ld128 true 2 8 12 167)] : List (Word × Instr)).all decodesTo = true := by decide
theorem test_decode_major_8 : ([
  (0xC0840CA7, .st8 true 2 8 12 167), (0xC2840CA7, .st16 true 2 8 12 167), (0xC4840CA7, .st32 true 2 8 12 167),
  (0xC5840CA7, .st64 true 2 8 12 167), (0xC6840CA7, .st128 true 2 8 12 167)] : List (Word × Instr)).all decodesTo = true := by decide
theorem test_decode_major_9 : ([
  (0xCE020610, .aadd true 3 8 12 16), (0xCE220610, .aadd64 true 3 8 12 16), (0xCE420610, .aminS32 true 3 8 12 16),
  (0xCE620610, .aminN32 true 3 8 12 16), (0xCE820610, .amaxS32 true 3 8 12 16), (0xCEA20610, .amaxN32 true 3 8 12 16),
  (0xCEC20610, .aand true 3 8 12 16), (0xCEE20610, .aor true 3 8 12 16), (0xCF020610, .axor true 3 8 12 16),
  (0xCF220610, .axchg true 3 8 12 16), (0xCF420610, .axchg64 true 3 8 12 16), (0xCF620610, .acas true 3 8 12 16),
  (0xCF820610, .acas64 true 3 8 12 16), (0xCFA20610, .afadd true 3 8 12 16), (0xCFC20610, .afadd64 true 3 8 12 16),
  (0xCFE20610, .aincw true 3 8 12 16)] : List (Word × Instr)).all decodesTo = true := by decide
theorem test_decode_major_10 : ([
  (0xD0000013, .fence true 2 3), (0xD0220600, .ldsc true 8 12), (0xD0400610, .stsc true 12 16),
  (0xD0620610, .cassc true 8 12 16), (0xD0820610, .waitcEq true 8 12 16), (0xD0A20610, .waitcNe true 8 12 16),
  (0xD0C20610, .waitcGeS32 true 8 12 16), (0xD0E20610, .waitcGeN32 true 8 12 16), (0xD1020610, .waitcLtS32 true 8 12 16),
  (0xD1220610, .waitcLtN32 true 8 12 16), (0xD1420610, .redtoAdd true 8 12 16), (0xD1620610, .redtoFadd true 8 12 16),
  (0xD1820610, .redtoMinS32 true 8 12 16), (0xD1A20610, .redtoMaxS32 true 8 12 16), (0xD1C20610, .redtoOr true 8 12 16),
  (0xD1E00603, .bar true 12 3), (0xD2000603, .bara true 12 3), (0xD2200603, .barw true 12 3),
  (0xD2420603, .barinit true 8 12 3)] : List (Word × Instr)).all decodesTo = true := by decide
theorem test_decode_major_11_a : ([
  (0xD8000600, .meet true 12), (0xD8220000, .meetq true 8), (0xD8420610, .cshfl true 8 12 16),
  (0xD8620610, .cshflx true 8 12 16), (0xD8820610, .cup true 8 12 16), (0xD8A20610, .cdn true 8 12 16),
  (0xD8C20610, .cbcast true 8 12 16), (0xD8E20600, .cvany true 8 12), (0xD9020600, .cvall true 8 12),
  (0xD9220600, .cballot true 8 12), (0xD9420600, .cradd true 8 12), (0xD9620600, .crfadd true 8 12),
  (0xD9820600, .crminS32 true 8 12), (0xD9A20600, .crmaxS32 true 8 12), (0xD9C20600, .cscan true 8 12),
  (0xD9E20600, .cscanf true 8 12), (0xDA020600, .sld32 true 8 12), (0xDA220600, .sst32 true 8 12),
  (0xDA420600, .sld64 true 8 12), (0xDA620600, .sst64 true 8 12), (0xDA820600, .qld32 true 8 12),
  (0xDAA20600, .qst32 true 8 12), (0xDAC00600, .lease true 12), (0xDAE00600, .leasem true 12),
  (0xDB020000, .work true 8), (0xDB220000, .steal true 8)] : List (Word × Instr)).all decodesTo = true := by decide
theorem test_decode_major_11_b : ([
  (0xDB400000, .exit true)] : List (Word × Instr)).all decodesTo = true := by decide
theorem test_decode_major_12 : ([
  (0xE0020610, .copy true 8 12 16), (0xE0220610, .copym true 8 12 16), (0xE0420600, .recfl true 8 12),
  (0xE0620600, .task true 8 12), (0xE0820610, .dprog true 8 12 16), (0xE0A20600, .djob true 8 12),
  (0xE0C20600, .ovld true 8 12), (0xE0E20600, .ovtok true 8 12), (0xE1000600, .ovrel true 12),
  (0xE1220600, .ovq true 8 12), (0xE1420610, .smap true 8 12 16), (0xE1620600, .sunmap true 8 12)] : List (Word × Instr)).all decodesTo = true := by decide
theorem test_decode_major_13 : ([
  (0xE8020610, .cload true 8 12 16), (0xE8220610, .crun true 8 12 16), (0xE8400000, .sinit true),
  (0xE8600610, .sfold true 12 16), (0xE8820000, .sget true 8), (0xE8A20610, .proof true 8 12 16),
  (0xE8C20600, .proofq true 8 12)] : List (Word × Instr)).all decodesTo = true := by decide
theorem test_decode_major_14 : ([
  (0xF0000000, .nop true), (0xF0220010, .rds true 8 16), (0xF040061B, .wrs true 12 27),
  (0xF0600600, .win true 12), (0xF0800600, .jr true 12), (0xF0A00600, .callx true 12),
  (0xF0C00000, .ret true), (0xF0E00010, .trap true 16), (0xF1000000, .tret true),
  (0xF1200000, .bkpt true), (0xF1420610, .launch true 8 12 16), (0xF7820600, .ldu true 8 12),
  (0xF7A00010, .ocall true 16)] : List (Word × Instr)).all decodesTo = true := by decide
theorem test_decode_major_15 : ([
  (0xF8000600, .pref true 12), (0xF9220610, .reservedHint true 9 8 12 16)] : List (Word × Instr)).all decodesTo = true := by decide

/-! ## Small states -/

/-- One thread of one launch on core 0 of die 0: `State.reset` with a program placed. -/
def one : State := State.reset.loadProgram

/-- The same with the thread changed. -/
def oneBut (f : Thread → Thread) : State := one.setCur (f one.cur)

/-- The same with register k holding v. -/
def oneReg (k : Nat) (v : Word) : State := oneBut (fun t => { t with regs := t.regs.set k v })

/-- A thread with a result pending, and one with sixteen. -/
def pending : State := oneBut (fun t => { t with queue := [⟨1, 0, 1, .awaiting, []⟩] })
def full : State := oneBut (fun t => { t with queue := List.replicate 16 ⟨1, 0, 1, .awaiting, []⟩ })

/-- A second segment, resident or not, and the launch's image with or without a trap entry. -/
def twoSegs (st : SegState) (trap : Option Word) : State :=
  { one with
    launches := one.launches.map (fun l => { l with image := { l.image with segs := [(0, 4096), (4096, 4096)], trap := trap } })
    cores := one.cores.map (fun c => { c with segs := c.segs ++ [{ loadedSegment 0 0 with seg := 1, st := st }] }) }

/-! ## Examples of the spec -/

/-- The thread in turn after an instruction. -/
def after (i : Instr) (s : State) : Thread := match exec i s with
  | .next t => t.cur
  | _ => s.cur

/-- Registers 1 and 2 hold the operands, register 3 what the destination held. -/
def ops (a b d : Word) : State := oneBut (fun t => { t with regs := ((t.regs.set 1 a).set 2 b).set 3 d })

/-- R66: -7 by 2, signed and natural. -/
theorem test_division : (after (.divS32 false 3 1 2) (ops 0xFFFFFFF9 2 0)).w 3 = 0xFFFFFFFD ∧ (after (.remS32 false 3 1 2) (ops 0xFFFFFFF9 2 0)).w 3 = 0xFFFFFFFF ∧
    (after (.divN32 false 3 1 2) (ops 0xFFFFFFF9 2 0)).w 3 = 0x7FFFFFFC ∧ (after (.remN32 false 3 1 2) (ops 0xFFFFFFF9 2 0)).w 3 = 1 := by decide +kernel

/-- R67: the field at 8 of width 8. -/
theorem test_bitField : (after (.bfxN32 false 3 1 2) (ops 0x0000F0A5 0x0808 0)).w 3 = 0xF0 ∧ (after (.bfxS32 false 3 1 2) (ops 0x0000F0A5 0x0808 0)).w 3 = 0xFFFFFFF0 ∧
    (after (.bfi false 3 1 2) (ops 0xAB 0x0808 0x12345678)).w 3 = 0x1234AB78 := by decide +kernel

/-- R69: a code address in another segment. -/
theorem test_codeAddress : (after (.ldh false 3 0x14) one).w 3 = 0x50000 ∧ (after (.orl false 3 0x40) (ops 0 0 0x50000)).w 3 = 0x50040 := by decide +kernel

/-- R233: the fold of 4 with status 0 into a fresh signature. -/
theorem test_fold : (match exec (.sfold false 1 2) { ops 4 0 0 with slots := [{ CandSlot.start ⟨1, 0, 0⟩ with h := 0x5A17C3E9, l := 0x0F2D8B41 }] } with
    | .next t => t.slots.map (fun x => (x.l, x.h))
    | _ => []) = [(0x83E8E25A, 0x3DF7888A)] := by decide +kernel

/-- Bytes of an object as a number. -/
def objectField (o : Option (List Byte)) (at_ n : Nat) : Nat := natOf (((o.getD []).drop at_).take n)

/-- The example of R344's chapter: a call into a second segment. -/
def example24 : Text :=
  ".kernel demo
 .segment 0
 .entry go
go:
 LDH w8, sub >> 14
 ORL w8, sub & 0x3FFF
 CALLX w8
 EXIT
.segment 1
sub: RET ; back
.endk".toList

/-- R343: the length, the places of the parts and the words that the chapter gives. -/
theorem test_zlasm_object : let o := assemble example24
    o.map List.length = some 0x114 ∧ objectField o 0x44 4 = 24 ∧ objectField o 32 4 = 0x60 ∧ objectField o 0x68 4 = 0x80 ∧
    objectField o 0x6C 4 = 0xA0 ∧ objectField o 0x78 2 = 0xFFFF ∧ objectField o 0x80 8 = 0x0000001000000100 ∧
    objectField o 0x90 8 = 0x0000000400000110 ∧ objectField o 0xA4 2 = 32 ∧
    objectField o 0x100 16 = 0x5B40000070A004002420000022200004 ∧ objectField o 0x110 4 = 0x70C00000 := by decide +kernel

/-- R338: precedence, and division towards zero against a shift towards minus infinity. -/
theorem test_zlasm_expressions : ((asmLex 20 "1 + 2 * 3 << 1".toList).bind asmExpr).bind (AsmExpr.value []) = some 14 ∧
    ((asmLex 20 "-7 / 2".toList).bind asmExpr).bind (AsmExpr.value []) = some (-3) ∧
    ((asmLex 20 "-7 >> 1".toList).bind asmExpr).bind (AsmExpr.value []) = some (-4) ∧
    ((asmLex 20 "1 | 6 ^ 4 & ~0".toList).bind asmExpr).bind (AsmExpr.value []) = some 3 := by decide +kernel

/-- R161, R340, R342: a plain kernel assembles; a misaligned pair, a register beyond .regs and a word not legal in a candidate do not. -/
theorem test_zlasm_refuses : let kernel (x : String) : Bool := (assemble (".kernel k
.segment 0
.entry go
go:
" ++ x ++ "
.endk").toList).isSome
    kernel ".word 0x7A00_0000" = true ∧ kernel "MOV64 w3, w4" = false ∧ kernel "MOV w32, w4" = false ∧
    kernel "EXIT
.candidate 0
ADD w1, w2, w15" = true ∧ kernel "EXIT
.candidate 0
ADD w1, w2, w16" = false := by decide +kernel

/-! ## Inputs that meet the hypotheses of the statements -/

/-- O1, O5, O8, O9. -/
theorem witness_integerWords : one.issues true ∧ one.issues false ∧ one.fits 127 1 ∧ one.fits 126 2 ∧ one.fits 0 2 := by decide +kernel

/-- O2. -/
theorem witness_divisions : one.cur.w 1 = 0 ∧
    ((oneReg 0 0x80000000).setCur { (oneReg 0 0x80000000).cur with winbase := 0 }).cur.w 0 = 0x80000000 ∧
    (oneReg 1 0xFFFFFFFF).cur.w 1 = 0xFFFFFFFF ∧ (oneReg 1 0x80000000).cur.w 1 ≠ 0 := by decide +kernel

/-- O4. -/
theorem witness_immediateWords : ((0x0C000020 : Word).toNat / 2 ^ 27 % 16 = 1 ∧ (0x0C000020 : Word).toNat / 2 ^ 24 % 8 ∈ [4, 5, 6] ∧
    (0x0C000020 : Word).toNat / 2 ^ 5 % 32 ≠ 0) ∧ (0x0E0003E0 : Word).toNat / 2 ^ 24 % 8 ∈ [4, 5, 6] := by decide +kernel

/-- O6. -/
theorem witness_signAndClass : (let x : Word := 0x7F800001; x.toNat / 2 ^ 23 % 2 ^ 8 = 255 ∧ x.toNat % 2 ^ 23 ≠ 0) ∧
    (let x : Word := 0x7F800000; ¬ (x.toNat / 2 ^ 23 % 2 ^ 8 = 255 ∧ x.toNat % 2 ^ 23 ≠ 0)) := by decide +kernel

/-- O7. -/
theorem witness_minimumAndMaximum : (f32.read 0x80000000).isNan = false ∧ (f32.read 0).isNan = false ∧
    (f32.read 0x80000000).eq (f32.read 0) = true ∧ (f32.read 0x80000000).negative = true ∧ (f32.read 0).negative = false ∧
    (f32.read 0x80000001).lt (f32.read 0) = true ∧ (f32.read 0x7F800001).isSig = true := by decide +kernel

/-- O5. -/
theorem witness_formatOperations : f32 ∈ formats ∧ f32.isSNaN 0x7F800001 ∧ f32.isInf 0x7F800000 ∧ (¬ f32.minus 0x7F800000 ∧ f32.minus 0xFF800000) ∧
    f32.holds 0 0 ∧ f32.holds 0x3F800000 1 ∧ f32.holds 0xBF800000 (-1) ∧ f32.holds 0x40000000 2 ∧ f32.isNaN 0x7F800001 ∧
    (1 : ℝ) + -1 = 0 ∧ (1 : ℝ) * 1 ≠ 0 ∧ (1 : ℝ) * 1 + -1 = 0 ∧ (0 : ℝ) < 1 ∧ (-1 : ℝ) < 0 ∧ (0 : ℝ) < 2 ∧ (2 : ℝ) ≠ 1 := by
  refine ⟨by simp, by decide, by decide, by decide, ⟨by decide, ?_⟩, ⟨by decide, ?_⟩, ⟨by decide, ?_⟩, ⟨by decide, ?_⟩, by decide, ?_⟩
  · norm_num [Fmt.exOf, Fmt.frOf, f32]
  · norm_num [Fmt.exOf, Fmt.frOf, Fmt.emin, f32]
  · norm_num [Fmt.exOf, Fmt.frOf, Fmt.emin, f32]
  · norm_num [Fmt.exOf, Fmt.frOf, Fmt.emin, f32]
  · norm_num

/-- O10. -/
theorem witness_branches : one.fits 127 1 ∧ 0 ≤ one.aim (-2) ∧ one.aim (-2) < one.curLen ∧ one.aim (-3) < 0 ∧ one.aim 1021 < one.curLen ∧
    (one.curLen : Int) ≤ one.aim 1022 ∧ offOf one.cur.pc + 4 ≠ one.curLen ∧
    (let s := oneBut (fun t => { t with pc := 0xFFC })
     offOf s.cur.pc + 4 = s.curLen ∧ 0 ≤ s.aim (-1023) ∧ s.aim (-1023) < s.curLen ∧ s.aim (-1024) < 0 ∧ (s.curLen : Int) ≤ s.aim 1) := by decide +kernel

/-- O10. -/
theorem witness_transfers : (let s := twoSegs .resident none
    let t := twoSegs .absent none
    segOf 0x10000 ≠ segOf s.cur.pc ∧ segOf 0xFFFC = segOf s.cur.pc ∧
    s.segState s.curCore (launchVf s.cur.id.launch) (s.coidOf s.cur.id.launch) (segOf 0x10000) = .resident ∧
    t.segState t.curCore (launchVf t.cur.id.launch) (t.coidOf t.cur.id.launch) (segOf 0x10000) ≠ .resident ∧
    t.segState t.curCore (launchVf t.cur.id.launch) (t.coidOf t.cur.id.launch) (segOf 0x10000) ≠ .loading) := by decide +kernel

/-- O11. -/
theorem witness_indirectTransfers : one.checksTarget 0xFFD = some 3 ∧ one.checksTarget 0x10000 = some 4 ∧ one.checksTarget 0x1000 = some 5 ∧
    one.checksTarget 0xFFC = none ∧ (∃ v, one.vf? (launchVf one.cur.id.launch) = some v ∧ v.feature0.getLsbD 10 = true) ∧
    (∃ v, (one.vf? 0).map (fun x => { x with feature0 := 0 }) = some v ∧ v.feature0.getLsbD 10 = false) := by
  refine ⟨?_, ?_, ?_, ?_, ⟨_, rfl, ?_⟩, ⟨_, rfl, ?_⟩⟩ <;> decide +kernel

/-- O12. -/
theorem witness_specialRegisters : (41 : BitVec 7) ≠ 20 ∧ (41 : BitVec 7).toNat < 42 ∧ 47 < (48 : BitVec 7).toNat ∧ 42 ≤ (42 : BitVec 7).toNat ∧
    (21 : BitVec 7) ∉ ([22, 23, 24, 27] : List (BitVec 7)) ∧ ¬ ((8 : Word) = 0 ∨ ((8 : Word).toNat % 16 = 0 ∧ (8 : Word).toNat + 128 ≤ one.cur.regs.length)) ∧
    (let s := oneBut (fun t => { t with regs := List.replicate 144 0 }); (16 : Word).toNat % 16 = 0 ∧ (16 : Word).toNat + 128 ≤ s.cur.regs.length) := by decide +kernel

/-- O12. -/
theorem witness_specialReads : (one.crew? (crewOf one.cur.id)).isSome = true ∧ (one.vf? (launchVf one.cur.id.launch)).isSome = true ∧
    (one.launch? one.cur.id.launch).isSome = true ∧
    (one.cur.id.lin < one.pk.ntid.1 * one.pk.ntid.2.1 * one.pk.ntid.2.2 ∧ one.pk.ntid.1 * one.pk.ntid.2.1 * one.pk.ntid.2.2 ≤ 1024) ∧
    (one.cur.id.team < one.pk.nteam.1 * one.pk.nteam.2.1 * one.pk.nteam.2.2 ∧ one.pk.nteam.1 * one.pk.nteam.2.1 * one.pk.nteam.2.2 < 2 ^ 32) ∧
    (1 ≤ one.pk.qsize ∧ one.pk.qsize ≤ 4) := by decide +kernel

/-- In a handler; after a debug stop; with DBGCTL set. -/
def handling (lk : Word) : State := oneBut (fun t => { t with inHandler := true, lk := lk })
def debugged : State := { one with vfs := one.vfs.map (fun v => { v with dbgctl := 1 }) }

/-- O13. -/
theorem witness_trapWords : one.cur.debugPass = [] ∧ (∀ v, one.vf? (launchVf one.cur.id.launch) = some v → v.dbgctl.getLsbD 0 = false) ∧
    (∃ v, debugged.vf? (launchVf debugged.cur.id.launch) = some v ∧ v.dbgctl.getLsbD 0 = true) ∧ one.cur.inHandler = false ∧
    (handling 2).checksTarget (handling 2).cur.lk = some 3 ∧ (handling 0).checksTarget (handling 0).cur.lk = none ∧
    (∃ l, (handling 0).launch? (handling 0).cur.id.launch = some l ∧ l.kill = none) :=
  ⟨by decide, fun v h => by cases h; decide, ⟨_, rfl, by decide⟩, by decide, by decide, by decide, ⟨_, rfl, by decide⟩⟩

/-! ### Crews and traps -/

/-- The thread faulted; a second thread of the crew, at the place and in the phase given. -/
def faulty (code : Word) : State := oneBut (fun t => { t with phase := .faulted, trapcode := code, trappc := 8 })
def crewId : CrewId := ⟨1, 0, 0⟩
def second (pc : Word) (ph : Phase) : Thread := { Thread.start ⟨1, 0, 1⟩ pc 128 with phase := ph }
def two (ph : Phase) (pc : Word) (ph' : Phase) : State := { oneBut (fun t => { t with phase := ph }) with others := [second pc ph'] }

/-- O14. -/
theorem witness_takenTraps : (faulty 3).trapReady crewId = true ∧
    (∃ r, ((faulty 3).liveMembers crewId).find? (fun m => m.phase == .faulted) = some r ∧ r.trapcode ≠ 0x11) ∧
    (∃ r, ((faulty 0x11).liveMembers crewId).find? (fun m => m.phase == .faulted) = some r ∧ r.trapcode = 0x11) ∧
    (∃ tm, (faulty 3).team? 1 0 = some tm ∧ tm.st = .resident) ∧ (∃ l, (faulty 3).launch? 1 = some l ∧ l.image.trap = none ∧ l.kill = none) ∧
    (∃ l, (twoSegs .resident (some 0x40)).launch? 1 = some l ∧ l.image.trap = some 0x40) := by
  refine ⟨?_, ⟨_, rfl, ?_⟩, ⟨_, rfl, ?_⟩, ⟨_, rfl, ?_⟩, ⟨_, rfl, ?_⟩, ⟨_, rfl, ?_⟩⟩ <;> decide +kernel

/-- O14. -/
theorem witness_stuckCrews : (let s := two .waiting 12 .waiting
    s.isSwapped 1 0 = false ∧
    (∀ m ∈ s.liveMembers crewId, m.inHandler = false ∧ (m.phase = .waiting ∨ m.phase = .held ∨ m.phase.blocked = true)) ∧
    (∃ m ∈ s.liveMembers crewId, m.phase = .waiting) ∧
    2 ≤ (((s.liveMembers crewId).filter (fun m => m.phase == .waiting)).map (fun m => m.pc)).dedup.length) ∧
    (∃ m ∈ (two .waiting 8 .held).liveMembers crewId, m.phase = .held) := by decide +kernel

/-- The launch changed. -/
def launchBut (f : Launch → Launch) (s : State := one) : State := { s with launches := s.launches.map f }

/-- O15. -/
theorem witness_kills : (∃ x, (launchBut (fun l => { l with kill := some (5, (⟨24, 0⟩ : CoreId)) })).launch? 1 = some x ∧
      x.kill = some (5, ⟨24, 0⟩) ∧ x.killed = false) ∧ one.permitFree ⟨0, 0⟩ = true ∧
    (∃ x, (oneBut (fun t => { t with phase := .backoff 0 })).thread? ⟨1, 0, 0⟩ = some x ∧ x.phase = .backoff 0 ∧ 0 ≤ one.cycle) := by
  refine ⟨⟨_, rfl, ?_⟩, ?_, ⟨_, rfl, ?_⟩⟩ <;> decide +kernel

/-- The reply to the result pending has come. -/
def replied : State := { pending with replies := [⟨1, ⟨1, 0, 0⟩, [7], false, 0⟩] }

/-- O16. -/
theorem witness_replies : (let s := { pending with replies := [⟨1, ⟨1, 0, 0⟩, [7], false, 0⟩] }
    (∃ r, s.replies.find? (fun r => r.req == 1) = some r ∧ r.acq = false ∧ s.isSwapped r.t.launch r.t.team = false ∧ (s.thread? r.t).isSome = true)) ∧
    (let s := oneBut (fun t => { t with phase := .switchParked, queue := [⟨1, 0, 1, .held, [7]⟩] })
     (∃ x, s.thread? ⟨1, 0, 0⟩ = some x ∧ x.phase = .switchParked ∧ (∀ e ∈ x.queue, e.st = .held))) :=
  ⟨⟨_, rfl, by decide +kernel⟩, ⟨_, rfl, by decide +kernel⟩⟩

/-- O17, O18. -/
theorem witness_crewWords : one.meets ∧ (two .ready 8 .waiting).meets ∧ ¬ (two .ready 12 .waiting).meets ∧ ¬ (two .ready 8 .ready).meets ∧
    (∃ m0 ms, (two .ready 8 .waiting).countedFor (two .ready 8 .waiting).cur = m0 :: ms) ∧ (one.crew? (crewOf one.cur.id)).isSome = true := by
  refine ⟨?_, ?_, ?_, ?_, ⟨_, _, rfl⟩, ?_⟩ <;> decide +kernel

/-- The one crew changed, and its core about to decide. -/
def crewBut (f : Crew → Crew) : State :=
  { one with crews := one.crews.map f, cores := one.cores.map (fun c => { c with deciding := true }) }

/-- O18. -/
theorem witness_activation : (one.core ⟨0, 0⟩).deciding = false ∧ ((crewBut id).core ⟨0, 0⟩).deciding = true ∧
    (one.crews.map (fun c => c.id)).Nodup ∧
    (let s := crewBut (fun c => { c with active := false, due := true }); ∃ x ∈ s.residentCrews ⟨0, 0⟩, x.due = true ∧ x.active = false) ∧
    (let s := crewBut id; (∀ x ∈ s.residentCrews ⟨0, 0⟩, x.due = false) ∧
      leaseSum (s.residentCrews ⟨0, 0⟩) ≤ carveLines (s.core ⟨0, 0⟩).carve ∧ (∃ x ∈ s.residentCrews ⟨0, 0⟩, x.active = true)) ∧
    (let s := crewBut (fun c => { c with active := false, eligible := 16384 })
     ∃ w, s.crew? crewId = some w ∧ s.crewEligible w = true ∧ w.active = false ∧ w.due = false ∧ 16384 ≤ w.eligible ∧ s.liveMembers w.id ≠ [] ∧
       w ∈ s.crewsOn (s.coreOf w.id.launch w.id.team)) ∧
    (let s := crewBut (fun c => { c with measured := true, window := 65536 })
     ∃ w, s.crew? crewId = some w ∧ w.measured = true ∧ 65536 ≤ w.window) ∧
    (∃ w, (crewBut (fun c => { c with measured := true, window := 65535 })).crew? crewId = some w ∧ w.window < 65536) ∧
    (let s := crewBut (fun c => { c with lease := 0, active := false })
     ∃ x ∈ s.residentCrews ⟨0, 0⟩, x.lease = 0 ∧ x.due = false ∧ x.active = false ∧ s.crewEligible x = true) := by
  refine ⟨?_, ?_, ?_, ?_, ?_, ⟨_, rfl, ?_⟩,
    ⟨_, rfl, ?_⟩, ⟨_, rfl, ?_⟩, ?_⟩ <;> decide +kernel

/-! ### Scratch and global memory -/

/-- O19. -/
theorem witness_localAccesses : (∀ n ∈ [1, 2, 4, 8, 16], one.lies (BitVec.ofNat 64 (2 ^ 60 + 16384 - n)) n 0 (16384 - n) ∧
      one.open_ 0 (16384 - n) n true ∧ one.open_ 0 (16384 - n) n false) ∧ one.lies (BitVec.ofNat 64 (2 ^ 61 + 16380)) 4 0 16380 ∧
    (one.ea 0 0 4).toNat % 4 = 0 ∧ one.issuesLong true := by
  refine ⟨?_, ⟨by decide +kernel, by decide +kernel, Or.inr ⟨0, by decide +kernel, by decide +kernel, by decide +kernel, by decide +kernel⟩⟩, by decide +kernel, by decide +kernel⟩
  intro n hn
  have hs : ∃ m, one.team? one.cur.id.launch 0 = some m ∧ m.stash = [] := ⟨_, rfl, by decide +kernel⟩
  simp only [List.mem_cons, List.not_mem_nil, or_false] at hn
  rcases hn with rfl | rfl | rfl | rfl | rfl <;>
    exact ⟨⟨by decide +kernel, by decide +kernel, Or.inl (by decide +kernel)⟩, ⟨by decide +kernel, by decide +kernel, hs⟩, by decide +kernel, by decide +kernel, hs⟩

/-- VF 0 of a state. -/
def vfOf (s : State) : Vf := (s.vf? 0).getD (Vf.fresh 0 0 0)

/-- O20. -/
theorem witness_misplaced : ((2 ^ 48 : Nat) ≤ (BitVec.ofNat 64 (2 ^ 48)).toNat ∧ ∀ u off, ¬ one.lies (BitVec.ofNat 64 (2 ^ 48)) 4 u off) ∧
    (∀ u off, ¬ one.lies (BitVec.ofNat 64 (2 ^ 60 + 16381)) 4 u off) ∧
    (1 : Nat) % 2 ≠ 0 ∧ (one.cur.p 0).toNat / 2 ^ 60 ≠ 2 ∧
    ((16381 : Word).toNat % 4 ≠ 0 ∧ (16384 : Word).toNat % 8 = 0 ∧ one.pk.carveBytes < (16384 : Word).toNat + 4 ∧
      one.pk.carveBytes < (16384 : Word).toNat + 8 ∧ ¬ one.pk.carveBytes < (16380 : Word).toNat + 4) ∧
    (let s := launchBut (fun l => { l with packet := { l.packet with flags := 0x18 } })
     s.pk.det = true ∧ (s.cur.p 0).toNat % 4 = 0 ∧ (s.cur.p 0).toNat < 2 ^ 48 ∧ (vfOf s).watched 0 4 false = none ∧
       s.vf? (launchVf s.cur.id.launch) = some (vfOf s)) := by
  have hc : one.pk.carveBytes = 16384 := by decide +kernel
  have hq : one.pk.qsize = 1 := by decide +kernel
  refine ⟨⟨by decide, ?_⟩, ?_, by decide, by decide +kernel, by decide +kernel, by decide +kernel⟩ <;> rintro u off ⟨h, h', h'' | ⟨r, hr, hr', -, h''⟩⟩ <;>
    simp only [hc, hq, BitVec.toNat_ofNat] at * <;> omega

/-- A page of 1 GiB at virtual address 0, die-local memory of die 0, with the entry's bits given; its translation held. -/
def mapped (bits : Nat) : State :=
  { one with
    mgmt := { one.mgmt with dlsize := 1 }
    vfs := one.vfs.map (fun v => { v with ptroot := 0x1000 })
    mem := Memory.put (Memory.put (Memory.put (Memory.put [] 0x1000 1) 0x1001 0x20) 0x2000 (BitVec.ofNat 8 bits)) 0x2001 (BitVec.ofNat 8 (bits / 256))
    cores := one.cores.map (fun c => { c with tlb := [leafEntry 0 0 (2 ^ 30) 0 bits] }) }

/-- Valid, a leaf, readable, writable, accessed and dirty; not cached, and cached in L1. -/
def plain : State := mapped 0x61B
def cached : State := mapped 0x6DB

/-- The translation of a mapped state. -/
def pageOf (bits : Nat) : TlbEntry := leafEntry 0 0 (2 ^ 30) 0 bits

/-- A line held in L1 with all its bytes. -/
def holding : State :=
  { cached with
    cores := cached.cores.map (fun c => { c with l1 := [⟨0x60, cached.target (vfOf cached) (pageOf 0x6DB) 0x3000 3, 0, 0, ⟨1, 0, 0⟩, 0,
      (List.range 128).map (fun i => ⟨i, 7, false⟩)⟩] }) }

/-- O21. -/
theorem witness_globalAccesses : (∀ k ∈ [AccKind.load, .store], plain.grants 0 16 k true (vfOf plain) (pageOf 0x61B) ∧
      cached.grants (2 ^ 30 - 16) 16 k true (vfOf cached) (pageOf 0x6DB)) ∧
    (let g := plain.target (vfOf plain) (pageOf 0x61B) 0x3000 3
     plain.unordered g.pa 4 = false ∧ plain.missFull plain.curCore g 4 = false ∧ g.repl = false ∧ g.cache = 0 ∧ g.checked = false ∧ g.det = false ∧
       homeOf g.pa = plain.curCore.die ∧ (plain.core plain.curCore).l1Line (lineOf g.pa) = none) ∧
    (let g := cached.target (vfOf cached) (pageOf 0x6DB) 0x3000 3; 2 ≤ g.cache ∧ (cached.core cached.curCore).carve + 16 ≤ 320) ∧
    (let g := holding.target (vfOf holding) (pageOf 0x6DB) 0x3070 3
     holding.grants 0x3070 16 .load true (vfOf holding) (pageOf 0x6DB) ∧ holding.missFull holding.curCore g 16 = false ∧
     ∃ ln, (holding.core holding.curCore).l1Line (lineOf g.pa) = some ln ∧ ∀ k < 16, (byteAt ln.bytes (g.pa % 128 + k)).isSome = true) ∧
    plain.stashless := by
  refine ⟨?_, by decide +kernel, by decide +kernel, ⟨by decide +kernel, by decide +kernel, _, rfl, by decide +kernel⟩, ⟨_, rfl, by decide +kernel⟩, by decide +kernel⟩
  intro k hk
  simp only [List.mem_cons, List.not_mem_nil, or_false] at hk
  rcases hk with rfl | rfl <;> exact ⟨by decide +kernel, by decide +kernel⟩

/-- The page lies in the memory of die 1, cached or not; the horizon of die 0 is not covered there. -/
def far (bits : Nat) : State :=
  { mapped bits with
    mem := Memory.put (mapped bits).mem 0x2005 8
    cores := one.cores.map (fun c => { c with tlb := [leafEntry 0 0 (2 ^ 30) (2 ^ 43) bits] }) }
def farPage (bits : Nat) : TlbEntry := leafEntry 0 0 (2 ^ 30) (2 ^ 43) bits
def ahead (s : State) : State := { s with dies := [{ Die.fresh 0 with h := (List.replicate 24 0).set 5 1 }] }

/-- O21. -/
theorem witness_remoteAccesses : (far 0x61B).idle ∧ (ahead (far 0x61B)).idle ∧
    (∀ k ∈ [AccKind.load, .store], (far 0x61B).grants 0x3000 16 k true (vfOf (far 0x61B)) (farPage 0x61B)) ∧
    (far 0x61B).grants 0x3000 8 .atomic false (vfOf (far 0x61B)) (farPage 0x61B) ∧
    (let g := (far 0x61B).target (vfOf (far 0x61B)) (farPage 0x61B) 0x3000 3
     (far 0x61B).distant g ∧ g.cache = 0 ∧ g.pa % 16 = 0 ∧ (far 0x61B).unordered g.pa 16 = false) ∧
    (far 0x61B).covered 1 0 ∧ (far 0x61B).nextOf 1 0 ∧ ¬ (ahead (far 0x61B)).covered 1 0 ∧
    ¬ ({ far 0x61B with dies := [{ Die.fresh 0 with v := (List.replicate 24 0).set 0 1 }] } : State).nextOf 1 0 ∧
    (∀ x ∈ (far 0x61B).cur.queue, x.req ≠ (far 0x61B).nextId) := by
  refine ⟨by decide +kernel, by decide +kernel, ?_, by decide +kernel, by decide +kernel, by decide +kernel, by decide +kernel, by decide +kernel, by decide +kernel, by decide +kernel⟩
  intro k hk
  simp only [List.mem_cons, List.not_mem_nil, or_false] at hk
  rcases hk with rfl | rfl <;> decide +kernel

/-- No translation held; one that permits nothing; one that names no memory. -/
def untranslated : State := { plain with cores := one.cores }

def astray : State :=
  { plain with
    mem := Memory.put plain.mem 0x2003 0xC0
    cores := one.cores.map (fun c => { c with tlb := [leafEntry 0 0 (2 ^ 30) (3 * 2 ^ 30) 0x61B] }) }

/-- O22. -/
theorem witness_globalChecks : plain.vf? (launchVf plain.cur.id.launch) = some (vfOf plain) ∧
    (vfOf plain).watched 0 16 true = none ∧ untranslated.tlbFind untranslated.curCore (vfOf untranslated) 0 = none ∧
    untranslated.pendingRec 0 0 0 = none ∧
    (∃ r, ({ untranslated with records := [⟨1, 0, 0xFFF, 1, 0, 0, 0, 0, 0, some ⟨0, 0⟩, none, (0, 0)⟩] } : State).pendingRec 0 0 0 = some r) ∧
    ((mapped 0x603).tlbFind (mapped 0x603).curCore (vfOf (mapped 0x603)) 0 = some (pageOf 0x603) ∧ (pageOf 0x603).r = false ∧ (pageOf 0x603).w = false) ∧
    (astray.tlbFind astray.curCore (vfOf astray) 0 = some (leafEntry 0 0 (2 ^ 30) (3 * 2 ^ 30) 0x61B) ∧ astray.validPa (3 * 2 ^ 30) = false) := by
  refine ⟨?_, ?_, ?_, ?_, ⟨_, rfl⟩, ?_, ?_⟩ <;> decide +kernel

/-- O22. -/
theorem witness_ldu : one.lies (BitVec.ofNat 64 (2 ^ 60 + 16368 + 0)) 8 0 16368 ∧ one.lies (BitVec.ofNat 64 (2 ^ 60 + 1)) 8 0 1 ∧
    1 / 8 * 8 + 16 ≤ one.pk.carveBytes ∧ one.pk.carveBytes ≤ 2 ^ 32 ∧ one.open_ 0 0 16 false ∧ (vfOf one).feature0.getLsbD 10 = true := by
  refine ⟨⟨?_, ?_, Or.inl (?_)⟩, ⟨?_, ?_, Or.inl (?_)⟩,
    ?_, ?_, ⟨?_, ?_, ⟨_, rfl, ?_⟩⟩, ?_⟩ <;> decide +kernel

/-! ### Atomics, ordered accesses, waits, fences and barriers -/

/-- O23. -/
theorem witness_atomicsSent : plain.grants 0x3000 8 .atomic false (vfOf plain) (pageOf 0x61B) ∧ plain.pk.det = false ∧
    (let s := launchBut (fun l => { l with packet := { l.packet with flags := 0x18 } }) plain
     s.pk.det = true ∧ s.cur.debugPass = [] ∧ s.grants 0x3000 8 .atomic false (vfOf s) (pageOf 0x61B)) ∧ (3 : Nat) % 4 ≠ 0 := by decide +kernel

/-- O23. -/
theorem witness_redto : (let tgt : Word := 0xF00; tgt.toNat = tgt.toNat % 16 + 256 * (tgt.toNat / 256 % 16) ∧ tgt.toNat % 16 < one.pk.qsize) ∧
    (let tgt : Word := 0x1000; tgt.toNat ≠ tgt.toNat % 16 + 256 * (tgt.toNat / 256 % 16)) ∧ one.pk.qsize ≤ 1 ∧ (2 : Nat) % 4 ≠ 0 ∧
    16380 + 4 ≤ one.pk.carveBytes ∧ one.pk.carveBytes < 16384 + 4 ∧ (one.core one.curCore).l1 = [] ∧ one.performed one.cur.id = true ∧
    (∃ m, one.team? 1 0 = some m ∧ m.stash = [] ∧ m.st = .resident) ∧ one.hatched 1 0 16380 4 true = false ∧
    (oneBut (fun t => { t with phase := .exited })).teamDone 1 0 = true := by
  refine ⟨?_, ?_, ?_, ?_, ?_, ?_, ?_,
    ?_, ⟨_, rfl, ?_⟩, ?_, ?_⟩ <;> decide +kernel

/-- A delivery to the team's scratch that counts at its barrier 15. -/
def delivering : State :=
  { one with
    deliveries := [⟨3, ⟨1, 0, 0⟩, 1, 0, 16380, 5, 15⟩]
    barriers := [⟨0, 1, 1, 0, 15, none, 0, 0, ⟨0, 0⟩, 0, false, []⟩] }

/-- O23. -/
theorem witness_redtoDelivery : (∃ x m, delivering.deliveries = [x] ∧ delivering.team? x.launch x.team = some m ∧ m.stash = [] ∧ m.st = .resident ∧
      delivering.hatched x.launch x.team x.off 4 true = false ∧ ∃ y, delivering.barrier? x.launch 1 x.team x.bar = some y ∧ y.spilled = false) := by
  refine ⟨_, _, rfl, rfl, ?_, ?_, ?_, _, rfl, rfl⟩ <;> decide +kernel

/-- A request on its way, of the kind given. -/
def asking (s : State) (k : ReqKind) : State := { s with requests := [⟨9, ⟨1, 0, 0⟩, ⟨0, 0⟩, 0, [], [], k⟩] }
def home : GAddr := { pa := 0x3000, cache := 0, reps := [], vf := 0, launch := 1, team := 0, checked := false, det := false, repl := false, counted := false }

/-- O24. -/
theorem witness_atomicsPerformed : (∃ r, (asking one (.atomic .add 0 false (.scr 0 16380) 1 0)).requests.find? (fun x => x.id == 9) = some r ∧
      r.kind = .atomic .add 0 false (.scr 0 16380) 1 0) ∧
    (∃ r, (asking one (.atomic .cas64 2 false (.glob home) 1 0)).requests.find? (fun x => x.id == 9) = some r ∧ r.tag = [] ∧
      atHome home 2 = true ∧ homeOf home.pa = r.core.die ∧ r.core.die < 24 ∧ home.det = false ∧ home.pa % 8 = 0) ∧
    (one.flips = [] ∧ one.poison = [] ∧ ∀ m ∈ one.teams, m.stash = []) :=
  ⟨⟨_, rfl, rfl⟩, ⟨_, rfl, by decide +kernel⟩, by decide +kernel⟩

/-- A line homed on die 1, for L1 and L2; what die 0 has of it. -/
def distantLine : GAddr := { home with pa := 2 ^ 43 + 0x3000, cache := 2 }
def whole (b : Byte) : List CByte := (List.range 128).map (fun i => ⟨i, b, false⟩)
def copied (s : State) : State :=
  { s with
    dies := [{ Die.fresh 0 with l2 := [⟨2 ^ 36 + 0x60, distantLine, 0, 0, 0, 0, 0, whole 3⟩] }]
    cores := s.cores.map (fun c => { c with l1 := [⟨2 ^ 36 + 0x60, distantLine, 0, 0, ⟨1, 0, 0⟩, 0, whole 3⟩] }) }

/-- O24. -/
theorem witness_nearerAtomics : (∀ l1, (asking one (.atomic .cas64 0 l1 (.glob distantLine) 1 0)).requests.find? (fun x => x.id == 9) =
      some ⟨9, ⟨1, 0, 0⟩, ⟨0, 0⟩, 0, [], [], .atomic .cas64 0 l1 (.glob distantLine) 1 0⟩) ∧
    distantLine.repl = false ∧ distantLine.checked = false ∧ one.sound ∧ distantLine.pa % 8 = 0 ∧ homeOf distantLine.pa = 1 ∧ homeOf home.pa = 0 ∧
    (∃ x, ((copied one).core ⟨0, 0⟩).l1Line (distantLine.pa / 128) = some x ∧ heldBytes x.bytes (distantLine.pa % 128) 8 0x0303030303030303) ∧
    ((one.core ⟨0, 0⟩).l1 = [] ∧ (one.die 0).l2 = [] ∧ (one.core ⟨0, 0⟩).carve + 16 ≤ 320 ∧ one.welt = []) ∧
    (∃ x, (copied one).l2Line 0 (distantLine.pa / 128) = some x ∧ (∀ k < 128, (byteAt x.bytes k).isSome = true) ∧
      heldBytes x.bytes (distantLine.pa % 128) 8 0x0303030303030303) ∧
    one.reaches 0 1 = true ∧ (ahead one).reaches 0 1 = false :=
  ⟨fun l1 => rfl, by decide +kernel, by decide +kernel, by decide +kernel, by decide +kernel, by decide +kernel, by decide +kernel, ⟨_, rfl, by decide +kernel⟩,
    by decide +kernel, ⟨_, rfl, by decide +kernel⟩, by decide +kernel, by decide +kernel⟩

/-- O25. -/
theorem witness_orderedAccesses : plain.pk.det = false ∧ (∀ k ∈ [AccKind.query, .publish, .atomic], plain.grants 0x3000 4 k false (vfOf plain) (pageOf 0x61B)) ∧
    ((plain.core plain.curCore).l1 = [] ∧ (plain.die plain.curCore.die).l2 = [] ∧ plain.releaseDone plain.cur.id 1 = true ∧
      plain.releaseDone plain.cur.id 4 = true) ∧
    (let s := asking one (.sc 3 home 0 5 0); s.allPublished 0 = true ∧ s.scFirst home 0 = true) ∧
    (let s := asking one (.sc 3 home 0 5 (131072 * 256)); s.allPublished 256 = false) := by
  refine ⟨by decide +kernel, ?_, by decide +kernel, by decide +kernel, by decide +kernel⟩
  intro k hk
  simp only [List.mem_cons, List.not_mem_nil, or_false] at hk
  rcases hk with rfl | rfl | rfl <;> decide +kernel

/-- The thread waits for the scratch word at 0, or for a global word, with a monitor or without; with an operation that writes there. -/
def monitoring (glob : Option GAddr) (monitor reread : Bool) : State :=
  { oneBut (fun t => { t with phase := .monitor, watch := some ⟨4, glob, 0, 0, 5, 3, monitor, reread, 0⟩ }) with cycle := 1024 }
def covering : State := { monitoring none true true with cores := one.cores.map (fun c => { c with hatch := [⟨1, 0, 3, 4, true, 5⟩] }) }

/-- O26. -/
theorem witness_waits : waitHolds 4 (one.scratchWord 0 0) 0 = true ∧ waitHolds 4 (one.scratchWord 0 0) 1 = false ∧
    (∀ b, ∃ x w, (monitoring none true b).thread? ⟨1, 0, 0⟩ = some x ∧ x.watch = some w ∧ x.phase = .monitor ∧ w.glob = none ∧ w.reread = b ∧ w.monitor = true ∧
      (monitoring none true b).hatched 1 w.team w.off 4 false = false) ∧ covering.hatched 1 0 0 4 false = true ∧
    (∀ b, ∃ x w, (monitoring (some home) b b).thread? ⟨1, 0, 0⟩ = some x ∧ x.watch = some w ∧ x.phase = .monitor ∧ w.glob = some home ∧ w.monitor = b ∧
      w.reread = b ∧ w.polled + 1024 ≤ (monitoring (some home) b b).cycle ∧ (monitoring (some home) b b).reaches 0 (homeOf home.pa) = true) ∧
    (ahead (monitoring (some distantLine) false false)).reaches 0 (homeOf distantLine.pa) = false ∧
    (let g := plain.target (vfOf plain) (pageOf 0x61B) 0x3000 3
     plain.grants 0x3000 4 .query true (vfOf plain) (pageOf 0x61B) ∧ plain.pk.det = false ∧ plain.unordered g.pa 4 = false ∧ plain.cleared ∧
       plain.reaches 0 (homeOf g.pa) = true ∧ plain.monitorFree ⟨0, 0⟩ g = true) := by
  refine ⟨by decide +kernel, by decide +kernel, ?_, by decide +kernel, ?_, by decide +kernel, by decide +kernel, by decide +kernel, by decide +kernel,
    ⟨by decide +kernel, by decide +kernel, ⟨_, rfl, by decide +kernel⟩, by decide +kernel⟩, by decide +kernel, by decide +kernel⟩
  · intro b; cases b <;> exact ⟨_, _, rfl, rfl, by decide +kernel⟩
  · intro b; cases b <;> exact ⟨_, _, rfl, rfl, by decide +kernel⟩

/-- The core's L1 holds one dirty byte of the line given, the last. -/
def stored (g : GAddr) : State :=
  { one with cores := one.cores.map (fun c => { c with l1 := [⟨g.pa / 128, g, 0, 0, crewId, 0, [⟨127, 9, true⟩]⟩] }) }

/-- O27. -/
theorem witness_fences : (asking one (.atomic .add 0 false (.scr 0 0) 1 0)).performed one.cur.id = false ∧ one.performed one.cur.id = true ∧
    (∀ r ∈ one.replies, r.t ≠ one.cur.id) ∧ covers (one.die one.curCore.die).v (one.die one.curCore.die).h = true ∧
    (2 : BitVec 2).getLsbD 1 = true ∧ (one.core one.curCore).l1 = [] ∧ one.releaseDone one.cur.id 4 = true ∧
    (∀ g ∈ [home, distantLine], let s := stored g
      s.stashless ∧ ((s.die 0).l2.map (fun x => x.line)).Nodup ∧ (s.die 0).l2 = [] ∧
      ∃ ln, (s.core s.curCore).l1 = [ln] ∧ ln.g.pa / 128 = ln.line ∧ ln.g.det = false ∧ ln.bytes = [⟨127, 9, true⟩] ∧ ln.g.repl = false ∧ homeOf (128 * ln.line) < 24) := by
  refine ⟨by decide +kernel, by decide +kernel, by decide +kernel, by decide +kernel, by decide, by decide +kernel, by decide +kernel, ?_⟩
  intro g hg
  simp only [List.mem_cons, List.not_mem_nil, or_false] at hg
  rcases hg with rfl | rfl <;> exact ⟨by decide +kernel, by decide +kernel, by decide +kernel, _, rfl, by decide +kernel⟩

/-- Barrier 15 of the core, with a count, an expectation and a phase; the thread waiting at it. -/
def barred (e : Option Nat) (c ph : Nat) : State :=
  { oneBut (fun t => { t with phase := .barrier 1 15 (some ph), barOwner := 0 }) with
    barriers := [⟨0, 1, 1, 0, 15, e, c, ph, ⟨0, 0⟩, 0, false, []⟩]
    arrivals := [⟨7, 1, 1, 0, 15, none, []⟩] }

/-- O28. -/
theorem witness_barriers : (16 ≤ (16 : Word).toNat ∧ one.pk.resident = false) ∧
    (∃ y, (barred (some 1) 0 65535).barrier? 1 1 0 15 = some y ∧ y.spilled = false ∧ y.e = some 1 ∧ y.c + 1 < 2 ^ 24 ∧ y.phase < 2 ^ 16 ∧ 1 ≤ y.c + 1) ∧
    (∃ y, (barred (some 2) 0 0).barrier? 1 1 0 15 = some y ∧ y.c = 0 ∧ y.c + 1 < 2 ∧ y.e = some 2) ∧
    (∃ x, (barred (some 1) 0 65535).arrivals.find? (fun z => z.id == 7) = some x ∧ x.scope = 1) ∧
    (((barred (some 1) 0 0).threads.map (fun t => t.id)).Nodup ∧ (barred (some 1) 0 0).acquireReady ⟨1, 0, 0⟩ 1 = true ∧
      (barred (some 1) 0 0).isSwapped 1 0 = false ∧ (barred (some 1) 0 0).cur.barOwner = 0 ∧ offOf (barred (some 1) 0 0).cur.pc ≠ 0xFFFC) ∧
    ((1 : Word).toNat % 2 ^ 24 ≠ 0) ∧ (∀ x ∈ one.arrivals, x.t ≠ some one.cur.id) := by
  refine ⟨?_, ⟨_, rfl, ?_⟩, ⟨_, rfl, ?_⟩, ⟨_, rfl, ?_⟩, ?_, ?_, ?_⟩ <;> decide +kernel

/-- A RESIDENT launch with one barrier of each scope, the last id of its range, in its last phase. -/
def barriers : State :=
  { launchBut (fun l => { l with packet := { l.packet with flags := 0xC } }) with
    barriers := (List.range 5).map (fun i => ⟨0, 1, i + 1, one.barrierOwner 1 0 (i + 1), if i = 0 then 15 else if i = 1 then 7 else 3, none, 0, 65535,
      ⟨0, 0⟩, i, false, []⟩) }

/-- O28. -/
theorem witness_barrierScopes : barriers.pk.resident = true ∧
    (∀ sc < 5, ∃ y ∈ barriers.barrier? 1 (sc + 1) (barriers.barrierOwner 1 0 (sc + 1)) (if sc = 0 then 15 else if sc = 1 then 7 else 3),
      y.spilled = false ∧ y.c = 0 ∧ y.phase = 65535 ∧ barriers.groupOf y = none) ∧
    barriers.performed barriers.cur.id = true ∧ ((barriers.core barriers.curCore).l1 = [] ∧ ∃ m, barriers.team? 1 0 = some m ∧ m.stash = []) ∧
    ((barriers.die barriers.curCore.die).l2 = [] ∧ barriers.sentApplied barriers.curCore.die = true) ∧ (barriers.threads.map (fun t => t.id)).Nodup ∧
    (∀ u ∈ barriers.threads, barriers.phaseOver u = false) ∧
    (∀ x ∈ barriers.cur.arrivals, ¬ (x.1 = 5 ∧ x.2.1 = 3)) ∧ (∀ r ∈ barriers.replies, r.t ≠ barriers.cur.id) ∧ barriers.loaded barriers.cur.id = true ∧
    covers (barriers.die 0).v (vmax (barriers.die 0).h (vmax [] [])) = true := by
  refine ⟨?_, ?_, ?_, ⟨?_, _, rfl, ?_⟩, ?_, ?_,
    ?_, ?_, ?_, ?_, ?_⟩ <;> decide +kernel

/-! ### Work, engines, overlays and the Stylus -/

/-- A WORK launch of 8 iterations in tiles of 4, pieces of 2, under the DIST given; the team's range begins at the place given. -/
def working (dist : Word) (next : Nat) : State :=
  { launchBut (fun l => { l with packet := { l.packet with flags := dist, iters := 8, kt := 4, p := 2 } }) (asking one .work) with
    teams := one.teams.map (fun m => { m with next := next, stop := 8 }) }

/-- A STEAL of team 0, whose range is empty, with a second team of 2 iterations left on the die. -/
def stealing : State :=
  { working 1 8 with
    requests := [⟨9, ⟨1, 0, 0⟩, ⟨0, 0⟩, 0, [], [], .steal 1 0⟩]
    teams := (working 1 8).teams ++ (working 1 6).teams.map (fun m => { m with idx := 1, core := ⟨0, 1⟩ }) }

/-- The reply of a STEAL, with the distributor's clock. -/
def answered : State := { pending with replies := [⟨1, ⟨1, 0, 0⟩, [0, 0, 0, 8], false, 9⟩] }

/-- O29. -/
theorem witness_work : ((working 1 7).pk.dist = 1 ∧ ∃ m, (working 1 7).team? 1 0 = some m ∧ m.next < m.stop) ∧
    ((working 2 0).pk.dist = 2 ∧ ∃ l, (working 2 0).launch? 1 = some l ∧ l.workNext < l.packet.iters) ∧ (working 0 0).pk.dist = 0 ∧
    (∃ r ∈ (working 1 7).requests, r.kind = .work ∧ (∀ x ∈ (working 1 7).requests, x.pieces = true → x = r)) ∧
    (∃ m v, stealing.team? 1 0 = some m ∧ m.stop ≤ m.next ∧ stealing.team? 1 1 = some v ∧ stealing.victim m v ∧
      (∀ x ∈ stealing.teams, stealing.victim m x → x = v)) ∧
    (∃ r ∈ answered.replies, r.acq = false ∧ r.lamport ≠ 0 ∧ answered.isSwapped r.t.launch r.t.team = false ∧ (answered.thread? r.t).isSome = true) := by
  refine ⟨⟨?_, _, rfl, ?_⟩, ⟨?_, _, rfl, ?_⟩, ?_, ?_,
    ⟨_, _, rfl, ?_, rfl, ?_⟩, ?_⟩ <;> decide +kernel

/-- O30. -/
theorem witness_exit : one.cur.queue = [] ∧ pending.cur.queue ≠ [] ∧ (one.threads.map (fun t => t.id)).Nodup ∧ one.others = [] ∧
    one.teamEngines 1 0 = false ∧ (one.team? 1 0).isSome = true := by decide +kernel

/-- O31. -/
theorem witness_roomy : one.roomy 48 := by
  intro k
  by_cases h : k = ⟨0, 0⟩
  · subst h; decide +kernel
  · have : one.core k = Core.fresh k := by
      show ((one.cores.find? (fun c => c.id == k)).getD (Core.fresh k)) = _
      have e : one.cores.map (fun c => c.id) = [⟨0, 0⟩] := by decide +kernel
      cases hc : one.cores.find? (fun c => c.id == k) with
      | none => rfl
      | some c =>
        have h1 := List.mem_of_find?_eq_some hc
        have h2 := List.find?_some hc
        have h3 : c.id ∈ one.cores.map (fun c => c.id) := List.mem_map_of_mem h1
        rw [e] at h3
        simp only [List.mem_singleton] at h3
        exact absurd (by rw [← eq_of_beq h2, h3]) h
    rw [this]; simp [Core.fresh]

/-- A job card that is good, and one of another kind. -/
def cardBytes (kind : Byte) : List Byte := kind :: List.replicate 63 0

/-- A task that zeroes a chain it opens, one of no kind, and one that drains a chain that is not open. -/
def taskBytes (kind flags : Byte) : List Byte := [kind, flags, 0, 0, 0, 0, 0, 0, 0, 0, 0, 0, 1] ++ List.replicate 51 0

/-- A record of zeros held under the handle 0x40. -/
def kept : State := { plain with cores := plain.cores.map (fun c => { c with recs := [⟨0, 0x40, List.replicate 192 0, 0⟩] }) }

/-- O31. -/
theorem witness_copyWords : (∃ x, (kept.core ⟨0, 0⟩).recEntry 0 0x40 = some x) ∧ (plain.core ⟨0, 0⟩).recEntry 0 0x3000 = none ∧ plain.flushing ⟨0, 0⟩ 0x3000 = false ∧
    plain.forked plain.cur.id plain.nextId = true ∧ plain.cleared ∧ (pageOf 0x61B).r = true ∧ (pageOf 0x61B).host = false ∧
    (∀ i < 3, plain.tlbFind plain.curCore (vfOf plain) (0x3000 + 64 * i) = some (pageOf 0x61B) ∧ plain.validPa (0x3000 + 64 * i) = true ∧
      homeOf (plain.target (vfOf plain) (pageOf 0x61B) (0x3000 + 64 * i) 3).pa = plain.curCore.die) ∧
    (asking plain (.atomic .add 2 false (.glob home) 1 0)).forked plain.cur.id 10 = false ∧
    (let s := mapped 0x603
     (s.core s.curCore).recEntry 0 0x3000 = none ∧ s.tlbFind s.curCore (vfOf s) 0x3000 = some (pageOf 0x603) ∧ (pageOf 0x603).r = false ∧
       s.streamerCount s.curCore < 32 ∧ s.flushing s.curCore 0x3000 = false ∧ s.forked s.cur.id s.nextId = true) ∧
    ({ plain with engines := [⟨5, 5, ⟨1, 0, 0⟩, ⟨0, 0⟩, 0, .recfl 0x3000, .queued, 0, 0, none, 0⟩] } : State).flushing ⟨0, 0⟩ 0x3000 = true := by
  refine ⟨⟨_, rfl⟩, ?_, ?_, ?_, ⟨?_, ?_, ⟨_, rfl, ?_⟩, ?_⟩,
    ?_, ?_, ?_, ?_, ?_, ?_⟩ <;> decide +kernel

/-- The Skiver of the die with as many jobs as it holds. -/
def busy : State :=
  { one with engines := (List.range 64).map (fun i => ⟨100 + i, 100 + i, ⟨1, 0, 0⟩, ⟨0, 0⟩, 0, .djob (jobCard 0x3000 (cardBytes 1)) ⟨0, 0, 0, 0, 0⟩ none, .queued, 0, 0, none, 0⟩) }

/-- O31. -/
theorem witness_engineWords : one.isProducer = true ∧ (launchBut (fun l => { l with packet := { l.packet with producer := 1 } })).isProducer = false ∧
    one.streamerCount one.curCore < 32 ∧ one.skiverCount 0 < 64 ∧ (busy.isProducer = true ∧ 64 ≤ busy.skiverCount busy.curCore.die) ∧ one.cobblerCount one.curCore < 64 ∧
    (1 < 2 ^ one.pk.qsize ∧ 2 ^ one.pk.qsize ≤ 2) ∧ cardCode one.pk.carveBytes (cardBytes 1) (jobCard 0x3000 (cardBytes 1)) = 0 ∧
    cardCode one.pk.carveBytes (cardBytes 2) (jobCard 0x3000 (cardBytes 2)) ≠ 0 ∧
    plain.tlbFind plain.curCore (vfOf plain) 0x3000 = some (pageOf 0x61B) ∧ (pageOf 0x61B).r = true ∧ (pageOf 0x61B).w = true ∧
    (16304 % 16 = 0 ∧ 16304 + 80 ≤ one.pk.carveBytes) ∧ ¬ (16320 + 80 ≤ one.pk.carveBytes) ∧
    (16320 % 64 = 0 ∧ 16320 + 64 ≤ one.pk.carveBytes ∧ one.readable 16320 64) ∧
    (∃ o, taskBad (taskBytes 3 0) (vfOf one).feature0 one.pk = some o) ∧
    (taskBad (taskBytes 2 1) (vfOf one).feature0 one.pk = none ∧ (taskRec (taskBytes 2 1)).drains = false ∧
      chainBad (taskRec (taskBytes 2 1)) (one.issueChain 1 0 0) = none ∧
      destBeyond (taskRec (taskBytes 2 1)) none 0 1 = false) ∧
    (taskBad (taskBytes 2 0) (vfOf one).feature0 one.pk = none ∧ chainBad (taskRec (taskBytes 2 0)) (one.issueChain 1 0 0) = some 2) := by
  refine ⟨?_, ?_, ?_, ?_, ?_, ?_, ?_,
    ?_, ?_, ?_, ?_, ?_, ?_, ?_,
    ⟨?_, ?_, ?_, ?_, _, rfl, ?_⟩, ⟨_, rfl⟩, ?_, ?_⟩ <;> decide +kernel

/-- The team with n mappings of 128 bytes. -/
def stashed (n : Nat) : State :=
  { one with teams := one.teams.map (fun m => { m with stash := (List.range n).map (fun i => ⟨128 * i, 128, 128 * i, [], []⟩) }) }

/-- O32. -/
theorem witness_stash : (16384 - 128) % 128 = 0 ∧ 16384 - 128 + 128 ≤ one.pk.carveBytes ∧ (2 : Nat) ^ 48 - 128 + 128 ≤ 2 ^ 48 ∧
    ¬ (16384 + 128 ≤ one.pk.carveBytes) ∧
    (∃ m, (stashed 7).team? 1 0 = some m ∧ m.stash.length < 8 ∧ (∀ x ∈ m.stash, (16384 ≤ x.off ∨ x.off + x.len ≤ 16384 - 128)) ∧
      ¬ (∀ x ∈ m.stash, (128 ≤ x.off ∨ x.off + x.len ≤ 0)) ∧ (∃ x ∈ m.stash, x.off = 0 ∧ x.filled = [] ∧ ∀ y ∈ m.stash, y.off = 0 → y = x)) ∧
    (∃ m, (stashed 8).team? 1 0 = some m ∧ 8 ≤ m.stash.length) := by
  refine ⟨?_, ?_, ?_, ?_, ⟨_, rfl, ?_⟩, ⟨_, rfl, ?_⟩⟩ <;> decide +kernel

/-- One operation in an engine, of the kind and in the state given. -/
def engaged (s : State) (k : EngKind) (st : EngState) : State :=
  { s with engines := [⟨5, 5, ⟨1, 0, 0⟩, ⟨0, 0⟩, 0, k, st, 0, 0, none, 0⟩] }

/-- A record of elements of one byte in a box of one dimension, based at the address given; the block of a copy that starts at the place given. -/
def recordBytes (base : Nat) (size box : Byte) : List Byte :=
  [1, 0, 0, 0, 1, 0, 0, 0] ++ (List.range 8).map (fun i => BitVec.ofNat 8 (base / 256 ^ i)) ++ [size, 0, 0, 0, 0, 0, 0, 0] ++
    (List.replicate 4 [1, 0, 0, 0, 0, 0, 0, 0]).flatten ++ List.replicate 32 0 ++ [box, 0, 0, 0] ++ (List.replicate 9 [1, 0, 0, 0]).flatten ++
    List.replicate 64 0
def blockWords (dir start : Word) : List Word := [0, dir, start, 0, 0, 0, 0, 0]

/-- The record held under the handle 0x40, of a tensor of three elements, of which the box covers as many as given. -/
def recorded (s : State) (base : Nat) (box : Byte) (w : List Word) : State :=
  { engaged s (.copy false 0x40 w none none) .queued with
    cores := s.cores.map (fun c => { c with recs := [⟨0, 0x40, recordBytes base 3 box, 0⟩] }) }

/-- O33. -/
theorem witness_engineOperations : (∃ e, (engaged one (.recfl 0x40) .queued).eng? 5 = some e ∧ (engaged one (.recfl 0x40) .queued).mayBegin e = true) ∧
    (∃ e, (engaged one (.recfl 0x40) .done).eng? 5 = some e ∧ (engaged one (.recfl 0x40) .done).mayBegin e = false) ∧
    ¬ (0x41 % 64 = 0 ∧ 0x41 < 2 ^ 48) ∧ (one.sound ∧ progBad (List.replicate 80 0) = none) ∧
    progBad (List.replicate 64 0 ++ [0, 0xF0] ++ List.replicate 14 0) = some 0 ∧
    (let s := recorded plain 0x3000 3 (blockWords 0 0)
     ∃ e, s.eng? 5 = some e ∧ s.mayBegin e = true ∧ e.pos = 0 ∧ s.records? e false 0x40 (blockWords 0 0) (recordBytes 0x3000 3 3) ∧
      recordBad (recordBytes 0x3000 3 3) = none ∧ operandBad false (recordBytes 0x3000 3 3) (blockWords 0 0) = none ∧
      scratchOk (recordBytes 0x3000 3 3) (blockWords 0 0) 16384 = true ∧ s.sound) ∧
    operandBad false (recordBytes 0x3000 3 3) (blockWords 2 0) = some 1 ∧ scratchOk (recordBytes 0x3000 3 3) [16384, 0, 0, 0, 0, 0, 0, 0] 16384 = false ∧
    recordBad (List.replicate 192 0) = some 0 := by
  refine ⟨⟨_, rfl, ?_⟩, ⟨_, rfl, ?_⟩, ?_, ?_, ?_,
    ⟨_, rfl, ?_, rfl, Or.inr ⟨rfl, _, rfl, rfl⟩, ?_⟩, ?_, ?_, ?_⟩ <;> decide +kernel

/-- O33. -/
theorem witness_copies : (∀ m < 5, 0 < recBox (recordBytes 0x3000 3 3) m) ∧ recElems (recordBytes 0x3000 3 3) = 3 ∧
    boxGlobal (recordBytes 0x3000 3 3) (blockWords 0 1) 0 = some 0x3001 ∧ boxGlobal (recordBytes 0x3000 3 3) (blockWords 0 1) 2 = none ∧
    boxGlobal (recordBytes (2 ^ 48 - 1) 3 3) (blockWords 0 1) 0 = some (2 ^ 48) ∧
    (let s := recorded (mapped 0x603) 0x3000 3 (blockWords 0 0)
     ∃ e, s.eng? 5 = some e ∧ s.denies e 0x3000 false ∧ s.denies e (0x3000 / 128 * 128) true) ∧
    (let s := recorded plain 0x3000 3 (blockWords 0 0)
     ∃ e, s.eng? 5 = some e ∧ (∀ j < 3, s.permits e (0x3000 + j) 0 false (vfOf plain) (pageOf 0x61B)) ∧
      s.permits e (0x60 * 128) 0 true (vfOf plain) (pageOf 0x61B)) ∧
    (∀ j < 3, ∀ a ∈ boxGlobal (recordBytes 0x3000 3 3) (blockWords 1 0) j, a / 128 = 0x60) ∧ recCap (recordBytes 0x3000 3 3) = 3 ∧
    recordBad (recordBytes 0x3000 3 3) = none ∧ blkDir (blockWords 1 0) = 1 := by
  refine ⟨?_, ?_, ?_, ?_, ?_,
    ⟨_, rfl, ⟨vfOf plain, pageOf 0x603, ?_⟩, ⟨vfOf plain, pageOf 0x603, ?_⟩⟩,
    ⟨_, rfl, ?_⟩, ?_, ?_, ?_, ?_⟩ <;> decide +kernel

/-- A job from scratch 0 to scratch 256, of the lengths given, whose source holds the bytes given. -/
def card (srcLen cap : Nat) : JobCard := ⟨0x3000, 2 ^ 60, srcLen, cap, 2 ^ 60 + 256, 0, 0⟩
def job (s : State) (j : JobCard) (src : List Byte) (x : SkiverAt) (r : Option (Nat × Nat)) (st : EngState) : State :=
  { engaged s (.djob j x r) st with teams := s.teams.map (fun m => { m with
      scratch := (List.range src.length).foldl (fun m i => Memory.put m i (src.getD i 0)) [] }) }
def start : SkiverAt := ⟨0, 0, 0, 0, 0⟩

/-- O34. -/
theorem witness_jobs : (let s := job one (card 3 1) [0, 7, 0xFF] start none .queued
      ∃ e, s.eng? 5 = some e ∧ s.mayBegin e = true ∧ s.sound ∧ 2 ^ 48 ≤ (card 3 1).src ∧ 2 ^ 48 ≤ (card 3 1).dst ∧ (s.team? 1 0).isSome ∧
        (∀ i < 1, ∀ k < 3, ((card 3 1).src + k) % 2 ^ 32 ≠ ((card 3 1).dst + i) % 2 ^ 32) ∧
        (∀ i < 3, s.scrByte 1 0 i = [0, 7, 0xFF][i]?)) ∧
    (∀ pre y post, [([7], 0, 0)] = pre ++ y :: post → tokenOk [] (streamOut [] pre) y) ∧ ([([7], 0, 0)] : List (List Byte × Nat × Nat)).flatMap tokenBytes = [0, 7] ∧
    streamOut [] [([7], 0, 0)] = [7] ∧ (tokenOk [] [] ([7, 8], 0, 0) ∧ 1 < (tokenOut [] [] ([7, 8], 0, 0)).length ∧ tokenBytes ([7, 8], 0, 0) = [1, 7, 8]) ∧
    (tokenBytes ([], 2, 3) = [128, 2, 0] ∧ (streamOut [] [([7], 0, 0)]).length + 0 < 2) ∧
    (let s := job (mapped 0x603) ⟨0x3000, 0x3000, 3, 1, 2 ^ 60, 0, 0⟩ [] start none .queued
     ∃ e, s.eng? 5 = some e ∧ s.mayBegin e = true ∧ s.denies e 0x3000 false ∧ s.denies e (0x3000 / 128 * 128) true) ∧
    (let s := job plain (card 3 1) [] ⟨3, 1, 0, 0, 0⟩ (some (1, 0)) .running
     ∃ e, s.eng? 5 = some e ∧ e.st = .running ∧ s.forked e.t e.no = true ∧ s.sound ∧ s.permits e ((card 3 1).card / 128 * 128) 3 true (vfOf plain) (pageOf 0x61B)) ∧
    (let s := engaged one (.dprog 0 3 (some ⟨[], []⟩)) .done; ∃ e, s.eng? 5 = some e ∧ e.st = .done ∧ s.writesOut e = false ∧ s.teamDone 1 0 = false) :=
  ⟨⟨_, rfl, by decide +kernel⟩, fun pre y post h => by
      rcases pre with _ | ⟨p, _ | ⟨_, _⟩⟩ <;> simp at h
      exact Or.inl (by rw [← h.1]; decide), by decide, by decide +kernel, by decide +kernel, by decide +kernel,
    ⟨_, rfl, by decide +kernel, ⟨vfOf plain, pageOf 0x603, by decide +kernel⟩, ⟨vfOf plain, pageOf 0x603, by decide +kernel⟩⟩,
    ⟨_, rfl, by decide +kernel⟩, ⟨_, rfl, by decide +kernel⟩⟩

/-- O34. -/
theorem witness_cards : (∀ x ∈ [(1, 0), (2, 1)], cardCode one.pk.carveBytes (cardBytes x.1) (jobCard 0x3000 (cardBytes x.1)) = x.2) ∧
    cardCode one.pk.carveBytes ([1, 0, 0, 0, 0, 0, 0, 0] ++ List.replicate 8 0xFF ++ List.replicate 48 0)
      (jobCard 0x3000 ([1, 0, 0, 0, 0, 0, 0, 0] ++ List.replicate 8 0xFF ++ List.replicate 48 0)) = 2 := by decide +kernel

/-- The zeroing task at its engine; its chain is opened by it, or is not there. -/
def tasked (opens : Bool) : State := engaged one (.task (taskRec (taskBytes 2 (if opens then 1 else 0))) none opens) .queued

/-- Every slot of the quad holds a chain, and the opening task waits for one since cycle 0. -/
def crowded (cycle : Nat) : State :=
  { engaged one (.task (taskRec (taskBytes 2 1)) none true) .queued with
    engines := [⟨5, 5, ⟨1, 0, 0⟩, ⟨0, 0⟩, 0, .task (taskRec (taskBytes 2 1)) none true, .queued, 0, 0, none, 1⟩]
    cycle := cycle
    chains := (List.range 8).map (fun i => ⟨1, 0, 100 + i, 0, 1, none, false, [], ⟨0, i / 2⟩, i % 2⟩) }

/-- A drain of an open chain of one row in f32 under a program that stores, or that adds on, to the destination given. -/
def draining (s : State) (dest : Nat) (steps : Option (List (BitVec 16))) : State :=
  { engaged s (.task { taskRec (taskBytes 1 0) with afmt := 3, dest := dest, dpitch := 64 } (steps.map (fun x => ⟨List.replicate 16 0, x⟩)) false) .queued with
    chains := [⟨1, 0, 0, 3, 1, none, false, List.replicate 16 0x3F800000, ⟨0, 0⟩, 0⟩] }

/-- O35. -/
theorem witness_drains : (∀ steps ∈ [none, some [], some [0x8000], some [0x9000]],
      let s := draining plain (2 ^ 60 + 16320) steps
      ∃ e r p c, s.eng? 5 = some e ∧ e.kind = .task r p false ∧ s.taskReady e r = true ∧ s.taskTarget e r false = some (⟨0, 0⟩, 0) ∧
        s.graverFree e ⟨0, 0⟩ = true ∧ r.drains = true ∧ s.sound ∧ s.chain? 1 0 r.chain = some c ∧ c.m = 1 ∧
        outRow c.fmt (drainOut c.fmt p) ≤ r.dpitch ∧ drainsTo s.pk 0 r 0 16320 ∧ (s.team? 1 0).isSome) ∧
    (let s := draining plain 0x3040 (some [0x8000])
     ∃ e r, s.eng? 5 = some e ∧ (∃ p, e.kind = .task r p false) ∧ r.dest < 2 ^ 48 ∧ r.dest % 128 + 64 ≤ 128 ∧
      ∀ a, a / 128 = r.dest / 128 → s.permits e a 3 true (vfOf plain) (pageOf 0x61B)) ∧
    (let s := draining (mapped 0x603) 0x3040 (some [0x8000]); ∃ e, s.eng? 5 = some e ∧ s.denies e 0x3040 true) ∧
    drainOut 0 (some ⟨[], []⟩) = (0, 4) ∧
    (1 ≤ (taskRec (taskBytes 0 1)).m ∧ (2 : Nat) ≤ 8 ∧ f32.holds 0x3F800000 1) := by
  refine ⟨?_, ⟨_, _, rfl, ⟨_, rfl⟩, by decide +kernel, by decide +kernel, ?_⟩, ⟨_, rfl, vfOf plain, pageOf 0x603, by decide +kernel⟩, by decide +kernel, by decide +kernel, by decide,
    witness_formatOperations.2.2.2.2.2.1⟩
  intro steps h
  simp only [List.mem_cons, List.not_mem_nil, or_false] at h
  rcases h with rfl | rfl | rfl | rfl <;>
    exact ⟨_, _, _, _, rfl, rfl, by decide +kernel, by decide +kernel, by decide +kernel, by decide +kernel, by decide +kernel, rfl, by decide +kernel,
      by decide +kernel, Or.inl (by decide +kernel), by decide +kernel⟩
  have line : ∀ n < 128, (draining plain 0x3040 (some [0x8000])).permits
      ⟨5, 5, ⟨1, 0, 0⟩, ⟨0, 0⟩, 0, .task { taskRec (taskBytes 1 0) with afmt := 3, dest := 0x3040, dpitch := 64 }
        (some ⟨List.replicate 16 0, [0x8000]⟩) false, .queued, 0, 0, none, 0⟩ (0x3000 + n) 3 true (vfOf plain) (pageOf 0x61B) := by decide +kernel
  intro a h
  have e : a = 0x3000 + (a - 0x3000) ∧ a - 0x3000 < 128 := by
    have h' : a / 128 = 0x60 := h
    omega
  rw [e.1]
  exact line _ e.2

/-- O35. -/
theorem witness_tasks : (∃ e r, (crowded 65536).eng? 5 = some e ∧ e.kind = .task r none true ∧ (crowded 65536).taskReady e r = true ∧
      (crowded 65536).taskTarget e r true = none ∧ 1 ≤ e.since ∧ e.since + 65535 ≤ (crowded 65536).cycle ∧ (crowded 65535).cycle < e.since + 65535) ∧ (∀ b, ∃ e, (tasked b).eng? 5 = some e ∧ e.st = .queued ∧
      (tasked b).taskReady e (taskRec (taskBytes 2 (if b then 1 else 0))) = true) ∧
    (tasked false).chain? 1 0 0 = none ∧
    (∃ e g, (tasked true).eng? 5 = some e ∧ (tasked true).taskTarget e (taskRec (taskBytes 2 1)) true = some g ∧ (tasked true).graverFree e g.1 = true) ∧
    (tasked true).sound ∧
    (let t : Tile := ⟨0, false, [(home, 0x3F800000)]⟩
     home.pa % 4 = 0 ∧ homeOf home.pa = 0 ∧ (∃ l, (launchBut (fun l => { l with held := [t] })).launch? 1 = some l ∧ l.held = [t] ∧ l.held.length < 1024) ∧
       (∀ x ∈ one.teams, x.launch = 1 → x.idx < t.team → x.st = .retired)) := by
  refine ⟨⟨_, _, rfl, rfl, by decide +kernel⟩, ?_, by decide +kernel, ⟨_, _, rfl, rfl, by decide +kernel⟩, by decide +kernel, by decide +kernel, by decide +kernel, ⟨_, rfl, by decide +kernel⟩, by decide +kernel⟩
  intro b; cases b <;> exact ⟨_, rfl, by decide +kernel⟩

/-- A request of a settling thread for segment 1 at the Lacer, where the segment is in the state given; the frames of the VF as given. -/
def lacing (st : SegState) (quota : Nat) : State :=
  { twoSegs st none with
    vfs := one.vfs.map (fun v => { v with quotas := [(⟨0, 0⟩, quota)] })
    cur := { one.cur with pc := 0x10000, phase := .settling }
    cycle := 65536
    cores := (twoSegs st none).cores.map (fun c => { c with lacerQ := [⟨1, 0, 0, 1, 1, ⟨1, 0, 0⟩, 0, false, 0⟩] }) }

/-- O36. -/
theorem witness_overlays : one.segLen 1 0 = some 4096 ∧ one.segLen 1 1 = none ∧ one.stateOf 0 = .resident ∧
    (twoSegs .loading none).stateOf 1 = .loading ∧ (twoSegs .absent none).stateOf 1 = .absent ∧
    (∃ m, one.team? 1 0 = some m ∧ m.tokensOn 0 = 0 ∧ m.tokens.length < 16) ∧
    (∃ r rs, ((lacing .resident 64).core ⟨0, 0⟩).lacerQ = r :: rs ∧ (lacing .resident 64).wanted ⟨0, 0⟩ r = true ∧
      (lacing .resident 64).segState ⟨0, 0⟩ r.vf r.coid r.seg = .resident ∧ r.req = 0) ∧
    (∃ r rs, ((lacing .absent 64).core ⟨0, 0⟩).lacerQ = r :: rs ∧ (lacing .absent 64).segState ⟨0, 0⟩ r.vf r.coid r.seg = .absent ∧
      (lacing .absent 64).canLoad ⟨0, 0⟩ r = true) ∧
    (∃ r rs, ((lacing .absent 1).core ⟨0, 0⟩).lacerQ = r :: rs ∧ (lacing .absent 1).canLoad ⟨0, 0⟩ r = false ∧ r.since + 65536 ≤ (lacing .absent 1).cycle ∧
      (lacing .absent 1).settlesOn (lacing .absent 1).cur ⟨0, 0⟩ r.vf r.coid r.seg = true) := by
  refine ⟨?_, ?_, ?_, ?_, ?_, ⟨_, rfl, ?_⟩,
    ⟨_, _, rfl, ?_⟩, ⟨_, _, rfl, ?_⟩, ⟨_, _, rfl, ?_⟩⟩ <;> decide +kernel

/-- A segment of one word in memory that loads, on an executable page or not. -/
def loading (bits : Nat) : State :=
  { mapped bits with
    launches := one.launches.map (fun l => { l with image := { l.image with base := 0x3000, segs := [(0, 4)] } })
    cores := (mapped bits).cores.map (fun c => { c with segs := c.segs.map (fun e => { e with st := .loading, va := 0x3000, len := 4 }) }) }

/-- O36. -/
theorem witness_segmentLoads : (∃ e l x, ((loading 0x63B).core ⟨0, 0⟩).segs[0]? = some e ∧ e.st = .loading ∧ e.frec = none ∧
      (loading 0x63B).launch? e.launch = some l ∧ e.len = 4 ∧ (loading 0x63B).vf? (launchVf e.launch) = some (vfOf (loading 0x63B)) ∧
      (loading 0x63B).tlbFind ⟨0, 0⟩ (vfOf (loading 0x63B)) e.va = some x ∧ x.host = false ∧ (loading 0x63B).validPa (x.pa + (e.va - x.va)) = true ∧ x.x = true ∧ e.va % 128 + e.len ≤ 128 ∧
      (let g := (loading 0x63B).gaddr (vfOf (loading 0x63B)) e.launch 0 x e.va 3; g.pa % 128 = e.va % 128 ∧ g.repl = false ∧ homeOf g.pa = 0)) ∧
    (∃ x, (loading 0x61B).tlbFind ⟨0, 0⟩ (vfOf (loading 0x61B)) 0x3000 = some x ∧ x.x = false) ∧ (loading 0x63B).sound := by
  refine ⟨⟨_, _, pageOf 0x63B, rfl, ?_, ?_, rfl, ?_⟩, ⟨pageOf 0x61B, ?_⟩, ?_⟩ <;> decide +kernel

/-- The slot changed; a run whose buffer holds the words given. -/
def slotBut (f : CandSlot → CandSlot) : State := { one with slots := one.slots.map f }
def candRun (ws : List Word) (fuel : Nat) : State :=
  slotBut (fun x => { x with buffer := ws, n := ws.length, run := some ⟨1, List.replicate 16 0, 0, fuel, 0⟩ })

/-- O37. -/
theorem witness_stylus : (∃ x, one.hasSlot x ∧ x.run = none ∧ x.ops = []) ∧ one.pipeFree one.cur = true ∧
    (∃ x, (candRun [] 1).hasSlot x ∧ x.run.isSome = true ∧ x.n ≤ 0) ∧
    (launchBut (fun l => { l with packet := { l.packet with flags := 0 } })).pk.stylus = false ∧ (slotBut (fun x => { x with owner := ⟨2, 0, 0⟩ })).slot? one.cur.id = none ∧
    (let s := List.replicate 16 (0 : Word)
     candDecode 0xFFFFFFFF s = none ∧ candDecode 0x70000000 s = some .nothing ∧ (∃ off, candDecode 0x2E000005 s = some (.goto off))) ∧
    (CandidateWord (.add false 0 15 1) [0, 15, 1] ∧ ¬ ∀ q ∈ ([0, 16, 1] : List Reg), q.toNat < 16) ∧ one.mgmt.ready = true ∧
    (∃ x r, (candRun [0x000F8085] 1).hasSlot x ∧ x.run = some r ∧ r.pc < x.n ∧ r.fuel ≠ 0 ∧ r.regs.length = 16 ∧ x.sandbox.length = 64 ∧
      (∃ i, decodeWord (x.buffer.getD r.pc 0) = .ok i)) ∧
    (∃ x r, (candRun [] 1).hasSlot x ∧ x.run = some r ∧ x.n ≤ r.pc) ∧ (∃ x, one.hasSlot x ∧ x.run = none) := by
  refine ⟨⟨_, ⟨rfl, ?_⟩, ?_⟩, ?_, ⟨_, ⟨rfl, ?_⟩, ?_⟩, ?_,
    ?_, ⟨?_, ?_, 5, ?_⟩, ⟨Or.inl ⟨false, 0, 15, 1, rfl, List.mem_cons_self⟩, ?_⟩, ?_,
    ⟨_, _, ⟨rfl, ?_⟩, rfl, ?_, ?_, ?_, ?_, _, rfl⟩, ⟨_, _, ⟨rfl, ?_⟩, rfl, ?_⟩,
    ⟨_, ⟨rfl, ?_⟩, rfl⟩⟩ <;> decide +kernel

/-! ### Proofs, packets and launches -/

/-- The launch with a proof region at 0x4000 of one bucket a part, and the entries of that bucket. -/
def proving (flags : Word) (mem : Memory) : State :=
  { launchBut (fun l => { l with packet := { l.packet with flags := flags, proof := 0x4000 } }) plain with mem := mem }

/-- The bucket's byte k at its home. -/
def bucketMem (es : List (Nat × Byte)) : Memory := es.foldl (fun m x => Memory.put m (0x3000 + x.1) x.2) []
def proofAsk (query : Bool) (c : Word) (es : List (Nat × Byte)) : State :=
  { asking one (.proof query home 0x4000 0 0 c) with mem := bucketMem es }

/-- O38. -/
theorem witness_proofs : (one.pk.proof = 0 ∧ (proving 8 plain.mem).pk.proof ≠ 0) ∧ bucketOf (proving 8 plain.mem).pk 0 23 = 0x4000 + 23 * 128 ∧
    (proving 8 plain.mem).grants 0x4000 128 .atomic false (vfOf plain) (pageOf 0x61B) ∧
    (proving 8 plain.mem).grants 0x4000 128 .query false (vfOf plain) (pageOf 0x61B) ∧
    (∃ r ∈ (proofAsk false 0 []).requests, r.kind = .proof false home 0x4000 0 0 0 ∧ r.tag = [] ∧ homeOf home.pa = r.core.die) ∧ home.pa % 128 = 0 ∧
    (matches_ ((proofAsk true 0 [(124, 1)]).bucket home.pa) 1 0 0 7 ∧ ∀ j < 7, ¬ matches_ ((proofAsk true 0 [(124, 1)]).bucket home.pa) 1 0 0 j) ∧
    (∀ i < 8, ¬ matches_ ((proofAsk false 0 []).bucket home.pa) 1 0 0 i) ∧ (liveEntries ((proofAsk false 0 []).bucket home.pa) 1).length < 8 ∧
    (proofEntry ((proofAsk false 0 [(8, 1), (12, 1)]).bucket home.pa) 0).idx = 1 ∧
    (liveEntries ((proofAsk false 0 ((List.range 8).map (fun i => (16 * i + 12, 1)))).bucket home.pa) 1).length = 8 ∧
    (one.packet 1).verify = false := by
  and_intros <;> decide +kernel

/-- A version note for revision 0x300 and every NBV. -/
def versionNote : List Byte := [0, 3, 0xFF] ++ List.replicate 21 0

/-- A packet of one thread whose object stands at address 0: its header, its note, its image table, its segment directory and its entry table. -/
def packetBytes : List Byte := [1, 0, 0, 0, 0, 0, 0, 0] ++ List.replicate 8 0 ++ [0, 0, 1, 1, 32, 0, 0, 0, 0, 0, 0, 0, 1, 0, 1, 1, 1, 0, 0, 0, 1, 0, 1, 0] ++
  List.replicate 32 0 ++ [64, 0, 0, 0] ++ List.replicate 52 0
def objectBytes : List (Nat × List Byte) :=
  [(0, [0x5A, 0x43, 0x4F, 0x31, 1, 0, 1, 0, 1, 0, 64, 0, 0, 0, 0, 0, 0, 1, 0, 0, 0, 0, 0, 0, 160, 0, 0, 0, 32, 0, 0, 0, 64] ++ List.replicate 31 0),
   (160, [1, 0, 0, 0, 24, 0, 0, 0] ++ versionNote),
   (64, [0, 3, 0, 0, 1, 0, 1, 0, 96, 0, 0, 0, 112, 0, 0, 0, 1, 0, 0, 0, 0, 0, 0, 0, 0xFF, 0xFF] ++ List.replicate 6 0),
   (96, [128, 0, 0, 0, 4] ++ List.replicate 11 0), (112, List.replicate 16 0)]

/-- The front end with that packet, or with zeros, at the head of queue 0; packets taken in the round as given. -/
def serving (b : List Byte) (taken : Nat) (head tail : Word) : State :=
  { plain with vfs := plain.vfs.map (fun v => { v with
      taken := taken
      queues := v.queues.set 0 { Queue.fresh with base := 0x10000, logsize := 1, head := head, tail := tail, memo := (0x10000, b) :: objectBytes } }) }

/-- Where an access of the part goes, and the dies after it. -/
def partPlace (s : State) (l va : Nat) : List Die × GAddr :=
  let x := s.partAddr (vfOf s) l va true
  (x.1.dies, x.2.1.getD home)

/-- O39. -/
theorem witness_launchWord : (let x := (vfOf (serving [] 0 0 2)).queue 0
      1 ≤ x.logsize ∧ x.logsize ≤ 16 ∧ (x.tail - x.head).toNat = 2 ^ x.logsize) ∧
    (let s := serving [] 0 0 1
     let x := (vfOf s).queue 0
     (x.tail - x.head).toNat ≠ 2 ^ x.logsize ∧ (vfOf s).queues.length = 16 ∧ s.released_ 4 ∧
       s.tlbFind s.curCore (vfOf s) 0x3000 = some (pageOf 0x61B) ∧ s.tlbFind s.curCore (vfOf s) (0x3000 + 64) = some (pageOf 0x61B) ∧
       s.partHolds (vfOf s) 1 (x.base + 128) (partPlace s 1 (x.base + 128)).1 (partPlace s 1 (x.base + 128)).2 ∧
         (partPlace s 1 (x.base + 128)).2.pa % 128 = 0) ∧
    (let s := serving [] 0 0 1; s.tlbFind s.curCore (vfOf s) 0 = some (pageOf 0x61B)) ∧ ¬ ((16 : Word).toNat < 16) := by
  refine ⟨?_, ⟨?_, ?_, ⟨⟨?_, ?_, ⟨_, rfl, ?_⟩, ?_⟩, ?_⟩,
    ?_, ?_, ?_, ?_⟩, ?_, ?_⟩ <;> decide +kernel

/-- The packet with n bytes changed from an offset on. -/
def packetBut (off n v : Nat) (b : List Byte := packetBytes) : List Byte := b.take off ++ (List.range n).map (fun i => BitVec.ofNat 8 (v / 256 ^ i)) ++ b.drop (off + n)

/-- O39. -/
theorem witness_packetChecks : packetBytes.length = 128 ∧ ¬ PacketForm (packetBut 27 1 1) ∧
    (PacketForm packetBytes ∧ ¬ PacketExtents (packetBut 19 1 5) ∧ ¬ PacketExtents (packetBut 28 2 1025)) ∧
    (PacketExtents packetBytes ∧ ¬ PacketWork (packetBut 4 4 3) ∧ ¬ PacketWork (packetBut 88 4 1)) ∧
    (PacketWork packetBytes ∧ ¬ PacketNbv (packetBut 18 1 3)) ∧ (PacketNbv packetBytes ∧ ¬ PacketProof (packetBut 112 1 25 (packetBut 4 4 8))) ∧
    (PacketProof packetBytes ∧ ¬ PacketFeatures (Vf.fresh 0 0 0) packetBytes) ∧
    (let v := vfOf (serving packetBytes 0 0 1)
     PacketFeatures v packetBytes ∧ ¬ PacketDet (packetBut 4 4 0x10) ∧ PacketFeatures v (packetBut 4 4 0x10)) ∧
    (PacketForm (packetBut 4 4 0x10) ∧ PacketExtents (packetBut 4 4 0x10) ∧ PacketWork (packetBut 4 4 0x10) ∧ PacketProof (packetBut 4 4 0x10)) ∧
    (PacketDet packetBytes ∧ ¬ PacketMenu (packetBut 22 2 8)) ∧ (PacketMenu packetBytes ∧ ¬ PacketRegs (packetBut 20 2 544)) ∧
    (PacketRegs packetBytes ∧ ¬ PacketRoom (packetBut 20 2 224 (packetBut 28 2 1024))) ∧ (PacketRoom packetBytes ∧ ¬ PacketSlots (packetBut 28 2 513 (packetBut 4 4 8))) ∧
    (PacketSlots packetBytes ∧ ¬ PacketLease (packetBut 24 2 2561)) ∧ PacketLease packetBytes ∧ PacketLease (packetBut 24 2 0xFFFF) := by
  and_intros <;> decide +kernel

/-- O39. -/
theorem witness_packetObject : (let s := serving packetBytes 0 0 1
      ∃ i, judgeObject ((vfOf s).queue 0).rd (vfOf s) (packetOf packetBytes) = .image i ∧ s.PinFrames (vfOf s) i ∧ (¬ packetFlag packetBytes 2) ∧
        (∀ n ∈ [packetGrid packetBytes], n ≤ s.gridRoom (vfOf s) (packetOf packetBytes) i)) ∧
    (∃ st d, judgeObject { Queue.fresh with memo := [(0, List.replicate 64 0)] }.rd (vfOf one) (packetOf packetBytes) = .refuse st d) ∧
    (∃ va k, judgeObject ((vfOf (serving packetBytes 0 0 1)).queue 0).rd (vfOf one) { packetOf packetBytes with object := 2 ^ 40 } = .read va k) ∧
    (let rd := ((vfOf (serving packetBytes 0 0 1)).queue 0).rd
     (∃ h, rd 0 64 = some h ∧ packetNum h 0 4 = 0x314F435A ∧ packetNum h 24 4 + packetNum h 28 4 ≤ packetNum h 16 8 ∧
       packetNum h 32 4 + 32 * packetNum h 8 2 ≤ packetNum h 16 8) ∧
     (∃ b, HasRead rd 160 32 b ∧ NotesAre [(1, versionNote, [])] b) ∧ HasRead rd 160 0 [] ∧ NotesAre [] [] ∧ LacksRead rd 320 32 ∧
     (∃ tab, rd 64 32 = some tab ∧ packetNum tab 0 2 = 0x300 ∧ packetNum tab 24 2 = 0xFFFF) ∧ (rd 96 16).isSome = true ∧ (rd 112 16).isSome = true) :=
  ⟨⟨_, rfl, ⟨⟨0, 0⟩, by decide +kernel⟩, by decide +kernel, by decide +kernel⟩, ⟨_, _, rfl⟩, ⟨_, _, rfl⟩,
    ⟨_, rfl, by decide +kernel⟩, ⟨_, ⟨by decide, fun _ => rfl⟩, by decide +kernel⟩, by decide, by decide, by decide +kernel, ⟨_, rfl, by decide +kernel⟩, by decide +kernel, by decide +kernel⟩

/-- VF 0 with the same packet at the head of a second queue. -/
def twice (s : State) : Vf := { vfOf s with queues := (vfOf s).queues.set 1 ((vfOf s).queue 0) }

/-- O39. -/
theorem witness_packets : (let s := serving packetBytes 0 0 1
      s.mgmt.ready = true ∧ s.signalWait 0 0 = false ∧ s.seePrios (vfOf s) = .ok s () ∧ s.vf? (vfOf s).id = some (vfOf s) ∧ s.queueTurn (vfOf s) 0 = true ∧ (vfOf s).taken < (vfOf s).share ∧ (vfOf s).migctl = 0 ∧
        ((vfOf s).queue 0).rd 0x10000 128 = some packetBytes ∧
        ∃ i, s.judgePacket (vfOf s) ((vfOf s).queue 0) packetBytes = .accept i ∧ s.launch? ((vfOf s).id * 2 ^ 58 + ((vfOf s).lcount + 1) % 2 ^ 58) = none) ∧
    (let s := serving (List.replicate 128 0) 0 0 1; ∃ st d, s.judgePacket (vfOf s) ((vfOf s).queue 0) (List.replicate 128 0) = .refuse st d) ∧
    (let s := serving packetBytes 1 0 1; s.queueTurn (vfOf s) 0 = true ∧ (vfOf s).share ≤ (vfOf s).taken ∧ s.roundOver = true) ∧
    (let s := serving packetBytes 0 0 0; s.queueTurn (vfOf s) 0 = false) ∧
    (let s := serving packetBytes 0 0 1
     ¬ ((twice s).queues.filter Queue.waiting).length < 2 ∧ (match s.seePrios (twice s) with | .ok u _ => u.vf? (vfOf s).id == some (vfOf s) | _ => false) = true) ∧
    (let s : State := { ahead (serving packetBytes 0 0 1) with vfs := (serving packetBytes 0 0 1).vfs.map (fun v => { v with ptroot := 2 ^ 43 + 0x1000 }) }
     (match s.seePrios (twice s) with | .wait _ => true | _ => false) = true) :=
  ⟨⟨by decide +kernel, by decide +kernel, by rw [State.seePrios]; exact if_pos (by decide +kernel), by decide +kernel, by decide +kernel, by decide +kernel, by decide +kernel, by decide +kernel, _, rfl, by decide +kernel⟩,
    ⟨_, _, rfl⟩, by decide +kernel, by decide +kernel, by decide +kernel, by decide +kernel⟩

/-- The launch with its one team still to place, and no thread. -/
def placing (regs : Nat) : State :=
  { launchBut (fun l => { l with packet := { l.packet with regs := regs } }) with
    teams := [Team.start 1 loadedPacket 0], crews := [], slots := [], cores := [], cur := State.reset.cur }

/-- O40. -/
theorem witness_placement : (∃ x, (placing 128).launch? 1 = some x ∧ x.stage = 1 ∧ x.kill = none ∧ (vfOf (placing 128)).migctl = 0 ∧
      (∀ t ∈ (placing 128).teams, t.launch = x.id → (placing 128).mayReturn t = false) ∧ x.packet.resident = false ∧
      (∀ y ∈ (placing 128).launches, y.before x = true → (placing 128).holdsBack y = false) ∧
      (placing 128).pendingTeams 1 = [0] ∧ (placing 128).chooseCores (vfOf (placing 128)) x 1 false (fun _ => true) = some [⟨0, 0⟩] ∧
      (placing 128).thread? ⟨1, 0, 0⟩ = none) ∧
    (∃ x, (placing 8192).launch? 1 = some x ∧ (placing 8192).chooseCores (vfOf (placing 8192)) x 1 false (fun _ => true) = none ∧
      (∀ k ∈ [⟨0, 0⟩, ⟨23, 51⟩], (placing 8192).coreAdmits (vfOf (placing 8192)) x k = false)) ∧
    (let s := { placing 128 with vfs := (placing 128).vfs.map (fun (v : Vf) => { v with quotas := (List.range 4).map (fun i => (⟨0, i⟩, 1)) }) }
     ∃ x, s.launch? 1 = some x ∧ s.coreAdmits (vfOf s) x ⟨0, 3⟩ = true ∧ s.coreAdmits (vfOf s) x ⟨0, 4⟩ = false ∧ s.pinOk ⟨0, 3⟩ x = true ∧
      s.pinOk ⟨0, 4⟩ x = false ∧ s.chooseCores (vfOf s) x 4 false (fun _ => true) = some [⟨0, 0⟩, ⟨0, 1⟩, ⟨0, 2⟩, ⟨0, 3⟩] ∧
      s.chooseCores (vfOf s) x 1 false (fun _ => true) = some [⟨0, 0⟩]) ∧
    (let s := launchBut (fun l => { l with packet := { l.packet with flags := l.packet.flags ||| 4 } }) (placing 128)
     ∃ x, s.launch? 1 = some x ∧ x.packet.resident = true ∧ (s.placeGrid (vfOf s) x false x.packet.grid).isSome = true) ∧
    (let s := launchBut (fun l => { l with packet := { l.packet with flags := l.packet.flags ||| 4 } }) (placing 8192)
     ∃ x, s.launch? 1 = some x ∧ x.packet.resident = true ∧ (∀ spread, (s.placeGrid (vfOf s) x spread x.packet.grid).isSome = false)) := by
  refine ⟨⟨_, rfl, ?_⟩, ⟨_, rfl, ?_⟩, ⟨_, rfl, ?_⟩, ⟨_, rfl, ?_⟩, ⟨_, rfl, ?_⟩⟩ <;> decide +kernel

/-- The launch whose team has retired, at a step of its end, with writes still to make. -/
def ending (stage : Nat) (out : List (Nat × List Byte)) : State :=
  { launchBut (fun l => { l with stage := stage, out := out }) plain with
    teams := plain.teams.map (fun m => { m with st := .retired }), cur := { plain.cur with phase := .exited } }

/-- O41. -/
theorem witness_launchEnds : (∃ x, (ending 1 []).launch? 1 = some x ∧ x.wait = none ∧ x.stage < 2 ∧ (ending 1 []).endReady x = true) ∧
    (∃ x, one.launch? 1 = some x ∧ one.endReady x = false) ∧
    (let s := ending 2 [(0x307F, [1])]
     ∃ x, s.launch? 1 = some x ∧ x.wait = none ∧ 2 ≤ x.stage ∧ x.out = [(0x307F, [1])] ∧ s.sound ∧
      s.partHolds (vfOf s) 1 0x307F (partPlace s 1 0x307F).1 (partPlace s 1 0x307F).2 ∧ 0x307F % 128 = (partPlace s 1 0x307F).2.pa % 128) ∧
    (∀ n ∈ [2, 3, 4], ∃ x, (ending n []).launch? 1 = some x ∧ x.wait = none ∧ x.stage = n ∧ x.out = [] ∧ x.held = [] ∧ x.start = some 0 ∧
      x.packet.checked = false ∧ x.packet.impress = false ∧ ∀ m ∈ (ending n []).welt, m.toHome = false) ∧
    (let s : State := { ending 4 [] with welt := [⟨7, 0, List.replicate 24 0, 1, distantLine, [(0, 1)], true, false, []⟩] }; ∃ m ∈ s.welt, m.toHome = true) ∧
    (∃ x, (ending 5 []).launch? 1 = some x ∧ x.stage = 5 ∧ x.out = [] ∧ (∀ i ∈ (ending 5 []).intervals, ∀ u ∈ i.units, x.id ∉ u.2.2)) ∧
    (∃ x, (ending 6 []).launch? 1 = some x ∧ 6 ≤ x.stage ∧ x.q < (vfOf (ending 6 [])).queues.length) :=
  ⟨⟨_, rfl, by decide +kernel⟩, ⟨_, rfl, by decide +kernel⟩, ⟨_, rfl, by decide +kernel⟩,
    fun n h => by
      simp only [List.mem_cons, List.not_mem_nil, or_false] at h
      rcases h with rfl | rfl | rfl <;> exact ⟨_, rfl, by decide +kernel⟩, by decide +kernel,
    ⟨_, rfl, by decide +kernel⟩, ⟨_, rfl, by decide +kernel⟩⟩

/-- The thread in a bundle of its quarter. -/
def bundled : State :=
  { one with cores := one.cores.map (fun c => { c with bundles := [some ⟨1, 0, 8, [⟨1, 0, 0⟩], [⟨1, 0, 0⟩]⟩, none, none, none] }) }

/-- The core's scheduler is rebuilt. -/
def rebuilding : State := { one with dies := [{ Die.fresh 0 with rebuilding := [(0, 1000)] }] }

/-- O42. -/
theorem witness_bundles : one.cycle % 4 = 0 ∧ (3 : Nat) % 4 ≠ 0 ∧ one.readyCrews ⟨0, 0⟩ 0 ≠ [] ∧ one.readyCrews ⟨0, 0⟩ 3 = [] ∧
    (one.core ⟨0, 0⟩).bundles.getD 0 none = none ∧ (∀ c ∈ one.cores, one.rebuilds c.id = false) ∧ (∃ c ∈ rebuilding.cores, rebuilding.rebuilds c.id = true) ∧
    (∃ b, (bundled.core ⟨0, 0⟩).bundles.getD 0 none = some b ∧ b.members ≠ [] ∧
      (∀ x ∈ bundled.readyCrews ⟨0, 0⟩ 0, bundled.crewPrio x ≤ (bundled.packet b.launch).prio) ∧
      (∀ m ∈ b.members, m.launch = b.launch ∧ m.team = b.team ∧ (∃ u, bundled.thread? m = some u ∧ bundled.readyThread u = true ∧ u.pc = b.pc))) := by
  refine ⟨by decide +kernel, by decide, by decide +kernel, by decide +kernel, by decide +kernel, by decide +kernel, by decide +kernel, ⟨1, 0, 8, [⟨1, 0, 0⟩], [⟨1, 0, 0⟩]⟩, by decide +kernel, by decide, by decide +kernel, ?_⟩
  intro m hm
  simp only [List.mem_singleton] at hm
  subst hm
  exact ⟨rfl, rfl, _, rfl, by decide +kernel⟩

/-! ### Caches, walks and records -/

/-- A line dirty at byte 127, in the core's L1 and in the L2 of a die, at a cycle. -/
def dirtyAt (cycle : Nat) : State :=
  { one with
    cycle := cycle
    cores := one.cores.map (fun c => { c with l1 := [⟨0x60, home, 0, 0, crewId, 0, [⟨127, 9, true⟩]⟩] }) }
def remoteDirty (cycle : Nat) : State :=
  { one with cycle := cycle, dies := [{ Die.fresh 1 with l2 := [⟨0x60, home, 0, 0, 0, 0, 0, [⟨127, 9, true⟩]⟩] }] }
def message (src : Nat) (tag : List Nat) : WeltMsg := ⟨3, src, tag, 0, home, [(127, 9)], true, false, []⟩
def welted (src : Nat) (tag : List Nat) : State := { one with welt := [message src tag] }

/-- O43. -/
theorem witness_caches : (∃ l, ((dirtyAt 16384).core ⟨0, 0⟩).l1Line 0x60 = some l ∧ dirtyBytes l.bytes ≠ [] ∧ l.dirtied + 16384 ≤ (dirtyAt 16384).cycle ∧
      (dirtyAt 16384).sound ∧ l.g.det = false ∧ homeOf l.g.pa = 0 ∧ ((dirtyAt 16384).die 0).l2 = [] ∧ (l.bytes.map (fun b => b.off)).Nodup ∧
      ∀ b ∈ l.bytes, b.off < 128) ∧ (16383 : Nat) < 0 + 16384 ∧
    (∃ l, (remoteDirty 65536).l2Line 1 0x60 = some l ∧ dirtyBytes l.bytes ≠ [] ∧ l.dirtied + 65536 ≤ (remoteDirty 65536).cycle ∧ homeOf l.g.pa < 24) ∧
    (let m := message 1 ((List.replicate 24 0).set 1 1)
     let s := welted 1 ((List.replicate 24 0).set 1 1)
     s.welt.find? (fun x => x.id == m.id) = some m ∧ s.mayApply m = true ∧ s.sound ∧ (m.bytes.map (fun b => b.1)).Nodup ∧ m.toHome = true ∧ m.src ≠ m.dst ∧ m.g.det = false) ∧
    (welted 1 ((List.replicate 24 0).set 1 2)).mayApply (message 1 ((List.replicate 24 0).set 1 2)) = false ∧
    (let m : WeltMsg := { message 0 [1] with dst := 1, toHome := false }
     let s : State := { remoteDirty 0 with welt := [m] }
     s.mayApply m = true ∧ m.notice = false ∧ homeOf m.g.pa < 24 ∧ m.g.reps.contains m.dst = false ∧ (s.l2Line 1 (m.g.pa / 128)).isSome = true) ∧
    (∃ r, (asking one (.load home 0x3000 4 false [])).requests.find? (fun x => x.id == 9) = some r ∧ (asking one (.load home 0x3000 4 false [])).awaitsReissue r = false ∧
      (asking one (.load home 0x3000 4 false [])).mayServe r (homeOf 0x3000) = true ∧ one.l2Line 0 0x60 = none ∧ (∀ i < 4, one.ownPending 0 0x60 i = none) ∧
      (asking one (.load home 0x3000 4 false [])).mayServe { r with hor := [1] } (homeOf 0x3000) = false) := by
  refine ⟨⟨_, rfl, ?_⟩, ?_, ⟨_, rfl, ?_⟩, ?_, ?_, ?_, ⟨_, rfl, ?_⟩⟩ <;> decide +kernel

/-- The thread walks for the page of an address, with the permits of its core taken as given. -/
def walking (va permits : Nat) : State :=
  { untranslated with
    cur := { one.cur with phase := .walking va }
    walks := [⟨2, 0, 0, va, ⟨1, 0, 0⟩, ⟨0, 0⟩, 1, true, 0⟩]
    cores := one.cores.map (fun c => { c with permits := permits }) }

/-- O44. -/
theorem witness_walks : (∃ w, (walking 0 0).walks.find? (fun x => x.id == 2) = some w ∧ (walking 0 0).onWalk w ⟨1, 0, 0⟩ 0 = true ∧
      (walking 0 0).mayWalk 0 (vfOf (walking 0 0)) 0 = true ∧ (walking 0 0).pendingRec 0 0 0 = none ∧ (walking 0 0).sound ∧
      (walking 0 0).walk (vfOf (walking 0 0)) w.va = .leaf 0 (2 ^ 30) 0 0x61B [0x2000]) ∧
    ((walking (2 ^ 30) 3).walk (vfOf (walking (2 ^ 30) 3)) (2 ^ 30) = .fault 2 ∧ (walking (2 ^ 30) 3).permitFree ⟨0, 0⟩ = true ∧
      (walking (2 ^ 30) 4).permitFree ⟨0, 0⟩ = false) ∧ (∀ m ∈ (walking 0 0).teams, m.stash = []) ∧
    (walking 0 0).flushWalk (vfOf (walking 0 0)) 0 = walking 0 0 ∧
    (∃ v, one.vf? 0 = some v ∧ v.invalva = none) := by
  refine ⟨⟨_, rfl, ?_⟩, ?_, ?_, ?_, ⟨_, rfl, ?_⟩⟩ <;> decide +kernel

/-- A thread parked on a record that is not written yet, or is written with number 1; the record queue of the VF as given. -/
def recordOf (seq : Option Nat) (kind : Nat) : FRec := ⟨4, 0, 0x5000, 1, 0, 0, kind, 2, 0, some ⟨0, 0⟩, seq, (0x10, 0)⟩
def faulting (log : Nat) (tail : Word) (seq : Option Nat) (ph : Phase) : State :=
  { plain with
    vfs := plain.vfs.map (fun v => { v with fqbase := 0x7000, fqlog := log, fqtail := tail })
    cur := { one.cur with phase := ph }
    records := [recordOf seq 1] }

/-- O45. -/
theorem witness_faultRecords : (∃ r, (faulting 1 1 none (.pageParked 4)).records.find? (fun x => x.vf == 0 && x.seq.isNone) = some r ∧ r.kind ≤ 3) ∧
    (let s := faulting 1 1 none (.pageParked 4)
     s.partHolds (vfOf s) 0 0x7020 (partPlace s 0 0x7020).1 (partPlace s 0 0x7020).2 ∧ 0x7020 % 32 = 0 ∧ (partPlace s 0 0x7020).2.pa % 128 = 0x7020 % 128) ∧ (faulting 1 1 none (.pageParked 4)).sound ∧ (faulting 1 1 none (.pageParked 4)).tracing = false ∧
    2 ^ 1 ≤ ((2 : Word) - 0).toNat ∧ ((1 : Word) - 0).toNat < 2 ^ 1 ∧ ¬ (1 ≤ (vfOf (faulting 0 0 none .ready)).fqlog) ∧
    (∃ r, (faulting 1 1 (some 1) (.pageParked 4)).records.find? (fun x => x.vf == 0 && x.seq == some ((1 : DWord).toNat % 2 ^ 32)) = some r ∧
      ∃ u, (faulting 1 1 (some 1) (.pageParked 4)).thread? ⟨1, 0, 0⟩ = some u ∧ u.phase = .pageParked r.rid ∧ u.inHandler = false) ∧
    ((1 : DWord).toNat / 2 ^ 32 % 4 = 0 ∧ (0x100000001 : DWord).toNat / 2 ^ 32 % 4 = 1 ∧ 2 ≤ (0x200000001 : DWord).toNat / 2 ^ 32 % 4) ∧
    (∃ u, (faulting 1 1 (some 1) (.debugStopped 4)).thread? ⟨1, 0, 0⟩ = some u ∧ u.phase = .debugStopped 4) := by
  refine ⟨⟨_, rfl, ?_⟩, ?_, ?_, ?_, ?_, ?_, ?_,
    ⟨_, rfl, _, rfl, ?_⟩, ?_, ⟨_, rfl, ?_⟩⟩ <;> decide +kernel

/-! ### Saving, the host, and reliability -/

/-- The team in the state given, of a launch without scratch; its one thread has 32 registers and is parked on a record since CLOCK 0. -/
def parked (st : TeamState) (slots stride : Nat) : State :=
  { launchBut (fun l => { l with packet := { l.packet with flags := 0, carve := 0, regs := 32 } }) plain with
    clock := 1000000
    slots := []
    vfs := plain.vfs.map (fun v => { v with savebase := 0x10000, savestride := stride, saveslots := slots })
    teams := plain.teams.map (fun m => { m with st := st, image := if st = .swapped then some 0 else none, allowed := st == .swapped })
    cur := { Thread.start ⟨1, 0, 0⟩ 8 32 with phase := .pageParked 4 } }

/-- The team of a parked state. -/
def teamOf (s : State) : Team := (s.team? 1 0).getD (Team.start 1 Packet.zero 0)

/-- O46. -/
theorem witness_autoSwap : (let s := parked .resident 1 0
      (teamOf s).st = .resident ∧ s.team? 1 0 = some (teamOf s) ∧ (∀ u ∈ s.threads, u.phase.stopped = true) ∧ s.engines = [] ∧ (s.packet 1).det = false ∧
        (∃ u, u ∈ s.threads ∧ u.id.launch = 1 ∧ u.id.team = 0 ∧ u.live = true ∧ u.phase = .pageParked 4 ∧ u.parkClock + 1000000 ≤ s.clock.toNat)) := by
  refine ⟨?_, ?_, ?_, ?_, ?_, _, List.mem_cons_self, ?_⟩ <;> decide +kernel

/-- A team about to be saved, with a slot of 64 KiB, and with none. -/
def saving : State := parked .saving 1 65536
def slotless : State := parked .saving 0 0

/-- The same with a save area beyond global memory. -/
def barredSave : State := { saving with vfs := saving.vfs.map (fun v => { v with savebase := 2 ^ 48 }) }

/-- O46. -/
theorem witness_saves : saving.quadTeams 1 0 = [teamOf saving] ∧ (teamOf saving).st = .saving ∧ (teamOf saving).stash = [] ∧
    (saving.engines = [] ∧ saving.slots = [] ∧ saving.replies = [] ∧ saving.requests = [] ∧ saving.welt = []) ∧
    (saving.cores.map (fun c => c.id)).Nodup ∧ (∀ c ∈ saving.cores, c.lacerQ = [] ∧ c.lacerW = [] ∧ c.l1 = [] ∧ c.victims = []) ∧
    (∀ u ∈ saving.threads, u.watch = none) ∧ (∀ c ∈ saving.crews, c.tags = []) ∧ saving.freeSlots (vfOf saving) 1 = [0] ∧
    (match saving.writeImages (vfOf saving) [(teamOf saving, 0)] with | .ok _ b => b == [] | _ => false) = true ∧
    (match barredSave.writeImages (vfOf barredSave) [(teamOf barredSave, 0)] with | .deny _ => true | _ => false) = true ∧ barredSave.freeSlots (vfOf barredSave) 1 = [0] ∧ slotless.freeSlots (vfOf slotless) 1 = [] ∧ (teamOf slotless).auto = false := by
  and_intros <;> decide +kernel

/-- The team on a core again, with a word that was delivered to it while it was out. -/
def landing : State :=
  let s := parked .pinning 1 0
  { s with teams := s.teams.map (fun t => { t with late := [(4, 0x12345678)] }) }

/-- O46. -/
theorem witness_restores : (let s := parked .swapped 1 0
      (∃ x, s.launch? 1 = some x ∧ x.kill = none ∧ s.chooseCores (vfOf s) x 1 false (fun ks => decide ((s.teamChains 1 0).length ≤ s.freeAccs ks) && (match ks with
          | k :: _ => s.caughtUp (teamOf s).core.die k.die
          | [] => false)) = some [⟨0, 0⟩]) ∧ (vfOf s).migctl = 0 ∧ s.quadTeams 1 0 = [teamOf s] ∧ (teamOf s).st = .swapped ∧
        (teamOf s).allowed = true ∧ s.outstanding 1 0 = 0 ∧ (teamOf s).late = [] ∧
        (match s.imageOf (vfOf s) (teamOf s) with | .ok _ _ => true | _ => false) = true) ∧
    (∃ r ∈ replied.replies, (replied.team? r.t.launch r.t.team).isSome = true ∧ (replied.thread? r.t).isSome = true) ∧
    (landing.quadTeams 1 0 = [teamOf landing] ∧ landing.team? 1 0 = some (teamOf landing) ∧ (teamOf landing).st = .pinning ∧
      (teamOf landing).late = [(4, 0x12345678)] ∧ (teamOf landing).stash = []) := by
  refine ⟨⟨⟨_, rfl, ?_⟩, ?_⟩, ?_, ?_⟩ <;> decide +kernel

/-- A package to which VF 0 has come with its launch 1. -/
def moved : State :=
  { parked .swapped 1 0 with
    launches := []
    teams := []
    vfs := plain.vfs.map (fun v => { v with lcount := 1, accepted := 0 }) }

/-- O46. -/
theorem witness_moved : moved.vf? 0 = some (vfOf moved) ∧ moved.launch? 1 = none ∧ (vfOf moved).mayAdopt 1 = true ∧
    (∀ x ∈ one.launches, let t := moved.adopt (vfOf moved) 1 ⟨x, [teamOf (parked .swapped 1 0)], [one.cur], [], [], [], [], [], [], [], 9⟩
      (vfOf t).mayAdopt 1 = false ∧ t.teams.length = 1) := by decide +kernel

/-- O46. -/
theorem witness_images : one.imageable (teamOf one) := by
  have ho : one.others = [] := by decide +kernel
  refine ⟨by decide +kernel, by decide +kernel, ?_, ?_, by decide +kernel, by decide +kernel, by decide +kernel, by decide +kernel, by decide +kernel,
    by decide +kernel, by decide +kernel, by decide +kernel⟩
  · intro i x _ h
    have hx : x = one.cur := by
      simp only [State.thread?, ho, List.find?_nil] at h
      split at h <;> simp_all
    subst hx
    decide +kernel
  · have hr : ∀ x ∈ one.slots, x.run = none ∧ (x.owner.launch = 1 ∧ x.owner.team = 0) ∧ one.pk.stylus = true ∧ x.owner.lin < one.pk.crews * 32 ∧
        x.buffer.length = 64 ∧ x.sandbox.length = 64 ∧ x.n < 256 := by decide +kernel
    intro x hx _
    obtain ⟨h, -, h1, h2, h3, h4, h5⟩ := hr x hx
    exact ⟨h1, h2, h3, h4, h5, fun r hh => by rw [h] at hh; cases hh⟩

/-- O46. -/
theorem witness_lateReplies : (let s : State := { parked .swapped 1 65536 with replies := [⟨1, ⟨1, 0, 0⟩, [7], false, 0⟩] }
    let t : State := { s with cur := { s.cur with queue := [⟨1, 0, 1, .awaiting, []⟩] } }
    ∃ r u, t.replies.find? (fun x => x.req == 1) = some r ∧ t.thread? r.t = some u ∧ u.queue.findIdx? (fun e => e.req == r.req) = some 0 ∧
      (t.partPlaces (vfOf t) 1 (t.entryVa (vfOf t) (teamOf t) r.t 0) true 2 24).2.2 = .done) := ⟨_, _, rfl, rfl, by decide +kernel, by decide +kernel⟩

/-- A barrier of the saved team in the core's table, and the Eyelet buffer at 0x6000 with a scope code. -/
def eyed (out : Bool) : State :=
  { parked (if out then .swapped else .resident) 1 0 with
    vfs := plain.vfs.map (fun v => { v with eyebuf := 0x6000 })
    mem := Memory.put plain.mem 0x600C 1
    barriers := [⟨0, 1, 1, 0, 15, some 2, 1, 65535, ⟨0, 0⟩, 63, false, []⟩] }

/-- O47. -/
theorem witness_eyelet : (eyed true).barriers.find? (fun b => b.inTable ⟨0, 0⟩ && b.entry == 0) = none ∧
    (∃ b, (eyed true).barriers.find? (fun b => b.inTable ⟨0, 0⟩ && b.entry == 63) = some b ∧ b.vf = 0 ∧ (eyed true).ownerOut b = true ∧ (eyed false).ownerOut b = false) ∧
    (let s := eyed true
     s.partHolds (vfOf s) 0 0x6000 (partPlace s 0 0x6000).1 (partPlace s 0 0x6000).2 ∧ (partPlace s 0 0x6000).2.pa % 128 = 0x6000 % 128 ∧
      (let g := (s.partAddr (vfOf s) 0 0x6000 false).2.1.getD home
       let h := (List.range 32).map (fun j => s.mem.get (g.pa + j))
       s.partAddr (vfOf s) 0 0x6000 false = ({ s with dies := (s.partAddr (vfOf s) 0 0x6000 false).1.dies }, some g, .done) ∧
         launchVf (fieldAt h 0 8) = 0 ∧ fieldAt h 12 1 = 1)) ∧
    (eyed true).eyeletFree ⟨0, 0⟩ = some 0 ∧ (eyed true).sound ∧
    (let s := ahead (eyed true)
     let t : State := { s with vfs := s.vfs.map (fun v => { v with ptroot := 2 ^ 43 + 0x1000 }) }
     (match t.partWrite (vfOf t) 0 0x6000 4 (List.replicate 32 0) with | .wait _ => true | _ => false) = true) := by
  refine ⟨?_, ⟨_, rfl, ?_⟩, ⟨?_, ?_, ?_⟩, ?_, ?_, ?_⟩ <;> decide +kernel

/-- O48. -/
theorem witness_semaphores : one.mgmt.sems.length = 32 ∧ otherSem 1 one.agenda = none ∧ one.mgmt.sems.getD 31 0 = 0 ∧ one.mgmt.semLoser = none ∧ one.mgmt.semAnswer.length = 2 ∧ one.mgmt.powered = true ∧ one.mgmt.writes = [] ∧
    otherSem 1 [.semAcquire 0 31] ≠ none ∧
    (vfOf one).watches.length = 4 ∧ (vfOf one).queues.length = 16 ∧
    (let s := plain.masterTouch 0
     s.partHolds (vfOf plain) 0 0x307F (partPlace s 0 0x307F).1 (partPlace s 0 0x307F).2 ∧ (partPlace s 0 0x307F).2.pa % 128 = 0x307F % 128 ∧ plain.sound) := by
  decide +kernel

/-- O49. -/
theorem witness_virtualFunctions : one.mgmt.powered = true ∧ State.reset.mgmt.powered = false ∧ one.vf? 63 = none ∧ (one.vf? 0).isSome = true ∧
    (let f1 : Word := 0x17000; f1.toNat < 2 ^ 17 ∧ f1.toNat / 2 ^ 12 % 32 + 1 ≤ 24 ∧ f1.toNat % 2 ^ 12 * 2 ^ 30 ≤ one.packageBytes) ∧
    (let f1 : Word := 0x18000; ¬ (f1.toNat / 2 ^ 12 % 32 + 1 ≤ 24)) ∧ (0x7FF : Word).toNat < 2 ^ 11 ∧
    ((one.vfs.filter (fun x => x.id != 0)).map (fun x => one.quota ⟨0, 0⟩ x.id)).foldl (· + ·) 0 + 64 ≤ 64 ∧
    ((List.range 32).filter (fun i => (0x800000 : Word).getLsbD i)).length = ((vfOf one).feature1.toNat / 2 ^ 12) % 32 + 1 ∧
    (0x800000 : Word).toNat < 2 ^ 24 ∧ (Vf.fresh 5 0 0).accepted = 0 ∧ (Vf.fresh 5 0 0).restored = false ∧
    (∃ v, (one.vf? 0).map (fun x => { x with restored := true }) = some v ∧ v.restored = true) := by decide +kernel

/-- O49. -/
theorem witness_migration : (∃ m ∈ one.teams, launchVf m.launch = 0 ∧ m.st = .resident) ∧ (vfOf one).migctl ≠ 1 ∧ (2 : Word) ≠ 1 ∧
    (let s := parked .swapped 1 0
     (∀ m ∈ s.teams, launchVf m.launch = 0 → m.st ≠ .resident ∧ m.st ≠ .pinning ∧ m.st ≠ .saving ∧ s.outstanding m.launch m.idx = 0) ∧
       (∀ e ∈ s.engines, e.vf ≠ 0) ∧ (∀ b ∈ s.barriers, b.vf = 0 → 2 < b.scope ∨ b.spilled = true)) := by decide +kernel

/-- Register 0 of the thread with a flip of bit 31, or poisoned; a context that has consumed it; an interval that is open. -/
def here : FaultLoc := .register ⟨1, 0, 0⟩ 0 31
def flipped : State := { one with flips := [here] }
def poisoned : State := { one with poison := [here] }
def opened (units : List (Nat × Word × List Nat)) (sigs : List (Nat × Nat × Nat × Nat)) : State :=
  { plain with consumed := [(0, ⟨0, 0⟩, here)], intervals := [⟨0, units, false, [(0x60, List.replicate 128 0)], [], sigs, none, []⟩] }

/-- O50. -/
theorem witness_faults : (one.flips = [] ∧ one.poison = []) ∧ (sameWord (.memory 31 0) (.memory 0 0) = true ∧ sameSymbol (.memory 31 0) (.memory 0 0) = false) ∧
    (flipped.flips = [.register flipped.cur.id (flipped.cur.idx 0) 31] ∧ flipped.poison = []) ∧
    (poisoned.flips = [] ∧ poisoned.poison = [.register poisoned.cur.id (poisoned.cur.idx 0) 31] ∧ ∀ c ∈ poisoned.consumed, c.1 ≠ 0) ∧
    (let s := opened [(0, 0, [1])] []; s.consumed.find? (fun c => c.1 == 0) = some (0, ⟨0, 0⟩, here) ∧ s.rollable 0 here = true ∧ s.tracing = false ∧
      ∀ i ∈ s.openIntervals 0, ∀ e ∈ i.log, e.2.length = 128) ∧
    (launchBut (fun l => { l with unrollable := true }) (opened [] [])).rollable 0 here = false ∧
    (let s := { opened [] [] with consumed := [(0, ⟨0, 0⟩, .memory 0x3000 0)] }
     let t : State := { s with intervals := s.intervals.map (fun i => { i with bad := [.l1 ⟨0, 0⟩ 0x60 127 0] }) }
     s.rollable 0 (.memory 0x3000 0) = true ∧ t.rollable 0 (.memory 0x3000 0) = false) := by decide +kernel

/-- O50. -/
theorem witness_intervals : (let s := opened [(0, 0, [1])] []; ∃ i, s.intervals.find? (fun x => x.vf == 0) = some i ∧ i.wait = none ∧
      ∃ u ∈ i.units, ∃ l ∈ u.2.2, (s.launch? l).isSome = true) ∧
    (let s := opened [(0, 0, [2])] [(0, 2, 0x7000, 5)]
     ∃ i, s.intervals.find? (fun x => x.vf == 0) = some i ∧
      (∀ u ∈ i.units, u.2.2 ≠ [] ∧ (∀ l ∈ u.2.2, s.launch? l = none) ∧ ((vfOf s).queue u.1).chain = none) ∧ i.signals = [(0, 2, 0x7000, 5)] ∧
      s.partHolds (vfOf s) 2 0x7000 (partPlace s 2 0x7000).1 (partPlace s 2 0x7000).2 ∧ (partPlace s 2 0x7000).2.pa % 128 = 0x7000 % 128 ∧
      ∃ e ∈ i.log, e.1 = 0x3000 / 128) ∧
    (let s := { opened [(0, 0, [2])] [] with consumed := [], poison := [.memory 0x3080 0] }
     let t : State := { s with intervals := s.intervals.map (fun i => { i with unlogged := [0x61] }) }
     ∃ i, t.intervals.find? (fun x => x.vf == 0) = some i ∧ i.wait = none ∧ (∀ c ∈ t.consumed, c.1 ≠ 0) ∧ t.flips = [] ∧
       t.poison = [.memory 0x3080 0] ∧ 0x3080 / 128 ∈ i.unlogged) := by
  refine ⟨⟨_, rfl, ?_⟩, ⟨_, rfl, ?_, rfl, ?_, ?_, ?_⟩, ⟨_, rfl, ?_⟩⟩ <;> decide +kernel

/-- A quarter whose cycle is being repeated; a domain with late transitions counted, at a CLOCK. -/
def replayed : State := { bundled with cores := bundled.cores.map (fun c => { c with replays := [(0, 0)] }) }
def timed (clock : DWord) : State := { one with clock := clock, dies := [{ Die.fresh 0 with doms := [⟨5, 65, 0, 7, 0⟩, ⟨5, 32, 1023, 0, 0⟩] }] }

/-- O51. -/
theorem witness_reliability : (0, one.cycle) ∉ (one.core ⟨0, 0⟩).replays ∧ (0, replayed.cycle) ∈ (replayed.core ⟨0, 0⟩).replays ∧
    (∃ b, (replayed.core ⟨0, 0⟩).bundles.getD 0 none = some b ∧ b.members = [⟨1, 0, 0⟩]) ∧ (∀ c ∈ replayed.consumed, c.1 ≠ 0) ∧
    (∃ x, ((timed 1000000).die 0).doms[0]? = some x ∧ 64 < x.errs ∧ x.bad = 7 ∧ (x.evals + 1) * 1000000 ≤ (timed 1000000).clock.toNat ∧
      (timed 999999).clock.toNat < (x.evals + 1) * 1000000) ∧
    (∃ x, ((timed 1000000).die 0).doms[1]? = some x ∧ x.errs ≤ 32 ∧ x.good + 1 = 1024) := by
  refine ⟨?_, ?_, ⟨_, rfl, ?_⟩, ?_, ⟨_, rfl, ?_⟩, ⟨_, rfl, ?_⟩⟩ <;> decide +kernel

/-- A die throttled, or the capture running after the last throttle end. -/
def throttled (t : Bool) (clock : DWord) : State :=
  { one with clock := clock, dies := [{ Die.fresh 0 with throttled := t }], mgmt := { one.mgmt with capturing := true, trctl := 1 } }

/-- O52. -/
theorem witness_powerAndThrottle : State.reset.mgmt.powered = false ∧ one.mgmt.powered = true ∧ one.mgmt.memInit = false ∧
    ((throttled true 0).die 0).throttled = true ∧ ((throttled false 0).die 0).throttled = false ∧ (throttled false 0).mgmt.trctl.getLsbD 0 = true ∧
    ((throttled false 1000000).mgmt.capturing = true ∧ (∀ d ∈ (throttled false 1000000).dies, d.throttled = false) ∧
      (throttled false 1000000).mgmt.throttleEnd + 1000000 ≤ (throttled false 1000000).clock.toNat) ∧
    (throttled false 999999).clock.toNat < (throttled false 999999).mgmt.throttleEnd + 1000000 := by decide +kernel

/-! ### Words and steps -/

/-- O53, O54. -/
theorem witness_encoding : wellFormed (.waitcEq true 127 126 127) = true ∧ (encode (.waitcEq true 127 126 127)).isSome = true ∧
    decodesTo (0xFFFFFFFF, .nop true) = false ∧ decodesTo (0x70000000, .nop false) = true := by decide +kernel

/-- An ADD under the next fetch of the machine right after reset. -/
def fetching : State := State.reset.withFetchWord 32 0x00010085

/-- O55. -/
theorem witness_aStep : fetching.agenda = [] ∧ fetching.consumed = [] ∧ fetching.flips = [] ∧ fetching.poison = [] ∧
    (∃ u, fetching.issueQ = [⟨1, 0, 0⟩] ∧ fetching.thread? ⟨1, 0, 0⟩ = some u ∧ fetching.readyBut u = true ∧ fetching.rebuilds (fetching.coreOf 1 0) = false ∧ fetching.atBundle u = true ∧
      (fetching.launch? 1).isSome = true ∧
      fetching.segState (fetching.coreOf 1 0) 0 (fetching.coidOf 1) (segOf u.pc) = .resident ∧ fetching.fetch (fetching.coreOf 1 0) 1 u.pc = some 0x00010085) ∧
    (one.agenda = [] ∧ one.issueQ = [] ∧ one.mgmt.ready = true) := by
  refine ⟨?_, ?_, ?_, ?_, ⟨_, ?_, rfl, ?_⟩, ?_⟩ <;> decide +kernel

/-- O56, O57. -/
theorem witness_canonical : plain.memoryCanonical ∧ (∀ u ∈ one.threads, (one.launch? u.id.launch).isSome = true) := by
  refine ⟨⟨by decide +kernel, by decide +kernel⟩, by decide +kernel⟩

/-- O59, O60. -/
theorem witness_parking : pending.cur.queue ≠ [] ∧ 16 ≤ full.cur.queue.length ∧ (encode (.add true 0 1 2)) = some 0x80000082 ∧
    (0x80000082 : Word).getLsbD 31 = true ∧
    (let s := oneBut (fun t => { t with winbase := 16 }); s.cur.regs.length ≤ s.cur.winbase + (112 : Reg).toNat ∧
      ¬ (s.cur.regs.length ≤ s.cur.winbase + (111 : Reg).toNat)) := by decide +kernel

end Sys2Proof.Tests
end

section
/-! SUPPORT. What leaves the teams: operations that keep the list of teams, and so every scratch. By the part of the machine they belong to. -/

namespace Sys2Proof.Machine

@[simp] theorem foldl_teams {α : Type} (f : State → α → State) (items : List α) (s : State)
    (one : ∀ s x, (f s x).teams = s.teams) : (items.foldl f s).teams = s.teams :=
  foldl_keeps (fun s t => t.teams = s.teams) (fun _ => rfl) (fun p q => q.trans p) f one items s

/-! ## Ops -/

@[simp] theorem State.meetRelease_teams (s : State) (c : CrewId) : (s.meetRelease c).teams = s.teams := by rfl

@[simp] theorem State.blockCur_teams (s : State) (ph : Phase) : (s.blockCur ph).teams = s.teams := by rfl

@[simp] theorem State.wake_teams (s : State) (r : Nat) : (s.wake r).teams = s.teams := by rfl

@[simp] theorem State.wakeWalks_teams (s : State) (p : ThreadId → Nat → Bool) : (s.wakeWalks p).teams = s.teams := by rfl

@[simp] theorem State.stir_teams (s : State) : s.stir.teams = s.teams := by rfl

@[simp] theorem State.goto_teams (s : State) (pc : Word) : (s.goto pc).teams = s.teams := by
  dsimp only [State.goto]
  (repeat' split) <;> simp

@[simp] theorem State.modSeg_teams (s : State) (k : CoreId) (vf coid seg : Nat) (f : SegEntry → SegEntry) :
    (s.modSeg k vf coid seg f).teams = s.teams := by rfl

@[simp] theorem State.lacerStir_teams (s : State) (k : CoreId) (vf : Nat) : (s.lacerStir k vf).teams = s.teams := by rfl

@[simp] theorem State.enterSeg_teams (s : State) (k : CoreId) (l seg : Nat) : (s.enterSeg k l seg).teams = s.teams := by rfl

@[simp] theorem State.killLaunch_teams (s : State) (l detail : Nat) (k : CoreId) : (s.killLaunch l detail k).teams = s.teams := by
  unfold State.killLaunch
  (repeat' split) <;> simp

@[simp] theorem State.trapThread_teams (s : State) (id : ThreadId) (code info : Nat) (addr : DWord) (trappc resume : Word) :
    (s.trapThread id code info addr trappc resume).teams = s.teams := by
  unfold State.trapThread
  (repeat' split) <;> simp

@[simp] theorem State.raise_teams (s : State) (code info : Nat) (addr : DWord) :
    (s.raise code info addr).teams = s.teams := by simp [State.raise]

@[simp] theorem State.advance_teams (s : State) : s.advance.teams = s.teams := by
  unfold State.advance
  split <;> simp

@[simp] theorem State.advanceThread_teams (s : State) (id : ThreadId) : (s.advanceThread id).teams = s.teams := by
  unfold State.advanceThread
  (repeat' split) <;> simp

@[simp] theorem State.takeTrap_teams (s : State) (c : CrewId) : (s.takeTrap c).teams = s.teams := by
  dsimp only [State.takeTrap]
  (repeat' split) <;> simp

@[simp] theorem State.countErr_teams (s : State) (d dom : Nat) : (s.countErr d dom).teams = s.teams := by rfl

@[simp] theorem State.consume_teams (s : State) (vf : Nat) (k : CoreId) (f : FaultLoc) :
    (s.consume vf k f).teams = s.teams := by grind [State.consume]

@[simp] theorem State.useStored_teams (s : State) (vf : Nat) (k : CoreId) (p : FaultLoc → Bool) :
    (s.useStored vf k p).teams = s.teams := by
  dsimp only [State.useStored]
  (repeat' split) <;> simp

@[simp] theorem State.renewStored_teams (s : State) (p : FaultLoc → Bool) : (s.renewStored p).teams = s.teams := by rfl

@[simp] theorem State.useRegs_teams (s : State) (long : Bool) (ops : List Opnd) : (s.useRegs long ops).teams = s.teams := by
  unfold State.useRegs
  split <;> simp

@[simp] theorem State.result_teams (s : State) (d : Reg) (vs : List Word) : (s.result d vs).teams = s.teams := by simp [State.result]

@[simp] theorem State.convergeAll_teams (s : State) (f : Thread → Thread) : (s.convergeAll f).teams = s.teams := by
  dsimp only [State.convergeAll]
  (repeat' split) <;> simp

theorem State.converge_teams (s : State) (k : State → State) (hk : (k s).teams = s.teams) : (s.converge k).teams = s.teams := by
  dsimp only [State.converge]
  (repeat' split) <;> simp_all

/-! ## Mem -/

@[simp] theorem State.consumeAt_teams (s : State) (vf : Nat) (k : CoreId) (key n : Nat) :
    (s.consumeAt vf k key n).teams = s.teams := by simp [State.consumeAt]

@[simp] theorem State.consumeL1_teams (s : State) (vf : Nat) (k : CoreId) (key n : Nat) :
    (s.consumeL1 vf k key n).teams = s.teams := by simp [State.consumeL1]

@[simp] theorem State.countWrite_teams (s : State) (g : GAddr) : (s.countWrite g).teams = s.teams := by
  dsimp only [State.countWrite]
  (repeat' split) <;> simp

@[simp] theorem State.countRead_teams (s : State) (g : GAddr) : (s.countRead g).teams = s.teams := by
  dsimp only [State.countRead]
  (repeat' split) <;> simp

@[simp] theorem State.ticketFilter_teams (s : State) (g : GAddr) (bs : List (Nat × Byte)) :
    (s.ticketFilter g bs).1.teams = s.teams := by
  unfold State.ticketFilter
  (repeat' split) <;> simp

@[simp] theorem State.markUnroll_teams (s : State) (l : Nat) : (s.markUnroll l).teams = s.teams := by
  unfold State.markUnroll
  split <;> simp

@[simp] theorem State.logWrite_teams (s : State) (l key : Nat) : (s.logWrite l key).teams = s.teams := by
  dsimp only [State.logWrite]
  (repeat' split) <;> simp

@[simp] theorem State.storeAt_teams (s : State) (g : GAddr) (bs : List (Nat × Byte)) : (s.storeAt g bs).teams = s.teams := by
  unfold State.storeAt
  split
  · rfl
  · dsimp only
    exact (foldl_teams _ _ _ (fun _ _ => State.mapThreads_teams ..)).trans (State.logWrite_teams ..)

@[simp] theorem State.consumeScratch_teams (s : State) (k : CoreId) (launch team off n : Nat) :
    (s.consumeScratch k launch team off n).teams = s.teams := by simp [State.consumeScratch]

@[simp] theorem State.bankAccess_teams (s : State) (team off n : Nat) : (s.bankAccess team off n).teams = s.teams := by rfl

@[simp] theorem State.nextGen_teams (s : State) (k : CoreId) : (s.nextGen k).teams = s.teams := by rfl

@[simp] theorem State.noteLatched_teams (s : State) (launch team off n : Nat) : (s.noteLatched launch team off n).teams = s.teams := by
  dsimp only [State.noteLatched]
  (repeat' split) <;> simp

/-! ## Translate -/

@[simp] theorem State.fillTlb_teams (s : State) (k : CoreId) (e : TlbEntry) : (s.fillTlb k e).teams = s.teams := by rfl

@[simp] theorem State.takePermit_teams (s : State) (k : CoreId) : (s.takePermit k).teams = s.teams := by rfl

@[simp] theorem State.freePermit_teams (s : State) (k : CoreId) : (s.freePermit k).teams = s.teams := by rfl

@[simp] theorem State.addRecord_teams (s : State) (vf va : Nat) (t : ThreadId) (kind level : Nat) (k : CoreId) :
    (s.addRecord vf va t kind level k).teams = s.teams := by rfl

@[simp] theorem State.debugStop_teams (s : State) (vf va code info : Nat) : (s.debugStop vf va code info).teams = s.teams := by
  unfold State.debugStop
  split <;> simp

@[simp] theorem State.watchStop_teams (s : State) (v : Vf) (i va : Nat) (write : Bool) :
    (s.watchStop v i va write).teams = s.teams := by
  unfold State.watchStop
  (repeat' split) <;> simp

@[simp] theorem State.miss_teams (s : State) (v : Vf) (va kind : Nat) (setD : Bool) : (s.miss v va kind setD).teams = s.teams := by
  dsimp only [State.miss]
  (repeat' split) <;> simp

@[simp] theorem State.checkGlobal_teams (s : State) (va n cap : Nat) (k : AccKind) (hostOk : Bool) (det : Nat) :
    ((s.checkGlobal va n cap k hostOk det).st s).teams = s.teams := by
  unfold State.checkGlobal
  (repeat' split) <;> simp

/-! ## Cache -/

@[simp] theorem State.setL2_teams (s : State) (d : Nat) (x : L2Line) : (s.setL2 d x).teams = s.teams := by rfl

@[simp] theorem State.number_teams (s : State) (d : Nat) : (s.number d).teams = s.teams := by rfl

@[simp] theorem State.addMsg_teams (s : State) (src : Nat) (tag : List Nat) (dst : Nat) (g : GAddr) (bs : List (Nat × Byte))
    (toHome notice : Bool) :
    (s.addMsg src tag dst g bs toHome notice).teams = s.teams := by rfl

@[simp] theorem State.forward_teams (s : State) (g : GAddr) (bs : List (Nat × Byte)) (src : Nat) (tag : List Nat) :
    (s.forward g bs src tag).teams = s.teams := by
  unfold State.forward
  refine foldl_teams _ _ _ (fun s x => ?_)
  dsimp only
  (repeat' split) <;> simp

@[simp] theorem State.homeWrite_teams (s : State) (g : GAddr) (bs : List (Nat × Byte)) (tag : Option (Nat × List Nat)) :
    (s.homeWrite g bs tag).teams = s.teams := by
  dsimp only [State.homeWrite]
  (repeat' split) <;> simp

@[simp] theorem State.sendHome_teams (s : State) (d : Nat) (g : GAddr) (bs : List (Nat × Byte)) :
    (s.sendHome d g bs).teams = s.teams := by
  unfold State.sendHome
  (repeat' split) <;> simp

@[simp] theorem State.addPoison_teams (s : State) (fs : List FaultLoc) : (s.addPoison fs).teams = s.teams := by rfl

theorem State.withPoison_teams (s : State) (d : Nat) (g : GAddr) (offs : List Nat) (write : State → State)
    (hw : ∀ s, (write s).teams = s.teams) :
    (s.withPoison d g offs write).teams = s.teams := by
  dsimp only [State.withPoison]
  (repeat' split) <;> simp_all

@[simp] theorem State.sendLine_teams (s : State) (d line : Nat) (p : Nat → Bool) : (s.sendLine d line p).teams = s.teams := by
  unfold State.sendLine
  split
  · rfl
  · exact State.withPoison_teams _ _ _ _ _ (fun s => State.sendHome_teams ..)

@[simp] theorem State.homeStore_teams (s : State) (d : Nat) (g : GAddr) (bs : List (Nat × Byte)) :
    (s.homeStore d g bs).teams = s.teams := by
  unfold State.homeStore
  split <;> simp

@[simp] theorem State.sendAll_teams (s : State) (d : Nat) (p : Nat → Bool) : (s.sendAll d p).teams = s.teams := by simp [State.sendAll]

@[simp] theorem State.l2Alloc_teams (s : State) (d : Nat) (g : GAddr) : (s.l2Alloc d g).teams = s.teams := by
  dsimp only [State.l2Alloc]
  (repeat' split) <;> simp

@[simp] theorem State.askFill_teams (s : State) (d : Nat) (g : GAddr) : (s.askFill d g).teams = s.teams := by rfl

@[simp] theorem State.l2Put_teams (s : State) (d : Nat) (g : GAddr) (bs : List (Nat × Byte)) : (s.l2Put d g bs).teams = s.teams := by
  dsimp only [State.l2Put]
  (repeat' split) <;> simp

@[simp] theorem State.dieWrite_teams (s : State) (d : Nat) (g : GAddr) (bs : List (Nat × Byte)) :
    (s.dieWrite d g bs).teams = s.teams := by
  dsimp only [State.dieWrite]
  (repeat' split) <;> simp

@[simp] theorem State.fillLine_teams (s : State) (d : Nat) (g : GAddr) : (s.fillLine d g).teams = s.teams := by
  dsimp only [State.fillLine]
  (repeat' split) <;> simp

@[simp] theorem State.setL1_teams (s : State) (k : CoreId) (x : L1Line) : (s.setL1 k x).teams = s.teams := by rfl

@[simp] theorem State.l1Invalidate_teams (s : State) (k : CoreId) : (s.l1Invalidate k).teams = s.teams := by rfl

@[simp] theorem State.l1Drop_teams (s : State) (k : CoreId) (line : Nat) (p : CByte → Bool) :
    (s.l1Drop k line p).teams = s.teams := by rfl

@[simp] theorem State.triggerDecision_teams (s : State) (k : CoreId) : (s.triggerDecision k).teams = s.teams := by rfl

@[simp] theorem State.grow_teams (s : State) (k : CoreId) (c : CrewId) : (s.grow k c).teams = s.teams := by rfl

@[simp] theorem State.lostLocality_teams (s : State) (k : CoreId) (crew : CrewId) (line : Nat) :
    (s.lostLocality k crew line).teams = s.teams := by
  dsimp only [State.lostLocality]
  (repeat' split) <;> simp

@[simp] theorem State.touchLine_teams (s : State) (crew : CrewId) (line : Nat) : (s.touchLine crew line).teams = s.teams := by
  unfold State.touchLine
  (repeat' split) <;> simp

@[simp] theorem State.dropStale_teams (s : State) (k : CoreId) (g : GAddr) (n : Nat) : (s.dropStale k g n).teams = s.teams := by rfl

@[simp] theorem State.dropEmpty_teams (s : State) (d : Nat) : (s.dropEmpty d).teams = s.teams := by rfl

@[simp] theorem State.dropStaleL2_teams (s : State) (d : Nat) (g : GAddr) (n : Nat) : (s.dropStaleL2 d g n).teams = s.teams := by
  unfold State.dropStaleL2
  split <;> simp

@[simp] theorem State.seenAtHome_teams (s : State) (k : CoreId) (g : GAddr) (n : Nat) :
    (s.seenAtHome k g n).teams = s.teams := by simp [State.seenAtHome]

@[simp] theorem State.tick_teams (s : State) (d src : Nat) (tag : List Nat) : (s.tick d src tag).teams = s.teams := by rfl

@[simp] theorem State.carry_teams (s : State) (d m : Nat) : (s.carry d m).teams = s.teams := by
  unfold State.carry
  split <;> simp

@[simp] theorem State.writeAtHome_teams (s : State) (d : Nat) (g : GAddr) (bs : List (Nat × Byte)) :
    (s.writeAtHome d g bs).teams = s.teams := by
  dsimp only [State.writeAtHome]
  (repeat' split) <;> simp

@[simp] theorem State.walked_teams (s : State) (d : Nat) (v : Vf) (va : Nat) : (s.walked d v va).teams = s.teams := by simp [State.walked]

@[simp] theorem State.request_teams (s : State) (id : Nat) (kind : ReqKind) (numbered : Bool) :
    (s.request id kind numbered).teams = s.teams := by
  unfold State.request
  split <;> simp

/-! ## Residency -/

@[simp] theorem State.evictFor_teams (s : State) (k : CoreId) (vf need : Nat) (fuel : Nat) :
    (s.evictFor k vf need fuel).teams = s.teams := by
  induction fuel generalizing s with
  | zero => rfl
  | succ fuel ih =>
    unfold State.evictFor
    split
    · rfl
    dsimp only
    split
    · rfl
    · exact ih _

@[simp] theorem State.startLoad_teams (s : State) (k : CoreId) (vf coid seg len launch : Nat) (owner : ThreadId) (named : Bool)
    (pins : List Nat) :
    (s.startLoad k vf coid seg len launch owner named pins).teams = s.teams := by
  dsimp only [State.startLoad]
  (repeat' split) <;> simp

@[simp] theorem State.requeueLacer_teams (s : State) (k : CoreId) (q : List LacerReq) : (s.requeueLacer k q).teams = s.teams := by rfl

@[simp] theorem State.nameLoad_teams (s : State) (k : CoreId) (e : SegEntry) (t : ThreadId) : (s.nameLoad k e t).teams = s.teams := by
  unfold State.nameLoad
  split <;> simp

@[simp] theorem State.settleReq_teams (s : State) (t : ThreadId) (pc : Word) : (s.settleReq t pc).teams = s.teams := by
  dsimp only [State.settleReq]
  (repeat' split) <;> simp

@[simp] theorem State.transferRel_teams (s : State) (pc : Word) (rel : Bool) : (s.transferRel pc rel).teams = s.teams := by
  dsimp only [State.transferRel]
  (repeat' split) <;> simp

@[simp] theorem State.transfer_teams (s : State) (pc : Word) : (s.transfer pc).teams = s.teams := by simp [State.transfer]

/-! ## Control -/

@[simp] theorem State.jump_teams (s : State) (off : Int) : (s.jump off).teams = s.teams := by
  unfold State.jump
  split <;> simp

@[simp] theorem State.link_teams (s : State) : s.link.teams = s.teams := by rfl

@[simp] theorem State.returnTrap_teams (s : State) : s.returnTrap.teams = s.teams := by simp [State.returnTrap]

@[simp] theorem State.indirect_teams (s : State) (tgt : Word) (call : Bool) : (s.indirect tgt call).teams = s.teams := by
  unfold State.indirect
  (repeat' split) <;> simp

/-! ## LoadStore -/

theorem State.homeLine_teams (s : State) (d : Nat) (g : GAddr) {t' : State × List Byte} (h : s.homeLine d g = some t') :
    t'.1.teams = s.teams := by
  unfold State.homeLine at h
  dsimp only at h
  split at h
  · cases h
  · cases h
    dsimp only
    split <;> simp

theorem State.wholeLine_teams (s : State) (d : Nat) (g : GAddr) {t' : State × List Byte} (h : s.wholeLine d g = some t') :
    t'.1.teams = s.teams := by
  unfold State.wholeLine at h
  dsimp only at h
  split at h
  · exact State.homeLine_teams _ _ _ h
  split at h
  · cases h; rfl
  split at h
  · cases h
  · cases h
    dsimp only
    split <;> simp

/-! ## Order -/

@[simp] theorem State.acquireActs_teams (s : State) (l t scope : Nat) : (s.acquireActs l t scope).teams = s.teams := by
  unfold State.acquireActs
  (repeat' split) <;> simp

/-! ## Eyelet -/

@[simp] theorem State.setBarrier_teams (s : State) (b : Barrier) : (s.setBarrier b).teams = s.teams := by rfl

theorem State.useBarrier_teams (s : State) (l scope owner id : Nat) {t' : State} :
    s.useBarrier l scope owner id = some t' → t'.teams = s.teams := by
  unfold State.useBarrier
  intro h
  split at h
  · split at h <;> cases h
    rfl
  dsimp only at h
  split at h
  · cases h; rfl
  split at h <;> cases h
  rfl

@[simp] theorem State.useEyelet_teams (s : State) (l scope owner id : Nat) : (s.useEyelet l scope owner id).teams = s.teams := by
  unfold State.useEyelet
  split <;> simp

@[simp] theorem State.learn_teams (s : State) (t : Thread) : (s.learn t).teams = s.teams := by
  unfold State.learn
  (repeat' split) <;> simp

@[simp] theorem State.leaveBarrier_teams (s : State) (t : Thread) : (s.leaveBarrier t).teams = s.teams := by
  dsimp only [State.leaveBarrier]
  (repeat' split) <;> simp

@[simp] theorem State.barrierLeave_teams (s : State) : s.barrierLeave.teams = s.teams := by simp [State.barrierLeave]

@[simp] theorem State.checkBarrier_teams (s : State) (l scope owner id : Nat) : (s.checkBarrier l scope owner id).teams = s.teams := by
  unfold State.checkBarrier
  (repeat' split) <;> simp

@[simp] theorem State.countArrival_teams (s : State) (l scope owner id : Nat) (t : Option ThreadId) (clock : List Nat) :
    (s.countArrival l scope owner id t clock).teams = s.teams := by
  unfold State.countArrival
  (repeat' split) <;> simp

@[simp] theorem State.sendArrival_teams (s : State) (scope owner id : Nat) : (s.sendArrival scope owner id).teams = s.teams := by rfl

@[simp] theorem State.spillRecord_teams (s : State) (k : CoreId) (t : ThreadId) (key : Nat × Nat) :
    (s.spillRecord k t key).teams = s.teams := by rfl

@[simp] theorem State.barSpill_teams (s : State) (scope owner id : Nat) : (s.barSpill scope owner id).teams = s.teams := by
  dsimp only [State.barSpill]
  (repeat' split) <;> simp

@[simp] theorem State.endSpill_teams (s : State) (l scope owner id : Nat) : (s.endSpill l scope owner id).teams = s.teams := by rfl

@[simp] theorem State.checkDies_teams (s : State) (l : Nat) : (s.checkDies l).teams = s.teams := by simp [State.checkDies]

@[simp] theorem State.exitBarriers_teams (s : State) (l t : Nat) : (s.exitBarriers l t).teams = s.teams := by simp [State.exitBarriers]

/-! ## Flags -/

@[simp] theorem State.fpResult_teams (s : State) (d : Reg) (vs : List Word) (fl : BitVec 5) :
    (s.fpResult d vs fl).teams = s.teams := by simp [State.fpResult]

@[simp] theorem State.intResult_teams (s : State) (d : Reg) (vs : List Word) (fl : BitVec 2) :
    (s.intResult d vs fl).teams = s.teams := by simp [State.intResult]

/-! ## Atomic -/

@[simp] theorem State.dropReq_teams (s : State) (id : Nat) : (s.dropReq id).teams = s.teams := by simp [State.dropReq]

/-! ## EngineIo -/

@[simp] theorem State.agentFault_teams (s : State) (k : CoreId) (t : ThreadId) (va kind level : Nat) :
    (s.agentFault k t va kind level).1.teams = s.teams := by
  dsimp only [State.agentFault]
  (repeat' split) <;> simp

@[simp] theorem State.placeHatch_teams (s : State) (l op : Nat) (rs : List Range) : (s.placeHatch l op rs).teams = s.teams := by
  unfold State.placeHatch
  refine foldl_teams _ _ _ (fun s x => ?_)
  simp

@[simp] theorem State.freeHatch_teams (s : State) (op : Nat) : (s.freeHatch op).teams = s.teams := by rfl

@[simp] theorem State.setEng_teams (s : State) (e : EngineOp) : (s.setEng e).teams = s.teams := by rfl

@[simp] theorem State.reenter_teams (s : State) (e : EngineOp) (full : Bool) (st : EngState) (rs : List Range) :
    (s.reenter e full st rs).teams = s.teams := by
  dsimp only [State.reenter]
  (repeat' split) <;> simp

@[simp] theorem State.startEng_teams (s : State) (kind : EngKind) (st : EngState) (status : Word) (rs : List Range) (d : Reg) :
    (s.startEng kind st status rs d).teams = s.teams := by simp [State.startEng]

@[simp] theorem State.finishEng_teams (s : State) (e : EngineOp) (status : Word) : (s.finishEng e status).teams = s.teams := by rfl

@[simp] theorem State.stallEng_teams (s : State) (e : EngineOp) (va level : Nat) :
    (s.stallEng e va level).teams = s.teams := by simp [State.stallEng]

@[simp] theorem State.quick_teams (s : State) (d : Reg) (status : Word) : (s.quick d status).teams = s.teams := by simp [State.quick]

/-! ## Retire -/

@[simp] theorem State.unpin_teams (s : State) (l : Nat) (k : CoreId) : (s.unpin l k).teams = s.teams := by
  dsimp only [State.unpin]
  (repeat' split) <;> simp

@[simp] theorem State.chainEnded_teams (s : State) (k : CoreId) : (s.chainEnded k).teams = s.teams := by rfl

@[simp] theorem State.dropChains_teams (s : State) (l t : Nat) (k : CoreId) : (s.dropChains l t k).teams = s.teams := by
  unfold State.dropChains
  split <;> simp

@[simp] theorem State.preemptDone_teams (s : State) (vf : Nat) : (s.preemptDone vf).teams = s.teams := by
  unfold State.preemptDone
  (repeat' split) <;> simp

@[simp] theorem State.crewLeave_teams (s : State) (c : CrewId) : (s.crewLeave c).teams = s.teams := by
  unfold State.crewLeave
  (repeat' split) <;> simp

/-! ## Code -/

@[simp] theorem State.resumeSettled_teams (s : State) (k : CoreId) (vf coid seg : Nat) :
    (s.resumeSettled k vf coid seg).teams = s.teams := by simp [State.resumeSettled]

@[simp] theorem State.popLacer_teams (s : State) (k : CoreId) : (s.popLacer k).teams = s.teams := by rfl

/-! ## Part -/

@[simp] theorem State.frontRecord_teams (s : State) (vf l va kind level : Nat) :
    (s.frontRecord vf l va kind level).teams = s.teams := by rfl

@[simp] theorem State.interrupt_teams (s : State) (vector : Nat) : (s.interrupt vector).teams = s.teams := by rfl

/-! ## Welt -/

@[simp] theorem State.updateReplica_teams (s : State) (m : WeltMsg) : (s.updateReplica m).teams = s.teams := by
  unfold State.updateReplica
  split <;> simp

@[simp] theorem State.applyHome_teams (s : State) (m : WeltMsg) : (s.applyHome m).teams = s.teams :=
  State.withPoison_teams _ _ _ _ _ (fun _ => State.homeWrite_teams ..)

@[simp] theorem State.fillCopy_teams (s : State) (r : Request) (g : GAddr) : (s.fillCopy r g).teams = s.teams := by
  dsimp only [State.fillCopy]
  (repeat' split) <;> simp

@[simp] theorem State.keepReq_teams (s : State) (r : Request) (kind : ReqKind) : (s.keepReq r kind).teams = s.teams := by rfl

@[simp] theorem State.againTrap_teams (s : State) (r : Request) (pc : Word) (code info addr : Nat) :
    (s.againTrap r pc code info addr).teams = s.teams := by simp [State.againTrap]

@[simp] theorem State.takeClock_teams (s : State) (r : Reply) : (s.takeClock r).teams = s.teams := by
  unfold State.takeClock
  split <;> simp

/-! ## Graver -/

@[simp] theorem State.issueTask_teams (s : State) (r : TaskRec) (d : Reg) : (s.issueTask r d).teams = s.teams := by
  dsimp only [State.issueTask]
  (repeat' split) <;> simp

@[simp] theorem State.installProg_teams (s : State) (e : EngineOp) : (s.installProg e).teams = s.teams := by grind [State.installProg]

@[simp] theorem State.setChain_teams (s : State) (c : Chain) : (s.setChain c).teams = s.teams := by rfl

@[simp] theorem State.endTask_teams (s : State) (e : EngineOp) (status : Word) : (s.endTask e status).teams = s.teams := by
  unfold State.endTask
  (repeat' split) <;> simp

@[simp] theorem State.latch_teams (s : State) (g : CoreId) (key : List Nat) : (s.latch g key).teams = s.teams := by rfl

@[simp] theorem State.afterTile_teams (s : State) (k : CoreId) (t : Tile) : (s.afterTile k t).teams = s.teams := by simp [State.afterTile]

/-! ## Skiver -/

@[simp] theorem State.reenterJob_teams (s : State) (e : EngineOp) (j : JobCard) (result : Option (Nat × Nat)) :
    (s.reenterJob e j result).teams = s.teams := by
  unfold State.reenterJob
  split <;> simp

/-! ## Streamer -/

@[simp] theorem State.keepRecord_teams (s : State) (k : CoreId) (vf handle : Nat) (bs : List Byte) :
    (s.keepRecord k vf handle bs).teams = s.teams := by rfl

@[simp] theorem State.issueCopy_teams (s : State) (multi : Bool) (h : Nat) (w : List Word) (rec : Option (List Byte))
    (rs : List Range) (d : Reg) :
    (s.issueCopy multi h w rec rs d).teams = s.teams := by
  unfold State.issueCopy
  split <;> simp

@[simp] theorem State.beginRecfl_teams (s : State) (e : EngineOp) (h : Nat) : (s.beginRecfl e h).teams = s.teams := by
  unfold State.beginRecfl
  split <;> simp

@[simp] theorem State.renewHatch_teams (s : State) (l no : Nat) (rs : List Range) :
    (s.renewHatch l no rs).teams = s.teams := by simp [State.renewHatch]

@[simp] theorem State.reenterCopy_teams (s : State) (e : EngineOp) (multi : Bool) (w : List Word) (rec : Option (List Byte)) :
    (s.reenterCopy e multi w rec).teams = s.teams := by simp [State.reenterCopy]

/-! ## FrontEnd -/

@[simp] theorem State.newRound_teams (s : State) : s.newRound.teams = s.teams := by rfl

@[simp] theorem State.addUnit_teams (s : State) (vf q l : Nat) (head : Word) (chained : Bool) :
    (s.addUnit vf q l head chained).teams = s.teams := by rfl

@[simp] theorem State.endUnit_teams (s : State) (vf q : Nat) : (s.endUnit vf q).teams = s.teams := by rfl

@[simp] theorem State.dropUnit_teams (s : State) (vf q : Nat) (head : Word) : (s.dropUnit vf q head).teams = s.teams := by rfl

@[simp] theorem State.packetDone_teams (s : State) (vf q : Nat) (chained : Bool) (f : Queue → Queue) :
    (s.packetDone vf q chained f).teams = s.teams := by
  unfold State.packetDone
  split <;> simp

@[simp] theorem State.packetOff_teams (s : State) (vf q : Nat) (chained : Bool) (f : Queue → Queue) :
    (s.packetOff vf q chained f).teams = s.teams := by
  unfold State.packetOff
  split <;> simp

@[simp] theorem State.refuseLaunch_teams (s : State) (vf q : Nat) (chained : Bool) (p : Packet) (status detail : Nat) :
    (s.refuseLaunch vf q chained p status detail).teams = s.teams := by simp [State.refuseLaunch]

@[simp] theorem State.modQueue_teams (s : State) (vf q : Nat) (f : Queue → Queue) : (s.modQueue vf q f).teams = s.teams := by
  unfold State.modQueue
  split <;> simp

@[simp] theorem State.frontWait_teams (s : State) (vf q l va kind level : Nat) :
    (s.frontWait vf q l va kind level).teams = s.teams := by simp [State.frontWait]

@[simp] theorem State.dropPacket_teams (s : State) (vf q : Nat) (chained : Bool) :
    (s.dropPacket vf q chained).teams = s.teams := by simp [State.dropPacket]

/-! ## Sync -/

@[simp] theorem State.scStamp_teams (s : State) : s.scStamp.1.teams = s.teams := by rfl

@[simp] theorem State.spillFor_teams (s : State) (k : CoreId) (t : ThreadId) (scope owner id : Nat) :
    (s.spillFor k t scope owner id).teams = s.teams := by
  unfold State.spillFor
  split <;> simp

@[simp] theorem State.blockAt_teams (s : State) (scope owner id : Nat) (noted : Option Nat) :
    (s.blockAt scope owner id noted).teams = s.teams := by rfl

@[simp] theorem State.groupArrivals_teams (s : State) : s.groupArrivals.teams = s.teams := by simp [State.groupArrivals]

/-! ## Stylus -/

@[simp] theorem State.setSlot_teams (s : State) (x : CandSlot) : (s.setSlot x).teams = s.teams := by rfl

@[simp] theorem State.endLoad_teams (s : State) (x : CandSlot) (req : Nat) (got : List Byte) (code detail n : Nat) :
    (s.endLoad x req got code detail n).teams = s.teams := by rfl

@[simp] theorem State.keepLoad_teams (s : State) (x : CandSlot) (req a c : Nat) (got : List Byte) (rid : Option Nat) :
    (s.keepLoad x req a c got rid).teams = s.teams := by rfl

@[simp] theorem State.regainPipe_teams (s : State) (x : CandSlot) : (s.regainPipe x).teams = s.teams := by
  unfold State.regainPipe
  split <;> simp

@[simp] theorem State.noteFull_teams (s : State) (t : ThreadId) (va : Nat) : (s.noteFull t va).teams = s.teams := by
  unfold State.noteFull
  (repeat' split) <;> simp

/-! ## Place -/

@[simp] theorem State.pinLaunch_teams (s : State) (k : CoreId) (l : Launch) (t : Nat) : (s.pinLaunch k l t).teams = s.teams := by
  unfold State.pinLaunch
  split <;> simp

@[simp] theorem State.seatCrew_teams (s : State) (k : CoreId) (c : Crew) : (s.seatCrew k c).teams = s.teams := by rfl

/-! ## Lease -/

@[simp] theorem State.reform_teams (s : State) (d : Nat) : (s.reform d).teams = s.teams := by rfl

@[simp] theorem State.useCrewTable_teams (s : State) (d q : Nat) : (s.useCrewTable d q).teams = s.teams := by simp [State.useCrewTable]

@[simp] theorem State.requeue_teams (s : State) (d : Nat) : (s.requeue d).teams = s.teams := by rfl

/-! ## Traps -/

@[simp] theorem State.leaveLacer_teams (s : State) (l : Nat) : (s.leaveLacer l).teams = s.teams := by simp [State.leaveLacer]

@[simp] theorem State.dropEngines_teams (s : State) (l : Nat) : (s.dropEngines l).teams = s.teams := by simp [State.dropEngines]

/-! ## Faults -/

@[simp] theorem State.backOffStarter_teams (s : State) (t : ThreadId) : (s.backOffStarter t).teams = s.teams := by rfl

@[simp] theorem State.parkWalkers_teams (s : State) (w : Walk) (rid : Nat) : (s.parkWalkers w rid).teams = s.teams := by
  unfold State.parkWalkers
  exact (foldl_teams _ _ _ (fun _ _ => State.meetRelease_teams ..)).trans (foldl_teams _ _ _ (fun _ _ => State.modThread_teams ..))

@[simp] theorem State.failThread_teams (s : State) (r : FRec) (how : Settle) (t : Thread) (va : Nat) :
    (s.failThread r how t va).teams = s.teams := by
  unfold State.failThread
  split <;> simp

@[simp] theorem State.settleParked_teams (s : State) (r : FRec) (how : Settle) : (s.settleParked r how).teams = s.teams := by
  refine foldl_teams _ _ _ (fun s t => ?_)
  split <;> simp

@[simp] theorem State.settleStopped_teams (s : State) (r : FRec) (how : Settle) : (s.settleStopped r how).teams = s.teams := by
  refine foldl_teams _ _ _ (fun s t => ?_)
  (repeat' split) <;> simp

@[simp] theorem State.settleCopies_teams (s : State) (r : FRec) (how : Settle) : (s.settleCopies r how).teams = s.teams := by
  refine foldl_teams _ _ _ (fun s x => ?_)
  (repeat' split) <;> simp

@[simp] theorem State.settleAgain_teams (s : State) (r : FRec) (how : Settle) : (s.settleAgain r how).teams = s.teams := by rfl

@[simp] theorem State.settleFront_teams (s : State) (r : FRec) (how : Settle) : (s.settleFront r how).teams = s.teams := by rfl

@[simp] theorem State.settleSpill_teams (s : State) (r : FRec) (how : Settle) : (s.settleSpill r how).teams = s.teams := by
  unfold State.settleSpill
  (repeat' split) <;> simp

@[simp] theorem State.masterTouch_teams (s : State) (vf : Nat) : (s.masterTouch vf).teams = s.teams := by rfl

@[simp] theorem State.removeTlb_teams (s : State) (v : Vf) : (s.removeTlb v).teams = s.teams := by grind [State.removeTlb]

/-! ## LaunchEnd -/

@[simp] theorem State.toStage_teams (s : State) (l : Launch) (n : Nat) (out : List (Nat × List Byte)) :
    (s.toStage l n out).teams = s.teams := by rfl

@[simp] theorem State.signalStep_teams (s : State) (l : Launch) : (s.signalStep l).teams = s.teams := by
  dsimp only [State.signalStep]
  (repeat' split) <;> simp

/-! ## HostOps -/

@[simp] theorem State.semBlock_teams (s : State) (m i v : Nat) : (s.semBlock m i v).teams = s.teams := by grind [State.semBlock]

@[simp] theorem State.modVf_teams (s : State) (vf : Nat) (f : Vf → Vf) : (s.modVf vf f).teams = s.teams := by
  unfold State.modVf
  split <;> simp

/-! ## Par -/

@[simp] theorem State.setLease_teams (s : State) (lease : Nat → Nat → Nat) (measured : Bool) (a : Reg) :
    (s.setLease lease measured a).teams = s.teams := by
  dsimp only [State.setLease]
  (repeat' split) <;> simp

/-! ## Preempt -/

@[simp] theorem State.holdReplies_teams (s : State) (l q : Nat) : (s.holdReplies l q).teams = s.teams := by
  unfold State.holdReplies
  refine foldl_teams _ _ _ (fun s x => ?_)
  simp

@[simp] theorem State.takeTags_teams (s : State) (t : Team) : (s.takeTags t).teams = s.teams := by
  unfold State.takeTags
  refine foldl_teams _ _ _ (fun s x => ?_)
  simp

@[simp] theorem State.resettle_teams (s : State) (k : CoreId) (t : Thread) : (s.resettle k t).teams = s.teams := by
  dsimp only [State.resettle]
  (repeat' split) <;> simp

@[simp] theorem State.resumeTeam_teams (s : State) (l t : Nat) (k : CoreId) :
    (s.resumeTeam l t k).teams = s.teams := by simp [State.resumeTeam]

@[simp] theorem State.retakeTokens_teams (s : State) (l : Launch) (t : Nat) (k : CoreId) : (s.retakeTokens l t k).teams = s.teams := by
  unfold State.retakeTokens
  split
  · rfl
  · refine foldl_teams _ _ _ (fun s x => ?_)
    split <;> rfl

@[simp] theorem State.bindChains_teams (s : State) (l t : Nat) (k : CoreId) : (s.bindChains l t k).teams = s.teams := by
  refine foldl_teams _ _ _ (fun s c => ?_)
  split <;> rfl

@[simp] theorem State.bringTags_teams (s : State) (k : CoreId) (c : Crew) : (s.bringTags k c).teams = s.teams := by rfl

@[simp] theorem State.noteRestored_teams (s : State) (vf : Nat) : (s.noteRestored vf).teams = s.teams := by
  unfold State.noteRestored
  split <;> simp

@[simp] theorem State.setEyecmd_teams (s : State) (vf n : Nat) : (s.setEyecmd vf n).teams = s.teams := by
  unfold State.setEyecmd
  split <;> simp

@[simp] theorem State.holdEyecmd_teams (s : State) (vf : Nat) (fill : Bool) (k : CoreId) (entry : Nat) :
    (s.holdEyecmd vf fill k entry).teams = s.teams := by
  unfold State.holdEyecmd
  split <;> simp

/-! ## Reliability -/

@[simp] theorem State.checkLines_teams (s : State) (vf : Nat) (i : Interval) :
    (s.checkLines vf i).teams = s.teams := by simp [State.checkLines]

@[simp] theorem State.restoreLine_teams (s : State) (e : Nat × List Byte) : (s.restoreLine e).teams = s.teams := by rfl

@[simp] theorem State.killContext_teams (s : State) (vf : Nat) (k : CoreId) :
    (s.killContext vf k).teams = s.teams := by simp [State.killContext]

@[simp] theorem State.scrub_teams (s : State) : s.scrub.teams = s.teams := by simp [State.scrub]

/-! ## Sys -/

@[simp] theorem State.trapReturn_teams (s : State) (tgt : Word) : (s.trapReturn tgt).teams = s.teams := by simp [State.trapReturn]

/-! ## Tick -/

@[simp] theorem State.focus_teams (s : State) (t : ThreadId) : (s.focus t).teams = s.teams := by grind [State.focus]

@[simp] theorem State.useCode_teams (s : State) (k : CoreId) (vf coid : Nat) (pc : Word) :
    (s.useCode k vf coid pc).teams = s.teams := by simp [State.useCode]

end Sys2Proof.Machine
end

section
/-! SUPPORT. Scratches in canonical form: the relation `Keeps` between the states before and after an operation, and the operations on memory,
caches and the load and store words that write a scratch or clean its stashed lines. -/

namespace Sys2Proof.Machine

/-! ## The relation -/

/-- Every team of a list has its scratch in canonical form. -/
structure ScratchesFine (ts : List Team) : Prop where
  wf : ∀ m ∈ ts, m.scratch.wf = true

/-- Where every scratch is in canonical form before, it is after. -/
abbrev Keeps (s t : State) : Prop := ScratchesFine s.teams → ScratchesFine t.teams

/-- An answer that is a next state keeps every scratch canonical. -/
def KeepsOut (s : State) : Host.Outcome State Fault Refusal → Prop
  | .next t => Keeps s t
  | _ => True

theorem Keeps.trans {s t u : State} (h : Keeps s t) (h' : Keeps t u) : Keeps s u := fun fine => h' (h fine)

/-- An operation that leaves the teams leaves their scratches. -/
theorem Keeps.of_teams {s t : State} (h : t.teams = s.teams) : Keeps s t := fun fine => h ▸ fine

theorem ScratchesFine.filter {ts : List Team} (h : ScratchesFine ts) (p : Team → Bool) : ScratchesFine (ts.filter p) :=
  ⟨fun m hm => h.wf m (List.mem_of_mem_filter hm)⟩

theorem ScratchesFine.append {ts us : List Team} (h : ScratchesFine ts) (h' : ScratchesFine us) : ScratchesFine (ts ++ us) :=
  ⟨fun m hm => (List.mem_append.1 hm).elim (h.wf m) (h'.wf m)⟩

/-- A change of every team that leaves each scratch canonical. -/
theorem ScratchesFine.map {ts : List Team} {f : Team → Team} (h : ScratchesFine ts)
    (hf : ∀ t, t.scratch.wf = true → (f t).scratch.wf = true) : ScratchesFine (ts.map f) := by
  refine ⟨fun m hm => ?_⟩
  obtain ⟨t, ht, rfl⟩ := List.mem_map.1 hm
  exact hf t (h.wf t ht)

/-- A team that is found is one of the state's. -/
theorem State.team?_fine {s : State} {l t : Nat} {tm : Team} (h : s.team? l t = some tm) (fine : ScratchesFine s.teams) :
    tm.scratch.wf = true :=
  fine.wf tm (List.mem_of_find?_eq_some h)

theorem foldl_scratch {α : Type} (f : State → α → State) (one : ∀ s x, Keeps s (f s x)) (items : List α) (s : State) :
    Keeps s (items.foldl f s) :=
  foldl_keeps Keeps (fun _ => id) Keeps.trans f one items s

/-- A fold over teams whose scratches are canonical. -/
theorem foldl_teams_scratch (f : State → Team → State) {ts : List Team} (fine : ScratchesFine ts) (s : State)
    (one : ∀ s t, t.scratch.wf = true → Keeps s (f s t)) : Keeps s (ts.foldl f s) :=
  List.foldlRecOn ts f (motive := fun b => Keeps s b) id (fun _ keep t ht => keep.trans (one _ t (fine.wf t ht)))

/-! ## What may have to wait -/

theorem Tried.eq_keeps {α : Type} {u : State} {r x : Tried α} (hr : Keeps u r.st) (h : r = x) : Keeps u x.st := h ▸ hr
theorem Entry.eq_keeps {u : State} {r x : Entry} (hr : Keeps u r.st) (h : r = x) : Keeps u x.st := h ▸ hr
theorem Route.eq_keeps {u : State} {r x : Route} (hr : Keeps u r.st) (h : r = x) : Keeps u x.st := h ▸ hr
theorem IoRes.eq_keeps {u : State} {r x : IoRes} (hr : Keeps u r.st) (h : r = x) : Keeps u x.st := h ▸ hr
theorem AtomPlace.eq_keeps {u : State} {r x : AtomPlace} (hr : Keeps u r.st) (h : r = x) : Keeps u x.st := h ▸ hr
theorem SegRead.eq_keeps {u : State} {r x : SegRead} (hr : Keeps u r.st) (h : r = x) : Keeps u x.st := h ▸ hr
theorem LaunchTry.eq_keeps {u : State} {r x : LaunchTry} (hr : Keeps u r.st) (h : r = x) : Keeps u x.st := h ▸ hr
theorem AddAddr.eq_keeps {u : State} {r x : AddAddr} (hr : Keeps u r.st) (h : r = x) : Keeps u x.st := h ▸ hr
theorem Part.eq_keeps {u s : State} {r x : Part} (hr : Keeps u (r.st s)) (h : r = x) : Keeps u (x.st s) := h ▸ hr
theorem Checked.stop_teams {s t : State} {r : Checked} (hr : (r.st s).teams = s.teams) (h : r = .stop t) : t.teams = s.teams := by
  subst h
  exact hr

theorem Tried.andThen_keeps {α β : Type} {u : State} {r : Tried α} {f : State → α → Tried β} (hr : Keeps u r.st)
    (hf : ∀ s a, Keeps s (f s a).st) : Keeps u (r.andThen f).st := by
  cases r with
  | ok s a => exact hr.trans (hf s a)
  | wait s => exact hr

theorem State.tryAll_keeps {α : Type} (s : State) (xs : List α) (f : State → α → Tried Unit) (hf : ∀ s x, Keeps s (f s x).st) :
    Keeps s (s.tryAll xs f).st :=
  List.foldlRecOn xs _ (motive := fun (o : Tried Unit) => Keeps s o.st) id
    (fun _ keep x _ => Tried.andThen_keeps keep (fun s _ => hf s x))

/-! ## Ops -/

theorem State.unlessPoisoned_keeps (s : State) (long : Bool) (ops : List Opnd) (k : State → State) (hk : ∀ s, Keeps s (k s)) :
    Keeps s (s.unlessPoisoned long ops k) := by
  have used := State.useRegs_teams s long ops
  unfold State.unlessPoisoned
  split
  · exact hk s
  · refine (Keeps.of_teams used).trans ?_
    split
    · exact hk _
    · exact id

/-- A word keeps every scratch canonical where its own effect does. -/
theorem issue_keeps (sp long : Bool) (ops : List Opnd) (s : State) (k : State → State) (hk : ∀ s, Keeps s (k s)) :
    KeepsOut s (issue sp long ops s k) := by
  unfold issue
  split
  · exact .of_teams (State.parkCur_teams ..)
  split
  · exact .of_teams (State.raise_teams ..)
  · exact State.unlessPoisoned_keeps s long ops k hk

/-- A word whose own effect leaves the teams. -/
theorem issue_keeps_of_teams (sp long : Bool) (ops : List Opnd) (s : State) (k : State → State) (hk : ∀ s, (k s).teams = s.teams) :
    KeepsOut s (issue sp long ops s k) :=
  issue_keeps sp long ops s k (fun s => .of_teams (hk s))

theorem State.setTeam_keeps (s : State) (t : Team) (h : t.scratch.wf = true) : Keeps s (s.setTeam t) :=
  fun fine => fine.map (fun x hx => by split <;> assumption)

/-- A team that is found and set again with the scratch it has. -/
theorem State.setFound_keeps {s : State} {l t : Nat} {tm : Team} (u : Team) (h : s.team? l t = some tm) (hu : u.scratch = tm.scratch) :
    Keeps s (s.setTeam u) :=
  fun fine => State.setTeam_keeps s u (hu ▸ State.team?_fine h fine) fine

/-! ## Mem -/

@[simp] theorem State.putScratch_keeps (s : State) (launch team off : Nat) (bs : List Byte) :
    Keeps s (s.putScratch launch team off bs) := by
  unfold State.putScratch
  split
  · rename_i t found
    have put : Keeps s (s.setTeam { t with scratch := t.scratch.putN off bs }) :=
      fun fine => State.setTeam_keeps s _ (Memory.putN_wf _ _ (State.team?_fine found fine)) fine
    exact put.trans (.of_teams (by simp))
  · exact id

/-! ## Cache -/

theorem State.withPoison_keeps (s : State) (d : Nat) (g : GAddr) (offs : List Nat) (write : State → State)
    (hw : ∀ s, Keeps s (write s)) : Keeps s (s.withPoison d g offs write) := by
  unfold State.withPoison
  split
  · exact hw s
  · exact hw s

@[simp] theorem State.stashClean_keeps (s : State) (t : Team) (m : StashMap) (off : Nat) (g : GAddr) (drop : Bool) :
    Keeps s (s.stashClean t m off g drop) := by
  have out (bs : List (Nat × Byte)) (offs : List Nat) : Keeps s (if bs.isEmpty then s else s.withPoison t.core.die g offs (fun s =>
      if g.checked then s.homeStore t.core.die g bs else s.dieWrite t.core.die g bs)) := by
    split
    · exact id
    · refine State.withPoison_keeps _ _ _ _ _ (fun s => .of_teams ?_)
      split <;> simp
  unfold State.stashClean
  dsimp only
  split
  · exact out _ _
  · rename_i found
    exact (out _ _).trans (State.setFound_keeps _ found rfl)

@[simp] theorem State.stashOut_keeps (s : State) (line : Nat) (drop : Bool) (p : Team → Bool) : Keeps s (s.stashOut line drop p) := by
  refine foldl_scratch _ (fun s t => ?_) _ _
  split
  · exact id
  · refine foldl_scratch _ (fun s m => foldl_scratch _ (fun s f => ?_) _ _) _ _
    split
    · exact State.stashClean_keeps _ _ _ _ _ _
    · exact id

@[simp] theorem State.stashFlush_keeps (s : State) (line : Nat) (write : Bool) : Keeps s (s.stashFlush line write) :=
  (State.stashOut_keeps _ _ _ _).trans (State.stashOut_keeps _ _ _ _)

@[simp] theorem State.stashCleanTeam_keeps (s : State) (l t : Nat) : Keeps s (s.stashCleanTeam l t) := by
  unfold State.stashCleanTeam
  split
  · exact id
  · refine foldl_scratch _ (fun s m => foldl_scratch _ (fun s f => ?_) _ _) _ _
    split
    · exact (State.stashClean_keeps _ _ _ _ _ _).trans (State.stashOut_keeps _ _ _ _)
    · exact id

@[simp] theorem State.dieStore_keeps (s : State) (d : Nat) (g : GAddr) (bs : List (Nat × Byte)) : Keeps s (s.dieStore d g bs) :=
  (State.stashFlush_keeps _ _ _).trans (.of_teams (State.dieWrite_teams ..))

@[simp] theorem State.l1Clean_keeps (s : State) (k : CoreId) (line : Nat) (p : Nat → Bool) : Keeps s (s.l1Clean k line p) := by
  dsimp only [State.l1Clean]
  split
  · exact id
  split
  · exact id
  · exact (Keeps.of_teams (State.setL1_teams ..)).trans (State.withPoison_keeps _ _ _ _ _ (fun s => State.dieStore_keeps _ _ _ _))

@[simp] theorem State.l1CleanAll_keeps (s : State) (k : CoreId) : Keeps s (s.l1CleanAll k) :=
  foldl_scratch _ (fun _ _ => State.l1Clean_keeps _ _ _ _) _ _

@[simp] theorem State.l1Alloc_keeps (s : State) (k : CoreId) (g : GAddr) (crew : CrewId) : Keeps s (s.l1Alloc k g crew) := by
  dsimp only [State.l1Alloc]
  (repeat' split) <;> simp +contextual [Keeps]

@[simp] theorem State.l1Fill_keeps (s : State) (k : CoreId) (g : GAddr) (crew : CrewId) (bs : List (Nat × Byte)) :
    Keeps s (s.l1Fill k g crew bs) := by
  dsimp only [State.l1Fill]
  split <;> simp +contextual [Keeps]

@[simp] theorem State.l1Put_keeps (s : State) (k : CoreId) (g : GAddr) (crew : CrewId) (bs : List (Nat × Byte)) :
    Keeps s (s.l1Put k g crew bs) := by
  dsimp only [State.l1Put]
  (repeat' split) <;> simp +contextual [Keeps]

@[simp] theorem State.writeBackRange_keeps (s : State) (k : CoreId) (g : GAddr) (n : Nat) (home : Bool) :
    Keeps s (s.writeBackRange k g n home) := by
  dsimp only [State.writeBackRange]
  (repeat' split) <;> simp +contextual [Keeps]

@[simp] theorem State.markPtes_keeps (s : State) (d : Nat) (setD : Bool) (ptes : List Nat) : Keeps s (s.markPtes d setD ptes) := by
  refine foldl_scratch _ (fun s a => ?_) _ _
  generalize (if setD then (4 : Byte) else 0) = x
  dsimp only
  split <;> simp +contextual [Keeps]

theorem State.flushWalkFrom_keeps (s : State) (va level t : Nat) : Keeps s (s.flushWalkFrom va level t) := by
  induction level generalizing s t with
  | zero =>
    unfold State.flushWalkFrom
    dsimp only
    split <;> exact State.stashFlush_keeps _ _ _
  | succ l ih =>
    unfold State.flushWalkFrom
    dsimp only
    split
    · exact State.stashFlush_keeps _ _ _
    split
    · exact (State.stashFlush_keeps _ _ _).trans (ih _ _)
    · exact State.stashFlush_keeps _ _ _

@[simp] theorem State.flushWalk_keeps (s : State) (v : Vf) (va : Nat) : Keeps s (s.flushWalk v va) := by
  unfold State.flushWalk
  split
  · exact State.flushWalkFrom_keeps _ _ _ _
  · exact id

@[simp] theorem State.loadAllocate_keeps (s : State) (k : CoreId) (g : GAddr) (n : Nat) (crew : CrewId) :
    Keeps s (s.loadAllocate k g n crew) := by
  dsimp only [State.loadAllocate]
  (repeat' split) <;> simp +contextual [Keeps]

@[simp] theorem State.loadGlobal_keeps (s : State) (g : GAddr) (n : Nat) (sgn : Bool) (d : Reg) (w : Nat) :
    Keeps s (s.loadGlobal g n sgn d w) := by
  dsimp only [State.loadGlobal]
  (repeat' split) <;> simp +contextual [Keeps]

@[simp] theorem State.storeGlobal_keeps (s : State) (g : GAddr) (bs : List Byte) : Keeps s (s.storeGlobal g bs) := by
  dsimp only [State.storeGlobal]
  (repeat' split) <;> simp +contextual [Keeps]

/-! ## LoadStore -/

@[simp] theorem State.agentWalk_keeps (s : State) (k : CoreId) (v : Vf) (va : Nat) (setD : Bool) :
    Keeps s (s.agentWalk k v va setD).st := by
  dsimp only [State.agentWalk]
  (repeat' split) <;> simp +contextual [Keeps]

@[simp] theorem State.entryNow_keeps (s : State) (k : CoreId) (v : Vf) (va : Nat) (setD : Bool) :
    Keeps s (s.entryNow k v va setD).st := by
  unfold State.entryNow
  split
  · split
    · exact id
    split
    · exact id
    · exact State.agentWalk_keeps _ _ _ _ _
  · exact State.agentWalk_keeps _ _ _ _ _

theorem State.stashFill_keeps (s : State) (t : Team) (m : StashMap) (lo : Nat) (g : GAddr) : Keeps s (s.stashFill t m lo g).st := by
  have out : Keeps s ((((s.l1Clean t.core (lineOf g.pa) (fun _ => true)).l1Drop t.core (lineOf g.pa) (fun _ => true)).stashFlush
      (lineOf g.pa) false).stashOut (lineOf g.pa) true (fun u => u.launch == t.launch && u.idx == t.idx)) :=
    (State.l1Clean_keeps _ _ _ _).trans ((Keeps.of_teams (State.l1Drop_teams ..)).trans
      ((State.stashFlush_keeps _ _ _).trans (State.stashOut_keeps _ _ _ _)))
  unfold State.stashFill
  dsimp only
  split
  · exact out
  · rename_i u bs hw
    refine Keeps.trans (out.trans (.of_teams (State.wholeLine_teams _ _ _ hw))) ?_
    split
    · simp +contextual [Keeps]
    · rename_i found
      exact Keeps.trans (by simp +contextual [Keeps]) (State.setFound_keeps _ found rfl)

@[simp] theorem State.stashTouch_keeps (s : State) (l t off : Nat) : Keeps s (s.stashTouch l t off).st := by
  unfold State.stashTouch
  split
  · exact id
  split
  · exact id
  dsimp only
  split
  · exact id
  split
  · exact id
  split
  · exact Entry.eq_keeps (State.entryNow_keeps _ _ _ _ _) (by assumption)
  · exact Entry.eq_keeps (State.entryNow_keeps _ _ _ _ _) (by assumption)
  · exact Entry.eq_keeps (State.entryNow_keeps _ _ _ _ _) (by assumption)
  · refine (Entry.eq_keeps (State.entryNow_keeps _ _ _ _ _) (by assumption)).trans ?_
    split
    · exact State.stashFill_keeps _ _ _ _ _
    · exact id

@[simp] theorem State.stashReady_keeps (s : State) (l t off n : Nat) : Keeps s (s.stashReady l t off n).st :=
  Tried.andThen_keeps (State.stashTouch_keeps _ _ _ _) (fun s _ => by split <;> simp [Keeps])

@[simp] theorem State.writeScratch_keeps (s : State) (l t off : Nat) (bs : List Byte) : Keeps s (s.writeScratch l t off bs) := by
  unfold State.writeScratch
  dsimp only
  split
  · exact State.putScratch_keeps _ _ _ _ _
  rename_i found
  split
  · exact State.putScratch_keeps _ _ _ _ _
  · exact (State.putScratch_keeps _ _ _ _ _).trans (State.setFound_keeps _ found rfl)

@[simp] theorem State.loadScratch_keeps (s : State) (team off n : Nat) (sgn : Bool) (d : Reg) (w : Nat) :
    Keeps s (s.loadScratch team off n sgn d w) := by
  unfold State.loadScratch
  dsimp only
  split
  · simp [Keeps]
  split
  · simp [Keeps]
  split
  · exact (Tried.eq_keeps (State.stashReady_keeps _ _ _ _ _) (by assumption)).trans (.of_teams (by simp))
  · exact (Tried.eq_keeps (State.stashReady_keeps _ _ _ _ _) (by assumption)).trans (.of_teams (by simp))

@[simp] theorem State.storeScratch_keeps (s : State) (team off : Nat) (bs : List Byte) : Keeps s (s.storeScratch team off bs) := by
  unfold State.storeScratch
  dsimp only
  split
  · simp [Keeps]
  split
  · simp [Keeps]
  split
  · exact (Tried.eq_keeps (State.stashReady_keeps _ _ _ _ _) (by assumption)).trans (.of_teams (by simp))
  · exact (Tried.eq_keeps (State.stashReady_keeps _ _ _ _ _) (by assumption)).trans (by simp +contextual [Keeps])

@[simp] theorem State.routeOf_keeps (s : State) (l t : Nat) (g : GAddr) (va : Nat) : Keeps s (s.routeOf l t g va).st := by
  dsimp only [State.routeOf]
  split
  · exact id
  split
  · exact id
  split
  · exact id
  split
  · exact id
  split
  · split
    · exact Tried.eq_keeps (State.stashFill_keeps _ _ _ _ _) (by assumption)
    · exact Tried.eq_keeps (State.stashFill_keeps _ _ _ _ _) (by assumption)
  · exact id

@[simp] theorem State.route_keeps (s : State) (g : GAddr) (va : Nat) : Keeps s (s.route g va).st := State.routeOf_keeps _ _ _ _ _

@[simp] theorem State.loadThread_keeps (s : State) (ea : DWord) (n cap : Nat) (sgn : Bool) (d : Reg) (w : Nat) :
    Keeps s (s.loadThread ea n cap sgn d w) := by
  unfold State.loadThread
  split
  · simp [Keeps]
  split
  · simp [Keeps]
  · simp +contextual [Keeps]
  · simp +contextual [Keeps]
  split
  · exact .of_teams (Checked.stop_teams (State.checkGlobal_teams ..) (by assumption))
  split
  · simp [Keeps]
  split
  · exact (Route.eq_keeps (State.route_keeps _ _ _) (by assumption)).trans (by simp [Keeps])
  · exact (Route.eq_keeps (State.route_keeps _ _ _) (by assumption)).trans (by dsimp only; split <;> simp [Keeps])
  · exact (Route.eq_keeps (State.route_keeps _ _ _) (by assumption)).trans (by split <;> simp +contextual [Keeps])

@[simp] theorem State.storeThread_keeps (s : State) (ea : DWord) (bs : List Byte) (cap : Nat) :
    Keeps s (s.storeThread ea bs cap) := by
  unfold State.storeThread
  dsimp only
  split
  · simp [Keeps]
  split
  · simp [Keeps]
  · simp +contextual [Keeps]
  · simp +contextual [Keeps]
  split
  · exact .of_teams (Checked.stop_teams (State.checkGlobal_teams ..) (by assumption))
  split
  · simp [Keeps]
  split
  · exact (Route.eq_keeps (State.route_keeps _ _ _) (by assumption)).trans (by simp [Keeps])
  · exact (Route.eq_keeps (State.route_keeps _ _ _) (by assumption)).trans (by split <;> simp +contextual [Keeps])
  · exact (Route.eq_keeps (State.route_keeps _ _ _) (by assumption)).trans (by simp +contextual [Keeps])

theorem load_keeps (n w : Nat) (sgn sp : Bool) (pol : BitVec 2) (d a : Reg) (off : BitVec 8) (s : State) :
    KeepsOut s (load n w sgn sp pol d a off s) :=
  issue_keeps _ _ _ _ _ (fun _ => State.loadThread_keeps _ _ _ _ _ _ _)

theorem store_keeps (n w : Nat) (sp : Bool) (pol : BitVec 2) (d a : Reg) (off : BitVec 8) (s : State) :
    KeepsOut s (store n w sp pol d a off s) :=
  issue_keeps _ _ _ _ _ (fun _ => State.storeThread_keeps _ _ _ _)

@[simp] theorem State.lduPart_keeps (s : State) (ea : DWord) : Keeps s (Part.st s (s.lduPart ea)) := by
  have scr (team off : Nat) : Keeps s (Part.st s (
      if s.hatched s.cur.id.launch team off 8 false then .stop (s.parkCur (.stalled 5))
      else if s.unorderedScr team off 8 then .stop (s.parkCur (.stalled 15))
      else match s.stashReady s.cur.id.launch team off 8 with
        | .wait s' => .stop (s'.parkCur (.stalled 15))
        | .ok s' _ => .bytes ((s'.bankAccess team off 8).consumeScratch s'.curCore s.cur.id.launch team off 8)
            (s'.scratchBytes s.cur.id.launch team off 8))) := by
    split
    · simp [Keeps]
    split
    · simp [Keeps]
    split
    · exact (Tried.eq_keeps (State.stashReady_keeps _ _ _ _ _) (by assumption)).trans (by simp [Keeps])
    · exact (Tried.eq_keeps (State.stashReady_keeps _ _ _ _ _) (by assumption)).trans (by simp [Keeps])
  unfold State.lduPart
  dsimp only
  split
  · simp [Keeps]
  · exact scr _ _
  · exact scr _ _
  split
  · exact .of_teams (Checked.stop_teams (State.checkGlobal_teams ..) (by assumption))
  split
  · simp [Keeps]
  split
  · exact (Route.eq_keeps (State.route_keeps _ _ _) (by assumption)).trans (by simp [Keeps])
  · exact (Route.eq_keeps (State.route_keeps _ _ _) (by assumption)).trans (by split <;> simp [Keeps])
  · split
    · exact (Route.eq_keeps (State.route_keeps _ _ _) (by assumption)).trans (by simp [Keeps])
    · exact id

@[simp] theorem State.lduGlobal_keeps (s : State) (k : CoreId) (crew : CrewId) (g : GAddr) (base : Nat) :
    Keeps s (s.lduGlobal k crew g base).1 := by
  dsimp only [State.lduGlobal]
  (repeat' split) <;> simp +contextual [Keeps]

end Sys2Proof.Machine
end

section
/-! SUPPORT. Scratches in canonical form: ordering, retirement, atomics, waiting words and the engines' access to memory. -/

namespace Sys2Proof.Machine

/-! ## Order -/

@[simp] theorem State.releaseActs_keeps (s : State) (l t scope : Nat) : Keeps s (s.releaseActs l t scope) := by
  dsimp only [State.releaseActs]
  (repeat' split) <;> simp +contextual [Keeps]

/-! ## Retire -/

@[simp] theorem State.teamRetire_keeps (s : State) (l t : Nat) : Keeps s (s.teamRetire l t) := by
  unfold State.teamRetire
  extract_lets s1 q
  split
  · exact State.stashCleanTeam_keeps _ _ _
  · rename_i tm found
    have retired : Keeps s (s1.setTeam { tm with st := .retired, stash := [], tokens := [] }) :=
      (State.stashCleanTeam_keeps _ _ _).trans (State.setFound_keeps _ found rfl)
    extract_lets s2 s3 s4 s5 done s6
    refine retired.trans (.of_teams ?_)
    split <;> simp [s6, s5, s4, s3, s2, apply_ite State.teams]

@[simp] theorem State.tryRetire_keeps (s : State) (l t : Nat) : Keeps s (s.tryRetire l t) := by
  unfold State.tryRetire
  split
  · exact id
  split
  · exact State.teamRetire_keeps _ _ _
  · exact id

@[simp] theorem State.endThread_keeps (s : State) : Keeps s s.endThread := by
  unfold State.endThread
  extract_lets t l u s1 s2 s3 s4
  have left : Keeps s s3 := .of_teams (by simp [s3, s2, s1])
  have noted : Keeps s s4 := by
    dsimp only [s4]
    split
    · rename_i found
      exact left.trans (State.setFound_keeps _ found rfl)
    · exact left
  split
  · exact noted.trans (State.tryRetire_keeps _ _ _)
  · exact left

/-! ## Atomic -/

@[simp] theorem State.atomPlace_keeps (s : State) (ea : DWord) (n : Nat) (k : AccKind) (hostOk global : Bool) (det : Nat) :
    Keeps s (s.atomPlace ea n k hostOk global det).st := by
  have scr (team off : Nat) : Keeps s (
      if global then AtomPlace.stop (s.raise 0x06 1 ea)
      else if s.hatched s.cur.id.launch team off n k.writes then .stop (s.parkCur (.stalled 5))
      else if s.unorderedScr team off n then .stop (s.parkCur (.stalled 15))
      else match s.stashReady s.cur.id.launch team off n with
        | .wait s => .stop (s.parkCur (.stalled 15))
        | .ok s _ => .ok (s.bankAccess team off n) (.scr team off)).st := by
    split
    · simp [Keeps]
    split
    · simp [Keeps]
    split
    · simp [Keeps]
    split
    · exact (Tried.eq_keeps (State.stashReady_keeps _ _ _ _ _) (by assumption)).trans (by simp [Keeps])
    · exact (Tried.eq_keeps (State.stashReady_keeps _ _ _ _ _) (by assumption)).trans (by simp [Keeps])
  unfold State.atomPlace
  dsimp only
  split
  · simp [Keeps]
  split
  · simp [Keeps]
  · exact scr _ _
  · exact scr _ _
  · split
    · exact (Keeps.of_teams (Checked.stop_teams (State.checkGlobal_teams ..) (by assumption)))
    · split <;> simp [Keeps]

theorem atom_keeps (op : AtomOp) (w wb : Nat) (sp : Bool) (sc : BitVec 2) (d a b : Reg) (s : State) :
    KeepsOut s (atom op w wb sp sc d a b s) := by
  unfold atom
  refine issue_keeps _ _ _ _ _ (fun s => ?_)
  dsimp only
  split
  · exact AtomPlace.eq_keeps (State.atomPlace_keeps _ _ _ _ _ _ _) (by assumption)
  refine (AtomPlace.eq_keeps (State.atomPlace_keeps _ _ _ _ _ _ _) (by assumption)).trans ?_
  split
  · simp [Keeps]
  split
  · split
    · exact (Route.eq_keeps (State.route_keeps _ _ _) (by assumption)).trans (by simp [Keeps])
    · exact (Route.eq_keeps (State.route_keeps _ _ _) (by assumption)).trans (by split <;> simp [Keeps])
    · exact (Route.eq_keeps (State.route_keeps _ _ _) (by assumption)).trans (by simp [Keeps])
  · simp +contextual [Keeps]

@[simp] theorem State.homePerform_keeps (s : State) (r : Request) (g : GAddr) (n : Nat) (new : Option (List Byte)) :
    Keeps s (s.homePerform r g n new) := by
  dsimp only [State.homePerform]
  (repeat' split) <;> simp +contextual [Keeps]

@[simp] theorem State.atomFindL1_keeps (s : State) (r : Request) (g : GAddr) (n : Nat) : Keeps s (s.atomFindL1 r g n).st := by
  unfold State.atomFindL1
  dsimp only
  split
  · exact Keeps.trans (Keeps.of_teams (State.touchLine_teams ..)) (Keeps.trans (State.l1Alloc_keeps _ _ _ _) (Keeps.of_teams
      (State.consumeL1_teams ..)))
  · split
    · exact State.stashFlush_keeps _ _ _
    · rename_i bs hw
      have h := (State.stashFlush_keeps _ _ _).trans ((Keeps.of_teams (State.touchLine_teams ..)).trans ((Keeps.of_teams
          (State.wholeLine_teams _ _ _ hw)).trans
        ((Keeps.of_teams (State.consumeAt_teams _ g.vf r.core g.pa n)).trans (State.l1Fill_keeps _ r.core g (crewOf r.t) (numbered bs)))))
      split
      · exact h
      · exact State.stashFlush_keeps _ _ _

@[simp] theorem State.atomFind_keeps (s : State) (r : Request) (l1 : Bool) (scope n : Nat) (pl : Place) :
    Keeps s (s.atomFind r l1 scope n pl).st := by
  cases pl with
  | scr t off => exact Tried.andThen_keeps (State.stashTouch_keeps _ _ _ _) (fun s _ => (Keeps.of_teams (State.consumeScratch_teams ..)))
  | glob g =>
    unfold State.atomFind
    dsimp only
    split
    · split
      · exact State.stashFlush_keeps _ _ _
      · simp [Keeps]
    split
    · split
      · exact (Keeps.of_teams (State.consumeScratch_teams ..))
      · exact State.atomFindL1_keeps _ _ _ _
    · split
      · exact State.stashFlush_keeps _ _ _
      · rename_i hw
        exact (State.stashFlush_keeps _ _ _).trans ((Keeps.of_teams (State.wholeLine_teams _ _ _ hw)).trans (Keeps.of_teams
            (State.consumeAt_teams ..)))

@[simp] theorem State.atomWrite_keeps (s : State) (r : Request) (l1 : Bool) (scope : Nat) (bs : List Byte) (x0 : Place) :
    Keeps s (s.atomWrite r l1 scope bs x0) := by
  dsimp only [State.atomWrite]
  (repeat' split) <;> simp +contextual [Keeps]

@[simp] theorem State.atomAct_keeps (s : State) (r : Request) (op : AtomOp) (l1 : Bool) (scope : Nat) (pl : Place) (b c : DWord) :
    Keeps s (s.atomAct r op l1 scope pl b c).st :=
  Tried.andThen_keeps (State.atomFind_keeps _ _ _ _ _ _) (fun _ _ => State.atomWrite_keeps _ _ _ _ _ _)

/-! ## Sync -/

@[simp] theorem State.scIssue_keeps (s : State) (f : Nat) (g : GAddr) (b c : Word) (dst : Option Reg) :
    Keeps s (s.scIssue f g b c dst) := by
  dsimp only [State.scIssue]
  (repeat' split) <;> simp +contextual [Keeps]

@[simp] theorem State.scWord_keeps (s : State) (f : Nat) (ea : DWord) (b c : Word) (dst : Option Reg) (k : AccKind) (rel : Bool) :
    Keeps s (s.scWord f ea b c dst k rel) := by
  unfold State.scWord
  split
  · exact AtomPlace.eq_keeps (State.atomPlace_keeps _ _ _ _ _ _ _) (by assumption)
  · exact AtomPlace.eq_keeps (State.atomPlace_keeps _ _ _ _ _ _ _) (by assumption)
  · refine (AtomPlace.eq_keeps (State.atomPlace_keeps _ _ _ _ _ _ _) (by assumption)).trans ?_
    dsimp only
    (repeat' split) <;> simp +contextual [Keeps]

@[simp] theorem State.watchRead_keeps (s : State) (t : Thread) (w : Watch) : Keeps s (s.watchRead t w).st := by
  unfold State.watchRead
  dsimp only
  split
  · split
    · simp [Keeps]
    · exact Tried.andThen_keeps (State.stashTouch_keeps _ _ _ _) (fun s _ => (Keeps.of_teams (State.consumeScratch_teams ..)))
  · split
    · simp [Keeps]
    · dsimp only [Tried.st]
      split <;> simp +contextual [Keeps]

@[simp] theorem State.watchStep_keeps (s : State) (id : ThreadId) : Keeps s (s.watchStep id) := by
  unfold State.watchStep
  split
  · simp [Keeps]
  split
  · simp [Keeps]
  split
  · exact Tried.eq_keeps (State.watchRead_keeps _ _ _) (by assumption)
  · refine (Tried.eq_keeps (State.watchRead_keeps _ _ _) (by assumption)).trans ?_
    dsimp only [Tried.st]
    split <;> simp [Keeps]

theorem waitc_keeps (op : Nat) (d a b : Reg) (s : State) : KeepsOut s (waitc op d a b s) := by
  refine issue_keeps _ _ _ _ _ (fun s => ?_)
  split
  · exact AtomPlace.eq_keeps (State.atomPlace_keeps _ _ _ _ _ _ _) (by assumption)
  · refine (AtomPlace.eq_keeps (State.atomPlace_keeps _ _ _ _ _ _ _) (by assumption)).trans ?_
    refine Keeps.trans ?_ (State.watchStep_keeps _ _)
    dsimp only
    split <;> simp +contextual [Keeps]

theorem redto_keeps (op : AtomOp) (sp : Bool) (d a b : Reg) (s : State) : KeepsOut s (redto op sp d a b s) := by
  refine issue_keeps _ _ _ _ _ (fun s => ?_)
  dsimp only
  split
  · exact AtomPlace.eq_keeps (State.atomPlace_keeps _ _ _ _ _ _ _) (by assumption)
  · refine (AtomPlace.eq_keeps (State.atomPlace_keeps _ _ _ _ _ _ _) (by assumption)).trans ?_
    (repeat' split) <;> simp +contextual [Keeps]

@[simp] theorem State.deliver_keeps (s : State) (d : Delivery) : Keeps s (s.deliver d).st := by
  unfold State.deliver
  split
  · exact id
  rename_i found
  split
  · exact State.setFound_keeps _ found rfl
  · exact Tried.andThen_keeps (State.stashTouch_keeps _ _ _ _) (fun _ _ => State.writeScratch_keeps _ _ _ _ _)

theorem State.arrive_keeps (s : State) (sc : BitVec 3) (owner id reason : Nat) (k : State → State) (hk : ∀ s, Keeps s (k s)) :
    Keeps s (s.arrive sc owner id reason k) := by
  unfold State.arrive
  dsimp only
  split
  · simp +contextual [Keeps]
  · exact Keeps.trans (by simp +contextual [Keeps]) (hk _)

/-! ## EngineIo -/

@[simp] theorem State.readPlace_keeps (s : State) (k : CoreId) (g : GAddr) (n : Nat) (home : Bool) :
    Keeps s (s.readPlace k g n home).st := by
  unfold State.readPlace
  dsimp only
  split
  · split
    · simp +contextual [Keeps]
    · split <;> simp +contextual [Keeps]
  · split
    · simp +contextual [Keeps]
    · rename_i hw
      refine (State.stashFlush_keeps _ _ _).trans ((Keeps.of_teams (State.wholeLine_teams _ _ _ hw)).trans ?_)
      split <;> simp +contextual [Keeps]

@[simp] theorem State.engRead_keeps (s : State) (k : CoreId) (l t va n cap : Nat) (needR home : Bool) :
    Keeps s (s.engRead k l t va n cap needR home).st := by
  unfold State.engRead
  split
  · simp [Keeps]
  split
  · exact Entry.eq_keeps (State.entryNow_keeps _ _ _ _ _) (by assumption)
  · exact Entry.eq_keeps (State.entryNow_keeps _ _ _ _ _) (by assumption)
  · exact Entry.eq_keeps (State.entryNow_keeps _ _ _ _ _) (by assumption)
  · refine (Entry.eq_keeps (State.entryNow_keeps _ _ _ _ _) (by assumption)).trans ?_
    split
    · simp [Keeps]
    · exact State.readPlace_keeps _ _ _ _ _

@[simp] theorem State.engWrite_keeps (s : State) (k : CoreId) (l t va cap : Nat) (bs : List (Nat × Byte)) :
    Keeps s (s.engWrite k l t va cap bs).st := by
  unfold State.engWrite
  split
  · simp [Keeps]
  split
  · exact Entry.eq_keeps (State.entryNow_keeps _ _ _ _ _) (by assumption)
  · exact Entry.eq_keeps (State.entryNow_keeps _ _ _ _ _) (by assumption)
  · exact Entry.eq_keeps (State.entryNow_keeps _ _ _ _ _) (by assumption)
  · refine (Entry.eq_keeps (State.entryNow_keeps _ _ _ _ _) (by assumption)).trans ?_
    split
    · simp [Keeps]
    dsimp only
    split
    · exact (State.stashFlush_keeps _ _ _).trans ((State.l1Clean_keeps _ _ _ _).trans ((Keeps.of_teams (State.l1Drop_teams ..)).trans
        (Keeps.of_teams (State.homeStore_teams ..))))
    · exact (State.stashFlush_keeps _ _ _).trans ((Keeps.of_teams (State.l1Drop_teams ..)).trans (Keeps.of_teams
        (State.dieWrite_teams ..)))

@[simp] theorem State.engMayWrite_keeps (s : State) (k : CoreId) (l va : Nat) : Keeps s (s.engMayWrite k l va).st := by
  unfold State.engMayWrite
  split
  · simp [Keeps]
  split
  · exact Entry.eq_keeps (State.entryNow_keeps _ _ _ _ _) (by assumption)
  · exact Entry.eq_keeps (State.entryNow_keeps _ _ _ _ _) (by assumption)
  · exact Entry.eq_keeps (State.entryNow_keeps _ _ _ _ _) (by assumption)
  · split <;> exact Entry.eq_keeps (State.entryNow_keeps _ _ _ _ _) (by assumption)

@[simp] theorem State.engReadN_keeps (s : State) (k : CoreId) (l t va cap : Nat) (needR home : Bool) (fuel n : Nat) :
    Keeps s (s.engReadN k l t va cap needR home fuel n).st := by
  induction fuel generalizing s va n with
  | zero => simp [Keeps, State.engReadN]
  | succ fuel ih =>
    unfold State.engReadN
    dsimp only
    split
    · rename_i u _ h
      have h1 := IoRes.eq_keeps (State.engRead_keeps _ _ _ _ _ _ _ _ _) h
      split
      · exact h1
      · have h2 := ih u (va + min n (64 - va % 64)) (n - min n (64 - va % 64))
        split
        · rename_i h3; rw [h3] at h2; exact h1.trans h2
        · exact h1.trans h2
    · exact State.engRead_keeps _ _ _ _ _ _ _ _ _

@[simp] theorem State.touchRange_keeps (s : State) (l t off n : Nat) : Keeps s (s.touchRange l t off n).st := by
  unfold State.touchRange
  split
  · simp [Keeps]
  split
  · simp [Keeps]
  · exact State.tryAll_keeps _ _ _ (fun _ _ => State.stashTouch_keeps _ _ _ _)

theorem IoRes.andThen_keeps (u : State) (r : IoRes) (f : State → IoRes) (hr : Keeps u r.st) (hf : ∀ s, Keeps s (f s).st) :
    Keeps u (r.andThen f).st := by
  cases r with
  | ok s b => exact Keeps.trans hr (hf s)
  | fault s a b => exact hr
  | deny s => exact hr
  | wait s => exact hr

theorem IoRes.foldl_andThen_keeps {α : Type} (f : State → α → IoRes) (items : List α) (r : IoRes) {u : State} (hr : Keeps u r.st)
    (hf : ∀ s x, Keeps s (f s x).st) : Keeps u (items.foldl (fun o x => o.andThen (fun s => f s x)) r).st :=
  List.foldlRecOn items _ (motive := fun (o : IoRes) => Keeps u o.st) hr (fun _ keep x _ => IoRes.andThen_keeps _ _ _ keep
      (fun s => hf s x))

theorem IoRes.next_keeps (u : State) (r : IoRes) (ok : State → List Byte → State) (fault : State → Nat → Nat → State)
    (deny wait : State → State) (hr : Keeps u r.st) (h1 : ∀ s b, Keeps s (ok s b)) (h2 : ∀ s a b, Keeps s (fault s a b))
    (h3 : ∀ s, Keeps s (deny s)) (h4 : ∀ s, Keeps s (wait s)) : Keeps u (r.next ok fault deny wait) := by
  cases r with
  | ok s b => exact Keeps.trans hr (h1 s b)
  | fault s a b => exact Keeps.trans hr (h2 s a b)
  | deny s => exact Keeps.trans hr (h3 s)
  | wait s => exact Keeps.trans hr (h4 s)

end Sys2Proof.Machine
end

section
/-! SUPPORT. Scratches in canonical form: overlays, access by parts, launches, remote requests, packets and the four engines. -/

namespace Sys2Proof.Machine

/-! ## Code -/

@[simp] theorem State.giveToken_keeps (s : State) (l t seg : Nat) : Keeps s (s.giveToken l t seg) := by
  unfold State.giveToken
  split
  · exact id
  rename_i tm found
  split
  · exact id
  · exact (State.setFound_keeps (tm.give seg) found rfl).trans (.of_teams (State.lacerStir_teams ..))

theorem ovLoad_keeps (token sp : Bool) (d a : Reg) (s : State) : KeepsOut s (ovLoad token sp d a s) := by
  refine issue_keeps _ _ _ _ _ (fun s => ?_)
  dsimp only
  split
  · rename_i len tm _ found
    split
    · simp [Keeps]
    have taken : Keeps s (if token then s.setTeam (tm.take (segOf (s.cur.w a))) else s) := by
      split
      · exact State.setFound_keeps _ found rfl
      · exact id
    generalize (if token = true then s.setTeam (tm.take (segOf (s.cur.w a))) else s) = u at taken ⊢
    refine taken.trans (.of_teams ?_)
    split <;> simp
  · simp [Keeps]

@[simp] theorem State.endOverlay_keeps (s : State) (w : LacerWait) (code detail : Nat) : Keeps s (s.endOverlay w code detail) := by
  dsimp only [State.endOverlay]
  (repeat' split) <;> simp +contextual [Keeps]

@[simp] theorem State.endOverlays_keeps (s : State) (k : CoreId) (vf coid seg code : Nat) (detail : LacerWait → Nat) :
    Keeps s (s.endOverlays k vf coid seg code detail) :=
  (Keeps.of_teams (State.setCore_teams ..)).trans (foldl_scratch _ (fun _ _ => State.endOverlay_keeps _ _ _ _) _ _)

theorem State.abandonLoad_keeps (s : State) (k : CoreId) (e : SegEntry) (trap : State → Thread → State) (code detail kill : Nat)
    (ht : ∀ s t, Keeps s (trap s t)) : Keeps s (s.abandonLoad k e trap code detail kill) :=
  (Keeps.of_teams (State.setCore_teams ..)).trans ((foldl_scratch trap ht _ _).trans ((State.endOverlays_keeps _ _ _ _ _ _ _).trans
    (foldl_scratch _ (fun _ _ => .of_teams (State.killLaunch_teams ..)) _ _)))

@[simp] theorem State.segRead_keeps (s : State) (k : CoreId) (l va x0 x1 : Nat) : Keeps s (s.segRead k l va x0 x1).st := by
  induction x0 generalizing s va x1 with
  | zero => simp [Keeps, State.segRead]
  | succ fuel ih =>
    unfold State.segRead
    split
    · simp [Keeps]
    dsimp only
    split
    · simp [Keeps]
    split
    · exact Entry.eq_keeps (State.entryNow_keeps _ _ _ _ _) (by assumption)
    · exact Entry.eq_keeps (State.entryNow_keeps _ _ _ _ _) (by assumption)
    · exact Entry.eq_keeps (State.entryNow_keeps _ _ _ _ _) (by assumption)
    rename_i v _ _ u e _
    refine (Entry.eq_keeps (State.entryNow_keeps _ _ _ _ _) (by assumption)).trans ?_
    split
    · simp [Keeps]
    refine Keeps.trans (State.stashFlush_keeps u (lineOf (u.gaddr v l 0 e va 3).pa) false) ?_
    split
    · simp [Keeps]
    · rename_i h'
      refine Keeps.trans (Keeps.of_teams (State.wholeLine_teams _ _ _ h'))
        (Keeps.trans (Keeps.of_teams (State.consumeAt_teams _ v.id k (u.gaddr v l 0 e va 3).pa (min x1 (128 - va % 128)))) ?_)
      refine Keeps.trans (ih _ (va + min x1 (128 - va % 128)) (x1 - min x1 (128 - va % 128))) ?_
      generalize State.segRead _ k l _ fuel _ = r
      cases r <;> simp [Keeps]

@[simp] theorem State.startPinned_keeps (s : State) (k : CoreId) : Keeps s (s.startPinned k) :=
  fun fine => fine.map (fun t ht => by split <;> exact ht)

@[simp] theorem State.endSegLoad_keeps (s : State) (k : CoreId) (e : SegEntry) (ws : List Word) : Keeps s (s.endSegLoad k e ws) := by
  unfold State.endSegLoad
  extract_lets s1 s2
  have ended : Keeps s s2 := (Keeps.of_teams (State.modSeg_teams ..)).trans ((Keeps.of_teams (State.resumeSettled_teams ..)).trans
    ((State.endOverlays_keeps _ _ _ _ _ _ _).trans (State.startPinned_keeps _ _)))
  refine ended.trans (.of_teams ?_)
  split <;> simp

/-! ## Part -/

@[simp] theorem State.partAddr_keeps (s : State) (v : Vf) (l va : Nat) (write : Bool) : Keeps s (s.partAddr v l va write).1 := by
  dsimp only [State.partAddr]
  (repeat' split) <;> simp +contextual [Keeps]

@[simp] theorem State.partPlaces_keeps (s : State) (v : Vf) (l va : Nat) (write : Bool) (fuel n : Nat) :
    Keeps s (s.partPlaces v l va write fuel n).1 := by
  induction fuel generalizing s va n with
  | zero => simp [Keeps, State.partPlaces]
  | succ fuel ih =>
    have ha := State.partAddr_keeps s v l va write
    unfold State.partPlaces
    split
    · simp [Keeps]
    dsimp only
    split <;> rename_i h <;> rw [h] at ha
    · exact ha
    · exact ha.trans (ih _ _ _)

theorem State.partPlaces_eq_keeps {s t : State} {v : Vf} {l va fuel n : Nat} {write : Bool} {ps : List (GAddr × Nat)} {e : PartEnd}
    (h : s.partPlaces v l va write fuel n = (t, ps, e)) : Keeps s t := by
  have keeps := State.partPlaces_keeps s v l va write fuel n
  rwa [h] at keeps

@[simp] theorem State.partGet_keeps (s : State) (v : Vf) (ps : List (GAddr × Nat)) : Keeps s (s.partGet v ps).st := by
  unfold State.partGet
  split
  · simp [Keeps]
  · exact foldl_scratch _ (fun s x => (State.stashFlush_keeps s (lineOf x.1.pa) false).trans (by simp [Keeps])) _ _

@[simp] theorem State.partRead_keeps (s : State) (v : Vf) (l va fuel n : Nat) : Keeps s (s.partRead v l va fuel n).st := by
  unfold State.partRead
  split <;> rename_i h
  · exact (State.partPlaces_eq_keeps h).trans (State.partGet_keeps _ _ _)
  · rw [PartEnd.answer_st]; exact State.partPlaces_eq_keeps h

@[simp] theorem State.partPut_keeps (s : State) (ps : List (GAddr × Nat)) (bs : List Byte) : Keeps s (s.partPut ps bs) := by
  induction ps generalizing s bs with
  | nil => simp [Keeps, State.partPut]
  | cons p ps ih =>
    refine Keeps.trans (State.stashFlush_keeps s (lineOf p.1.pa) true) (Keeps.trans ?_ (ih _ _))
    split
    · exact .of_teams (State.homeWrite_teams ..)
    · exact .of_teams (State.sendHome_teams ..)

@[simp] theorem State.partWrite_keeps (s : State) (v : Vf) (l va fuel : Nat) (bs : List Byte) :
    Keeps s (s.partWrite v l va fuel bs).st := by
  unfold State.partWrite
  split <;> rename_i h
  · exact State.partPlaces_eq_keeps h
  · rw [PartEnd.answer_st]; exact (State.partPlaces_eq_keeps h).trans (State.partPut_keeps _ _ _)

@[simp] theorem State.trace_keeps (s : State) (kind d l team thread : Nat) : Keeps s (s.trace kind d l team thread) := by
  dsimp only [State.trace]
  (repeat' split) <;> simp +contextual [Keeps]

@[simp] theorem State.traceEvent_keeps (s : State) (kind d l : Nat) : Keeps s (s.traceEvent kind d l) := by
  unfold State.traceEvent
  simp +contextual [Keeps]

/-! ## Launch -/

@[simp] theorem State.slotWrite_keeps (s : State) (v : Vf) (k : CoreId) (l va : Nat) (bs : List Byte) :
    Keeps s (s.slotWrite v k l va bs).st := by
  unfold State.slotWrite
  split <;> rename_i h
  · exact State.partPlaces_eq_keeps h
  · rw [PartEnd.answer_st]
    exact (State.partPlaces_eq_keeps h).trans ((foldl_scratch _ (fun s x => .of_teams (State.l1Drop_teams ..)) _ _).trans
        (State.partPut_keeps _ _ _))

@[simp] theorem State.launchTry_keeps (s : State) (k : CoreId) (t : ThreadId) (q : Word) (a : Nat) (got : Option (List Byte)) :
    Keeps s (s.launchTry k t q a got).st := by
  unfold State.launchTry
  split
  · exact id
  extract_lets x _ write
  have written (s : State) (bs : List Byte) : Keeps s (write s bs).st := by
    dsimp only [write]
    have h := State.slotWrite_keeps s ‹Vf› k t.launch (x.slotVa x.tail) bs
    split <;> rename_i e <;> rw [e] at h
    · refine h.trans (.of_teams ?_)
      split <;> simp
    all_goals exact h
  clear_value write
  have read := State.engReadN_keeps s k t.launch t.team a 3 true false 4 128
  split
  · exact id
  split
  · exact id
  split
  · exact id
  split
  · exact written _ _
  split <;> rename_i e <;> rw [e] at read
  · exact read.trans (written _ _)
  all_goals exact read

@[simp] theorem State.launchGo_keeps (s : State) (r : Request) (q : Word) (a : Nat) (got : Option (List Byte)) :
    Keeps s (s.launchGo r q a got) := by
  unfold State.launchGo
  dsimp only
  split
  · exact (LaunchTry.eq_keeps (State.launchTry_keeps _ _ _ _ _ _) (by assumption)).trans (by simp [Keeps])
  · exact (LaunchTry.eq_keeps (State.launchTry_keeps _ _ _ _ _ _) (by assumption)).trans (by simp [Keeps])
  · exact (LaunchTry.eq_keeps (State.launchTry_keeps _ _ _ _ _ _) (by assumption)).trans (by simp [Keeps])

/-! ## Welt -/

@[simp] theorem State.updateCopy_keeps (s : State) (m : WeltMsg) : Keeps s (s.updateCopy m) := by
  dsimp only [State.updateCopy]
  (repeat' split) <;> simp +contextual [Keeps]

@[simp] theorem State.applyMsg_keeps (s : State) (m : WeltMsg) : Keeps s (s.applyMsg m) := by
  dsimp only [State.applyMsg]
  (repeat' split) <;> simp +contextual [Keeps]

@[simp] theorem State.fillFrom_keeps (s : State) (r : Request) (g : GAddr) : Keeps s (s.fillFrom r g) := by
  dsimp only [State.fillFrom]
  (repeat' split) <;> simp +contextual [Keeps]

@[simp] theorem State.servePart_keeps (s : State) (r : Request) (g : GAddr) (src n base : Nat) (got : List (Nat × Byte)) :
    Keeps s (s.servePart r g src n base got).1 := by
  unfold State.servePart
  simp +contextual [Keeps]

@[simp] theorem State.againPart_keeps (s : State) (r : Request) (pass : List Nat) (ea : Nat) : Keeps s (s.againPart r pass ea).st := by
  have scr (team off : Nat) : Keeps s (
      if s.hatched r.t.launch team off 8 false then Again.wait s
      else match s.stashTouch r.t.launch team off with
        | .wait s => .wait s
        | .ok s _ => .bytes (s.consumeScratch r.core r.t.launch team off 8) (s.scratchBytes r.t.launch team off 8)).st := by
    split
    · simp [Keeps]
    split
    · exact Tried.eq_keeps (State.stashTouch_keeps _ _ _ _) (by assumption)
    · exact (Tried.eq_keeps (State.stashTouch_keeps _ _ _ _) (by assumption)).trans (.of_teams (by simp))
  unfold State.againPart
  dsimp only
  split
  · simp [Keeps]
  · exact scr _ _
  · exact scr _ _
  · split
    · simp [Keeps]
    split
    · split <;> simp [Keeps]
    split
    · exact Entry.eq_keeps (State.entryNow_keeps _ _ _ _ _) (by assumption)
    · exact Entry.eq_keeps (State.entryNow_keeps _ _ _ _ _) (by assumption)
    · exact Entry.eq_keeps (State.entryNow_keeps _ _ _ _ _) (by assumption)
    refine (Entry.eq_keeps (State.entryNow_keeps _ _ _ _ _) (by assumption)).trans ?_
    split
    · simp [Keeps]
    split
    · simp [Keeps]
    split <;> rename_i h <;> have hr := Route.eq_keeps (State.routeOf_keeps _ _ _ _ _) h
    · exact hr
    · exact Keeps.trans hr (Keeps.of_teams (State.consumeScratch_teams ..))
    · split <;> exact hr

@[simp] theorem Again.stop_keeps (x : Again) (r : Request) (ea : Nat) (pc : Word) (pass : List Nat) (va : Nat) :
    Keeps x.st (x.stop r ea pc pass va) := by
  unfold Again.stop
  split
  · dsimp only
    split
    · exact (Keeps.of_teams (State.agentFault_teams ..))
    · exact ((Keeps.of_teams (State.agentFault_teams ..)).trans (Keeps.of_teams (State.keepReq_teams ..)))
  · split
    · simp [Keeps, State.keepReq]
    · simp [Keeps]
  · exact (Keeps.of_teams (State.againTrap_teams ..))
  all_goals simp [Keeps]

@[simp] theorem State.againBytes_keeps (s : State) (r : Request) (base : Nat) (x : Again) (h : Keeps s x.st) :
    Keeps s (s.againBytes r base x).1 := by
  unfold State.againBytes
  split
  · exact h
  · exact Keeps.trans h (State.lduGlobal_keeps _ _ _ _ base)
  · simp [Keeps]

@[simp] theorem State.again_keeps (s : State) (r : Request) (ea : Nat) (pc : Word) (pass : List Nat) :
    Keeps s (s.again r ea pc pass) := by
  unfold State.again
  dsimp only
  have h1 := State.againPart_keeps s r pass (ea - ea % 8)
  split
  · exact h1.trans (Again.stop_keeps _ _ _ _ _ _)
  rename_i s1 hp1
  rw [Again.passed_st hp1] at h1
  have h2 : Keeps s1 (if ea % 8 = 0 then Again.bytes s1 [] else s1.againPart r pass ((ea - ea % 8 + 8) % 2 ^ 64)).st := by
    split
    · simp [Keeps]
    · exact State.againPart_keeps _ _ _ _
  split
  · exact h1.trans (h2.trans (Again.stop_keeps _ _ _ _ _ _))
  rename_i s2 hp2
  rw [Again.passed_st hp2] at h2
  have found (u : State) (base : Nat) (x : Again) : Keeps u (u.againBytes r base (x.on u)).1 :=
    State.againBytes_keeps _ _ _ _ (by rw [Again.on_st]; exact id)
  have h (x y : Again) : Keeps s ((s2.againBytes r 0 (x.on s2)).1.againBytes r 8 (y.on (s2.againBytes r 0 (x.on s2)).1)).1 :=
    h1.trans (h2.trans ((found s2 0 x).trans (found _ 8 y)))
  split
  · exact (h _ _).trans ((Keeps.of_teams (State.dropReq_teams ..)).trans (Keeps.of_teams (State.reply_teams ..)))
  · exact h _ _

/-! ## FrontEnd -/

@[simp] theorem State.accept_keeps (s : State) (v : Vf) (q : Nat) (p : Packet) (i : Image) (chained : Bool) :
    Keeps s (s.accept v q p i chained) := by
  unfold State.accept
  extract_lets n l tag nth group s1 s2 m s3
  have same : s2.teams = s.teams := by
    dsimp only [s2]
    split <;> simp [s1]
  have started : ScratchesFine ((List.range p.grid).map (Team.start l p)) := by
    refine ⟨fun m hm => ?_⟩
    obtain ⟨t, -, rfl⟩ := List.mem_map.1 hm
    rfl
  have added : Keeps s s3 := fun fine => ScratchesFine.append (same ▸ fine) started
  exact added.trans ((Keeps.of_teams (State.addUnit_teams ..)).trans (State.traceEvent_keeps _ _ _ _))

theorem State.serveOnce_keeps (s : State) (vf q : Nat) (chained : Bool) (a : Nat) (again : State → State)
    (ih : ∀ s, Keeps s (again s)) : Keeps s (s.serveOnce vf q chained a again) := by
  unfold State.serveOnce
  split
  · simp +contextual [Keeps]
  dsimp only
  split
  · split
    · simp +contextual [Keeps]
    split
    · exact (IoRes.eq_keeps (State.partRead_keeps _ _ _ _ _ _) (by assumption)).trans ((Keeps.of_teams
        (State.modQueue_teams ..)).trans (ih _))
    · exact (IoRes.eq_keeps (State.partRead_keeps _ _ _ _ _ _) (by assumption)).trans (by simp [Keeps])
    · exact (IoRes.eq_keeps (State.partRead_keeps _ _ _ _ _ _) (by assumption)).trans (by simp [Keeps])
    · exact IoRes.eq_keeps (State.partRead_keeps _ _ _ _ _ _) (by assumption)
  · split
    · simp +contextual [Keeps]
    · simp +contextual [Keeps]
    split
    · simp +contextual [Keeps]
    split
    · exact (IoRes.eq_keeps (State.partRead_keeps _ _ _ _ _ _) (by assumption)).trans ((Keeps.of_teams
        (State.modQueue_teams ..)).trans (ih _))
    · exact (IoRes.eq_keeps (State.partRead_keeps _ _ _ _ _ _) (by assumption)).trans (by simp [Keeps])
    · exact (IoRes.eq_keeps (State.partRead_keeps _ _ _ _ _ _) (by assumption)).trans (by simp [Keeps])
    · exact IoRes.eq_keeps (State.partRead_keeps _ _ _ _ _ _) (by assumption)

@[simp] theorem State.servePacket_keeps (s : State) (vf q : Nat) (chained : Bool) (a x0 : Nat) :
    Keeps s (s.servePacket vf q chained a x0) := by
  induction x0 generalizing s with
  | zero => simp [Keeps, State.servePacket]
  | succ fuel ih => exact State.serveOnce_keeps s vf q chained a _ ih

@[simp] theorem State.refusalWrite_keeps (s : State) (v : Vf) (q : Nat) (x : Queue) (w : Nat × List Byte) :
    Keeps s (s.refusalWrite v q x w) := by
  unfold State.refusalWrite
  dsimp only
  split
  · simp [Keeps]
  split <;> exact (IoRes.eq_keeps (State.partWrite_keeps _ _ _ _ _ _) (by assumption)).trans (.of_teams (by simp))

@[simp] theorem State.readConsts_keeps (s : State) (v : Vf) (q : Nat) (x : Queue) (l : Launch) : Keeps s (s.readConsts v q x l) := by
  unfold State.readConsts
  dsimp only
  split
  · simp [Keeps]
  split <;> exact (IoRes.eq_keeps (State.partRead_keeps _ _ _ _ _ _) (by assumption)).trans (.of_teams (by simp))

@[simp] theorem State.seePrio_keeps (s : State) (v : Vf) (x : Queue) : Keeps s (s.seePrio v x).st := by
  unfold State.seePrio
  split
  · exact IoRes.eq_keeps (State.partRead_keeps _ _ _ _ _ _) (by assumption)
  · exact IoRes.eq_keeps (State.partRead_keeps _ _ _ _ _ _) (by assumption)
  · exact IoRes.eq_keeps (State.partRead_keeps _ _ _ _ _ _) (by assumption)
  · exact IoRes.eq_keeps (State.partRead_keeps _ _ _ _ _ _) (by assumption)

@[simp] theorem State.seePrios_keeps (s : State) (v : Vf) : Keeps s (s.seePrios v).st := by
  unfold State.seePrios
  dsimp only
  split
  · simp [Keeps]
  · exact State.tryAll_keeps _ _ _ (fun _ _ => State.seePrio_keeps _ _ _)

/-! ## Streamer -/

@[simp] theorem State.lookRecord_keeps (s : State) (k : CoreId) (l t handle : Nat) : Keeps s (s.lookRecord k l t handle).st := by
  unfold State.lookRecord
  split
  · simp [Keeps]
  split
  · exact (IoRes.eq_keeps (State.engReadN_keeps _ _ _ _ _ _ _ _ _ _) (by assumption)).trans (.of_teams (by simp))
  · exact State.engReadN_keeps _ _ _ _ _ _ _ _ _ _

theorem State.withRight_keeps (s : State) (f : Nat) (k : State → State) (hk : Keeps s (k s)) : Keeps s (s.withRight f k) := by
  unfold State.withRight
  split
  · exact hk
  · exact .of_teams (State.raise_teams ..)

theorem copyWord_keeps (multi sp : Bool) (f : Nat) (d a b : Reg) (s : State) : KeepsOut s (copyWord multi sp f d a b s) := by
  unfold copyWord
  refine issue_keeps _ _ _ _ _ (fun s => State.withRight_keeps _ _ _ ?_)
  dsimp only
  split
  · simp [Keeps]
  split
  · simp [Keeps]
  split
  · exact (Keeps.of_teams (State.issueCopy_teams ..))
  split
  · simp [Keeps]
  split
  · simp [Keeps]
  split
  · exact (IoRes.eq_keeps (State.lookRecord_keeps _ _ _ _ _) (by assumption)).trans (Keeps.of_teams (State.issueCopy_teams ..))
  · exact (IoRes.eq_keeps (State.lookRecord_keeps _ _ _ _ _) (by assumption)).trans (Keeps.of_teams (State.issueCopy_teams ..))
  · exact (IoRes.eq_keeps (State.lookRecord_keeps _ _ _ _ _) (by assumption)).trans (Keeps.of_teams (State.startEng_teams ..))
  · exact (IoRes.eq_keeps (State.lookRecord_keeps _ _ _ _ _) (by assumption)).trans (by simp [Keeps])

@[simp] theorem State.copyIn_keeps (s : State) (e : EngineOp) (b : List Byte) (w : List Word) (sk : Nat) (ts : List Nat)
    (n j : Nat) : Keeps s (s.copyIn e b w sk ts n j) := by
  induction n generalizing s j with
  | zero => simp [Keeps, State.copyIn]
  | succ n ih =>
    have put (s : State) (bs : List Byte) :
        Keeps s (ts.foldl (fun s x => s.writeScratch e.t.launch x (boxScratch b w j) bs) s) :=
      foldl_scratch _ (fun _ _ => State.writeScratch_keeps _ _ _ _ _) _ _
    unfold State.copyIn
    dsimp only
    split
    · exact (put _ _).trans (ih _ _)
    · split
      · simp [Keeps]
      · split
        · exact (IoRes.eq_keeps (State.engRead_keeps _ _ _ _ _ _ _ _ _) (by assumption)).trans ((put _ _).trans (ih _ _))
        · exact (IoRes.eq_keeps (State.engRead_keeps _ _ _ _ _ _ _ _ _) (by assumption)).trans (by simp [Keeps])
        · exact (IoRes.eq_keeps (State.engRead_keeps _ _ _ _ _ _ _ _ _) (by assumption)).trans (by simp [Keeps])
        · exact (IoRes.eq_keeps (State.engRead_keeps _ _ _ _ _ _ _ _ _) (by assumption)).trans (by simp [Keeps])

@[simp] theorem State.copyOut_keeps (s : State) (e : EngineOp) (b : List Byte) (w : List Word) (n : Nat) (fuel j : Nat) :
    Keeps s (s.copyOut e b w n fuel j) := by
  induction fuel generalizing s j with
  | zero => simp [Keeps, State.copyOut]
  | succ fuel ih =>
    unfold State.copyOut
    split
    · simp [Keeps]
    split
    · exact ih _ _
    split
    · simp [Keeps]
    · dsimp only
      split
      · exact (IoRes.eq_keeps (State.engWrite_keeps _ _ _ _ _ _ _) (by assumption)).trans (ih _ _)
      · exact (IoRes.eq_keeps (State.engWrite_keeps _ _ _ _ _ _ _) (by assumption)).trans (by simp [Keeps])
      · exact (IoRes.eq_keeps (State.engWrite_keeps _ _ _ _ _ _ _) (by assumption)).trans (by simp [Keeps])
      · exact (IoRes.eq_keeps (State.engWrite_keeps _ _ _ _ _ _ _) (by assumption)).trans (by simp [Keeps])

@[simp] theorem State.runCopy_keeps (s : State) (e : EngineOp) (multi : Bool) (h : Nat) (w : List Word) (b : List Byte)
    (sk : Nat) : Keeps s (s.runCopy e multi h w b sk) := by
  unfold State.runCopy
  dsimp only
  split
  · simp [Keeps]
  have all := State.tryAll_keeps s (s.copyTargets e.t multi w sk) (fun s x => s.touchRange e.t.launch x (blkOff w) (boxBytes b))
    (fun _ _ => State.touchRange_keeps _ _ _ _ _)
  split
  · exact (Tried.eq_keeps all (by assumption)).trans (Keeps.of_teams (State.setEng_teams ..))
  · refine (Tried.eq_keeps all (by assumption)).trans ?_
    split
    · exact State.copyIn_keeps _ _ _ _ _ _ _ _
    · exact (Keeps.of_teams (State.consumeScratch_teams ..)).trans (State.copyOut_keeps _ _ _ _ _ _ _)

@[simp] theorem State.beginCopy_keeps (s : State) (e : EngineOp) (multi : Bool) (h : Nat) (w : List Word)
    (rec : Option (List Byte)) (skipped : Option Nat) : Keeps s (s.beginCopy e multi h w rec skipped) := by
  unfold State.beginCopy
  split
  · exact State.runCopy_keeps _ _ _ _ _ _ _
  extract_lets sk go
  have gone (s : State) (b : List Byte) : Keeps s (go s b) := by
    refine Keeps.trans ?_ (State.runCopy_keeps _ _ _ _ _ _ _)
    exact .of_teams (State.renewHatch_teams ..)
  clear_value go
  have looked := State.lookRecord_keeps s e.core e.t.launch e.t.team h
  split
  · exact .of_teams (State.finishEng_teams ..)
  split
  · exact gone _ _
  split <;> rename_i read <;> rw [read] at looked
  · exact looked.trans (gone _ _)
  all_goals exact looked.trans (.of_teams (by simp))

/-! ## Skiver -/

@[simp] theorem State.issueJob_keeps (s : State) (a : Nat) (b : List Byte) (d : Reg) : Keeps s (s.issueJob a b d) := by
  dsimp only [State.issueJob]
  (repeat' split) <;> simp +contextual [Keeps]

@[simp] theorem State.djob_keeps (s : State) (a : Nat) (d : Reg) : Keeps s (s.djob a d) := by
  unfold State.djob
  split
  · simp [Keeps]
  split
  · simp [Keeps]
  split
  · simp [Keeps]
  split
  · simp [Keeps]
  split
  · simp [Keeps]
  split
  · simp [Keeps]
  · dsimp only
    split
    · simp [Keeps]
    · exact IoRes.next_keeps s _ _ _ _ _ (State.readPlace_keeps _ _ _ _ _)
        (fun _ _ => State.issueJob_keeps _ _ _ _) (fun _ _ _ => id) (fun _ => id) (fun _ => .of_teams (State.parkCur_teams ..))

@[simp] theorem State.jobRead_keeps (s : State) (e : EngineOp) (a : Nat) (needR : Bool) : Keeps s (s.jobRead e a needR).st := by
  unfold State.jobRead
  split
  · exact State.engRead_keeps _ _ _ _ _ _ _ _ _
  split
  · exact Tried.eq_keeps (State.touchRange_keeps _ _ _ _ _) (by assumption)
  · exact (Tried.eq_keeps (State.touchRange_keeps _ _ _ _ _) (by assumption)).trans (by simp [Keeps])

@[simp] theorem State.jobWrite_keeps (s : State) (e : EngineOp) (a : Nat) (v : Byte) : Keeps s (s.jobWrite e a v).st := by
  unfold State.jobWrite
  split
  · exact State.engWrite_keeps _ _ _ _ _ _ _
  split
  · exact Tried.eq_keeps (State.touchRange_keeps _ _ _ _ _) (by assumption)
  · exact (Tried.eq_keeps (State.touchRange_keeps _ _ _ _ _) (by assumption)).trans (State.writeScratch_keeps _ _ _ _ _)

@[simp] theorem State.stopJob_keeps (s : State) (e : EngineOp) (j : JobCard) (x : SkiverAt) (code : Nat) :
    Keeps s (s.stopJob e j x code) := by simp [Keeps, State.stopJob]

theorem IoRes.forJob_keeps (u : State) (r : IoRes) (e : EngineOp) (j : JobCard) (x : SkiverAt) (k : State → List Byte → State)
    (hr : Keeps u r.st) (hk : ∀ s b, Keeps s (k s b)) : Keeps u (r.forJob e j x k) :=
  IoRes.next_keeps u r _ _ _ _ hr hk (fun _ _ _ => .of_teams (State.stallEng_teams ..))
    (fun _ => State.stopJob_keeps _ _ _ _ _) (fun _ => .of_teams (State.setEng_teams ..))

@[simp] theorem State.decodeJob_keeps (s : State) (e : EngineOp) (j : JobCard) (n : Nat) (x : SkiverAt) :
    Keeps s (s.decodeJob e j n x) := by
  induction n generalizing s x with
  | zero => simp [Keeps, State.decodeJob]
  | succ n ih =>
    have stop (s : State) (c : Nat) : Keeps s (s.stopJob e j x c) := State.stopJob_keeps _ _ _ _ _
    have stream (s : State) (k : State → Nat → State) (hk : ∀ s t, Keeps s (k s t)) : Keeps s (
        if j.srcLen ≤ x.i then s.stopJob e j x 5
        else (s.jobRead e (j.src + x.i) true).forJob e j x (fun s bs => k s (natOf bs))) := by
      split
      · exact stop _ _
      · exact IoRes.forJob_keeps s _ _ _ _ _ (State.jobRead_keeps _ _ _ _) (fun s b => hk _ _)
    have output (s : State) (v : Byte) (x' : SkiverAt) : Keeps s ((s.jobWrite e (j.dst + x.p) v).forJob e j x (fun s _ =>
        s.decodeJob e j n { x' with p := x.p + 1, rem := x.rem - 1, tok := if x.rem ≤ 1 then 0 else x.tok })) :=
      IoRes.forJob_keeps s _ _ _ _ _ (State.jobWrite_keeps _ _ _ _) (fun s b => ih _ _)
    unfold State.decodeJob
    dsimp only
    split
    · refine stream s (fun s t => if t = 0xFF then s.stopJob e j x 0
        else if t ≤ 0x7F then s.decodeJob e j n { x with i := x.i + 1, tok := 1, rem := t + 1 }
        else s.decodeJob e j n { x with i := x.i + 1, tok := 3, rem := t % 128 + 3 }) (fun s t => ?_)
      split
      · exact stop _ _
      split <;> exact ih _ _
    split
    · exact stream s (fun s t => s.decodeJob e j n { x with i := x.i + 1, tok := 4, dist := t }) (fun s t => ih _ _)
    split
    · refine stream s (fun s t => if x.dist + 256 * t = 0 ∨ x.p + j.dictLen < x.dist + 256 * t then s.stopJob e j x 3
        else s.decodeJob e j n { x with i := x.i + 1, tok := 2, dist := x.dist + 256 * t }) (fun s t => ?_)
      split
      · exact stop _ _
      · exact ih _ _
    split
    · refine stream s (fun s t => if x.p = j.cap then s.stopJob e j x 4 else
        (s.jobWrite e (j.dst + x.p) (BitVec.ofNat 8 t)).forJob e j x (fun s _ =>
          s.decodeJob e j n { x with i := x.i + 1, p := x.p + 1, rem := x.rem - 1, tok := if x.rem ≤ 1 then 0 else x.tok }))
        (fun s t => ?_)
      split
      · exact stop _ _
      · exact output _ _ { x with i := x.i + 1 }
    split
    · exact stop _ _
    · exact IoRes.forJob_keeps s _ _ _ _ _ (State.jobRead_keeps _ _ _ _) (fun s b => output _ _ _)

@[simp] theorem State.beginJob_keeps (s : State) (e : EngineOp) (j : JobCard) (x : SkiverAt) : Keeps s (s.beginJob e j x) := by
  unfold State.beginJob
  simp +contextual [Keeps]

/-! ## Graver -/

@[simp] theorem State.beginDprog_keeps (s : State) (e : EngineOp) (a slot : Nat) : Keeps s (s.beginDprog e a slot) := by
  unfold State.beginDprog
  dsimp only
  split
  · exact Tried.eq_keeps (State.touchRange_keeps _ _ _ _ _) (by assumption)
  · refine (Tried.eq_keeps (State.touchRange_keeps _ _ _ _ _) (by assumption)).trans (.of_teams ?_)
    split <;> simp

@[simp] theorem State.drainWrite_keeps (s : State) (e : EngineOp) (r : TaskRec) (run : List (List (Nat × List Byte))) :
    Keeps s (s.drainWrite e r run).st :=
  IoRes.foldl_andThen_keeps _ _ _ (IoRes.foldl_andThen_keeps _ _ _ id (fun _ _ => State.engMayWrite_keeps _ _ _ _))
    (fun _ _ => State.engWrite_keeps _ _ _ _ _ _ _)

@[simp] theorem State.drainStore_keeps (s : State) (e : EngineOp) (r : TaskRec) (c : Chain) (p : DrainProg) (fuel i : Nat) :
    Keeps s (s.drainStore e r c p fuel i) := by
  induction fuel generalizing s i with
  | zero => simp [Keeps, State.drainStore]
  | succ fuel ih =>
    unfold State.drainStore
    split
    · simp [Keeps]
    · exact IoRes.next_keeps s _ _ _ _ _ (State.drainWrite_keeps _ _ _ _) (fun s _ => ih _ _) (by simp [Keeps]) (by simp [Keeps])
        (by simp [Keeps])

@[simp] theorem State.addAddr_keeps (s : State) (e : EngineOp) (va : Nat) : Keeps s (s.addAddr e va).st := by
  unfold State.addAddr
  split
  · simp [Keeps]
  split
  · exact Entry.eq_keeps (State.entryNow_keeps _ _ _ _ _) (by assumption)
  · exact Entry.eq_keeps (State.entryNow_keeps _ _ _ _ _) (by assumption)
  · exact Entry.eq_keeps (State.entryNow_keeps _ _ _ _ _) (by assumption)
  · have h := Entry.eq_keeps (State.entryNow_keeps _ _ _ _ _) (by assumption)
    split <;> exact h

@[simp] theorem State.readyAdd_keeps (s : State) (e : EngineOp) (t : Tile) (status : Word) : Keeps s (s.readyAdd e t status) := by
  unfold State.readyAdd
  split
  · exact .of_teams (State.endTask_teams ..)
  · exact (foldl_scratch _ (fun _ _ => State.writeBackRange_keeps _ _ _ _ _) _ _).trans (.of_teams (State.setEng_teams ..))

@[simp] theorem State.drainAdd_keeps (s : State) (e : EngineOp) (r : TaskRec) (sat : Bool) (ps : List (Nat × List Byte))
    (i : Nat) (t : Tile) : Keeps s (s.drainAdd e r sat ps i t) := by
  induction ps generalizing s i t with
  | nil => exact State.readyAdd_keeps _ _ _ _
  | cons p ps ih =>
    unfold State.drainAdd
    split
    · exact (AddAddr.eq_keeps (State.addAddr_keeps _ _ _) (by assumption)).trans (ih _ _ _)
    · exact (AddAddr.eq_keeps (State.addAddr_keeps _ _ _) (by assumption)).trans (by simp [Keeps])
    · exact (AddAddr.eq_keeps (State.addAddr_keeps _ _ _) (by assumption)).trans (State.readyAdd_keeps _ _ _ _)
    · exact (AddAddr.eq_keeps (State.addAddr_keeps _ _ _) (by assumption)).trans (by simp [Keeps])

@[simp] theorem State.drainScratch_keeps (s : State) (e : EngineOp) (r : TaskRec) (c : Chain) (p : DrainProg) (team off : Nat)
    (add : Bool) : Keeps s (s.drainScratch e r c p team off add).st := by
  unfold State.drainScratch
  refine Tried.andThen_keeps (State.tryAll_keeps _ _ _ (fun _ _ => State.touchRange_keeps _ _ _ _ _)) (fun s _ => ?_)
  dsimp only [Tried.st]
  split
  · exact foldl_scratch _ (fun s x => State.writeScratch_keeps _ _ _ _ _) _ _
  · exact foldl_scratch _ (fun s x => foldl_scratch _ (fun s x => State.writeScratch_keeps _ _ _ _ _) _ _) _ _

@[simp] theorem State.runDrain_keeps (s : State) (e : EngineOp) (r : TaskRec) (prog : Option DrainProg) :
    Keeps s (s.runDrain e r prog) := by
  have scr (c : Chain) (p : DrainProg) (team off : Nat) (add : Bool) (st : Word) :
      Keeps s (match s.drainScratch e r c p team off add with
        | .ok s _ => s.endTask e st
        | .wait s => s.setEng { e with st := .running }) := by
    split
    · exact (Tried.eq_keeps (State.drainScratch_keeps _ _ _ _ _ _ _ _) (by assumption)).trans (Keeps.of_teams (State.endTask_teams ..))
    · exact (Tried.eq_keeps (State.drainScratch_keeps _ _ _ _ _ _ _ _) (by assumption)).trans (Keeps.of_teams (State.setEng_teams ..))
  unfold State.runDrain
  dsimp only
  split
  · split
    · simp [Keeps]
    split
    · exact scr _ _ _ _ _ _
    · exact scr _ _ _ _ _ _
    · split
      · exact State.drainAdd_keeps _ _ _ _ _ _ _
      · exact State.drainStore_keeps _ _ _ _ _ _ _
  · simp [Keeps]
  · simp [Keeps]

@[simp] theorem State.beginTask_keeps (s : State) (e : EngineOp) (r : TaskRec) (prog : Option DrainProg) (opens : Bool)
    (g : CoreId) (slot : Nat) : Keeps s (s.beginTask e r prog opens g slot) := by
  unfold State.beginTask
  extract_lets l t c rs
  have touched := State.tryAll_keeps s rs (fun s x => s.touchRange l t x.lo (x.hi - x.lo)) (fun _ _ => State.touchRange_keeps _ _ _ _ _)
  split <;> rename_i e <;> rw [e] at touched
  · exact touched
  refine touched.trans ?_
  extract_lets s1 key hit s2 c' e' s3
  have latched : s2.teams = s1.teams := by
    dsimp only [s2]
    split <;> simp
  have ready : Keeps _ s3 := .of_teams (Eq.trans (by simp [s3]) (latched.trans (foldl_teams _ _ _
      (fun _ _ => State.consumeScratch_teams ..))))
  refine ready.trans ?_
  split
  · exact State.runDrain_keeps _ _ _ _
  · exact .of_teams (State.endTask_teams ..)

@[simp] theorem State.applyTileLine_keeps (s : State) (d : Nat) (t : Tile) (line : Nat) : Keeps s (s.applyTileLine d t line) := by
  unfold State.applyTileLine
  dsimp only
  split
  · simp [Keeps]
  · refine Keeps.trans (State.stashFlush_keeps s line true) ?_
    split
    · exact .of_teams (State.homeWrite_teams ..)
    · refine Keeps.trans ?_ (foldl_scratch _ (fun s m => State.applyMsg_keeps s m) _ _)
      simp +contextual [Keeps]

@[simp] theorem State.applyTile_keeps (s : State) (d : Nat) (t : Tile) : Keeps s (s.applyTile d t) := by
  unfold State.applyTile
  dsimp only
  refine Keeps.trans ?_ (Keeps.of_teams (State.stir_teams _))
  exact (foldl_scratch _ (fun s x => State.applyTileLine_keeps s d t x) _ _).trans
    (foldl_scratch _ (fun s x => State.applyTileLine_keeps s d t x) _ _)

/-! ## Stylus -/

@[simp] theorem State.runLoad_keeps (s : State) (x : CandSlot) (req a c : Nat) (fuel : Nat) (got : List Byte) :
    Keeps s (s.runLoad x req a c fuel got) := by
  induction fuel generalizing s got with
  | zero => simp [Keeps, State.runLoad]
  | succ fuel ih =>
    unfold State.runLoad
    split
    · simp [Keeps]
    · simp [Keeps]
    · dsimp only
      split
      · simp [Keeps]
      · split
        · exact (IoRes.eq_keeps (State.engRead_keeps _ _ _ _ _ _ _ _ _) (by assumption)).trans (ih _ _)
        · exact (IoRes.eq_keeps (State.engRead_keeps _ _ _ _ _ _ _ _ _) (by assumption)).trans (by simp [Keeps])
        · exact (IoRes.eq_keeps (State.engRead_keeps _ _ _ _ _ _ _ _ _) (by assumption)).trans (by simp [Keeps])
        · exact (IoRes.eq_keeps (State.engRead_keeps _ _ _ _ _ _ _ _ _) (by assumption)).trans (by simp [Keeps])

@[simp] theorem State.tryLoad_keeps (s : State) (t : ThreadId) : Keeps s (s.tryLoad t) := by
  dsimp only [State.tryLoad]
  (repeat' split) <;> simp +contextual [Keeps]

theorem State.withSlot_keeps (s : State) (table : Bool) (k : State → CandSlot → State) (hk : ∀ x, Keeps s (k s x)) :
    Keeps s (s.withSlot table k) := by
  unfold State.withSlot
  split
  · split
    · exact .of_teams (State.raise_teams ..)
    · exact hk _
  · exact .of_teams (State.raise_teams ..)

@[simp] theorem proofWord_keeps (query : Bool) (d : Reg) (h l c : Word) (s : State) : Keeps s (proofWord query d h l c s) := by
  unfold proofWord
  refine State.withSlot_keeps _ _ _ (fun x => ?_)
  dsimp only
  split
  · exact (Keeps.of_teams (Checked.stop_teams (State.checkGlobal_teams ..) (by assumption)))
  split
  · simp [Keeps]
  · simp +contextual [Keeps]

end Sys2Proof.Machine
end

section
/-! SUPPORT. Scratches in canonical form: the end of a launch, placement, kills, faults, images, pre-emption and rollback. -/

namespace Sys2Proof.Machine

/-! ## LaunchEnd -/

@[simp] theorem State.writeBackAll_keeps (s : State) : Keeps s s.writeBackAll :=
  (foldl_scratch _ (fun s (c : Core) => State.l1CleanAll_keeps s c.id) _ _).trans
    (foldl_scratch _ (fun s (d : Die) => .of_teams (State.sendAll_teams s d.id _)) _ _)

@[simp] theorem State.endWrite_keeps (s : State) (v : Vf) (l : Launch) (w : Nat × List Byte) : Keeps s (s.endWrite v l w) := by
  have written := State.partWrite_keeps s v l.id w.1 (w.2.length + 1) w.2
  unfold State.endWrite
  split <;> rename_i e <;> rw [e] at written
  · exact written.trans (.of_teams (State.setLaunch_teams ..))
  · exact written.trans (.of_teams (by simp))
  · exact written.trans (.of_teams (State.setLaunch_teams ..))
  · exact written

@[simp] theorem State.forget_keeps (s : State) (l : Nat) : Keeps s (s.forget l) := fun fine => fine.filter _

@[simp] theorem State.finishLaunch_keeps (s : State) (l : Launch) : Keeps s (s.finishLaunch l) := by
  unfold State.finishLaunch
  extract_lets chain s1 s2
  have ended : Keeps s s2 := by
    refine Keeps.trans (u := s2) (t := s1) ?_ (.of_teams ?_)
    · exact (Keeps.of_teams (State.modQueue_teams ..)).trans (State.traceEvent_keeps _ _ _ _)
    · dsimp only [s2]
      split <;> simp
  exact ended.trans (State.forget_keeps _ _)

/-! ## Place -/

@[simp] theorem State.setCarve_keeps (s : State) (k : CoreId) (carve : Nat) : Keeps s (s.setCarve k carve) := by
  unfold State.setCarve
  dsimp only
  split
  · exact id
  · exact (foldl_scratch _ (fun s (x : L1Line) => State.l1Clean_keeps s k x.line _) _ _).trans (.of_teams (State.setCore_teams ..))

@[simp] theorem State.standTeam_keeps (s : State) (l t : Nat) : Keeps s (s.standTeam l t) := by
  unfold State.standTeam
  split
  · exact id
  · rename_i found
    exact State.setFound_keeps _ found rfl

@[simp] theorem State.placeTeam_keeps (s : State) (l : Launch) (t : Nat) (k : CoreId) : Keeps s (s.placeTeam l t k) := by
  unfold State.placeTeam
  split
  · exact id
  extract_lets s1 s2 s3 s4 s5
  have carved : Keeps s s1 := (State.setCarve_keeps s k l.packet.carve).trans (.of_teams (by simp [s1]))
  have emptied : Keeps s1 s2 := State.setTeam_keeps _ _ rfl
  have seated : Keeps s2 s3 := foldl_scratch _ (fun _ _ => .of_teams (State.seatCrew_teams ..)) _ _
  have begun : Keeps s3 s5 := by
    refine .of_teams ?_
    dsimp only [s5]
    split <;> simp [s4]
  exact carved.trans (emptied.trans (seated.trans (begun.trans
    ((State.standTeam_keeps _ _ _).trans (.of_teams (State.triggerDecision_teams ..))))))

theorem State.placeNext_keeps (s : State) (v : Vf) (l : Launch) (spread : Bool) {t' : State} :
    s.placeNext v l spread = some t' → Keeps s t' := by
  unfold State.placeNext
  split
  · simp
  · intro h
    obtain ⟨ks, -, rfl⟩ := Option.map_eq_some_iff.1 h
    exact foldl_scratch _ (fun s x => State.placeTeam_keeps _ _ _ _) _ _

theorem State.placeGrid_keeps (s : State) (v : Vf) (l : Launch) (spread : Bool) (x0 : Nat) {t' : State} :
    s.placeGrid v l spread x0 = some t' → Keeps s t' := by
  induction x0 generalizing s with
  | zero =>
    unfold State.placeGrid
    intro h
    split at h <;> cases h
    simp [Keeps]
  | succ n ih =>
    unfold State.placeGrid
    split
    · intro h; cases h; simp [Keeps]
    · intro h
      obtain ⟨u, hu, h⟩ := Option.bind_eq_some_iff.1 h
      exact (State.placeNext_keeps _ _ _ _ hu).trans (ih _ h)

theorem State.placeSome_keeps (s : State) (v : Vf) (l : Launch) {t' : State} (h : s.placeSome v l = some t') : Keeps s t' := by
  unfold State.placeSome at h
  split at h
  · exact State.placeNext_keeps s v l _ h
  split at h
  · rename_i placed
    cases h
    exact State.placeGrid_keeps s v l _ _ placed
  · exact State.placeGrid_keeps s v l _ _ h

@[simp] theorem State.takeWork_keeps (s : State) (t : ThreadId) : Keeps s (s.takeWork t).1 := by
  unfold State.takeWork
  split
  · rename_i found
    dsimp only
    split
    · split
      · exact State.setFound_keeps _ found rfl
      · exact id
    split
    · split
      · exact .of_teams (State.setLaunch_teams ..)
      · exact id
    · exact id
  · exact id

/-- The victim of a STEAL is one of the teams. -/
theorem stealVictim_mem {ts : List Team} {v : Team} (h : stealVictim ts = some v) : v ∈ ts := by
  refine List.foldlRecOn ts _ (motive := fun best => ∀ v, best = some v → v ∈ ts) (by simp) (fun best ih t ht v hv => ?_) v h
  split at hv
  · cases hv
    exact ht
  · dsimp only at hv
    split at hv
    · cases hv
      exact ht
    · exact ih v hv

/-- The team that gives work away and the one that takes it both keep their scratch. -/
@[simp] theorem State.takeSteal_keeps (s : State) (t : ThreadId) : Keeps s (s.takeSteal t).1 := by
  unfold State.takeSteal
  split
  · rename_i tm _ found
    split
    · exact id
    extract_lets vs
    split
    · exact id
    · rename_i v victim
      refine Keeps.trans (fun fine => ?_) (State.takeWork_keeps _ _)
      have given := (fine.filter _).wf v (stealVictim_mem victim)
      have own := State.team?_fine found fine
      exact State.setTeam_keeps _ _ own (State.setTeam_keeps _ _ given fine)
  · exact id

/-! ## Traps -/

theorem State.killTeam_keeps (s : State) (l now : Nat) (t : Team) (ht : t.scratch.wf = true) : Keeps s (s.killTeam l now t) := by
  unfold State.killTeam
  split
  · exact id
  · extract_lets s1
    have set : Keeps s s1 := State.setTeam_keeps s _ ht
    refine set.trans (.of_teams ?_)
    split <;> simp

@[simp] theorem State.retireTeams_keeps (s : State) (l : Nat) : Keeps s (s.retireTeams l) :=
  (foldl_scratch _ (fun s (x : Team) => State.tryRetire_keeps s l x.idx) _ _).trans (.of_teams (State.stir_teams _))

@[simp] theorem State.stopLaunch_keeps (s : State) (x : Launch) : Keeps s (s.stopLaunch x) := by
  unfold State.stopLaunch
  extract_lets l now s1 s2 s3 s4
  have killed : Keeps s s1 := fun fine =>
    foldl_teams_scratch _ (fine.filter _) s (fun s t ht => State.killTeam_keeps s l now t ht) fine
  have dropped : Keeps s1 s4 := .of_teams (by simp [s2, s3, s4])
  exact killed.trans (dropped.trans ((foldl_scratch _ (fun s (c : Crew) => .of_teams (State.crewLeave_teams s c.id)) _ _).trans
    (State.retireTeams_keeps _ _)))

/-! ## Faults -/

@[simp] theorem State.walkDone_keeps (s : State) (w : Walk) (v : Vf) : Keeps s (s.walkDone w v) := by
  unfold State.walkDone
  split
  · rename_i ptes _
    extract_lets x set
    exact (State.markPtes_keeps s w.die set ptes).trans (.of_teams (by simp))
  · refine .of_teams ?_
    dsimp only
    (repeat' split) <;> simp

@[simp] theorem State.failEng_keeps (s : State) (e : EngineOp) : Keeps s (s.failEng e) := by
  unfold State.failEng
  split
  · exact .of_teams (State.finishEng_teams ..)
  · exact id
  · exact id
  · exact State.stopJob_keeps _ _ _ _ _
  · exact .of_teams (State.finishEng_teams ..)
  · dsimp only
    split
    · exact State.readyAdd_keeps _ _ _ _
    · exact .of_teams (State.endTask_teams ..)

@[simp] theorem State.settleEngines_keeps (s : State) (r : FRec) (how : Settle) : Keeps s (s.settleEngines r how) := by
  refine foldl_scratch _ (fun s e => ?_) _ _
  split
  · exact .of_teams (State.setEng_teams ..)
  · exact State.failEng_keeps _ _

theorem State.settleLoads_teams (s : State) (r : FRec) (how : Settle) : (s.settleLoads r how).teams = s.teams := by
  refine foldl_teams _ _ _ (fun s x => ?_)
  split
  · split
    · split <;> simp
    · rfl
  · rfl

@[simp] theorem State.settleLacer_keeps (s : State) (r : FRec) (how : Settle) : Keeps s (s.settleLacer r how) := by
  unfold State.settleLacer
  refine foldl_scratch _ (fun s c => foldl_scratch _ (fun s e => ?_) _ _) _ _
  split
  · exact .of_teams (by simp)
  split
  · exact .of_teams (by simp)
  · exact State.abandonLoad_keeps _ _ _ _ _ _ _ (fun _ _ => .of_teams (by simp))
  · exact State.abandonLoad_keeps _ _ _ _ _ _ _ (fun _ _ => .of_teams (by simp))

@[simp] theorem State.settle_keeps (s : State) (r : FRec) (how : Settle) : Keeps s (s.settle r how) := by
  unfold State.settle
  extract_lets s1 s2 s3 s4
  have freed : Keeps s s2 := by
    refine .of_teams ?_
    dsimp only [s2]
    split <;> simp [s1]
  have engines : Keeps s2 s3 := Keeps.trans (.of_teams (by simp)) (State.settleEngines_keeps _ r how)
  have loads : Keeps s3 s4 := Keeps.trans (.of_teams (by simp [State.settleLoads_teams])) (State.settleLacer_keeps _ r how)
  exact freed.trans (engines.trans (loads.trans (.of_teams (by simp))))

@[simp] theorem State.recordWritten_keeps (s : State) (v : Vf) (r : FRec) : Keeps s (s.recordWritten v r) := by
  unfold State.recordWritten
  extract_lets n s1 gone s2 s3
  have written : Keeps s s3 := by
    refine .of_teams ?_
    dsimp only [s3]
    have same : s1.teams = s.teams := by
      dsimp only [s1]
      split <;> simp
    split <;> simp [s2, same]
  exact written.trans ((Keeps.of_teams (State.interrupt_teams ..)).trans (State.trace_keeps _ _ _ _ _ _))

/-! ## Image -/

/-- The scratch of a team read back from its image is empty, or holds the image's bytes one by one. -/
@[simp] theorem State.readImage_keeps (s : State) (tm : Team) (b : List Byte) : Keeps s (s.readImage tm b) := by
  unfold State.readImage
  extract_lets l t p th mine s1 s2 s3 s4 cs s5
  have team : Keeps s s1 := by
    refine State.setTeam_keeps _ _ ?_
    dsimp only
    split
    · rfl
    · exact Memory.putN_wf _ _ rfl
  have crews : Keeps s3 s4 := foldl_scratch _ (fun _ _ => .of_teams (State.setCrew_teams ..)) _ _
  have read : Keeps s s4 := team.trans (Keeps.trans (.of_teams (by simp [s3, s2])) crews)
  refine read.trans (.of_teams ?_)
  split <;> rfl

/-! ## Preempt -/

@[simp] theorem State.beginSave_keeps (s : State) (l q : Nat) (auto : Bool) : Keeps s (s.beginSave l q auto) :=
  fun fine => fine.map (fun t ht => by split <;> exact ht)

@[simp] theorem State.preemptLaunch_keeps (s : State) (l : Nat) : Keeps s (s.preemptLaunch l) :=
  foldl_scratch _ (fun s q => State.beginSave_keeps s l q false) _ _

@[simp] theorem State.imagePlaces_keeps (s : State) (v : Vf) (ts : List (Team × Nat)) : Keeps s (s.imagePlaces v ts).1 := by
  induction ts generalizing s with
  | nil => simp [Keeps, State.imagePlaces]
  | cons p ps ih =>
    unfold State.imagePlaces
    dsimp only
    split
    · simp [Keeps]
    split
    · exact (State.partPlaces_eq_keeps (by assumption)).trans (ih _)
    · exact State.partPlaces_eq_keeps (by assumption)

theorem State.imagePlaces_eq_keeps {s u : State} {v : Vf} {ts : List (Team × Nat)} {ps : List (List (GAddr × Nat))} {e : PartEnd}
    (h : s.imagePlaces v ts = (u, ps, e)) : Keeps s u := by
  have keeps := State.imagePlaces_keeps s v ts
  rwa [h] at keeps

/-- The teams with the places their images go to, each team's scratch canonical. -/
theorem State.writeImages_keeps (s : State) (v : Vf) (ts : List (Team × Nat)) (fine : ∀ x ∈ ts, x.1.scratch.wf = true) :
    Keeps s (s.writeImages v ts).st := by
  unfold State.writeImages
  split
  · rename_i ps h
    refine (State.imagePlaces_eq_keeps h).trans ?_
    refine List.foldlRecOn (ts.zip ps) _ (motive := fun b => Keeps _ b) id (fun u keep x hx => keep.trans ?_)
    refine Keeps.trans (fun fineU => State.setTeam_keeps u _ ?_ fineU) (State.partPut_keeps _ _ _)
    have saved := fine x.1 (List.of_mem_zip hx).1
    cases found : u.team? x.1.1.launch x.1.1.idx with
    | none => exact saved
    | some tm =>
      have own := State.team?_fine found fineU
      exact own
  · rw [PartEnd.answer_st]
    exact State.imagePlaces_eq_keeps (by assumption)

@[simp] theorem State.leaveCore_keeps (s : State) (t : Team) : Keeps s (s.leaveCore t) := by
  unfold State.leaveCore
  extract_lets k s1 c s2 s3
  have left : Keeps s s2 := (foldl_scratch _ (fun _ _ => .of_teams (State.setCrew_teams ..)) _ _).trans (.of_teams
      (State.setCore_teams ..))
  have swapped : Keeps s2 s3 := by
    dsimp only [s3]
    split
    · exact id
    · rename_i found
      exact State.setFound_keeps _ found rfl
  exact left.trans (swapped.trans (.of_teams (by simp)))

theorem State.quadTeams_fine {s : State} (fine : ScratchesFine s.teams) (l q : Nat) : ScratchesFine (s.quadTeams l q) :=
  fine.filter _

@[simp] theorem State.refuseSave_keeps (s : State) (vf l q : Nat) : Keeps s (s.refuseSave vf l q) := by
  unfold State.refuseSave
  extract_lets ts s1
  have resumed : Keeps s s1 := by
    refine fun fine => foldl_teams_scratch _ ((State.quadTeams_fine fine l q).filter _) s (fun s t ht => ?_) fine
    refine Keeps.trans (Keeps.trans ?_ (State.setTeam_keeps _ _ ?_)) (.of_teams (State.resumeTeam_teams ..))
    · exact foldl_scratch _ (fun _ _ => .of_teams (State.setCrew_teams ..)) _ _
    · exact ht
  refine resumed.trans (.of_teams ?_)
  split
  · rfl
  · split <;> simp

@[simp] theorem State.saveQuad_keeps (s : State) (v : Vf) (l q : Nat) : Keeps s (s.saveQuad v l q) := by
  unfold State.saveQuad
  extract_lets ts0 s1 s2 s3 ts slots
  have cleaned : Keeps s s3 := by
    refine Keeps.trans (t := s2) (.of_teams (by simp [s2, s1])) ?_
    exact foldl_scratch _ (fun s (t : Team) => (State.stashCleanTeam_keeps s l t.idx).trans (.of_teams (State.takeTags_teams ..))) _ _
  refine cleaned.trans ?_
  split
  · exact State.refuseSave_keeps _ _ _ _
  have written : Keeps s3 (s3.writeImages v (ts.zip slots)).st := fun fine =>
    State.writeImages_keeps s3 v _ (fun x hx => ((State.quadTeams_fine fine l q).filter _).wf _ (List.of_mem_zip hx).1) fine
  split <;> rename_i e <;> rw [e] at written
  · exact written.trans ((foldl_scratch _ (fun s t => State.leaveCore_keeps s t) _ _).trans (.of_teams (State.stir_teams _)))
  · exact written
  · exact written.trans (State.refuseSave_keeps _ _ _ _)
  · exact written.trans (State.refuseSave_keeps _ _ _ _)

/-- A team that comes to the package starts with an empty scratch. -/
@[simp] theorem State.takeOver_keeps (s : State) (v : Vf) (l : Nat) : Keeps s (s.takeOver v l) := by
  unfold State.takeOver
  split
  · refine fun fine => ScratchesFine.append fine ⟨fun m hm => ?_⟩
    obtain ⟨t, -, rfl⟩ := List.mem_map.1 hm
    rfl
  · exact id

@[simp] theorem State.allow_keeps (s : State) (l : Nat) : Keeps s (s.allow l) :=
  fun fine => fine.map (fun t ht => by split <;> exact ht)

theorem State.moveRequests_teams (s : State) (l t : Nat) (k : CoreId) : (s.moveRequests l t k).teams = s.teams := by rfl

theorem State.abandonEngines_teams (s : State) (l q : Nat) : (s.abandonEngines l q).teams = s.teams :=
  foldl_teams _ _ _ (fun s e => by simp)

theorem State.clearLacer_keeps (s : State) (l q : Nat) : Keeps s (s.clearLacer l q) :=
  foldl_scratch _ (fun _ _ => (Keeps.of_teams (State.requeueLacer_teams ..)).trans
    (foldl_scratch _ (fun s (r : LacerReq) => State.endOverlay_keeps s r.waits _ _) _ _)) _ _

@[simp] theorem State.restoreTeam_keeps (s : State) (l : Launch) (t : Nat) (k : CoreId) : Keeps s (s.restoreTeam l t k) := by
  unfold State.restoreTeam
  split
  · exact id
  rename_i tm found
  extract_lets s1 s2 s3 cs s4 s5 s6 s7 s8
  have carved : Keeps s s1 := (State.setCarve_keeps s k l.packet.carve).trans (.of_teams (by simp [s1]))
  have set : Keeps s s2 := fun fine => by
    have own := State.team?_fine found fine
    exact State.setTeam_keeps s1 _ own (carved fine)
  have tags : Keeps s2 s4 := Keeps.trans (t := s3) (.of_teams (State.acquireActs_teams ..))
    (foldl_scratch _ (fun _ _ => .of_teams (State.bringTags_teams ..)) _ _)
  have seated : Keeps s4 s5 := foldl_scratch _ (fun _ _ => .of_teams (State.seatCrew_teams ..)) _ _
  have moved : Keeps s5 s8 := .of_teams (by simp [s8, s7, s6, State.moveRequests_teams])
  exact set.trans (tags.trans (seated.trans (moved.trans
    ((State.standTeam_keeps _ _ _).trans (.of_teams (State.triggerDecision_teams ..))))))

@[simp] theorem State.imageOf_keeps (s : State) (v : Vf) (tm : Team) : Keeps s (s.imageOf v tm).st := by
  have h := State.partRead_keeps s v tm.launch (v.savebase + tm.image.getD 0 * v.savestride) 2 8
  unfold State.imageOf
  dsimp only
  split <;> rename_i e
  · rw [e] at h
    split
    · exact h
    · exact h.trans (State.partRead_keeps _ _ _ _ _ _)
  · exact h

@[simp] theorem State.readImages_keeps (s : State) (v : Vf) (ts : List Team) : Keeps s (s.readImages v ts).st := by
  induction ts generalizing s with
  | nil => simp [Keeps, State.readImages]
  | cons t ts ih =>
    have h := State.imageOf_keeps s v t
    unfold State.readImages
    split <;> rename_i e
    · rw [e] at h
      exact h.trans ((State.readImage_keeps _ _ _).trans (ih _))
    · exact h

@[simp] theorem State.landWord_keeps (s : State) (l t : Nat) (x : Nat × Word) : Keeps s (s.landWord l t x) := by
  refine (State.writeScratch_keeps s l t x.1 (bytesOf 4 x.2.toNat)).trans ?_
  dsimp only [State.landWord]
  split
  · exact id
  · rename_i found
    exact State.setFound_keeps _ found rfl

@[simp] theorem State.landLate_keeps (s : State) (l t : Nat) : Keeps s (s.landLate l t) := by
  unfold State.landLate
  split
  · simp [Keeps]
  split
  · simp [Keeps]
  rename_i tm _ _
  have all := State.tryAll_keeps s tm.late (fun s x => (s.stashTouch l t x.1).andThen (fun s _ => .ok (s.landWord l t x) ()))
    (fun s x => Tried.andThen_keeps (State.stashTouch_keeps _ _ _ _) (fun _ _ => (State.landWord_keeps _ _ _ _)))
  split
  · exact (Tried.eq_keeps all (by assumption)).trans ((State.startPinned_keeps _ _).trans (Keeps.of_teams
      (State.triggerDecision_teams ..)))
  · exact Tried.eq_keeps all (by assumption)

theorem State.returnTo_keeps (s : State) (l : Launch) (ts : List (Team × CoreId)) (fine : ∀ x ∈ ts, x.1.scratch.wf = true) :
    Keeps s (s.returnTo l ts) := by
  refine Keeps.trans ?_ (foldl_scratch _ (fun s t => State.landLate_keeps s l.id t) _ _)
  refine List.foldlRecOn ts _ (motive := fun b => Keeps s b) id (fun _ keep x hx => keep.trans ?_)
  split
  · exact State.setTeam_keeps _ _ (fine x hx)
  · exact State.restoreTeam_keeps _ _ _ _

/-! ## Reliability -/

@[simp] theorem State.writeSignals_keeps (s : State) (v : Vf) (x0 : List (Nat × Nat × Nat × Nat)) :
    Keeps s (s.writeSignals v x0) := by
  induction x0 generalizing s with
  | nil => simp [Keeps, State.writeSignals]
  | cons p ps ih =>
    have step (u : State) : Keeps u { u with intervals := modOldest v.id (fun i => { i with signals := ps }) u.intervals } := by
      simp [Keeps]
    unfold State.writeSignals
    dsimp only
    split
    · exact (IoRes.eq_keeps (State.partWrite_keeps _ _ _ _ _ _) (by assumption)).trans (by simp [Keeps])
    · exact (IoRes.eq_keeps (State.partWrite_keeps _ _ _ _ _ _) (by assumption)).trans ((step _).trans (ih _))
    · exact (IoRes.eq_keeps (State.partWrite_keeps _ _ _ _ _ _) (by assumption)).trans ((step _).trans (ih _))
    · exact IoRes.eq_keeps (State.partWrite_keeps _ _ _ _ _ _) (by assumption)

@[simp] theorem State.dropUnderWay_keeps (s : State) (vf : Nat) (lines : List Nat) : Keeps s (s.dropUnderWay vf lines) := by
  unfold State.dropUnderWay
  extract_lets mine s1 gone s2
  have sent : Keeps s s1 := foldl_scratch _ (fun s r => .of_teams (by split <;> simp)) _ _
  have dropped : Keeps s1 s2 := fun fine => ScratchesFine.map (ts := s1.teams) fine (fun t ht => by split <;> exact ht)
  exact sent.trans (dropped.trans (foldl_scratch _ (fun s (e : EngineOp) => .of_teams (State.freeHatch_teams s e.no)) _ _))

@[simp] theorem State.stopAndForget_keeps (s : State) (x : Launch) : Keeps s (s.stopAndForget x) := by
  unfold State.stopAndForget
  extract_lets s1
  have freed : Keeps s s1 := by
    refine .of_teams ?_
    dsimp only [s1]
    split
    · split <;> simp
    · rfl
  exact freed.trans ((State.stopLaunch_keeps _ _).trans (State.forget_keeps _ _))

@[simp] theorem State.rollback_keeps (s : State) (v : Vf) (bad : FaultLoc) : Keeps s (s.rollback v bad) := by
  unfold State.rollback
  extract_lets is us log at_ s1 s2 s3 s4 again s5
  have stopped : Keeps s1 s2 := foldl_scratch _ (fun s x => State.stopAndForget_keeps s x) _ _
  have restored : Keeps s2 s3 := foldl_scratch _ (fun s x => Keeps.of_teams (State.restoreLine_teams s x)) _ _
  have rewound : Keeps s3 s5 := by
    refine .of_teams (Eq.trans (b := s4.teams) rfl ?_)
    dsimp only [s4]
    split <;> simp
  exact (State.dropUnderWay_keeps _ _ _).trans (stopped.trans (restored.trans (rewound.trans
    ((Keeps.of_teams (State.preemptDone_teams ..)).trans ((State.traceEvent_keeps _ _ _ _).trans (.of_teams (State.stir_teams _)))))))

@[simp] theorem State.masterWrite_keeps (s : State) (v : Vf) (x : Nat × Nat × Nat × List Byte)
    (rest : List (Nat × Nat × Nat × List Byte)) :
    Keeps s (s.masterWrite v x rest) := by
  have write (r : IoRes) (h : (s.masterTouch v.id).partWrite v 0 x.2.2.1 (x.2.2.2.length + 1) x.2.2.2 = r) : Keeps s r.st :=
    h ▸ (Keeps.of_teams (State.masterTouch_teams s v.id)).trans (State.partWrite_keeps _ _ _ _ _ _)
  unfold State.masterWrite
  dsimp only
  split <;> exact write _ (by assumption)

/-! ## HostOps -/

@[simp] theorem State.forgetVf_keeps (s : State) (vf : Nat) : Keeps s (s.forgetVf vf) := by
  refine Keeps.trans (foldl_scratch _ (fun s r => .of_teams ?_) _ _) (foldl_scratch _ (fun s
      (l : Launch) => State.forget_keeps s l.id) _ _)
  split <;> simp

end Sys2Proof.Machine
end

section
/-! SUPPORT. Scratches in canonical form: the words that need more than the shape they share. -/

namespace Sys2Proof.Machine

/-! ## Words -/

theorem crewWord_keeps (sp : Bool) (ops : List Opnd) (d a : Reg) (s : State) (f : List (Option Word) → Thread → Word × BitVec 5) :
    KeepsOut s (crewWord sp ops d a s f) :=
  issue_keeps_of_teams _ _ _ _ _ (fun s => State.converge_teams s _ (State.convergeAll_teams s _))

theorem branch_keeps (sp : Bool) (a : Reg) (off : BitVec 17) (s : State) (c : Int → Bool) : KeepsOut s (branch sp a off s c) :=
  issue_keeps_of_teams _ _ _ _ _ (fun s => by split <;> simp)

theorem scratchLoad_keeps (n w : Nat) (sp : Bool) (d a : Reg) (s : State) : KeepsOut s (scratchLoad n w sp d a s) :=
  issue_keeps _ _ _ _ _ (fun _ => State.loadThread_keeps _ _ _ _ _ _ _)

theorem scratchStore_keeps (n w : Nat) (sp : Bool) (d a : Reg) (s : State) : KeepsOut s (scratchStore n w sp d a s) :=
  issue_keeps _ _ _ _ _ (fun _ => State.storeThread_keeps _ _ _ _)

@[simp] theorem State.ldu_keeps (s : State) (ea : DWord) (d : Reg) : Keeps s (s.ldu ea d) := by
  have second (u : State) : Keeps u (Part.st u (if ea.toNat % 8 = 0 then Part.bytes u [] else u.lduPart ((ea &&& ~~~7) + 8))) := by
    split
    · exact id
    · exact State.lduPart_keeps _ _
  have first := State.lduPart_keeps s (ea &&& ~~~7)
  unfold State.ldu
  dsimp only
  cases e1 : s.lduPart (ea &&& ~~~7) with
  | stop u => exact Part.eq_keeps first e1
  | bytes u bs =>
    refine (Part.eq_keeps first e1).trans ?_
    have next := second u
    dsimp only
    generalize (if ea.toNat % 8 = 0 then Part.bytes u [] else u.lduPart ((ea &&& ~~~7) + 8)) = p at next ⊢
    cases p with
    | stop w => exact next
    | bytes w cs => exact Keeps.trans next (.of_teams (by dsimp only; split <;> simp))
    | glob g =>
      have read := State.lduGlobal_keeps (u.enqueue d 2) s.curCore (crewOf s.cur.id) g 8
      exact Keeps.trans read (.of_teams (by dsimp only; split <;> simp))
  | glob g =>
    have next := second s
    dsimp only
    generalize (if ea.toNat % 8 = 0 then Part.bytes s [] else s.lduPart ((ea &&& ~~~7) + 8)) = p at next ⊢
    cases p with
    | stop w => exact next
    | bytes w cs =>
      have read := State.lduGlobal_keeps (w.enqueue d 2) s.curCore (crewOf s.cur.id) g 0
      exact Keeps.trans next (Keeps.trans read (.of_teams (by dsimp only; split <;> simp)))
    | glob g' =>
      have read := State.lduGlobal_keeps (s.enqueue d 2) s.curCore (crewOf s.cur.id) g 0
      have reread := State.lduGlobal_keeps ((s.enqueue d 2).lduGlobal s.curCore (crewOf s.cur.id) g 0).1 s.curCore (crewOf s.cur.id) g' 8
      exact Keeps.trans read (Keeps.trans reread (.of_teams (by dsimp only; split <;> simp)))

theorem State.barrierWord_keeps (s : State) (sc : BitVec 3) (a : Reg) (k : State → Nat → Nat → State)
    (hk : ∀ s owner id, Keeps s (k s owner id)) : Keeps s (s.barrierWord sc a k) := by
  unfold State.barrierWord
  dsimp only
  split
  · exact .of_teams (State.raise_teams ..)
  split
  · exact .of_teams (State.barSpill_teams ..)
  · rename_i used
    refine Keeps.trans (.of_teams ?_) (hk _ _ _)
    rw [State.endSpill_teams]
    exact State.useBarrier_teams _ _ _ _ _ used

theorem execBra_keeps (sp : Bool) (off : BitVec 17) (s : State) : KeepsOut s (execBra sp off s) :=
  issue_keeps_of_teams _ _ _ _ _ (fun s => by simp)

theorem execJmp_keeps (sp : Bool) (off : BitVec 25) (s : State) : KeepsOut s (execJmp sp off s) :=
  issue_keeps_of_teams _ _ _ _ _ (fun s => by simp)

theorem execCall_keeps (sp : Bool) (off : BitVec 25) (s : State) : KeepsOut s (execCall sp off s) :=
  issue_keeps_of_teams _ _ _ _ _ (fun s => by
    split
    · simp
    · split <;> simp)

theorem execFence_keeps (sp : Bool) (kind : BitVec 2) (sc : BitVec 3) (s : State) : KeepsOut s (execFence sp kind sc s) := by
  refine issue_keeps _ _ _ _ _ (fun s => ?_)
  extract_lets t scope s1
  have released : Keeps s s1 := by
    dsimp only [s1]
    split
    · exact State.releaseActs_keeps _ _ _ _
    · exact id
  refine released.trans (.of_teams ?_)
  split
  · exact State.parkCur_teams ..
  · split <;> simp

theorem execLdsc_keeps (sp : Bool) (d a : Reg) (s : State) : KeepsOut s (execLdsc sp d a s) :=
  issue_keeps _ _ _ _ _ (fun _ => State.scWord_keeps _ _ _ _ _ _ _ _)

theorem execStsc_keeps (sp : Bool) (a b : Reg) (s : State) : KeepsOut s (execStsc sp a b s) :=
  issue_keeps _ _ _ _ _ (fun _ => State.scWord_keeps _ _ _ _ _ _ _ _)

theorem execCassc_keeps (sp : Bool) (d a b : Reg) (s : State) : KeepsOut s (execCassc sp d a b s) :=
  issue_keeps _ _ _ _ _ (fun _ => State.scWord_keeps _ _ _ _ _ _ _ _)

theorem execBar_keeps (_sp : Bool) (a : Reg) (sc : BitVec 3) (s : State) : KeepsOut s (execBar _sp a sc s) :=
  issue_keeps _ _ _ _ _ (fun s => State.barrierWord_keeps _ _ _ _ (fun s _ _ =>
    State.arrive_keeps s _ _ _ _ _ (fun s => .of_teams (by simp))))

theorem execBara_keeps (sp : Bool) (a : Reg) (sc : BitVec 3) (s : State) : KeepsOut s (execBara sp a sc s) :=
  issue_keeps _ _ _ _ _ (fun s => State.barrierWord_keeps _ _ _ _ (fun s _ _ =>
    State.arrive_keeps s _ _ _ _ _ (fun s => .of_teams (by simp))))

theorem execBarw_keeps (_sp : Bool) (a : Reg) (sc : BitVec 3) (s : State) : KeepsOut s (execBarw _sp a sc s) :=
  issue_keeps _ _ _ _ _ (fun s => State.barrierWord_keeps _ _ _ _ (fun s owner id => .of_teams (by dsimp only; split <;> simp)))

theorem execBarinit_keeps (sp : Bool) (d a : Reg) (sc : BitVec 3) (s : State) : KeepsOut s (execBarinit sp d a sc s) :=
  issue_keeps _ _ _ _ _ (fun s => State.barrierWord_keeps _ _ _ _ (fun s owner id => .of_teams (by dsimp only; split <;> simp)))

theorem execCbcast_keeps (sp : Bool) (d a b : Reg) (s : State) : KeepsOut s (execCbcast sp d a b s) :=
  issue_keeps_of_teams _ _ _ _ _ (fun s => State.converge_teams s _ (by simp))

theorem execQld32_keeps (sp : Bool) (d a : Reg) (s : State) : KeepsOut s (execQld32 sp d a s) :=
  issue_keeps _ _ _ _ _ (fun s => by
    dsimp only
    split
    · exact .of_teams (State.raise_teams ..)
    · exact State.loadThread_keeps _ _ _ _ _ _ _)

theorem execQst32_keeps (sp : Bool) (d a : Reg) (s : State) : KeepsOut s (execQst32 sp d a s) :=
  issue_keeps _ _ _ _ _ (fun s => by
    dsimp only
    split
    · exact .of_teams (State.raise_teams ..)
    · exact State.storeThread_keeps _ _ _ _)

theorem execLease_keeps (sp : Bool) (a : Reg) (s : State) : KeepsOut s (execLease sp a s) :=
  issue_keeps_of_teams _ _ _ _ _ (fun s => State.converge_teams s _ (by simp))

theorem execLeasem_keeps (sp : Bool) (a : Reg) (s : State) : KeepsOut s (execLeasem sp a s) :=
  issue_keeps_of_teams _ _ _ _ _ (fun s => State.converge_teams s _ (by simp))

theorem execExit_keeps (_sp : Bool) (s : State) : KeepsOut s (execExit _sp s) :=
  issue_keeps _ _ _ _ _ (fun _ => State.endThread_keeps _)

theorem execRecfl_keeps (sp : Bool) (d a : Reg) (s : State) : KeepsOut s (execRecfl sp d a s) :=
  issue_keeps _ _ _ _ _ (fun s => State.withRight_keeps _ _ _ (.of_teams (by split <;> simp)))

theorem execTask_keeps (sp : Bool) (d a : Reg) (s : State) : KeepsOut s (execTask sp d a s) := by
  refine issue_keeps _ _ _ _ _ (fun s => ?_)
  dsimp only
  split
  · exact .of_teams (State.quick_teams ..)
  split
  · exact .of_teams (State.parkCur_teams ..)
  split
  · exact .of_teams (State.parkCur_teams ..)
  split <;> refine (Tried.eq_keeps (State.stashTouch_keeps _ _ _ _) (by assumption)).trans (.of_teams ?_)
  · exact State.parkCur_teams ..
  · split <;> simp

theorem execDprog_keeps (sp : Bool) (d a b : Reg) (s : State) : KeepsOut s (execDprog sp d a b s) :=
  issue_keeps_of_teams _ _ _ _ _ (fun s => by dsimp only; (repeat' split) <;> simp)

theorem execDjob_keeps (sp : Bool) (d a : Reg) (s : State) : KeepsOut s (execDjob sp d a s) :=
  issue_keeps _ _ _ _ _ (fun _ => State.withRight_keeps _ _ _ (State.djob_keeps _ _ _))

theorem execOvrel_keeps (sp : Bool) (a : Reg) (s : State) : KeepsOut s (execOvrel sp a s) :=
  issue_keeps _ _ _ _ _ (fun s => (State.giveToken_keeps s _ _ _).trans (.of_teams (State.advance_teams _)))

theorem execOvq_keeps (sp : Bool) (d a : Reg) (s : State) : KeepsOut s (execOvq sp d a s) :=
  issue_keeps_of_teams _ _ _ _ _ (fun s => by
    dsimp only
    split <;> simp)

theorem execSmap_keeps (sp : Bool) (d a b : Reg) (s : State) : KeepsOut s (execSmap sp d a b s) := by
  refine issue_keeps _ _ _ _ _ (fun s => ?_)
  dsimp only
  split
  · exact .of_teams (State.quick_teams ..)
  rename_i found
  split
  · exact .of_teams (State.quick_teams ..)
  split
  · exact .of_teams (State.quick_teams ..)
  split
  · exact .of_teams (State.quick_teams ..)
  split
  · exact .of_teams (State.quick_teams ..)
  · refine Keeps.trans ?_ (.of_teams (State.quick_teams ..))
    exact State.setFound_keeps _ found rfl

theorem execSunmap_keeps (sp : Bool) (d a : Reg) (s : State) : KeepsOut s (execSunmap sp d a s) := by
  refine issue_keeps _ _ _ _ _ (fun s => ?_)
  extract_lets off
  split
  · exact .of_teams (State.quick_teams ..)
  split
  · exact .of_teams (State.quick_teams ..)
  extract_lets s1
  have cleaned : Keeps s s1 := by
    refine foldl_scratch _ (fun s f => ?_) _ s
    dsimp only
    split
    · exact (State.stashClean_keeps _ _ _ _ _ _).trans (State.stashOut_keeps _ _ _ _)
    · exact State.stashClean_keeps _ _ _ _ _ _
  refine cleaned.trans (Keeps.trans ?_ (.of_teams (State.quick_teams ..)))
  split
  · exact id
  · rename_i found
    exact State.setFound_keeps _ found rfl

theorem execCload_keeps (sp : Bool) (d a b : Reg) (s : State) : KeepsOut s (execCload sp d a b s) :=
  issue_keeps _ _ _ _ _ (fun s => State.withSlot_keeps _ _ _ (fun x =>
    Keeps.trans (.of_teams (by simp)) (State.tryLoad_keeps _ _)))

theorem execCrun_keeps (sp : Bool) (d a b : Reg) (s : State) : KeepsOut s (execCrun sp d a b s) :=
  issue_keeps _ _ _ _ _ (fun s => State.withSlot_keeps _ _ _ (fun x => .of_teams (by dsimp only; (repeat' split) <;> simp)))

theorem execSinit_keeps (sp : Bool) (s : State) : KeepsOut s (execSinit sp s) :=
  issue_keeps _ _ _ _ _ (fun s => State.withSlot_keeps _ _ _ (fun x => .of_teams (by simp)))

theorem execSfold_keeps (sp : Bool) (a b : Reg) (s : State) : KeepsOut s (execSfold sp a b s) :=
  issue_keeps _ _ _ _ _ (fun s => State.withSlot_keeps _ _ _ (fun x => .of_teams (by simp)))

theorem execSget_keeps (sp : Bool) (d : Reg) (s : State) : KeepsOut s (execSget sp d s) :=
  issue_keeps _ _ _ _ _ (fun s => State.withSlot_keeps _ _ _ (fun x => .of_teams (by simp)))

theorem execProof_keeps (sp : Bool) (d a b : Reg) (s : State) : KeepsOut s (execProof sp d a b s) :=
  issue_keeps _ _ _ _ _ (fun _ => proofWord_keeps _ _ _ _ _ _)

theorem execProofq_keeps (sp : Bool) (d a : Reg) (s : State) : KeepsOut s (execProofq sp d a s) :=
  issue_keeps _ _ _ _ _ (fun _ => proofWord_keeps _ _ _ _ _ _)

theorem execNop_keeps (sp : Bool) (s : State) : KeepsOut s (execNop sp s) :=
  issue_keeps_of_teams _ _ _ _ _ (fun s => by simp)

theorem execRds_keeps (sp : Bool) (d : Reg) (sel : BitVec 7) (s : State) : KeepsOut s (execRds sp d sel s) :=
  issue_keeps_of_teams _ _ _ _ _ (fun s => by
    dsimp only
    split
    · simp
    · split <;> simp)

theorem execWrs_keeps (sp : Bool) (a : Reg) (sel : BitVec 7) (s : State) : KeepsOut s (execWrs sp a sel s) :=
  issue_keeps_of_teams _ _ _ _ _ (fun s => by dsimp only; (repeat' split) <;> simp)

theorem execWin_keeps (sp : Bool) (a : Reg) (s : State) : KeepsOut s (execWin sp a s) :=
  issue_keeps_of_teams _ _ _ _ _ (fun s => by dsimp only; split <;> simp)

theorem execRet_keeps (sp : Bool) (s : State) : KeepsOut s (execRet sp s) :=
  issue_keeps_of_teams _ _ _ _ _ (fun s => by simp)

theorem execTrap_keeps (sp : Bool) (b : BitVec 7) (s : State) : KeepsOut s (execTrap sp b s) :=
  issue_keeps_of_teams _ _ _ _ _ (fun s => by simp)

theorem execTret_keeps (sp : Bool) (s : State) : KeepsOut s (execTret sp s) :=
  issue_keeps_of_teams _ _ _ _ _ (fun s => by
    split
    · simp
    · split <;> simp)

theorem execBkpt_keeps (sp : Bool) (s : State) : KeepsOut s (execBkpt sp s) :=
  issue_keeps_of_teams _ _ _ _ _ (fun s => by
    dsimp only
    split
    · simp
    · split <;> simp)

theorem execLaunch_keeps (sp : Bool) (d a b : Reg) (s : State) : KeepsOut s (execLaunch sp d a b s) := by
  refine issue_keeps _ _ _ _ _ (fun s => ?_)
  extract_lets t q addr s1
  refine (State.releaseActs_keeps s t.launch t.team 4).trans ?_
  split
  · exact .of_teams (State.parkCur_teams ..)
  have tried := State.launchTry_keeps s1 s1.curCore t q addr none
  split <;> rename_i e <;> rw [e] at tried
  all_goals exact tried.trans (.of_teams (by simp))

theorem execLdu_keeps (sp : Bool) (d a : Reg) (s : State) : KeepsOut s (execLdu sp d a s) := by
  refine issue_keeps _ _ _ _ _ (fun s => ?_)
  split
  · exact State.ldu_keeps _ _ _
  · exact .of_teams (State.raise_teams ..)

theorem execOcall_keeps (sp : Bool) (b : Reg) (s : State) : KeepsOut s (execOcall sp b s) :=
  issue_keeps_of_teams _ _ _ _ _ (fun s => by split <;> simp)

theorem execPref_keeps (sp : Bool) (a : Reg) (s : State) : KeepsOut s (execPref sp a s) :=
  issue_keeps_of_teams _ _ _ _ _ (fun s => by
    dsimp only
    rw [State.advance_teams]
    (repeat' split) <;> simp)

theorem execReservedHint_keeps (sp : Bool) (_f : BitVec 5) (_d _a _b : Reg) (s : State) :
    KeepsOut s (execReservedHint sp _f _d _a _b s) :=
  issue_keeps_of_teams _ _ _ _ _ (fun s => by simp)

end Sys2Proof.Machine
end

section
/-! SUPPORT. Scratches in canonical form: the events. -/

namespace Sys2Proof.Machine

theorem Keeps.out {s t : State} {o : Host.Outcome State Fault Refusal} (h : Keeps s t) (h' : KeepsOut t o) : KeepsOut s o := by
  cases o with
  | next u => exact h.trans h'
  | fault f => trivial
  | refused r => trivial

/-! ## Events -/

theorem execIllegalWordFetch_keeps (f : FetchFault) (s : State) : KeepsOut s (execIllegalWordFetch f s) := by
  dsimp only [execIllegalWordFetch]
  (repeat' split) <;> exact .of_teams (by simp)

theorem execReformBoundary_keeps (d : Nat) (s : State) : KeepsOut s (execReformBoundary d s) := by
  dsimp only [execReformBoundary]
  (repeat' split) <;> exact .of_teams (by simp)

theorem execLongLatencyReply_keeps (req : Nat) (s : State) : KeepsOut s (execLongLatencyReply req s) := by
  dsimp only [execLongLatencyReply]
  (repeat' split) <;> exact .of_teams (by simp)

theorem execSwitchPointLeave_keeps (t : ThreadId) (s : State) : KeepsOut s (execSwitchPointLeave t s) := by
  dsimp only [execSwitchPointLeave]
  (repeat' split) <;> exact .of_teams (by simp)

theorem execCrewdivDetect_keeps (c : CrewId) (s : State) : KeepsOut s (execCrewdivDetect c s) := by
  unfold execCrewdivDetect
  split
  · exact id
  · refine .of_teams (Eq.trans (foldl_teams _ _ _ (fun s t => ?_)) (State.fresh_teams s))
    split <;> simp

theorem execTrapTaken_keeps (c : CrewId) (s : State) : KeepsOut s (execTrapTaken c s) := by
  dsimp only [execTrapTaken]
  (repeat' split) <;> exact .of_teams (by simp)

theorem execLaunchKill_keeps (l : Nat) (s : State) : KeepsOut s (execLaunchKill l s) := by
  unfold execLaunchKill
  split
  · exact id
  split
  · exact id
  split
  · split
    · exact Keeps.trans (.of_teams (State.dropEngines_teams ..)) (State.retireTeams_keeps _ _)
    · exact id
  split
  · exact State.stopLaunch_keeps _ _
  split
  · exact Keeps.trans (.of_teams (State.takePermit_teams ..)) (State.stopLaunch_keeps _ _)
  · exact id

theorem execPermitBackoffExpiry_keeps (t : ThreadId) (s : State) : KeepsOut s (execPermitBackoffExpiry t s) := by
  dsimp only [execPermitBackoffExpiry]
  (repeat' split) <;> exact .of_teams (by simp)

theorem execLacerLoadDecision_keeps (k : CoreId) (s : State) : KeepsOut s (execLacerLoadDecision k s) := by
  unfold execLacerLoadDecision
  split
  · exact id
  dsimp only
  split
  · exact .of_teams (State.popLacer_teams ..)
  split
  · exact .of_teams (by split <;> simp)
  · split
    · exact Keeps.trans (.of_teams (by simp)) (State.endOverlay_keeps _ _ _ _)
    · exact .of_teams (by split <;> simp)
  · split
    · exact .of_teams (by split <;> simp)
    split
    · exact Keeps.trans (.of_teams (State.popLacer_teams ..)) (State.endOverlay_keeps _ _ _ _)
    · exact id

theorem execSegmentLoadComplete_keeps (k : CoreId) (entry : Nat) (s : State) : KeepsOut s (execSegmentLoadComplete k entry s) := by
  unfold execSegmentLoadComplete
  split
  · exact id
  rename_i e _
  split
  · split
    · exact id
    split <;> refine (SegRead.eq_keeps (State.segRead_keeps _ _ _ _ _ _) (by assumption)).out ?_
    · exact State.endSegLoad_keeps _ _ _ _
    · exact id
    · exact State.abandonLoad_keeps _ _ _ _ _ _ _ (fun _ _ => .of_teams (by simp))
    · rename_i u va lv _
      have faulted := State.agentFault_teams u k e.owner va 4 lv
      generalize u.agentFault k e.owner va 4 lv = p at faulted ⊢
      exact .of_teams ((State.modSeg_teams ..).trans faulted)
  · exact id

theorem execOvfullTimeout_keeps (k : CoreId) (s : State) : KeepsOut s (execOvfullTimeout k s) := by
  dsimp only [execOvfullTimeout]
  (repeat' split) <;> exact .of_teams (by simp)

theorem execPacketServe_keeps (vf q : Nat) (s : State) : KeepsOut s (execPacketServe vf q s) := by
  unfold execPacketServe
  split
  · exact id
  dsimp only
  split
  · exact id
  split
  · exact State.refusalWrite_keeps _ _ _ _ _
  split
  · split
    · exact State.readConsts_keeps _ _ _ _ _
    · exact id
  split
  · exact id
  split
  · exact State.servePacket_keeps _ _ _ _ _ _
  split <;> refine (Tried.eq_keeps (State.seePrios_keeps _ _) (by assumption)).out ?_
  · exact id
  split
  · exact id
  split
  · exact .of_teams (by split <;> simp)
  · exact State.servePacket_keeps _ _ _ _ _ _

theorem execTeamPlacement_keeps (l : Nat) (s : State) : KeepsOut s (execTeamPlacement l s) := by
  unfold execTeamPlacement
  split
  · exact id
  split
  · exact id
  split
  · exact id
  · cases placed : s.placeSome _ _ with
    | none => exact id
    | some t => exact State.placeSome_keeps _ _ _ placed

theorem execLaunchEnd_keeps (l : Nat) (s : State) : KeepsOut s (execLaunchEnd l s) := by
  unfold execLaunchEnd
  split
  · exact id
  split
  · exact id
  split
  · exact id
  split
  · exact .of_teams (by split <;> simp)
  split
  · exact State.endWrite_keeps _ _ _ _
  split
  · exact .of_teams (by split <;> simp)
  · exact (State.writeBackAll_keeps s).trans (.of_teams (by simp))
  · exact .of_teams (by split <;> simp)
  · refine .of_teams ?_
    rw [State.signalStep_teams]
    split
    · split <;> simp
    · rfl
  · exact State.finishLaunch_keeps _ _

theorem execActivationDecision_keeps (k : CoreId) (s : State) : KeepsOut s (execActivationDecision k s) := by
  dsimp only [execActivationDecision]
  (repeat' split) <;> exact .of_teams (by simp)

theorem execDueCountExpiry_keeps (c : CrewId) (s : State) : KeepsOut s (execDueCountExpiry c s) := by
  dsimp only [execDueCountExpiry]
  (repeat' split) <;> exact .of_teams (by simp)

theorem execLeaseWindowExpiry_keeps (c : CrewId) (s : State) : KeepsOut s (execLeaseWindowExpiry c s) := by
  dsimp only [execLeaseWindowExpiry]
  (repeat' split) <;> exact .of_teams (by simp)

theorem execL1WritebackTimer_keeps (k : CoreId) (line : Nat) (s : State) : KeepsOut s (execL1WritebackTimer k line s) := by
  unfold execL1WritebackTimer
  split
  · split
    · exact State.l1Clean_keeps _ _ _ _
    · exact id
  · exact id

theorem execPageWalkComplete_keeps (walk : Nat) (s : State) : KeepsOut s (execPageWalkComplete walk s) := by
  unfold execPageWalkComplete
  split
  · exact id
  extract_lets back s1
  split
  · exact .of_teams (by simp [s1])
  extract_lets s2
  split
  · exact Keeps.trans (State.flushWalk_keeps s1 _ _) (Keeps.trans (.of_teams (State.walked_teams ..)) (State.walkDone_keeps _ _ _))
  · exact id

theorem execFaultRecordWrite_keeps (vf : Nat) (s : State) : KeepsOut s (execFaultRecordWrite vf s) := by
  unfold execFaultRecordWrite
  split
  · split
    · exact State.settle_keeps _ _ _
    split
    · exact id
    split <;> refine (IoRes.eq_keeps (State.partWrite_keeps _ _ _ _ _ _) (by assumption)).trans ?_
    · exact State.recordWritten_keeps _ _ _
    · exact State.settle_keeps _ _ _
    · exact State.settle_keeps _ _ _
    · exact id
  · exact id

theorem execAtomicPerform_keeps (req : Nat) (s : State) : KeepsOut s (execAtomicPerform req s) := by
  unfold execAtomicPerform
  split
  · exact id
  split
  · split
    · exact Tried.eq_keeps (State.atomAct_keeps _ _ _ _ _ _ _ _) (by assumption)
    · exact (Tried.eq_keeps (State.atomAct_keeps _ _ _ _ _ _ _ _) (by assumption)).trans (.of_teams (by simp))
  · split
    · exact Tried.eq_keeps (State.atomAct_keeps _ _ _ _ _ _ _ _) (by assumption)
    · exact (Tried.eq_keeps (State.atomAct_keeps _ _ _ _ _ _ _ _) (by assumption)).trans (.of_teams (by simp))
  · exact id

theorem execScAccessPerform_keeps (req : Nat) (s : State) : KeepsOut s (execScAccessPerform req s) := by
  unfold execScAccessPerform
  split
  · exact id
  split
  · dsimp only
    split
    · split <;> simp +contextual [KeepsOut, Keeps]
    · exact id
  · exact id

theorem execScClockPublish_keeps (k : CoreId) (s : State) : KeepsOut s (execScClockPublish k s) :=
  .of_teams (by simp)

theorem execMonitorReread_keeps (t : ThreadId) (s : State) : KeepsOut s (execMonitorReread t s) := by
  unfold execMonitorReread
  split
  · split
    · exact State.watchStep_keeps _ _
    · exact id
  · exact id

theorem execWaitcPollTimer_keeps (t : ThreadId) (s : State) : KeepsOut s (execWaitcPollTimer t s) := by
  unfold execWaitcPollTimer
  split
  · split
    · split
      · exact Keeps.trans (.of_teams (State.modThread_teams ..)) (State.watchStep_keeps _ _)
      · rename_i read
        obtain ⟨x, -, read⟩ := Option.map_eq_some_iff.1 read
        exact Tried.eq_keeps (State.watchRead_keeps _ _ _) read
      · exact id
    · exact id
  · exact id

theorem execRedtoDelivery_keeps (req : Nat) (s : State) : KeepsOut s (execRedtoDelivery req s) := by
  unfold execRedtoDelivery
  split
  · exact id
  dsimp only
  split
  · exact id
  split
  · split
    · exact Tried.eq_keeps (State.deliver_keeps _ _) (by assumption)
    · exact (Tried.eq_keeps (State.deliver_keeps _ _) (by assumption)).trans (.of_teams (by simp))
  split
  · exact .of_teams (by simp)
  · rename_i used
    refine (Keeps.of_teams (State.useBarrier_teams _ _ _ _ _ used)).out ?_
    split
    · exact Tried.eq_keeps (State.deliver_keeps _ _) (by assumption)
    · exact (Tried.eq_keeps (State.deliver_keeps _ _) (by assumption)).trans (.of_teams (by simp))

theorem execBarrierArrival_keeps (arr : Nat) (s : State) : KeepsOut s (execBarrierArrival arr s) := by
  unfold execBarrierArrival
  split
  · exact .of_teams (State.groupArrivals_teams _)
  split
  · exact .of_teams (by split <;> simp)
  · rename_i used
    exact Keeps.trans (.of_teams (State.useBarrier_teams _ _ _ _ _ used)) (.of_teams (by simp))

theorem execWorkPieceServe_keeps (req : Nat) (s : State) : KeepsOut s (execWorkPieceServe req s) := by
  unfold execWorkPieceServe
  split
  · exact id
  split
  · exact id
  split
  · simp +contextual [KeepsOut, Keeps]
  · simp +contextual [KeepsOut, Keeps]
  · exact id

theorem execEngineOpBegin_keeps (op : Nat) (s : State) : KeepsOut s (execEngineOpBegin op s) := by
  unfold execEngineOpBegin
  split
  · exact id
  split
  · exact .of_teams (by split <;> simp)
  split
  · exact id
  split
  · exact State.beginCopy_keeps _ _ _ _ _ _ _
  · exact .of_teams (by simp)
  · exact State.beginDprog_keeps _ _ _ _
  · exact State.beginJob_keeps _ _ _ _
  · exact .of_teams (by simp)
  · exact id

theorem execEngineRetire_keeps (op : Nat) (s : State) : KeepsOut s (execEngineRetire op s) := by
  unfold execEngineRetire
  split
  · exact id
  split
  · exact id
  · exact Keeps.trans (.of_teams (by simp)) (State.tryRetire_keeps _ _ _)

theorem execSkiverJobStop_keeps (op : Nat) (s : State) : KeepsOut s (execSkiverJobStop op s) := by
  unfold execSkiverJobStop
  split
  · exact id
  split
  · split
    · exact id
    · exact IoRes.next_keeps s _ _ _ _ _ (State.engWrite_keeps _ _ _ _ _ _ _) (fun _ _ => .of_teams (State.finishEng_teams ..))
        (fun _ _ _ => .of_teams (State.stallEng_teams ..)) (fun _ => .of_teams (State.finishEng_teams ..)) (fun _ => id)
  · exact id

theorem execCobblerDispatch_keeps (op : Nat) (s : State) : KeepsOut s (execCobblerDispatch op s) := by
  unfold execCobblerDispatch
  split
  · exact id
  split
  · split
    · exact State.runDrain_keeps _ _ _ _
    split
    · exact id
    split
    · exact .of_teams (by simp)
    split
    · exact .of_teams (by split <;> simp)
    · split
      · exact State.beginTask_keeps _ _ _ _ _ _ _
      · exact .of_teams (by simp)
  · exact id

theorem execEslotTimeout_keeps (op : Nat) (s : State) : KeepsOut s (execEslotTimeout op s) := by
  dsimp only [execEslotTimeout]
  (repeat' split) <;> exact .of_teams (by simp)

theorem execAddOnStorePerform_keeps (op : Nat) (s : State) : KeepsOut s (execAddOnStorePerform op s) := by
  unfold execAddOnStorePerform
  split
  · exact id
  split
  · split
    · split
      · simp +contextual [KeepsOut, Keeps]
      · exact id
    split
    · split
      · simp +contextual [KeepsOut, Keeps]
      · exact id
    split
    · exact id
    · exact .of_teams (by split <;> simp)
  · exact id

theorem execTicketTileApply_keeps (l : Nat) (s : State) : KeepsOut s (execTicketTileApply l s) := by
  unfold execTicketTileApply
  split
  · exact id
  split
  · exact id
  · dsimp only
    split
    · simp +contextual [KeepsOut, Keeps]
    · exact id

theorem execCandidateStop_keeps (t : ThreadId) (s : State) : KeepsOut s (execCandidateStop t s) := by
  unfold execCandidateStop
  split
  · exact id
  split
  · exact .of_teams (by simp)
  split
  · exact State.tryLoad_keeps _ _
  split
  · exact id
  · exact Keeps.trans (.of_teams (by simp)) (State.tryLoad_keeps _ _)

theorem execProofPerform_keeps (req : Nat) (s : State) : KeepsOut s (execProofPerform req s) := by
  unfold execProofPerform
  split
  · exact id
  split
  · split
    · exact id
    · dsimp only
      split <;> simp +contextual [KeepsOut, Keeps]
  · exact id

theorem execProofqPerform_keeps (req : Nat) (s : State) : KeepsOut s (execProofqPerform req s) := by
  unfold execProofqPerform
  split
  · exact id
  split
  · split
    · exact id
    · simp +contextual [KeepsOut, Keeps]
  · exact id

theorem execWriteApply_keeps (msg : Nat) (s : State) : KeepsOut s (execWriteApply msg s) := by
  unfold execWriteApply
  split
  · exact id
  · split
    · simp +contextual [KeepsOut, Keeps]
    · exact id

theorem execRemoteRequestServe_keeps (req : Nat) (s : State) : KeepsOut s (execRemoteRequestServe req s) := by
  unfold execRemoteRequestServe
  split
  · exact id
  split
  · exact id
  split
  · split
    · exact id
    · simp +contextual [KeepsOut, Keeps]
  · split
    · exact .of_teams (by simp)
    · split
      · exact State.again_keeps _ _ _ _ _
      · exact id
  · dsimp only
    split
    all_goals
      split
      · exact id
      · split <;> simp +contextual [KeepsOut, Keeps]
  · split
    · exact .of_teams (by simp)
    · exact id
  · split
    · exact State.launchGo_keeps _ _ _ _ _
    · exact id
  · exact id

theorem execRemoteLineSendTimer_keeps (d line : Nat) (s : State) : KeepsOut s (execRemoteLineSendTimer d line s) := by
  dsimp only [execRemoteLineSendTimer]
  (repeat' split) <;> exact .of_teams (by simp)

theorem execAutoSwapOut_keeps (l team : Nat) (s : State) : KeepsOut s (execAutoSwapOut l team s) := by
  unfold execAutoSwapOut
  extract_lets p ts task long
  split
  · exact State.beginSave_keeps _ _ _ _
  · exact id

theorem execLateReplyWrite_keeps (req : Nat) (s : State) : KeepsOut s (execLateReplyWrite req s) := by
  unfold execLateReplyWrite
  split
  · exact id
  split
  · exact id
  extract_lets i got
  have held (s : State) : Keeps s (got s) := .of_teams (by simp [got])
  clear_value got
  split
  · split
    rename_i placed
    refine (State.partPlaces_eq_keeps placed).out ?_
    split
    · exact id
    split
    rename_i placed
    refine (State.partPlaces_eq_keeps placed).out ?_
    split
    · exact id
    · exact (held _).trans ((State.partPut_keeps _ _ _).trans (State.partPut_keeps _ _ _))
  · exact held s

theorem execTeamRestore_keeps (l quad : Nat) (s : State) : KeepsOut s (execTeamRestore l quad s) := by
  unfold execTeamRestore
  split
  · rename_i v x _ _
    extract_lets ts due chains all
    split
    · exact (foldl_scratch _ (fun s (t : Team) => State.landLate_keeps s l t.idx) _ _).trans (.of_teams (State.stir_teams _))
    split
    · exact id
    split
    · exact id
    rename_i ks _
    have read := State.readImages_keeps s v ts
    split <;> rename_i e <;> rw [e] at read
    · rename_i s' _
      have back : Keeps s (s'.returnTo x (all.zip ks)) := fun fine => State.returnTo_keeps s' x _
        (fun y hy => ((State.quadTeams_fine fine l quad).filter _).wf _ (List.of_mem_zip hy).1) (read fine)
      exact back.trans (.of_teams (by simp))
    · exact read
    · exact id
    · exact id
  · exact id

theorem execMigrationQuiesced_keeps (vf : Nat) (s : State) : KeepsOut s (execMigrationQuiesced vf s) := by
  dsimp only [execMigrationQuiesced]
  (repeat' split) <;> exact .of_teams (by simp)

theorem execIntervalClose_keeps (vf : Nat) (s : State) : KeepsOut s (execIntervalClose vf s) := by
  unfold execIntervalClose
  split
  · split
    · exact id
    dsimp only
    split
    · exact .of_teams (State.checkLines_teams ..)
    · exact Keeps.trans (.of_teams (State.checkLines_teams ..)) (State.writeSignals_keeps _ _ _)
  · exact id

theorem execUncorrectableConsumed_keeps (vf : Nat) (s : State) : KeepsOut s (execUncorrectableConsumed vf s) := by
  unfold execUncorrectableConsumed
  split
  · extract_lets s1
    have dropped : Keeps s s1 := .of_teams rfl
    split
    · exact dropped.trans (State.rollback_keeps s1 _ _)
    · exact .of_teams (State.killContext_teams ..)
  · exact id

theorem execTimingReplay_keeps (k : CoreId) (quarter : Nat) (s : State) : KeepsOut s (execTimingReplay k quarter s) := by
  dsimp only [execTimingReplay]
  (repeat' split) <;> exact .of_teams (by simp)

theorem execSchedulerRebuild_keeps (die quad : Nat) (s : State) : KeepsOut s (execSchedulerRebuild die quad s) :=
  .of_teams (by simp)

theorem execVoltageEvaluation_keeps (die dom : Nat) (s : State) : KeepsOut s (execVoltageEvaluation die dom s) := by
  dsimp only [execVoltageEvaluation]
  (repeat' split) <;> exact .of_teams (by simp)

theorem execThrottleStart_keeps (die : Nat) (s : State) : KeepsOut s (execThrottleStart die s) := by
  unfold execThrottleStart
  dsimp only
  split
  · exact .of_teams (State.setDie_teams ..)
  · simp +contextual [KeepsOut, Keeps]

theorem execThrottleEnd_keeps (die : Nat) (s : State) : KeepsOut s (execThrottleEnd die s) := by
  unfold execThrottleEnd
  dsimp only
  split
  · exact id
  · simp +contextual [KeepsOut, Keeps]

theorem execTraceCaptureStop_keeps (s : State) : KeepsOut s (execTraceCaptureStop s) := by
  dsimp only [execTraceCaptureStop]
  (repeat' split) <;> exact .of_teams (by simp)

theorem execPowerOn_keeps (failing : Option Nat) (s : State) : KeepsOut s (execPowerOn failing s) := by
  dsimp only [execPowerOn]
  (repeat' split) <;> exact .of_teams (by simp)

theorem execMemoryInitComplete_keeps (s : State) : KeepsOut s (execMemoryInitComplete s) := by
  dsimp only [execMemoryInitComplete]
  (repeat' split) <;> exact .of_teams (by simp)

theorem execQueueTail_keeps (vf q : Nat) (x : Word) (s : State) : KeepsOut s (execQueueTail vf q x s) :=
  .of_teams (by simp)

theorem execResume_keeps (vf : Nat) (v : DWord) (s : State) : KeepsOut s (execResume vf v s) := by
  unfold execResume
  extract_lets s1 seq how
  have touched : Keeps s s1 := .of_teams (State.masterTouch_teams ..)
  refine touched.out ?_
  split
  · exact id
  split
  · exact State.settle_keeps _ _ _
  split
  · exact State.settle_keeps _ _ _
  · exact id

theorem execFqhead_keeps (vf : Nat) (v : Word) (s : State) : KeepsOut s (execFqhead vf v s) := by
  dsimp only [execFqhead]
  (repeat' split) <;> exact .of_teams (by simp)

theorem execInvalva_keeps (vf : Nat) (va : DWord) (s : State) : KeepsOut s (execInvalva vf va s) := by
  dsimp only [execInvalva]
  (repeat' split) <;> exact .of_teams (by simp)

theorem execPreempt_keeps (vf : Nat) (l : DWord) (s : State) : KeepsOut s (execPreempt vf l s) := by
  unfold execPreempt
  split
  · exact id
  · dsimp only
    refine Keeps.trans ?_ (.of_teams (State.preemptDone_teams ..))
    split
    · exact Keeps.trans (.of_teams (State.setVf_teams ..)) (State.preemptLaunch_keeps _ _)
    · exact .of_teams (State.setVf_teams ..)

theorem execRestorel_keeps (vf : Nat) (l : DWord) (s : State) : KeepsOut s (execRestorel vf l s) := by
  unfold execRestorel
  split
  · exact id
  split
  · split
    · exact State.takeOver_keeps _ _ _
    · exact State.allow_keeps _ _
  · exact State.allow_keeps _ _

theorem execEyeletSpill_keeps (vf : Nat) (k : CoreId) (entry : Nat) (s : State) : KeepsOut s (execEyeletSpill vf k entry s) := by
  unfold execEyeletSpill
  split
  · split
    · exact .of_teams (State.setEyecmd_teams ..)
    split
    · exact (IoRes.eq_keeps (State.partWrite_keeps _ _ _ _ _ _) (by assumption)).trans (.of_teams (by simp))
    · exact (IoRes.eq_keeps (State.partWrite_keeps _ _ _ _ _ _) (by assumption)).trans (.of_teams (State.holdEyecmd_teams ..))
    · exact (IoRes.eq_keeps (State.partWrite_keeps _ _ _ _ _ _) (by assumption)).trans (.of_teams (State.setEyecmd_teams ..))
    · exact (IoRes.eq_keeps (State.partWrite_keeps _ _ _ _ _ _) (by assumption)).trans (.of_teams (State.setEyecmd_teams ..))
  · exact .of_teams (State.setEyecmd_teams ..)

theorem execEyeletFill_keeps (vf : Nat) (k : CoreId) (entry : Nat) (s : State) : KeepsOut s (execEyeletFill vf k entry s) := by
  unfold execEyeletFill
  split
  · extract_lets i
    split <;> refine (IoRes.eq_keeps (State.partRead_keeps _ _ _ _ _ _) (by assumption)).out ?_
    · dsimp only
      split <;> exact Keeps.of_teams (by simp)
    all_goals exact Keeps.of_teams (by simp)
  · exact .of_teams (State.setEyecmd_teams ..)

theorem execMigctl_keeps (vf : Nat) (x : Word) (s : State) : KeepsOut s (execMigctl vf x s) := by
  unfold execMigctl
  split
  · exact id
  · dsimp only
    split
    · exact Keeps.trans (.of_teams (State.setVf_teams ..)) (foldl_scratch _ (fun s (l : Launch) => State.preemptLaunch_keeps s l.id) _ _)
    · exact .of_teams (State.setVf_teams ..)

theorem execVtime_keeps (vf : Nat) (x : DWord) (s : State) : KeepsOut s (execVtime vf x s) := by
  dsimp only [execVtime]
  (repeat' split) <;> exact .of_teams (by simp)

theorem execSemAcquire_keeps (m i : Nat) (s : State) : KeepsOut s (execSemAcquire m i s) :=
  .of_teams (by simp)

theorem execSemRelease_keeps (m i : Nat) (s : State) : KeepsOut s (execSemRelease m i s) :=
  .of_teams (by simp)

theorem execFrameQuota_keeps (vf : Nat) (k : CoreId) (n : Nat) (s : State) : KeepsOut s (execFrameQuota vf k n s) := by
  dsimp only [execFrameQuota]
  (repeat' split) <;> exact .of_teams (by simp)

theorem execDiemask_keeps (vf : Nat) (x : Word) (s : State) : KeepsOut s (execDiemask vf x s) := by
  dsimp only [execDiemask]
  (repeat' split) <;> exact .of_teams (by simp)

theorem execVfCreate_keeps (vf : Nat) (f0 f1 : Word) (s : State) : KeepsOut s (execVfCreate vf f0 f1 s) := by
  dsimp only [execVfCreate]
  (repeat' split) <;> exact .of_teams (by simp)

theorem execVfDestroy_keeps (vf : Nat) (s : State) : KeepsOut s (execVfDestroy vf s) := by
  unfold execVfDestroy
  split
  · exact (State.forgetVf_keeps _ _).trans (.of_teams (State.stir_teams _))
  · exact id

theorem execRegisterWrite_keeps (r : HostReg) (v : DWord) (s : State) : KeepsOut s (execRegisterWrite r v s) := by
  dsimp only [execRegisterWrite]
  refine .of_teams ?_
  split
  · rfl
  · cases r <;> (repeat' split) <;> simp

theorem execMasterMemoryWrite_keeps (m vf va : Nat) (bs : List Byte) (s : State) : KeepsOut s (execMasterMemoryWrite m vf va bs s) := by
  unfold execMasterMemoryWrite
  dsimp only
  split
  · split
    · exact id
    · split
      · exact id
      · exact State.masterWrite_keeps _ _ _ _
  · split
    · split
      · exact .of_teams rfl
      · exact State.masterWrite_keeps _ _ _ _
    · split
      · exact id
      · exact .of_teams rfl

theorem execSingleFault_keeps (loc : FaultLoc) (s : State) : KeepsOut s (execSingleFault loc s) := by
  dsimp only [execSingleFault]
  (repeat' split) <;> exact .of_teams (by simp)

theorem execInvalvaRemovalComplete_keeps (vf : Nat) (s : State) : KeepsOut s (execInvalvaRemovalComplete vf s) := by
  dsimp only [execInvalvaRemovalComplete]
  (repeat' split) <;> exact .of_teams (by simp)

theorem execSaveComplete_keeps (l quad : Nat) (s : State) : KeepsOut s (execSaveComplete l quad s) := by
  unfold execSaveComplete
  split
  · extract_lets ts s1 s2
    split
    · exact .of_teams (State.preemptDone_teams ..)
    have cleared : Keeps s s1 := (Keeps.of_teams (State.abandonEngines_teams ..)).trans ((State.clearLacer_keeps _ _ _).trans
      (.of_teams (State.holdReplies_teams ..)))
    have released : Keeps s1 s2 := foldl_scratch _ (fun s (t : Team) => State.releaseActs_keeps s l t.idx 5) _ _
    refine cleared.trans (released.trans ?_)
    split
    · exact (State.saveQuad_keeps _ _ _ _).trans (.of_teams (State.preemptDone_teams ..))
    · exact id
  · exact id

end Sys2Proof.Machine
end

section
/-! SUPPORT. Memory and scratches in canonical form: every instruction, every event, every step (O56). -/

namespace Sys2Proof.Machine

/-! ## Every instruction -/

theorem execBeqz_keeps (sp : Bool) (a : Reg) (off : BitVec 17) (s : State) : KeepsOut s (execBeqz sp a off s) :=
  branch_keeps _ _ _ _ _

theorem execBnez_keeps (sp : Bool) (a : Reg) (off : BitVec 17) (s : State) : KeepsOut s (execBnez sp a off s) :=
  branch_keeps _ _ _ _ _

theorem execBltz_keeps (sp : Bool) (a : Reg) (off : BitVec 17) (s : State) : KeepsOut s (execBltz sp a off s) :=
  branch_keeps _ _ _ _ _

theorem execBgez_keeps (sp : Bool) (a : Reg) (off : BitVec 17) (s : State) : KeepsOut s (execBgez sp a off s) :=
  branch_keeps _ _ _ _ _

theorem execBgtz_keeps (sp : Bool) (a : Reg) (off : BitVec 17) (s : State) : KeepsOut s (execBgtz sp a off s) :=
  branch_keeps _ _ _ _ _

theorem execBlez_keeps (sp : Bool) (a : Reg) (off : BitVec 17) (s : State) : KeepsOut s (execBlez sp a off s) :=
  branch_keeps _ _ _ _ _

theorem execCshfl_keeps (sp : Bool) (d a b : Reg) (s : State) : KeepsOut s (execCshfl sp d a b s) :=
  crewWord_keeps _ _ _ _ _ _

theorem execCshflx_keeps (sp : Bool) (d a b : Reg) (s : State) : KeepsOut s (execCshflx sp d a b s) :=
  crewWord_keeps _ _ _ _ _ _

theorem execCup_keeps (sp : Bool) (d a b : Reg) (s : State) : KeepsOut s (execCup sp d a b s) :=
  crewWord_keeps _ _ _ _ _ _

theorem execCdn_keeps (sp : Bool) (d a b : Reg) (s : State) : KeepsOut s (execCdn sp d a b s) :=
  crewWord_keeps _ _ _ _ _ _

theorem execCvany_keeps (sp : Bool) (d a : Reg) (s : State) : KeepsOut s (execCvany sp d a s) :=
  crewWord_keeps _ _ _ _ _ _

theorem execCvall_keeps (sp : Bool) (d a : Reg) (s : State) : KeepsOut s (execCvall sp d a s) :=
  crewWord_keeps _ _ _ _ _ _

theorem execCballot_keeps (sp : Bool) (d a : Reg) (s : State) : KeepsOut s (execCballot sp d a s) :=
  crewWord_keeps _ _ _ _ _ _

theorem execCradd_keeps (sp : Bool) (d a : Reg) (s : State) : KeepsOut s (execCradd sp d a s) :=
  crewWord_keeps _ _ _ _ _ _

theorem execCrfadd_keeps (sp : Bool) (d a : Reg) (s : State) : KeepsOut s (execCrfadd sp d a s) :=
  crewWord_keeps _ _ _ _ _ _

theorem execCrminS32_keeps (sp : Bool) (d a : Reg) (s : State) : KeepsOut s (execCrminS32 sp d a s) :=
  crewWord_keeps _ _ _ _ _ _

theorem execCrmaxS32_keeps (sp : Bool) (d a : Reg) (s : State) : KeepsOut s (execCrmaxS32 sp d a s) :=
  crewWord_keeps _ _ _ _ _ _

theorem execCscan_keeps (sp : Bool) (d a : Reg) (s : State) : KeepsOut s (execCscan sp d a s) :=
  crewWord_keeps _ _ _ _ _ _

theorem execCscanf_keeps (sp : Bool) (d a : Reg) (s : State) : KeepsOut s (execCscanf sp d a s) :=
  crewWord_keeps _ _ _ _ _ _

/-- No instruction and no event takes a scratch out of canonical form. The words that share a shape are answered for by that shape. -/
theorem exec_keeps (i : Instr) (s : State) : KeepsOut s (exec i s) := by
  cases i with
  | add | sub | mullo | mulhiS32 | mulhiN32 | mulwS32 | mulwN32 | mad | divS32 | divN32 | remS32 | remN32 | and | or | xor
  | andn | orn | shl | shr | sar | rotl | rotr | minS32 | minN32 | maxS32 | maxN32 | sad | sel | seteq | setne | setltS32
  | setltN32 | setleS32 | setleN32 | clz | popc | brev | bfxS32 | bfxN32 | bfi | add64 | sub64 | shl64 | shr64 | sar64
  | seteq64 | setlt64S | setlt64N | mad64N32 | mad64S32 | mov | mov64 | addi | andi | ori | xori | shli | shri | sari
  | setltiS32 | fadd | fsub | fmul | fma | fmin | fmax | fdiv | fsqrt | frcp | frsq | fexp2 | flog2 | fabs | fneg | frint
  | fclass | fseteq | fsetlt | fsetle | fsetun | dadd | dsub | dmul | dfma | dmin | dmax | ddiv | dsqrt | drint | dseteq
  | dsetlt | dsetle | hadd2 | hmul2 | hfma2 | badd2 | bmul2 | bfma2 | cvtF32S32 | cvtF32N32 | cvtS32F32 | cvtN32F32 | cvtF64F32
  | cvtF32F64 | cvtF64S32 | cvtS32F64 | cvtF64S64 | cvtS64F64 | cvtF64N64 | cvtN64F64 | packF16 | packBf16 | unpkF16 | unpkBf16
  | sext8 | sext16 | qntN8 | dqntN8 | lds | ldh | orl | addpc | meet | meetq | work | steal | jr | callx =>
    exact issue_keeps_of_teams _ _ _ _ _ (fun s => by simp)
  | ld8S | ld8N | ld16S | ld16N | ld32 | ld64 | ld128 => exact load_keeps _ _ _ _ _ _ _ _ _
  | st8 | st16 | st32 | st64 | st128 => exact store_keeps _ _ _ _ _ _ _ _
  | sld32 | sld64 => exact scratchLoad_keeps _ _ _ _ _ _
  | sst32 | sst64 => exact scratchStore_keeps _ _ _ _ _ _
  | aadd | aadd64 | aminS32 | aminN32 | amaxS32 | amaxN32 | aand | aor | axor | axchg | axchg64 | acas | acas64 | afadd
  | afadd64 | aincw => exact atom_keeps _ _ _ _ _ _ _ _ _
  | waitcEq | waitcNe | waitcGeS32 | waitcGeN32 | waitcLtS32 | waitcLtN32 => exact waitc_keeps _ _ _ _ _
  | redtoAdd | redtoFadd | redtoMinS32 | redtoMaxS32 | redtoOr => exact redto_keeps _ _ _ _ _ _
  | ovld | ovtok => exact ovLoad_keeps _ _ _ _ _
  | copy | copym => exact copyWord_keeps _ _ _ _ _ _ _
  | beqz => exact execBeqz_keeps _ _ _ _
  | bnez => exact execBnez_keeps _ _ _ _
  | bltz => exact execBltz_keeps _ _ _ _
  | bgez => exact execBgez_keeps _ _ _ _
  | bgtz => exact execBgtz_keeps _ _ _ _
  | blez => exact execBlez_keeps _ _ _ _
  | bra => exact execBra_keeps _ _ _
  | jmp => exact execJmp_keeps _ _ _
  | call => exact execCall_keeps _ _ _
  | fence => exact execFence_keeps _ _ _ _
  | ldsc => exact execLdsc_keeps _ _ _ _
  | stsc => exact execStsc_keeps _ _ _ _
  | cassc => exact execCassc_keeps _ _ _ _ _
  | bar sp a sc => exact execBar_keeps sp a sc s
  | bara => exact execBara_keeps _ _ _ _
  | barw sp a sc => exact execBarw_keeps sp a sc s
  | barinit => exact execBarinit_keeps _ _ _ _ _
  | cshfl => exact execCshfl_keeps _ _ _ _ _
  | cshflx => exact execCshflx_keeps _ _ _ _ _
  | cup => exact execCup_keeps _ _ _ _ _
  | cdn => exact execCdn_keeps _ _ _ _ _
  | cbcast => exact execCbcast_keeps _ _ _ _ _
  | cvany => exact execCvany_keeps _ _ _ _
  | cvall => exact execCvall_keeps _ _ _ _
  | cballot => exact execCballot_keeps _ _ _ _
  | cradd => exact execCradd_keeps _ _ _ _
  | crfadd => exact execCrfadd_keeps _ _ _ _
  | crminS32 => exact execCrminS32_keeps _ _ _ _
  | crmaxS32 => exact execCrmaxS32_keeps _ _ _ _
  | cscan => exact execCscan_keeps _ _ _ _
  | cscanf => exact execCscanf_keeps _ _ _ _
  | qld32 => exact execQld32_keeps _ _ _ _
  | qst32 => exact execQst32_keeps _ _ _ _
  | lease => exact execLease_keeps _ _ _
  | leasem => exact execLeasem_keeps _ _ _
  | exit sp => exact execExit_keeps sp s
  | recfl => exact execRecfl_keeps _ _ _ _
  | task => exact execTask_keeps _ _ _ _
  | dprog => exact execDprog_keeps _ _ _ _ _
  | djob => exact execDjob_keeps _ _ _ _
  | ovrel => exact execOvrel_keeps _ _ _
  | ovq => exact execOvq_keeps _ _ _ _
  | smap => exact execSmap_keeps _ _ _ _ _
  | sunmap => exact execSunmap_keeps _ _ _ _
  | cload => exact execCload_keeps _ _ _ _ _
  | crun => exact execCrun_keeps _ _ _ _ _
  | sinit => exact execSinit_keeps _ _
  | sfold => exact execSfold_keeps _ _ _ _
  | sget => exact execSget_keeps _ _ _
  | proof => exact execProof_keeps _ _ _ _ _
  | proofq => exact execProofq_keeps _ _ _ _
  | nop => exact execNop_keeps _ _
  | rds => exact execRds_keeps _ _ _ _
  | wrs => exact execWrs_keeps _ _ _ _
  | win => exact execWin_keeps _ _ _
  | ret => exact execRet_keeps _ _
  | trap => exact execTrap_keeps _ _ _
  | tret => exact execTret_keeps _ _
  | bkpt => exact execBkpt_keeps _ _
  | launch => exact execLaunch_keeps _ _ _ _ _
  | ldu => exact execLdu_keeps _ _ _ _
  | ocall => exact execOcall_keeps _ _ _
  | pref => exact execPref_keeps _ _ _
  | reservedHint sp f d a b => exact execReservedHint_keeps sp f d a b s
  | illegalWordFetch => exact execIllegalWordFetch_keeps _ _
  | reformBoundary => exact execReformBoundary_keeps _ _
  | longLatencyReply => exact execLongLatencyReply_keeps _ _
  | switchPointLeave => exact execSwitchPointLeave_keeps _ _
  | crewdivDetect => exact execCrewdivDetect_keeps _ _
  | trapTaken => exact execTrapTaken_keeps _ _
  | launchKill => exact execLaunchKill_keeps _ _
  | permitBackoffExpiry => exact execPermitBackoffExpiry_keeps _ _
  | lacerLoadDecision => exact execLacerLoadDecision_keeps _ _
  | segmentLoadComplete => exact execSegmentLoadComplete_keeps _ _ _
  | ovfullTimeout => exact execOvfullTimeout_keeps _ _
  | packetServe => exact execPacketServe_keeps _ _ _
  | teamPlacement => exact execTeamPlacement_keeps _ _
  | launchEnd => exact execLaunchEnd_keeps _ _
  | activationDecision => exact execActivationDecision_keeps _ _
  | dueCountExpiry => exact execDueCountExpiry_keeps _ _
  | leaseWindowExpiry => exact execLeaseWindowExpiry_keeps _ _
  | l1WritebackTimer => exact execL1WritebackTimer_keeps _ _ _
  | pageWalkComplete => exact execPageWalkComplete_keeps _ _
  | faultRecordWrite => exact execFaultRecordWrite_keeps _ _
  | atomicPerform => exact execAtomicPerform_keeps _ _
  | scAccessPerform => exact execScAccessPerform_keeps _ _
  | scClockPublish => exact execScClockPublish_keeps _ _
  | monitorReread => exact execMonitorReread_keeps _ _
  | waitcPollTimer => exact execWaitcPollTimer_keeps _ _
  | redtoDelivery => exact execRedtoDelivery_keeps _ _
  | barrierArrival => exact execBarrierArrival_keeps _ _
  | workPieceServe => exact execWorkPieceServe_keeps _ _
  | engineOpBegin => exact execEngineOpBegin_keeps _ _
  | engineRetire => exact execEngineRetire_keeps _ _
  | skiverJobStop => exact execSkiverJobStop_keeps _ _
  | cobblerDispatch => exact execCobblerDispatch_keeps _ _
  | eslotTimeout => exact execEslotTimeout_keeps _ _
  | addOnStorePerform => exact execAddOnStorePerform_keeps _ _
  | ticketTileApply => exact execTicketTileApply_keeps _ _
  | candidateStop => exact execCandidateStop_keeps _ _
  | proofPerform => exact execProofPerform_keeps _ _
  | proofqPerform => exact execProofqPerform_keeps _ _
  | writeApply => exact execWriteApply_keeps _ _
  | remoteRequestServe => exact execRemoteRequestServe_keeps _ _
  | remoteLineSendTimer => exact execRemoteLineSendTimer_keeps _ _ _
  | autoSwapOut => exact execAutoSwapOut_keeps _ _ _
  | lateReplyWrite => exact execLateReplyWrite_keeps _ _
  | teamRestore => exact execTeamRestore_keeps _ _ _
  | migrationQuiesced => exact execMigrationQuiesced_keeps _ _
  | intervalClose => exact execIntervalClose_keeps _ _
  | uncorrectableConsumed => exact execUncorrectableConsumed_keeps _ _
  | timingReplay => exact execTimingReplay_keeps _ _ _
  | schedulerRebuild => exact execSchedulerRebuild_keeps _ _ _
  | voltageEvaluation => exact execVoltageEvaluation_keeps _ _ _
  | throttleStart => exact execThrottleStart_keeps _ _
  | throttleEnd => exact execThrottleEnd_keeps _ _
  | traceCaptureStop => exact execTraceCaptureStop_keeps _
  | powerOn => exact execPowerOn_keeps _ _
  | memoryInitComplete => exact execMemoryInitComplete_keeps _
  | queueTail => exact execQueueTail_keeps _ _ _ _
  | resume => exact execResume_keeps _ _ _
  | fqhead => exact execFqhead_keeps _ _ _
  | invalva => exact execInvalva_keeps _ _ _
  | preempt => exact execPreempt_keeps _ _ _
  | restorel => exact execRestorel_keeps _ _ _
  | eyeletSpill => exact execEyeletSpill_keeps _ _ _ _
  | eyeletFill => exact execEyeletFill_keeps _ _ _ _
  | migctl => exact execMigctl_keeps _ _ _
  | vtime => exact execVtime_keeps _ _ _
  | semAcquire => exact execSemAcquire_keeps _ _ _
  | semRelease => exact execSemRelease_keeps _ _ _
  | frameQuota => exact execFrameQuota_keeps _ _ _ _
  | diemask => exact execDiemask_keeps _ _ _
  | vfCreate => exact execVfCreate_keeps _ _ _ _
  | vfDestroy => exact execVfDestroy_keeps _ _
  | registerWrite => exact execRegisterWrite_keeps _ _ _
  | masterMemoryWrite => exact execMasterMemoryWrite_keeps _ _ _ _ _
  | singleFault => exact execSingleFault_keeps _ _
  | invalvaRemovalComplete => exact execInvalvaRemovalComplete_keeps _ _
  | saveComplete => exact execSaveComplete_keeps _ _ _

/-- Setting memory up leaves of it the bytes of the package's own homes out. -/
theorem execMemoryInitComplete_mem_wf {s t : State} (h : execMemoryInitComplete s = .next t) (fine : s.mem.wf = true) :
    t.mem.wf = true := by
  obtain rfl := Host.Outcome.next.inj h
  split
  · exact Memory.filter_wf _ fine
  · exact fine

/-- No instruction and no event takes device memory out of canonical form. -/
theorem exec_mem_wf (i : Instr) {s t : State} (h : exec i s = .next t) (fine : s.mem.wf = true) : t.mem.wf = true := by
  cases i with
  | add | sub | mullo | mulhiS32 | mulhiN32 | mulwS32 | mulwN32 | mad | divS32 | divN32 | remS32 | remN32 | and | or | xor
  | andn | orn | shl | shr | sar | rotl | rotr | minS32 | minN32 | maxS32 | maxN32 | sad | sel | seteq | setne | setltS32
  | setltN32 | setleS32 | setleN32 | clz | popc | brev | bfxS32 | bfxN32 | bfi | add64 | sub64 | shl64 | shr64 | sar64
  | seteq64 | setlt64S | setlt64N | mad64N32 | mad64S32 | mov | mov64 | addi | andi | ori | xori | shli | shri | sari
  | setltiS32 | fadd | fsub | fmul | fma | fmin | fmax | fdiv | fsqrt | frcp | frsq | fexp2 | flog2 | fabs | fneg | frint
  | fclass | fseteq | fsetlt | fsetle | fsetun | dadd | dsub | dmul | dfma | dmin | dmax | ddiv | dsqrt | drint | dseteq
  | dsetlt | dsetle | hadd2 | hmul2 | hfma2 | badd2 | bmul2 | bfma2 | cvtF32S32 | cvtF32N32 | cvtS32F32 | cvtN32F32 | cvtF64F32
  | cvtF32F64 | cvtF64S32 | cvtS32F64 | cvtF64S64 | cvtS64F64 | cvtF64N64 | cvtN64F64 | packF16 | packBf16 | unpkF16 | unpkBf16
  | sext8 | sext16 | qntN8 | dqntN8 | lds | ldh | orl | addpc | meet | meetq | work | steal | jr | callx =>
    exact (issue_quiet _ _ _ _ _ (fun s => by simp [Quiet]) h).tame.2.2 fine
  | ld8S | ld8N | ld16S | ld16N | ld32 | ld64 | ld128 => exact (load_tame _ _ _ _ _ _ _ _ _ h).2.2 fine
  | st8 | st16 | st32 | st64 | st128 => exact (store_tame _ _ _ _ _ _ _ _ h).2.2 fine
  | sld32 | sld64 => exact (scratchLoad_tame _ _ _ _ _ _ h).2.2 fine
  | sst32 | sst64 => exact (scratchStore_tame _ _ _ _ _ _ h).2.2 fine
  | aadd | aadd64 | aminS32 | aminN32 | amaxS32 | amaxN32 | aand | aor | axor | axchg | axchg64 | acas | acas64 | afadd
  | afadd64 | aincw => exact (atom_tame _ _ _ _ _ _ _ _ _ h).2.2 fine
  | waitcEq | waitcNe | waitcGeS32 | waitcGeN32 | waitcLtS32 | waitcLtN32 => exact (waitc_tame _ _ _ _ _ h).2.2 fine
  | redtoAdd | redtoFadd | redtoMinS32 | redtoMaxS32 | redtoOr => exact (redto_tame _ _ _ _ _ _ h).2.2 fine
  | ovld | ovtok => exact (ovLoad_quiet _ _ _ _ _ h).tame.2.2 fine
  | copy | copym => exact (copyWord_tame _ _ _ _ _ _ _ h).2.2 fine
  | beqz => exact (execBeqz_quiet _ _ _ _ h).tame.2.2 fine
  | bnez => exact (execBnez_quiet _ _ _ _ h).tame.2.2 fine
  | bltz => exact (execBltz_quiet _ _ _ _ h).tame.2.2 fine
  | bgez => exact (execBgez_quiet _ _ _ _ h).tame.2.2 fine
  | bgtz => exact (execBgtz_quiet _ _ _ _ h).tame.2.2 fine
  | blez => exact (execBlez_quiet _ _ _ _ h).tame.2.2 fine
  | bra => exact (execBra_quiet _ _ _ h).tame.2.2 fine
  | jmp => exact (execJmp_quiet _ _ _ h).tame.2.2 fine
  | call => exact (execCall_quiet _ _ _ h).tame.2.2 fine
  | fence => exact (execFence_tame _ _ _ _ h).2.2 fine
  | ldsc => exact (execLdsc_tame _ _ _ _ h).2.2 fine
  | stsc => exact (execStsc_tame _ _ _ _ h).2.2 fine
  | cassc => exact (execCassc_tame _ _ _ _ _ h).2.2 fine
  | bar sp a sc => exact (execBar_tame sp a sc s h).2.2 fine
  | bara => exact (execBara_tame _ _ _ _ h).2.2 fine
  | barw sp a sc => exact (execBarw_quiet sp a sc s h).tame.2.2 fine
  | barinit => exact (execBarinit_quiet _ _ _ _ _ h).tame.2.2 fine
  | cshfl => exact (execCshfl_quiet _ _ _ _ _ h).tame.2.2 fine
  | cshflx => exact (execCshflx_quiet _ _ _ _ _ h).tame.2.2 fine
  | cup => exact (execCup_quiet _ _ _ _ _ h).tame.2.2 fine
  | cdn => exact (execCdn_quiet _ _ _ _ _ h).tame.2.2 fine
  | cbcast => exact (execCbcast_quiet _ _ _ _ _ h).tame.2.2 fine
  | cvany => exact (execCvany_quiet _ _ _ _ h).tame.2.2 fine
  | cvall => exact (execCvall_quiet _ _ _ _ h).tame.2.2 fine
  | cballot => exact (execCballot_quiet _ _ _ _ h).tame.2.2 fine
  | cradd => exact (execCradd_quiet _ _ _ _ h).tame.2.2 fine
  | crfadd => exact (execCrfadd_quiet _ _ _ _ h).tame.2.2 fine
  | crminS32 => exact (execCrminS32_quiet _ _ _ _ h).tame.2.2 fine
  | crmaxS32 => exact (execCrmaxS32_quiet _ _ _ _ h).tame.2.2 fine
  | cscan => exact (execCscan_quiet _ _ _ _ h).tame.2.2 fine
  | cscanf => exact (execCscanf_quiet _ _ _ _ h).tame.2.2 fine
  | qld32 => exact (execQld32_tame _ _ _ _ h).2.2 fine
  | qst32 => exact (execQst32_tame _ _ _ _ h).2.2 fine
  | lease => exact (execLease_quiet _ _ _ h).tame.2.2 fine
  | leasem => exact (execLeasem_quiet _ _ _ h).tame.2.2 fine
  | exit sp => exact (execExit_tame sp s h).2.2 fine
  | recfl => exact (execRecfl_quiet _ _ _ _ h).tame.2.2 fine
  | task => exact (execTask_tame _ _ _ _ h).2.2 fine
  | dprog => exact (execDprog_quiet _ _ _ _ _ h).tame.2.2 fine
  | djob => exact (execDjob_tame _ _ _ _ h).2.2 fine
  | ovrel => exact (execOvrel_quiet _ _ _ h).tame.2.2 fine
  | ovq => exact (execOvq_quiet _ _ _ _ h).tame.2.2 fine
  | smap => exact (execSmap_quiet _ _ _ _ _ h).tame.2.2 fine
  | sunmap => exact (execSunmap_tame _ _ _ _ h).2.2 fine
  | cload => exact (execCload_tame _ _ _ _ _ h).2.2 fine
  | crun => exact (execCrun_quiet _ _ _ _ _ h).tame.2.2 fine
  | sinit => exact (execSinit_quiet _ _ h).tame.2.2 fine
  | sfold => exact (execSfold_quiet _ _ _ _ h).tame.2.2 fine
  | sget => exact (execSget_quiet _ _ _ h).tame.2.2 fine
  | proof => exact (execProof_tame _ _ _ _ _ h).2.2 fine
  | proofq => exact (execProofq_tame _ _ _ _ h).2.2 fine
  | nop => exact (execNop_quiet _ _ h).tame.2.2 fine
  | rds => exact (execRds_quiet _ _ _ _ h).tame.2.2 fine
  | wrs => exact (execWrs_quiet _ _ _ _ h).tame.2.2 fine
  | win => exact (execWin_quiet _ _ _ h).tame.2.2 fine
  | ret => exact (execRet_quiet _ _ h).tame.2.2 fine
  | trap => exact (execTrap_quiet _ _ _ h).tame.2.2 fine
  | tret => exact (execTret_quiet _ _ h).tame.2.2 fine
  | bkpt => exact (execBkpt_quiet _ _ h).tame.2.2 fine
  | launch => exact (execLaunch_tame _ _ _ _ _ h).2.2 fine
  | ldu => exact (execLdu_tame _ _ _ _ h).2.2 fine
  | ocall => exact (execOcall_quiet _ _ _ h).tame.2.2 fine
  | pref => exact (execPref_tame _ _ _ h).2.2 fine
  | reservedHint sp f d a b => exact (execReservedHint_quiet sp f d a b s h).tame.2.2 fine
  | illegalWordFetch => exact (execIllegalWordFetch_quiet _ _ h).tame.2.2 fine
  | reformBoundary => exact (execReformBoundary_quiet _ _ h).tame.2.2 fine
  | longLatencyReply => exact (execLongLatencyReply_quiet _ _ h).tame.2.2 fine
  | switchPointLeave => exact (execSwitchPointLeave_quiet _ _ h).tame.2.2 fine
  | crewdivDetect => exact (execCrewdivDetect_quiet _ _ h).tame.2.2 fine
  | trapTaken => exact (execTrapTaken_quiet _ _ h).tame.2.2 fine
  | launchKill => exact (execLaunchKill_tame _ _ h).2.2 fine
  | permitBackoffExpiry => exact (execPermitBackoffExpiry_quiet _ _ h).tame.2.2 fine
  | lacerLoadDecision => exact (execLacerLoadDecision_quiet _ _ h).tame.2.2 fine
  | segmentLoadComplete => exact (execSegmentLoadComplete_tame _ _ _ h).2.2 fine
  | ovfullTimeout => exact (execOvfullTimeout_quiet _ _ h).tame.2.2 fine
  | packetServe => exact (execPacketServe_tame _ _ _ h).2.2 fine
  | teamPlacement => exact (execTeamPlacement_tame _ _ h).2.2 fine
  | launchEnd => exact (execLaunchEnd_tame _ _ h).2.2 fine
  | activationDecision => exact (execActivationDecision_quiet _ _ h).tame.2.2 fine
  | dueCountExpiry => exact (execDueCountExpiry_quiet _ _ h).tame.2.2 fine
  | leaseWindowExpiry => exact (execLeaseWindowExpiry_quiet _ _ h).tame.2.2 fine
  | l1WritebackTimer => exact (execL1WritebackTimer_tame _ _ _ h).2.2 fine
  | pageWalkComplete => exact (execPageWalkComplete_tame _ _ h).2.2 fine
  | faultRecordWrite => exact (execFaultRecordWrite_tame _ _ h).2.2 fine
  | atomicPerform => exact (execAtomicPerform_tame _ _ h).2.2 fine
  | scAccessPerform => exact (execScAccessPerform_tame _ _ h).2.2 fine
  | scClockPublish => exact (execScClockPublish_quiet _ _ h).tame.2.2 fine
  | monitorReread => exact (execMonitorReread_tame _ _ h).2.2 fine
  | waitcPollTimer => exact (execWaitcPollTimer_tame _ _ h).2.2 fine
  | redtoDelivery => exact (execRedtoDelivery_tame _ _ h).2.2 fine
  | barrierArrival => exact (execBarrierArrival_quiet _ _ h).tame.2.2 fine
  | workPieceServe => exact (execWorkPieceServe_quiet _ _ h).tame.2.2 fine
  | engineOpBegin => exact (execEngineOpBegin_tame _ _ h).2.2 fine
  | engineRetire => exact (execEngineRetire_tame _ _ h).2.2 fine
  | skiverJobStop => exact (execSkiverJobStop_tame _ _ h).2.2 fine
  | cobblerDispatch => exact (execCobblerDispatch_tame _ _ h).2.2 fine
  | eslotTimeout => exact (execEslotTimeout_quiet _ _ h).tame.2.2 fine
  | addOnStorePerform => exact (execAddOnStorePerform_tame _ _ h).2.2 fine
  | ticketTileApply => exact (execTicketTileApply_tame _ _ h).2.2 fine
  | candidateStop => exact (execCandidateStop_tame _ _ h).2.2 fine
  | proofPerform => exact (execProofPerform_tame _ _ h).2.2 fine
  | proofqPerform => exact (execProofqPerform_tame _ _ h).2.2 fine
  | writeApply => exact (execWriteApply_tame _ _ h).2.2 fine
  | remoteRequestServe => exact (execRemoteRequestServe_tame _ _ h).2.2 fine
  | remoteLineSendTimer => exact (execRemoteLineSendTimer_tame _ _ _ h).2.2 fine
  | autoSwapOut => exact (execAutoSwapOut_quiet _ _ _ h).tame.2.2 fine
  | lateReplyWrite => exact (execLateReplyWrite_tame _ _ h).2.2 fine
  | teamRestore => exact (execTeamRestore_tame _ _ _ h).2.2 fine
  | migrationQuiesced => exact (execMigrationQuiesced_quiet _ _ h).tame.2.2 fine
  | intervalClose => exact (execIntervalClose_tame _ _ h).2.2 fine
  | uncorrectableConsumed => exact (execUncorrectableConsumed_tame _ _ h).2.2 fine
  | timingReplay => exact (execTimingReplay_quiet _ _ _ h).tame.2.2 fine
  | schedulerRebuild => exact (execSchedulerRebuild_quiet _ _ _ h).tame.2.2 fine
  | voltageEvaluation => exact (execVoltageEvaluation_quiet _ _ _ h).tame.2.2 fine
  | throttleStart => exact (execThrottleStart_tame _ _ h).2.2 fine
  | throttleEnd => exact (execThrottleEnd_tame _ _ h).2.2 fine
  | traceCaptureStop => exact (execTraceCaptureStop_quiet _ h).tame.2.2 fine
  | powerOn => exact (execPowerOn_quiet _ _ h).tame.2.2 fine
  | memoryInitComplete => exact execMemoryInitComplete_mem_wf h fine
  | queueTail => exact (execQueueTail_quiet _ _ _ _ h).tame.2.2 fine
  | resume => exact (execResume_tame _ _ _ h).2.2 fine
  | fqhead => exact (execFqhead_quiet _ _ _ h).tame.2.2 fine
  | invalva => exact (execInvalva_quiet _ _ _ h).tame.2.2 fine
  | preempt => exact (execPreempt_quiet _ _ _ h).tame.2.2 fine
  | restorel => exact (execRestorel_quiet _ _ _ h).tame.2.2 fine
  | eyeletSpill => exact (execEyeletSpill_tame _ _ _ _ h).2.2 fine
  | eyeletFill => exact (execEyeletFill_tame _ _ _ _ h).2.2 fine
  | migctl => exact (execMigctl_quiet _ _ _ h).tame.2.2 fine
  | vtime => exact (execVtime_quiet _ _ _ h).tame.2.2 fine
  | semAcquire => exact (execSemAcquire_quiet _ _ _ h).tame.2.2 fine
  | semRelease => exact (execSemRelease_quiet _ _ _ h).tame.2.2 fine
  | frameQuota => exact (execFrameQuota_quiet _ _ _ _ h).tame.2.2 fine
  | diemask => exact (execDiemask_quiet _ _ _ h).tame.2.2 fine
  | vfCreate => exact (execVfCreate_quiet _ _ _ _ h).tame.2.2 fine
  | vfDestroy => exact (execVfDestroy_quiet _ _ h).tame.2.2 fine
  | registerWrite => exact (execRegisterWrite_quiet _ _ _ h).tame.2.2 fine
  | masterMemoryWrite => exact (execMasterMemoryWrite_tame _ _ _ _ _ h).2.2 fine
  | singleFault => exact (execSingleFault_quiet _ _ h).tame.2.2 fine
  | invalvaRemovalComplete => exact (execInvalvaRemovalComplete_quiet _ _ h).tame.2.2 fine
  | saveComplete => exact (execSaveComplete_tame _ _ _ h).2.2 fine

/-! ## Every step -/

/-- An event runs as an instruction of the table does. -/
theorem Event.run_eq_exec (e : Event) : ∃ i, ∀ s, e.run s = exec i s := by
  cases e with
  | reformBoundary die => exact ⟨.reformBoundary die, fun _ => rfl⟩
  | longLatencyReply req => exact ⟨.longLatencyReply req, fun _ => rfl⟩
  | switchPointLeave t => exact ⟨.switchPointLeave t, fun _ => rfl⟩
  | crewdivDetect c => exact ⟨.crewdivDetect c, fun _ => rfl⟩
  | trapTaken c => exact ⟨.trapTaken c, fun _ => rfl⟩
  | launchKill l => exact ⟨.launchKill l, fun _ => rfl⟩
  | permitBackoffExpiry t => exact ⟨.permitBackoffExpiry t, fun _ => rfl⟩
  | lacerLoadDecision k => exact ⟨.lacerLoadDecision k, fun _ => rfl⟩
  | segmentLoadComplete k entry => exact ⟨.segmentLoadComplete k entry, fun _ => rfl⟩
  | ovfullTimeout k => exact ⟨.ovfullTimeout k, fun _ => rfl⟩
  | packetServe vf q => exact ⟨.packetServe vf q, fun _ => rfl⟩
  | teamPlacement l => exact ⟨.teamPlacement l, fun _ => rfl⟩
  | launchEnd l => exact ⟨.launchEnd l, fun _ => rfl⟩
  | activationDecision k => exact ⟨.activationDecision k, fun _ => rfl⟩
  | dueCountExpiry c => exact ⟨.dueCountExpiry c, fun _ => rfl⟩
  | leaseWindowExpiry c => exact ⟨.leaseWindowExpiry c, fun _ => rfl⟩
  | l1WritebackTimer k line => exact ⟨.l1WritebackTimer k line, fun _ => rfl⟩
  | pageWalkComplete walk => exact ⟨.pageWalkComplete walk, fun _ => rfl⟩
  | faultRecordWrite vf => exact ⟨.faultRecordWrite vf, fun _ => rfl⟩
  | atomicPerform req => exact ⟨.atomicPerform req, fun _ => rfl⟩
  | scAccessPerform req => exact ⟨.scAccessPerform req, fun _ => rfl⟩
  | scClockPublish k => exact ⟨.scClockPublish k, fun _ => rfl⟩
  | monitorReread t => exact ⟨.monitorReread t, fun _ => rfl⟩
  | waitcPollTimer t => exact ⟨.waitcPollTimer t, fun _ => rfl⟩
  | redtoDelivery req => exact ⟨.redtoDelivery req, fun _ => rfl⟩
  | barrierArrival arr => exact ⟨.barrierArrival arr, fun _ => rfl⟩
  | workPieceServe req => exact ⟨.workPieceServe req, fun _ => rfl⟩
  | engineOpBegin op => exact ⟨.engineOpBegin op, fun _ => rfl⟩
  | engineRetire op => exact ⟨.engineRetire op, fun _ => rfl⟩
  | skiverJobStop op => exact ⟨.skiverJobStop op, fun _ => rfl⟩
  | cobblerDispatch op => exact ⟨.cobblerDispatch op, fun _ => rfl⟩
  | eslotTimeout op => exact ⟨.eslotTimeout op, fun _ => rfl⟩
  | addOnStorePerform op => exact ⟨.addOnStorePerform op, fun _ => rfl⟩
  | ticketTileApply l => exact ⟨.ticketTileApply l, fun _ => rfl⟩
  | candidateStop t => exact ⟨.candidateStop t, fun _ => rfl⟩
  | proofPerform req => exact ⟨.proofPerform req, fun _ => rfl⟩
  | proofqPerform req => exact ⟨.proofqPerform req, fun _ => rfl⟩
  | writeApply msg => exact ⟨.writeApply msg, fun _ => rfl⟩
  | remoteRequestServe req => exact ⟨.remoteRequestServe req, fun _ => rfl⟩
  | remoteLineSendTimer die line => exact ⟨.remoteLineSendTimer die line, fun _ => rfl⟩
  | autoSwapOut l team => exact ⟨.autoSwapOut l team, fun _ => rfl⟩
  | lateReplyWrite req => exact ⟨.lateReplyWrite req, fun _ => rfl⟩
  | teamRestore l quad => exact ⟨.teamRestore l quad, fun _ => rfl⟩
  | migrationQuiesced vf => exact ⟨.migrationQuiesced vf, fun _ => rfl⟩
  | intervalClose vf => exact ⟨.intervalClose vf, fun _ => rfl⟩
  | uncorrectableConsumed vf => exact ⟨.uncorrectableConsumed vf, fun _ => rfl⟩
  | timingReplay k quarter => exact ⟨.timingReplay k quarter, fun _ => rfl⟩
  | schedulerRebuild die quad => exact ⟨.schedulerRebuild die quad, fun _ => rfl⟩
  | voltageEvaluation die dom => exact ⟨.voltageEvaluation die dom, fun _ => rfl⟩
  | throttleStart die => exact ⟨.throttleStart die, fun _ => rfl⟩
  | throttleEnd die => exact ⟨.throttleEnd die, fun _ => rfl⟩
  | traceCaptureStop => exact ⟨.traceCaptureStop, fun _ => rfl⟩
  | powerOn failing => exact ⟨.powerOn failing, fun _ => rfl⟩
  | memoryInitComplete => exact ⟨.memoryInitComplete, fun _ => rfl⟩
  | queueTail vf q v => exact ⟨.queueTail vf q v, fun _ => rfl⟩
  | resume vf v => exact ⟨.resume vf v, fun _ => rfl⟩
  | fqhead vf v => exact ⟨.fqhead vf v, fun _ => rfl⟩
  | invalva vf va => exact ⟨.invalva vf va, fun _ => rfl⟩
  | preempt vf l => exact ⟨.preempt vf l, fun _ => rfl⟩
  | restorel vf l => exact ⟨.restorel vf l, fun _ => rfl⟩
  | eyeletSpill vf k entry => exact ⟨.eyeletSpill vf k entry, fun _ => rfl⟩
  | eyeletFill vf k entry => exact ⟨.eyeletFill vf k entry, fun _ => rfl⟩
  | migctl vf v => exact ⟨.migctl vf v, fun _ => rfl⟩
  | vtime vf v => exact ⟨.vtime vf v, fun _ => rfl⟩
  | semAcquire m i => exact ⟨.semAcquire m i, fun _ => rfl⟩
  | semRelease m i => exact ⟨.semRelease m i, fun _ => rfl⟩
  | frameQuota vf k n => exact ⟨.frameQuota vf k n, fun _ => rfl⟩
  | diemask vf v => exact ⟨.diemask vf v, fun _ => rfl⟩
  | vfCreate vf f0 f1 => exact ⟨.vfCreate vf f0 f1, fun _ => rfl⟩
  | vfDestroy vf => exact ⟨.vfDestroy vf, fun _ => rfl⟩
  | registerWrite r v => exact ⟨.registerWrite r v, fun _ => rfl⟩
  | masterMemoryWrite m vf va bs => exact ⟨.masterMemoryWrite m vf va bs, fun _ => rfl⟩
  | singleFault loc => exact ⟨.singleFault loc, fun _ => rfl⟩
  | invalvaRemovalComplete vf => exact ⟨.invalvaRemovalComplete vf, fun _ => rfl⟩
  | saveComplete l quad => exact ⟨.saveComplete l quad, fun _ => rfl⟩

/-- The state a turn ends in, where it does not stop. -/
def Turn.state? : Turn → Option State
  | .run _ s => some s
  | .pass s => some s
  | .stop _ => none

/-- What is done before a thread's instruction runs leaves memory and the teams. -/
theorem State.turn_mem_teams {s u : State} {t : ThreadId} (h : (s.turn t).state? = some u) : u.mem = s.mem ∧ u.teams = s.teams := by
  have settled (v : State) (pc : Word) : ((v.settleReq t pc).blockCur .settling).mem = v.mem :=
    (State.blockCur_quiet _ _).2.2.trans (State.settleReq_quiet _ _ _).2.2
  have focused : (s.focus t).mem = s.mem := (State.focus_quiet s t).2.2
  have used (v : State) (k : CoreId) (vf co : Nat) (pc : Word) : (v.useCode k vf co pc).mem = v.mem :=
      (State.useCode_quiet v k vf co pc).2.2
  unfold State.turn at h
  split at h
  · cases h
    exact ⟨rfl, rfl⟩
  dsimp only at h
  split at h
  · cases h
    exact ⟨rfl, rfl⟩
  split at h
  · cases h
  split at h
  · cases h
    exact ⟨(settled _ _).trans focused, by simp⟩
  split at h
  all_goals
    cases h
    exact ⟨(used _ _ _ _ _).trans focused, by simp⟩

theorem State.endCycle_teams (s : State) : s.endCycle.teams = s.teams := by
  have scrubbed (c : Bool) (u : State) : (if c then u.scrub else u).teams = u.teams := by
    cases c
    · rfl
    · exact State.scrub_teams u
  unfold State.endCycle
  split
  · rfl
  · exact scrubbed _ _

/-- An instruction or an event keeps memory and every scratch canonical. -/
theorem exec_memoryCanonical (i : Instr) {s t : State} (h : exec i s = .next t) (fine : s.memoryCanonical) : t.memoryCanonical := by
  obtain ⟨mem, scratches⟩ := fine
  have keeps := exec_keeps i s
  rw [h] at keeps
  exact ⟨exec_mem_wf i h mem, (keeps ⟨scratches⟩).wf⟩

/-- A state with the memory and the teams of one that is canonical is canonical. -/
theorem State.memoryCanonical_of_eq {s t : State} (same : t.mem = s.mem ∧ t.teams = s.teams) (fine : s.memoryCanonical) :
    t.memoryCanonical := by
  obtain ⟨mem, teams⟩ := same
  unfold State.memoryCanonical
  rw [mem, teams]
  exact fine

theorem step_memoryCanonical {s t : State} (h : step s = .next t) (fine : s.memoryCanonical) : t.memoryCanonical := by
  unfold step at h
  split at h
  · rename_i e _ _
    obtain ⟨i, run⟩ := e.run_eq_exec
    exact exec_memoryCanonical i ((run _).symm.trans h) fine
  split at h
  · split at h <;> rename_i turned
    · exact exec_memoryCanonical _ h (State.memoryCanonical_of_eq (State.turn_mem_teams (congrArg Turn.state? turned)) fine)
    · cases h
      exact State.memoryCanonical_of_eq (State.turn_mem_teams (congrArg Turn.state? turned)) fine
    · cases h
  · cases h
    exact State.memoryCanonical_of_eq ⟨State.endCycle_mem s, State.endCycle_teams s⟩ fine

/-- Settles O56. Each operation of the machine leaves a scratch alone, writes its bytes one by one, or empties it (`exec_keeps`); the same
holds of device memory (`exec_mem_wf`); and what a step does besides is to choose what runs (`step_memoryCanonical`). -/
theorem stepsKeepMemoryCanonical : Obligations.StepsKeepMemoryCanonical := by
  unfold Obligations.StepsKeepMemoryCanonical
  intro s t fine h
  exact step_memoryCanonical h fine

end Sys2Proof.Machine
end


section
/-! SUPPORT. What comes before the effect of a word (R13, R24, R59): every word is issued with operands of its own, and parks or traps
by them alone. -/

namespace Sys2Proof.Machine

/-- A switch point parks its thread while results are pending (R24). -/
theorem mustPark_switch {t : Thread} (h : t.queue ≠ []) (long : Bool) : t.mustPark true long = true := by
  simp [Thread.mustPark, h]

/-- A long-latency word parks its thread where it finds no free entry (R24). -/
theorem mustPark_full {t : Thread} (h : 16 ≤ t.queue.length) (sp : Bool) : t.mustPark sp true = true := by
  have : t.queue ≠ [] := by rintro e; simp [e] at h
  simp [Thread.mustPark, this, h]

theorem exec_parks {s : State} {i : Instr} {sp long : Bool} {ops : List Opnd} {k : State → State} (parks : s.cur.mustPark sp long = true)
    (issued : exec i s = issue sp long ops s k) : exec i s = .next (s.parkCur .switchParked) := by
  rw [issued]
  exact issue_park _ _ _ _ _ parks

/-- A fact about the word of an instruction that has one. -/
theorem encoded_spec {p : Word → Prop} {v : Word} (h : p v) : ∀ w, some v = some w → p w := fun _ e => Option.some.inj e ▸ h

/-- R34: bit 31 of a word is the switch-point bit of its instruction, in each of the forms of words. -/
theorem encode_switches (i : Instr) : Laws.SwitchBit.Statement i := by
  cases i
  any_goals refine encoded_spec ?_
  any_goals simp only [formA_switch, formI_switch, formU_switch, formB_switch, formJ_switch, formM_switch]
  any_goals rfl
  all_goals exact nofun

/-- A state whose thread in turn has results pending. -/
def State.withPending (s : State) (first : QEntry) (rest : List QEntry) : State := { s with cur := { s.cur with queue := first :: rest } }

/-- Every word with S = 1 is issued as a switch point: its first check finds the pending results. -/
theorem exec_withPending {i : Instr} (hs : i.switches = true) (s : State) (first : QEntry) (rest : List QEntry) :
    exec i (s.withPending first rest) = .next ((s.withPending first rest).parkCur .switchParked) := by
  cases i
  all_goals delta Instr.switches at hs
  all_goals dsimp only at hs
  any_goals contradiction
  all_goals subst hs
  all_goals rfl

theorem exec_switch {i : Instr} (hs : i.switches = true) (s : State) (hq : s.cur.queue ≠ []) : exec i s = .next (s.parkCur .switchParked) := by
  obtain ⟨first, rest, queue⟩ := List.exists_cons_of_ne_nil hq
  have pending : s = s.withPending first rest := by rw [State.withPending, ← queue]
  rw [pending]
  exact exec_withPending hs s first rest

/-- The field, the register and the width of an operand, by which R13 judges it. -/
def Opnd.key (o : Opnd) : Nat × Reg × Nat := (o.field, o.name, o.width)

/-- The keys of the operands of a word whose D, A and B cover these numbers of registers, in the order of R59; 0 where the word has no such
field. -/
def fieldKeys (d a b : Reg) (wd wa wb : Nat) : List (Nat × Reg × Nat) := [(0, d, wd), (1, a, wa), (2, b, wb)].filter (fun x => x.2.2 != 0)

/-- A field lies beyond the allocation of a thread (R13). -/
def Thread.beyondKey (t : Thread) (x : Nat × Reg × Nat) : Bool := decide (t.regs.length < t.idx x.2.1 + x.2.2)

/-- A word is issued with operands of these keys. -/
def IssuedWith (s : State) (keys : List (Nat × Reg × Nat)) (i : Instr) : Prop :=
  ∃ sp long ops k, exec i s = issue sp long ops s k ∧ ops.map Opnd.key = keys

theorem issuedWith_of_issue {s : State} {keys : List (Nat × Reg × Nat)} {i : Instr} {sp long : Bool} {ops : List Opnd} {k : State → State}
    (issued : exec i s = issue sp long ops s k) (same : ops.map Opnd.key = keys) : IssuedWith s keys i := ⟨sp, long, ops, k, issued, same⟩

/-- Every word with register operands is issued with its D, A and B in this order. -/
theorem registerForms_issue (s : State) (sp : Bool) (d a b : Reg) (pol sc : BitVec 2) (imm : BitVec 10) (sh : BitVec 5) (big : BitVec 18)
    (sel : BitVec 7) (off : BitVec 8) (br : BitVec 17) (bs : BitVec 3) :
    ∀ x ∈ registerForms sp d a b pol sc imm sh big sel off br bs, ∀ i ∈ x.2.2.2,
      IssuedWith s (fieldKeys d a b x.1 x.2.1 x.2.2.1) i := by
  simp only [registerForms, List.forall_mem_cons, List.not_mem_nil, false_implies, implies_true, and_true]
  repeat' apply And.intro
  all_goals exact issuedWith_of_issue rfl rfl

/-- Where nothing parks, the first field beyond the allocation traps REGBOUND (R13, R59). -/
theorem issue_beyondKey {s : State} {sp long : Bool} {ops : List Opnd} {f : Nat} {r : Reg} {w : Nat} (k : State → State)
    (hpark : s.cur.mustPark sp long = false) (h : (ops.map Opnd.key).find? s.cur.beyondKey = some (f, r, w)) :
    issue sp long ops s k = .next (s.raise 3 (r.toNat + 256 * f) 0) := by
  rw [List.find?_map, Option.map_eq_some_iff] at h
  obtain ⟨o, ho, e⟩ := h
  cases e
  exact issue_beyond _ _ _ _ _ o hpark ho

/-- The first of D, A and B that lies beyond the allocation. -/
theorem fieldKeys_beyond (t : Thread) (d a b : Reg) (wd wa wb : Nat) :
    let out (r : Reg) (w : Nat) : Prop := 1 ≤ w ∧ t.regs.length < t.idx r + w
    (out d wd → (fieldKeys d a b wd wa wb).find? t.beyondKey = some (0, d, wd)) ∧
    (¬ out d wd → out a wa → (fieldKeys d a b wd wa wb).find? t.beyondKey = some (1, a, wa)) ∧
    (¬ out d wd → ¬ out a wa → out b wb → (fieldKeys d a b wd wa wb).find? t.beyondKey = some (2, b, wb)) := by
  intro out
  have picks (i : Nat) (r : Reg) (w : Nat) : decide ((w != 0) = true ∧ t.beyondKey (i, r, w) = true) = decide (out r w) :=
    decide_eq_decide.2 (by simp [out, Thread.beyondKey, Nat.one_le_iff_ne_zero])
  simp only [fieldKeys, List.find?_filter, List.find?_cons, picks]
  refine ⟨fun hd => ?_, fun hd ha => ?_, fun hd ha hb => ?_⟩
  · rw [decide_eq_true hd]
  · rw [decide_eq_false hd, decide_eq_true ha]
  · rw [decide_eq_false hd, decide_eq_false ha, decide_eq_true hb]

/-- A word that does not answer by parking is not parked. -/
theorem mustPark_of_not_parked {s : State} {sp long : Bool} {ops : List Opnd} {k : State → State}
    (h : s.cur.queue = [] ∨ issue sp long ops s k ≠ .next (s.parkCur .switchParked)) : s.cur.mustPark sp long = false := by
  by_contra hp
  rcases h with h | h
  · simp [Thread.mustPark, h] at hp
  · exact h (issue_park _ _ _ _ _ (by simpa using hp))

/-- Settles O59. Every word is issued (`exec_switch`, `registerForms_issue`), and a word parks or traps by its switch-point bit and its
operands alone. -/
theorem wordsParkOrTrapBeforeTheyIssue : Obligations.WordsParkOrTrapBeforeTheyIssue := by
  unfold Obligations.WordsParkOrTrapBeforeTheyIssue
  refine ⟨fun i w s h hs hq => exec_switch ((encode_switches i w h).symm.trans hs) s hq, fun s sp d a b sc hq => ?_,
    fun s sp d a b pol sc off hq => ?_, ?_⟩
  · simp only [List.forall_mem_cons, List.not_mem_nil, false_implies, implies_true, and_true]
    refine ⟨?_, ?_, ?_, ?_, ?_, ?_, ?_, ?_, exec_parks (ops := []) (mustPark_switch hq _) rfl⟩
    all_goals exact exec_parks (mustPark_switch hq _) rfl
  · simp only [List.forall_mem_cons, List.not_mem_nil, false_implies, implies_true, and_true]
    repeat' apply And.intro
    all_goals exact exec_parks (mustPark_full hq _) rfl
  · intro s sp d a b pol sc imm sh big sel off br bs n out x hx i hi free
    obtain ⟨sp', long, ops, k, h, keys⟩ := registerForms_issue s sp d a b pol sc imm sh big sel off br bs x hx i hi
    rw [h] at free ⊢
    have stands := mustPark_of_not_parked free
    obtain ⟨firstD, firstA, firstB⟩ := fieldKeys_beyond s.cur d a b x.1 x.2.1 x.2.2.1
    rw [← keys] at firstD firstA firstB
    refine ⟨fun hd => ?_, fun hd ha => ?_, fun hd ha hb => ?_⟩
    · simpa using issue_beyondKey k stands (firstD hd)
    · simpa using issue_beyondKey k stands (firstA hd ha)
    · simpa using issue_beyondKey k stands (firstB hd ha hb)

end Sys2Proof.Machine
end


section
/-! SUPPORT. Replies and threads stand through what is not theirs: an operation that sends no reply, and after which every thread still
carries what it carried. -/

namespace Sys2Proof.Machine

/-- No reply has come or gone, and every thread carries what it carried. -/
def State.settled (s t : State) : Prop :=
  t.replies = s.replies ∧ ∀ id x, s.thread? id = some x → ∃ u, t.thread? id = some u ∧ x.carries u

theorem State.settled_refl (s : State) : s.settled s := ⟨rfl, fun _ x h => ⟨x, h, x.carries_refl⟩⟩

theorem State.settled_trans {s t u : State} (h : s.settled t) (h' : t.settled u) : s.settled u := by
  refine ⟨h'.1.trans h.1, fun id x hx => ?_⟩
  obtain ⟨y, hy, hxy⟩ := h.2 id x hx
  obtain ⟨z, hz, hyz⟩ := h'.2 id y hy
  exact ⟨z, hz, Thread.carries_trans hxy hyz⟩

theorem State.calm.settled {s t : State} (h : s.calm t) : s.settled t := by
  obtain ⟨rest, -, threads⟩ := h
  have replies : t.replies = s.replies := by
    simp only [State.sameRest] at rest
    tauto
  exact ⟨replies, threads⟩

/-- An operation on neither the threads nor the replies. -/
theorem State.settled_of_eq {s t : State} (hc : t.cur = s.cur) (ho : t.others = s.others) (hr : t.replies = s.replies) : s.settled t := by
  have same : t.thread? = s.thread? := by
    funext id
    simp [State.thread?, hc, ho]
  refine ⟨hr, fun id x h => ⟨x, ?_, x.carries_refl⟩⟩
  rw [same]
  exact h

theorem State.wake_calm (s : State) (r : Nat) : s.calm (s.wake r) := by
  refine State.mapThreads_calm _ _ (fun x => ?_)
  split
  · simp [Thread.carries]
  · exact x.carries_refl

theorem State.stir_calm (s : State) : s.calm s.stir :=
  State.calm_trans (State.calm_trans (State.wake_calm _ _) (State.wake_calm _ _)) (State.wake_calm _ _)

theorem State.learn_settled (s : State) (t : Thread) : s.settled (s.learn t) := by
  unfold State.learn
  split
  · exact s.settled_refl
  · split
    · exact s.settled_refl
    · exact State.settled_of_eq rfl rfl rfl

theorem State.acquireActs_settled (s : State) (l t scope : Nat) : s.settled (s.acquireActs l t scope) := by
  unfold State.acquireActs
  split
  · exact s.settled_refl
  · dsimp only
    split <;> exact State.settled_of_eq rfl rfl rfl

theorem State.leaveBarrier_settled (s : State) (t : Thread) : s.settled (s.leaveBarrier t) := by
  unfold State.leaveBarrier
  dsimp only
  split
  · exact State.settled_trans (State.learn_settled s t)
      (State.settled_trans (State.acquireActs_settled _ _ _ _) (State.advanceThread_calm _ _).settled)
  · exact State.learn_settled s t

theorem State.barrierLeave_settled (s : State) : s.settled s.barrierLeave :=
  foldl_keeps State.settled State.settled_refl State.settled_trans _ State.leaveBarrier_settled _ s

theorem landAll_eq_foldl (q : List QEntry) (regs : List Word) : landAll regs q = q.foldl (fun rs e => putWords rs e.base e.val) regs := by
  induction q generalizing regs with
  | nil => rfl
  | cons e es ih => exact ih _

/-- The thread changed is found again. -/
theorem State.modThread_found {s : State} {id : ThreadId} {x : Thread} (f : Thread → Thread) (hf : ∀ x, (f x).id = x.id)
    (h : s.thread? id = some x) : (s.modThread id f).thread? id = some (f x) := by
  rw [State.modThread_thread? _ _ _ _ hf, h]
  simp

/-- The state with a reply taken from those on their way, and its clock noted (R136). -/
def State.takeReply (s : State) (r : Reply) : State := { s.takeClock r with replies := (s.takeClock r).replies.filter (fun y => y.req != r.req) }

theorem State.takeReply_replies (s : State) (r : Reply) : (s.takeReply r).replies = s.replies.filter (fun y => y.req != r.req) := by
  unfold State.takeReply State.takeClock
  split <;> rfl

theorem State.takeReply_thread? (s : State) (r : Reply) : (s.takeReply r).thread? = s.thread? := by
  unfold State.takeReply State.takeClock
  split <;> rfl

/-- A reply is taken from those on their way, and held in its entry of its thread's queue (R22). -/
theorem longLatencyReply_holds {s : State} {req : Nat} {r : Reply} {x : Thread} (hr : s.replies.find? (fun r => r.req == req) = some r)
    (hacq : r.acq = false) (hout : s.isSwapped r.t.launch r.t.team = false) (hx : s.thread? r.t = some x) :
    ∃ t u, exec (.longLatencyReply req) s = .next t ∧ t.replies = s.replies.filter (fun y => y.req != req) ∧ t.thread? r.t = some u ∧
      (x.hold req r.val).carries u := by
  obtain rfl : r.req = req := by simpa using List.find?_some hr
  have held : ((s.takeReply r).modThread r.t (fun t => t.hold r.req r.val)).thread? r.t = some (x.hold r.req r.val) :=
    State.modThread_found (fun t => t.hold r.req r.val) (fun _ => rfl) (by rw [State.takeReply_thread?, hx])
  obtain ⟨replies, threads⟩ := State.settled_trans (State.stir_calm _).settled (State.barrierLeave_settled
    ((s.takeReply r).modThread r.t (fun t => t.hold r.req r.val)).stir)
  obtain ⟨u, hu, carries⟩ := threads _ _ held
  refine ⟨_, u, ?_, replies.trans (State.takeReply_replies s r), hu, carries⟩
  simp [exec_longLatencyReply, execLongLatencyReply, hr, hacq, hout, State.takeReply]

/-- A thread whose replies are all in leaves its switch point (R24). -/
theorem switchPointLeave_lands {s : State} {id : ThreadId} {x : Thread} (hx : s.thread? id = some x) (hp : x.phase = .switchParked)
    (hq : ∀ e ∈ x.queue, e.st = .held) (hout : s.isSwapped id.launch id.team = false) :
    ∃ t, exec (.switchPointLeave id) s = .next t ∧ t.mem = s.mem ∧ t.thread? id = some x.leaveSwitch := by
  have replies : x.repliesIn = true := by simpa [Thread.repliesIn] using hq
  refine ⟨(s.modThread id (fun x => x.leaveSwitch)).renewStored (fun f => x.queue.any (fun e => inRegs id e.base e.width f)), ?_, rfl,
    State.modThread_found (fun x => x.leaveSwitch) (fun _ => rfl) hx⟩
  simp [exec_switchPointLeave, execSwitchPointLeave, hx, hp, replies, hout]

/-- Settles O16. -/
theorem repliesAreHeldThenLand : Obligations.RepliesAreHeldThenLand := by
  unfold Obligations.RepliesAreHeldThenLand
  refine ⟨fun s req r x hr hacq hout hx => ?_, fun s id x hx hp hq hout => ?_⟩
  · obtain ⟨t, u, run, replies, hu, carries⟩ := longLatencyReply_holds hr hacq hout hx
    refine ⟨t, run, ?_, u, hu, ?_⟩
    · rw [replies]
      simp
    · obtain ⟨-, regs, -, queue, -⟩ := carries
      exact ⟨regs, by rw [queue]; simp [Thread.hold]⟩
  · obtain ⟨t, run, mem, found⟩ := switchPointLeave_lands hx hp hq hout
    exact ⟨t, run, mem, _, found, rfl, rfl, rfl, landAll_eq_foldl _ _⟩

end Sys2Proof.Machine
end


section
/-! SUPPORT. The words of special registers (R16 to R20, R73 to R75), and what a selector reads. -/

namespace Sys2Proof.Machine

/-! ## What a word of no operand, or of one register, does once it issues -/

/-- A word of fixed latency without operands. -/
theorem issue_plain {s : State} {sp : Bool} (h : s.issues sp) (k : State → State) : issue sp false [] s k = .next (k s) := by
  obtain ⟨free, flips, poison⟩ := h
  exact issue_next _ _ _ _ _ (mustPark_short free) (by simp) flips poison

/-- A word of fixed latency with one operand in the allocation. -/
theorem issue_one {s : State} {sp : Bool} (h : s.issues sp) (o : Opnd) (ho : s.cur.winbase + o.name.toNat + o.width ≤ s.cur.regs.length)
    (k : State → State) : issue sp false [o] s k = .next (k s) := by
  obtain ⟨free, flips, poison⟩ := h
  exact issue_next _ _ _ _ _ (mustPark_short free) (by simpa using beyond_of_fits ho) flips poison

/-! ## Halves of a pair -/

theorem DWord.lo_eq (x : DWord) : DWord.lo x = BitVec.ofNat 32 (x.toNat % 2 ^ 32) :=
  BitVec.eq_of_toNat_eq (by simp [DWord.lo])

theorem DWord.hi_eq (x : DWord) : DWord.hi x = BitVec.ofNat 32 (x.toNat / 2 ^ 32) :=
  BitVec.eq_of_toNat_eq (by simp [DWord.hi, Nat.shiftRight_eq_div_pow])

/-! ## Indices split by extents (R18) -/

/-- The three parts of an index lie below their extents and make the index up again. -/
theorem splitIndex_spec {i a b c : Nat} (h : i < a * b * c) :
    (splitIndex i (a, b, c)).1 < a ∧ (splitIndex i (a, b, c)).2.1 < b ∧ (splitIndex i (a, b, c)).2.2 < c ∧
      i = (splitIndex i (a, b, c)).1 + a * ((splitIndex i (a, b, c)).2.1 + b * (splitIndex i (a, b, c)).2.2) := by
  have ha : 0 < a := Nat.pos_of_ne_zero (by rintro rfl; simp at h)
  have hb : 0 < b := Nat.pos_of_ne_zero (by rintro rfl; simp at h)
  refine ⟨Nat.mod_lt _ ha, Nat.mod_lt _ hb, ?_, ?_⟩
  · show i / a / b < c
    rw [Nat.div_div_eq_div_mul, Nat.div_lt_iff_lt_mul (Nat.mul_pos ha hb)]
    linarith
  · show i = i % a + a * (i / a % b + b * (i / a / b))
    rw [Nat.mod_add_div, Nat.mod_add_div]

/-- The parts of an index below 2^32 read as they are. -/
theorem splitIndex_lt {i : Nat} (n : Nat × Nat × Nat) (h : i < 2 ^ 32) :
    (splitIndex i n).1 < 2 ^ 32 ∧ (splitIndex i n).2.1 < 2 ^ 32 ∧ (splitIndex i n).2.2 < 2 ^ 32 := by
  refine ⟨(Nat.mod_le _ _).trans_lt h, (Nat.mod_le _ _).trans_lt ?_, (Nat.div_le_self _ _).trans_lt ?_⟩ <;>
    exact (Nat.div_le_self _ _).trans_lt h

/-! ## What the selectors read -/

/-- The selectors past the trap registers: the constants, the stall counters, and the reserved ones. -/
theorem State.special_of_ge (s : State) {n : Nat} (h : 42 ≤ n) : s.special n =
    if 64 ≤ n then ((s.launch? s.cur.id.launch).bind (fun l => l.consts[n - 64]?)).getD 0
    else if 48 ≤ n then BitVec.ofNat 32 (((s.crew? (crewOf s.cur.id)).bind (fun c => c.stall[n - 48]?)).getD 0) else 0 := by
  obtain ⟨k, rfl⟩ := Nat.exists_eq_add_of_le' h
  rfl

/-- A trap register reads 0 outside a handler (R271). -/
theorem Thread.trapReg_toNat (t : Thread) (v : Word) : (t.trapReg v).toNat = if t.inHandler = true then v.toNat else 0 := by
  unfold Thread.trapReg
  split <;> rfl

/-- A word is below 2^32. -/
theorem toNat_mod_self (w : Word) : w.toNat = w.toNat % 2 ^ 32 := (Nat.mod_eq_of_lt w.isLt).symm

theorem State.rds_gives {s : State} {sp : Bool} (h : s.issues sp) {d : Reg} (hd : s.fits d 1) {sel : BitVec 7} (h20 : sel ≠ 20)
    (out : sel.toNat < 42 ∨ 47 < sel.toNat) : Gives (.rds sp d sel) s d [s.special sel.toNat] := by
  have : ¬ (42 ≤ sel.toNat ∧ sel.toNat ≤ 47) := by omega
  rw [Gives, exec_rds, execRds, issue_one h _ hd]
  dsimp only
  rw [if_neg this, if_neg h20]

/-- Reading the low half of the clock also fills the latch of the high half (R19). -/
theorem State.rds_clock {s : State} {sp : Bool} (h : s.issues sp) {d : Reg} (hd : s.fits d 1) :
    exec (.rds sp d 20) s = .next (State.result
      (s.setCur { s.cur with clockLatch := BitVec.ofNat 32 ((s.vfTime (launchVf s.cur.id.launch)).toNat / 2 ^ 32) }) d
      [BitVec.ofNat 32 ((s.vfTime (launchVf s.cur.id.launch)).toNat % 2 ^ 32)]) := by
  rw [exec_rds, execRds, issue_one h _ hd, ← DWord.hi_eq, ← DWord.lo_eq]
  rfl

/-- The reserved selectors trap ILLEGAL (R74). -/
theorem State.rds_reserved {s : State} {sp : Bool} (h : s.issues sp) {d : Reg} (hd : s.fits d 1) {sel : BitVec 7} (lo : 42 ≤ sel.toNat)
    (hi : sel.toNat ≤ 47) : exec (.rds sp d sel) s = .next (s.raise 0x01 6 0) := by
  rw [exec_rds, execRds, issue_one h _ hd]
  dsimp only
  rw [if_pos ⟨lo, hi⟩]

theorem State.wrs_writes {s : State} {sp : Bool} (h : s.issues sp) {a : Reg} (ha : s.fits a 1) :
    let x := s.cur.w a
    exec (.wrs sp a 22) s = .next (State.advance (s.setCur { s.cur with fpmode := BitVec.ofNat 2 x.toNat })) ∧
    exec (.wrs sp a 23) s = .next (State.advance (s.setCur { s.cur with fpflags := BitVec.ofNat 5 x.toNat })) ∧
    exec (.wrs sp a 24) s = .next (State.advance (s.setCur { s.cur with intflags := BitVec.ofNat 2 x.toNat })) ∧
    exec (.wrs sp a 27) s = .next (State.advance (s.setCur { s.cur with lk := x })) := by
  have low (n : Nat) : BitVec.ofNat n (s.cur.w a).toNat = (s.cur.w a).extractLsb' 0 n := BitVec.eq_of_toNat_eq (by simp)
  intro x
  rw [low 2, low 5]
  exact ⟨issue_one h (opA a) ha _, issue_one h (opA a) ha _, issue_one h (opA a) ha _, issue_one h (opA a) ha _⟩

theorem State.wrs_reserved {s : State} {sp : Bool} (h : s.issues sp) {a : Reg} (ha : s.fits a 1) {sel : BitVec 7}
    (hs : sel ∉ [22, 23, 24, 27]) : exec (.wrs sp a sel) s = .next (s.raise 0x01 6 0) := by
  simp only [List.mem_cons, List.not_mem_nil, or_false, not_or] at hs
  obtain ⟨h22, h23, h24, h27⟩ := hs
  rw [exec_wrs, execWrs, issue_one h _ ha]
  dsimp only
  rw [if_neg h22, if_neg h23, if_neg h24, if_neg h27]

/-- What WIN asks of a window base (R73). -/
theorem windowOk_iff (x : Word) (n : Nat) : windowOk x.toNat n = true ↔ x = 0 ∨ (x.toNat % 16 = 0 ∧ x.toNat + 128 ≤ n) := by
  simp [windowOk, BitVec.toNat_eq]

theorem State.win_moves {s : State} {sp : Bool} (h : s.issues sp) {a : Reg} (ha : s.fits a 1) :
    exec (.win sp a) s = .next (if windowOk (s.cur.w a).toNat s.cur.regs.length then
      State.advance (s.setCur { s.cur with winbase := (s.cur.w a).toNat }) else s.raise 0x02 (s.cur.w a).toNat 0) := by
  rw [exec_win, execWin, issue_one h _ ha]

theorem State.special_lease (s : State) : s.special 29 =
    (s.crew? (crewOf s.cur.id)).elim 0 fun c => BitVec.ofNat 32 (c.lease % 65536 + if c.measured then 65536 else 0) := by
  show (match s.crew? (crewOf s.cur.id) with
    | some c => BitVec.ofNat 32 (c.lease % 65536 + if c.measured then 65536 else 0)
    | none => 0) = _
  cases s.crew? (crewOf s.cur.id) <;> rfl

theorem State.special_vf (s : State) : let v := s.vf? (launchVf s.cur.id.launch)
    s.special 30 = (v.map (fun x => x.feature0)).getD 0 ∧ s.special 31 = (v.map (fun x => x.feature1)).getD 0 ∧
      s.special 33 = (v.map (fun x => x.migepoch)).getD 0 := ⟨rfl, rfl, rfl⟩

/-- The selectors of the thread's and the team's place. -/
theorem State.special_coordinates (s : State) :
    let w (n : Nat) : Word := BitVec.ofNat 32 n
    let t := splitIndex s.cur.id.lin s.pk.ntid
    let g := splitIndex s.cur.id.team s.pk.nteam
    s.special 0 = w t.1 ∧ s.special 1 = w t.2.1 ∧ s.special 2 = w t.2.2 ∧ s.special 6 = w g.1 ∧ s.special 7 = w g.2.1 ∧ s.special 8 = w g.2.2 ∧
      s.special 12 = w (crewOf s.cur.id).crew ∧ s.special 13 = w (rankOf s.cur.id) ∧ s.special 14 = w (s.cur.id.team % s.pk.qsize) :=
  ⟨rfl, rfl, rfl, rfl, rfl, rfl, rfl, rfl, rfl⟩

/-- The selectors of the trap registers. -/
theorem State.special_trapRegs (s : State) : let r := s.cur.trapReg
    s.special 36 = r s.cur.trapcode ∧ s.special 37 = r s.cur.trappc ∧ s.special 38 = r s.cur.trapmask ∧ s.special 39 = r s.cur.trapinfo ∧
      s.special 40 = r (DWord.lo s.cur.trapaddr) ∧ s.special 41 = r (DWord.hi s.cur.trapaddr) := ⟨rfl, rfl, rfl, rfl, rfl, rfl⟩

/-- What the selectors of a thread's place read: its coordinates make up its number, and its team's (R18). -/
theorem State.special_place (s : State) :
    (s.cur.id.lin < s.pk.ntid.1 * s.pk.ntid.2.1 * s.pk.ntid.2.2 → s.pk.ntid.1 * s.pk.ntid.2.1 * s.pk.ntid.2.2 ≤ 1024 →
      (s.special 0).toNat < s.pk.ntid.1 ∧ (s.special 1).toNat < s.pk.ntid.2.1 ∧ (s.special 2).toNat < s.pk.ntid.2.2 ∧
      s.cur.id.lin = (s.special 0).toNat + s.pk.ntid.1 * ((s.special 1).toNat + s.pk.ntid.2.1 * (s.special 2).toNat) ∧
      s.cur.id.lin = 32 * (s.special 12).toNat + (s.special 13).toNat ∧ (s.special 13).toNat < 32) ∧
    (s.cur.id.team < s.pk.nteam.1 * s.pk.nteam.2.1 * s.pk.nteam.2.2 → s.pk.nteam.1 * s.pk.nteam.2.1 * s.pk.nteam.2.2 < 2 ^ 32 →
      (s.special 6).toNat < s.pk.nteam.1 ∧ (s.special 7).toNat < s.pk.nteam.2.1 ∧ (s.special 8).toNat < s.pk.nteam.2.2 ∧
      s.cur.id.team = (s.special 6).toNat + s.pk.nteam.1 * ((s.special 7).toNat + s.pk.nteam.2.1 * (s.special 8).toNat)) ∧
    (1 ≤ s.pk.qsize → s.pk.qsize ≤ 4 → (s.special 14).toNat < s.pk.qsize ∧ ∃ q, s.cur.id.team = s.pk.qsize * q + (s.special 14).toNat) := by
  have reads (n : Nat) : (BitVec.ofNat 32 n).toNat = n % 2 ^ 32 := BitVec.toNat_ofNat ..
  obtain ⟨c0, c1, c2, c6, c7, c8, c12, c13, c14⟩ := s.special_coordinates
  simp only [c0, c1, c2, c6, c7, c8, c12, c13, c14, reads, crewOf, rankOf]
  refine ⟨fun hlin small => ?_, fun hteam small => ?_, fun q1 q4 => ?_⟩
  · obtain ⟨l0, l1, l2⟩ := splitIndex_lt s.pk.ntid (show s.cur.id.lin < 2 ^ 32 by omega)
    rw [Nat.mod_eq_of_lt l0, Nat.mod_eq_of_lt l1, Nat.mod_eq_of_lt l2]
    obtain ⟨h0, h1, h2, sum⟩ := splitIndex_spec hlin
    exact ⟨h0, h1, h2, sum, by omega, by omega⟩
  · obtain ⟨l0, l1, l2⟩ := splitIndex_lt s.pk.nteam (show s.cur.id.team < 2 ^ 32 by omega)
    rw [Nat.mod_eq_of_lt l0, Nat.mod_eq_of_lt l1, Nat.mod_eq_of_lt l2]
    exact splitIndex_spec hteam
  · have lt := Nat.mod_lt s.cur.id.team q1
    rw [Nat.mod_eq_of_lt (by omega)]
    exact ⟨lt, s.cur.id.team / s.pk.qsize, (Nat.div_add_mod _ _).symm⟩

/-- A trap register reads its value inside a handler, and 0 outside (R16, R271). -/
theorem State.special_traps (s : State) :
    ∀ y ∈ [(36, s.cur.trapcode.toNat), (37, s.cur.trappc.toNat), (38, s.cur.trapmask.toNat), (39, s.cur.trapinfo.toNat),
      (40, s.cur.trapaddr.toNat % 2 ^ 32), (41, s.cur.trapaddr.toNat / 2 ^ 32)],
      (s.special y.1).toNat = if s.cur.inHandler = true then y.2 else 0 := by
  have lo : (DWord.lo s.cur.trapaddr).toNat = s.cur.trapaddr.toNat % 2 ^ 32 := by rw [DWord.lo_eq, BitVec.toNat_ofNat, Nat.mod_mod]
  have hi : (DWord.hi s.cur.trapaddr).toNat = s.cur.trapaddr.toNat / 2 ^ 32 := by rw [DWord.hi_eq, BitVec.toNat_ofNat]; omega
  obtain ⟨r36, r37, r38, r39, r40, r41⟩ := s.special_trapRegs
  simp [r36, r37, r38, r39, r40, r41, Thread.trapReg_toNat, lo, hi]

/-- PHYSREV: the revision stands above the stepping (R16). -/
theorem State.special_physrev (s : State) : (s.special 32).toNat / 2 ^ 16 = 0x0300 := by
  have small : Config.stepping.toNat >>> 16 = 0 := by
    rw [Nat.shiftRight_eq_div_pow]
    have := Config.stepping.isLt
    omega
  have stepping : (Config.stepping.zeroExtend 32).toNat = Config.stepping.toNat := by
    have := Config.stepping.isLt
    simp
    omega
  show (0x03000000#32 ||| Config.stepping.zeroExtend 32).toNat / 2 ^ 16 = 0x0300
  rw [BitVec.toNat_or, stepping, ← Nat.shiftRight_eq_div_pow, Nat.shiftRight_or_distrib, small]
  rfl

/-- Settles O12. -/
theorem specialRegisterWordsGiveTheirResults : Obligations.SpecialRegisterWordsGiveTheirResults := by
  unfold Obligations.SpecialRegisterWordsGiveTheirResults
  refine ⟨fun s sp d a b f sel h => ⟨issue_plain h _, issue_plain h _, fun hd => ?_, fun ha => ?_⟩, ?_⟩
  · exact ⟨issue_one h _ hd _, State.rds_gives h hd, State.rds_clock h hd, State.rds_reserved h hd⟩
  · obtain ⟨w22, w23, w24, w27⟩ := State.wrs_writes h ha
    refine ⟨issue_one h _ ha _, w22, w23, w24, w27, State.wrs_reserved h ha, fun ok => ?_, fun bad => ?_⟩
    · rw [State.win_moves h ha, if_pos ((windowOk_iff _ _).2 ok)]
    · rw [State.win_moves h ha, if_neg (mt (windowOk_iff _ _).1 bad)]
  · intro s c v l hc hv hl x p r reads
    have pk : s.pk = l.packet := by simp [State.pk, State.packet, hl]
    have hid : v.id = launchVf s.cur.id.launch := by simpa using List.find?_some hv
    obtain ⟨threads, teams, quad⟩ := s.special_place
    obtain ⟨s30, s31, s33⟩ := s.special_vf
    have low (n : Nat) : (BitVec.ofNat 32 n).toNat = n % 2 ^ 32 := BitVec.toNat_ofNat ..
    have wide {n : Nat} (b : BitVec n) : (b.zeroExtend 32).toNat = b.toNat % 2 ^ 32 := BitVec.toNat_setWidth ..
    have hp : p = s.pk := pk.symm
    clear_value p
    subst hp
    refine ⟨threads, teams, quad, low _, low _, low _, low _, low _, low _, low _, low _, low _, low _, low _, ?clock, toNat_mod_self _, wide _, wide _,
      wide _, low _, low _, toNat_mod_self _, low _, ?lease, ?feature0, ?feature1, s.special_physrev, ?epoch, low _, ?flags, s.special_traps,
      fun i hi => ?stall, fun i hi => ?consts⟩
    case clock =>
      rw [hid]
      exact low _
    case lease =>
      simp only [reads, r, s.special_lease, hc, Option.elim_some]
      exact low _
    case feature0 =>
      simp only [reads, r, s30, hv]
      exact toNat_mod_self _
    case feature1 =>
      simp only [reads, r, s31, hv]
      exact toNat_mod_self _
    case epoch =>
      simp only [reads, r, s33, hv]
      exact toNat_mod_self _
    case flags =>
      have mask : (s.pk.flags &&& 0x7FF#32).toNat = s.pk.flags.toNat % 2 ^ 11 := by
        rw [BitVec.toNat_and]
        exact Nat.and_two_pow_sub_one_eq_mod _ 11
      exact mask.trans (Nat.mod_eq_of_lt (by omega)).symm
    case stall =>
      simp only [reads, r]
      rw [s.special_of_ge (by omega), if_neg (by omega), if_pos (by omega), hc, show 48 + i - 48 = i by omega]
      exact low _
    case consts =>
      simp only [r]
      rw [s.special_of_ge (by omega), if_pos (by omega), hl, show 64 + i - 64 = i by omega]
      rfl

end Sys2Proof.Machine
end


section
/-! SUPPORT. What the operations of memory and the caches leave as it is: the state but for bytes, cached and stashed lines, clocks of
dies, messages, counters of locality, and the marks of monitors. -/

namespace Sys2Proof.Machine

/-! ## Finding a core and a die again -/

/-- What replaces every element of a name is found under that name where one was, and under another name what was there. -/
theorem find?_replace {α κ : Type} [BEq κ] [LawfulBEq κ] [DecidableEq κ] (key : α → κ) (a : α) (l : List α) (k : κ) :
    (l.map (fun x => if key x == key a then a else x)).find? (fun x => key x == k) =
      if k = key a then (l.find? (fun x => key x == k)).map (fun _ => a) else l.find? (fun x => key x == k) := by
  induction l with
  | nil => simp
  | cons x l ih =>
    rw [List.map_cons, List.find?_cons, List.find?_cons, ih]
    by_cases hx : key x = key a
    · by_cases hk : k = key a
      · simp [hx, hk]
      · have hk' : key a ≠ k := fun e => hk e.symm
        simp [hx, hk, beq_eq_false_iff_ne.2 hk']
    · by_cases hk : k = key a
      · subst hk
        simp [beq_eq_false_iff_ne.2 hx]
      · simp [hx, hk]

/-- What `upsert` puts under a name is found there, and under another name what was there. -/
theorem find?_upsert {α κ : Type} [BEq κ] [LawfulBEq κ] [DecidableEq κ] (key : α → κ) (a : α) (l : List α) (k : κ) :
    (upsert (fun x => key x == key a) a l).find? (fun x => key x == k) = if k = key a then some a else l.find? (fun x => key x == k) := by
  unfold upsert
  split
  · rename_i h
    rw [find?_replace]
    split
    · rename_i hk
      subst hk
      obtain ⟨x, hx⟩ := Option.isSome_iff_exists.1 (List.find?_isSome.2 (by simpa using h) : (l.find? (fun x => key x == key a)).isSome)
      rw [hx]
      rfl
    · rfl
  · rename_i h
    have absent : l.find? (fun x => key x == key a) = none := by simpa using h
    rw [List.find?_append]
    by_cases hk : k = key a
    · subst hk
      simp [absent]
    · have : key a ≠ k := fun e => hk e.symm
      simp [hk, this]

theorem State.core_id (s : State) (k : CoreId) : (s.core k).id = k := by
  unfold State.core
  cases h : s.cores.find? (fun c => c.id == k) with
  | none => rfl
  | some c => simpa using List.find?_some h

theorem State.die_id (s : State) (d : Nat) : (s.die d).id = d := by
  unfold State.die
  cases h : s.dies.find? (fun c => c.id == d) with
  | none => rfl
  | some c => simpa using List.find?_some h

theorem State.setCore_core (s : State) (c : Core) (k : CoreId) : (s.setCore c).core k = if k = c.id then c else s.core k := by
  unfold State.core State.setCore
  rw [find?_upsert (fun x => Core.id x)]
  split <;> rfl

theorem State.setDie_die (s : State) (x : Die) (d : Nat) : (s.setDie x).die d = if d = x.id then x else s.die d := by
  unfold State.die State.setDie
  rw [find?_upsert (fun x => Die.id x)]
  split <;> rfl

@[simp] theorem State.setCore_die (s : State) (c : Core) (d : Nat) : (s.setCore c).die d = s.die d := rfl
@[simp] theorem State.setDie_core (s : State) (x : Die) (k : CoreId) : (s.setDie x).core k = s.core k := rfl

/-! ## The frame -/

/-- An agent without what memory operations may change of it. -/
def Thread.still (x : Thread) : Thread := { x with watch := x.watch.map (fun w => { w with reread := false }) }
def Crew.still (c : Crew) : Crew := { c with lease := 0, window := 0, lines := [], grower := false }
def Team.still (m : Team) : Team := { m with stash := [] }
def Launch.still (l : Launch) : Launch := { l with tags := [], writers := [], uncounted := [], unrollable := false }
def Core.still (c : Core) : Core := { c with l1 := [], victims := [], deciding := false }
def Die.still (d : Die) : Die := { d with l2 := [], v := [], h := [], doms := [] }

/-- What memory operations leave of a state. -/
structure Frame where
  cur : Thread
  others : List Thread
  crew : CrewId → Option Crew
  team : Nat → Nat → Option Team
  launch : Nat → Option Launch
  core : CoreId → Core
  die : Nat → Die
  slots : List CandSlot
  vfs : List Vf
  replies : List Reply
  engines : List EngineOp
  chains : List Chain
  drains : List DrainTable
  barriers : List Barrier
  arrivals : List Arrival
  deliveries : List Delivery
  records : List FRec
  walks : List Walk
  mgmt : Mgmt
  cycle : Nat
  clock : DWord
  issueQ : List ThreadId
  ran : List ThreadId
  agenda : List Event

def State.frame (s : State) : Frame where
  cur := s.cur.still
  others := s.others.map Thread.still
  crew c := (s.crew? c).map Crew.still
  team l t := (s.team? l t).map Team.still
  launch l := (s.launch? l).map Launch.still
  core k := (s.core k).still
  die d := (s.die d).still
  slots := s.slots
  vfs := s.vfs
  replies := s.replies
  engines := s.engines
  chains := s.chains
  drains := s.drains
  barriers := s.barriers
  arrivals := s.arrivals
  deliveries := s.deliveries
  records := s.records
  walks := s.walks
  mgmt := s.mgmt
  cycle := s.cycle
  clock := s.clock
  issueQ := s.issueQ
  ran := s.ran
  agenda := s.agenda

@[simp] theorem foldl_frame {α : Type} (f : State → α → State) (items : List α) (s : State) (one : ∀ s x, (f s x).frame = s.frame) :
    (items.foldl f s).frame = s.frame :=
  foldl_keeps (fun s t => t.frame = s.frame) (fun _ => rfl) (fun p q => q.trans p) f one items s

/-! ## Changes of one agent -/

theorem State.setCore_frame (s : State) (c : Core) (h : c.still = (s.core c.id).still) : (s.setCore c).frame = s.frame := by
  have : (fun k => ((s.setCore c).core k).still) = fun k => (s.core k).still := by
    funext k
    rw [State.setCore_core]
    split
    · rename_i e
      rw [e, h]
    · rfl
  unfold State.frame
  rw [this]
  rfl

theorem State.setDie_frame (s : State) (x : Die) (h : x.still = (s.die x.id).still) : (s.setDie x).frame = s.frame := by
  have : (fun d => ((s.setDie x).die d).still) = fun d => (s.die d).still := by
    funext d
    rw [State.setDie_die]
    split
    · rename_i e
      rw [e, h]
    · rfl
  unfold State.frame
  rw [this]
  rfl

/-- A core changed in its cached lines alone. -/
theorem State.setCore_still (s : State) (k : CoreId) (c : Core) (h : c.still = (s.core k).still) : (s.setCore c).frame = s.frame := by
  have e : c.id = k := (congrArg Core.id h).trans (s.core_id k)
  exact State.setCore_frame s c (by rw [e, h])

/-- A die changed in its cached lines, its clocks and its error counts alone. -/
theorem State.setDie_still (s : State) (d : Nat) (x : Die) (h : x.still = (s.die d).still) : (s.setDie x).frame = s.frame := by
  have e : x.id = d := (congrArg Die.id h).trans (s.die_id d)
  exact State.setDie_frame s x (by rw [e, h])

theorem State.mapThreads_frame (s : State) (f : Thread → Thread) (h : ∀ x, (f x).still = x.still) : (s.mapThreads f).frame = s.frame := by
  have : (s.others.map f).map Thread.still = s.others.map Thread.still := by
    rw [List.map_map]
    exact List.map_congr_left (fun x _ => h x)
  unfold State.frame
  simp only [State.mapThreads_cur, State.mapThreads_others, h, this]
  rfl

theorem State.setLaunch_launch? (s : State) (l : Launch) (i : Nat) :
    (s.setLaunch l).launch? i = if i = l.id then (s.launch? i).map (fun _ => l) else s.launch? i :=
  find?_replace Launch.id l s.launches i

theorem State.setCrew_crew? (s : State) (c : Crew) (i : CrewId) :
    (s.setCrew c).crew? i = if i = c.id then (s.crew? i).map (fun _ => c) else s.crew? i :=
  find?_replace Crew.id c s.crews i

theorem State.setVf_vf? (s : State) (v : Vf) (i : Nat) :
    (s.setVf v).vf? i = if i = v.id then (s.vf? i).map (fun _ => v) else s.vf? i :=
  find?_replace Vf.id v s.vfs i

theorem State.setTeam_team? (s : State) (m : Team) (l t : Nat) :
    (s.setTeam m).team? l t = if l = m.launch ∧ t = m.idx then (s.team? l t).map (fun _ => m) else s.team? l t := by
  have := find?_replace (fun x => (Team.launch x, Team.idx x)) m s.teams (l, t)
  simp only [Prod.mk.injEq] at this
  exact this

/-- A launch that was found changes in what the frame leaves out. -/
theorem State.setLaunch_frame {s : State} {i : Nat} {l x : Launch} (found : s.launch? i = some x) (h : l.still = x.still) :
    (s.setLaunch l).frame = s.frame := by
  have hx : x.id = i := by simpa using List.find?_some found
  have hl : l.id = i := (congrArg Launch.id h).trans hx
  have : (fun j => ((s.setLaunch l).launch? j).map Launch.still) = fun j => (s.launch? j).map Launch.still := by
    funext j
    rw [State.setLaunch_launch?, hl]
    split
    · rename_i e
      rw [e, found]
      exact congrArg some h
    · rfl
  unfold State.frame
  rw [this]
  rfl

theorem State.setCrew_frame {s : State} {i : CrewId} {c x : Crew} (found : s.crew? i = some x) (h : c.still = x.still) :
    (s.setCrew c).frame = s.frame := by
  have hx : x.id = i := by simpa using List.find?_some found
  have hc : c.id = i := (congrArg Crew.id h).trans hx
  have : (fun j => ((s.setCrew c).crew? j).map Crew.still) = fun j => (s.crew? j).map Crew.still := by
    funext j
    rw [State.setCrew_crew?, hc]
    split
    · rename_i e
      rw [e, found]
      exact congrArg some h
    · rfl
  unfold State.frame
  rw [this]
  rfl

theorem State.team?_key {s : State} {l t : Nat} {m : Team} (found : s.team? l t = some m) : m.launch = l ∧ m.idx = t := by
  simpa using List.find?_some found

theorem State.setTeam_frame {s : State} {l t : Nat} {m x : Team} (found : s.team? l t = some x) (h : m.still = x.still) :
    (s.setTeam m).frame = s.frame := by
  obtain ⟨xl, xt⟩ := State.team?_key found
  have ml : m.launch = l := (congrArg Team.launch h).trans xl
  have mt : m.idx = t := (congrArg Team.idx h).trans xt
  have : (fun i j => ((s.setTeam m).team? i j).map Team.still) = fun i j => (s.team? i j).map Team.still := by
    funext i j
    rw [State.setTeam_team?, ml, mt]
    split
    · rename_i e
      rw [e.1, e.2, found]
      exact congrArg some h
    · rfl
  unfold State.frame
  rw [this]
  rfl

end Sys2Proof.Machine
end


section
/-! SUPPORT. The operations of memory and the caches keep the frame, one lemma each, in the order of the model. -/

namespace Sys2Proof.Machine

/-! ## Ops -/

/-- An operation that sets none of the fields of the frame. -/
theorem State.countErr_frame (s : State) (d dom : Nat) : (s.countErr d dom).frame = s.frame := State.setDie_still _ d _ rfl

@[simp] theorem State.consume_frame (s : State) (vf : Nat) (k : CoreId) (f : FaultLoc) : (s.consume vf k f).frame = s.frame := by
  unfold State.consume
  split <;> rfl

@[simp] theorem State.useStored_frame (s : State) (vf : Nat) (k : CoreId) (p : FaultLoc → Bool) : (s.useStored vf k p).frame = s.frame := by
  have counted (t : State) : ((s.flips.filter p).foldl (fun s f => s.countErr (s.faultDomain f).1 (s.faultDomain f).2) t).frame = t.frame :=
    foldl_frame _ _ _ (fun _ _ => State.countErr_frame ..)
  unfold State.useStored
  dsimp only
  split
  · rfl
  · split
    · exact counted _
    · exact (State.consume_frame ..).trans (counted _)

@[simp] theorem State.renewStored_frame (s : State) (p : FaultLoc → Bool) : (s.renewStored p).frame = s.frame := rfl

/-! ## Mem -/

@[simp] theorem State.consumeAt_frame (s : State) (vf : Nat) (k : CoreId) (key n : Nat) : (s.consumeAt vf k key n).frame = s.frame :=
  State.useStored_frame ..

@[simp] theorem State.consumeL1_frame (s : State) (vf : Nat) (k : CoreId) (key n : Nat) : (s.consumeL1 vf k key n).frame = s.frame :=
  State.useStored_frame ..

@[simp] theorem State.consumeScratch_frame (s : State) (k : CoreId) (launch team off n : Nat) :
    (s.consumeScratch k launch team off n).frame = s.frame :=
  State.useStored_frame ..

@[simp] theorem State.countWrite_frame (s : State) (g : GAddr) : (s.countWrite g).frame = s.frame := by
  unfold State.countWrite
  dsimp only
  split
  · rfl
  split
  · rfl
  rename_i found
  split
  · split
    · exact State.setLaunch_frame found rfl
    split
    · rfl
    · exact State.setLaunch_frame found rfl
  split
  · rfl
  split
  · exact State.setLaunch_frame found rfl
  · exact State.setLaunch_frame found rfl

@[simp] theorem State.countRead_frame (s : State) (g : GAddr) : (s.countRead g).frame = s.frame := by
  unfold State.countRead
  dsimp only
  split
  · rfl
  split
  · rfl
  rename_i found
  split
  · split
    · exact State.setLaunch_frame found rfl
    split
    · rfl
    · exact State.setLaunch_frame found rfl
  · rfl

@[simp] theorem State.ticketFilter_frame (s : State) (g : GAddr) (bs : List (Nat × Byte)) : (s.ticketFilter g bs).1.frame = s.frame := by
  unfold State.ticketFilter
  split
  · rfl
  split
  · rfl
  · rename_i found
    exact State.setLaunch_frame found rfl

@[simp] theorem State.markUnroll_frame (s : State) (l : Nat) : (s.markUnroll l).frame = s.frame := by
  unfold State.markUnroll
  split
  · rfl
  · rename_i found
    exact State.setLaunch_frame found rfl

/-- Every launch may become unrollbackable, and the intervals may change. -/
theorem State.unrollAll_frame (s : State) (v : List Interval) :
    State.frame { s with launches := s.launches.map (fun x => { x with unrollable := true }), intervals := v } = s.frame := by
  have : (fun i => ((s.launches.map (fun x => ({ x with unrollable := true } : Launch))).find? (fun x => x.id == i)).map Launch.still) =
      fun i => (s.launch? i).map Launch.still := by
    funext i
    rw [List.find?_map, Option.map_map]
    rfl
  exact congrArg (fun f => { s.frame with launch := f }) this

@[simp] theorem State.logWrite_frame (s : State) (l key : Nat) : (s.logWrite l key).frame = s.frame := by
  unfold State.logWrite
  dsimp only
  split
  · rfl
  split
  · exact State.markUnroll_frame ..
  split
  · rfl
  split
  · exact State.unrollAll_frame ..
  · rfl

theorem Thread.watchWrite_still (key n : Nat) (t : Thread) : (t.watchWrite key n).still = t.still := by
  unfold Thread.watchWrite
  cases h : t.watch with
  | none => rfl
  | some w =>
    dsimp only
    (repeat' split) <;> simp [Thread.still, h]

theorem Thread.watchScratch_still (launch team off n : Nat) (t : Thread) : (t.watchScratch launch team off n).still = t.still := by
  unfold Thread.watchScratch
  cases h : t.watch with
  | none => rfl
  | some w =>
    dsimp only
    split <;> simp [Thread.still, h]

/-- A thread that watches nothing is known by what the frame says of it. -/
theorem Thread.still_unwatched {x y : Thread} (h : y.still = x.still) (hx : x.watch = none) : y = x := by
  have watch : y.watch.map (fun w => ({ w with reread := false } : Watch)) = x.watch.map (fun w => ({ w with reread := false } : Watch)) :=
    congrArg Thread.watch h
  have none_ : y.watch = none := by simpa [hx] using watch
  have forget (z : Thread) (hz : z.watch = none) : z.still = z := by
    cases z
    simp only at hz
    subst hz
    rfl
  rw [← forget x hx, ← forget y none_, h]

@[simp] theorem State.storeAt_frame (s : State) (g : GAddr) (bs : List (Nat × Byte)) : (s.storeAt g bs).frame = s.frame := by
  unfold State.storeAt
  split
  · rfl
  · refine (foldl_frame _ _ _ (fun s b => State.mapThreads_frame _ _ (Thread.watchWrite_still _ _))).trans ?_
    exact State.logWrite_frame s _ _

/-! ## Cache -/

@[simp] theorem State.setL2_frame (s : State) (d : Nat) (x : L2Line) : (s.setL2 d x).frame = s.frame := State.setDie_still _ d _ rfl

@[simp] theorem State.number_frame (s : State) (d : Nat) : (s.number d).frame = s.frame := State.setDie_still _ d _ rfl

@[simp] theorem State.addMsg_frame (s : State) (src : Nat) (tag : List Nat) (dst : Nat) (g : GAddr) (bs : List (Nat × Byte))
    (toHome notice : Bool) : (s.addMsg src tag dst g bs toHome notice).frame = s.frame := rfl

@[simp] theorem State.forward_frame (s : State) (g : GAddr) (bs : List (Nat × Byte)) (src : Nat) (tag : List Nat) :
    (s.forward g bs src tag).frame = s.frame := by
  refine foldl_frame _ _ _ (fun s d => ?_)
  dsimp only
  repeat' split
  all_goals rfl

@[simp] theorem State.homeWrite_frame (s : State) (g : GAddr) (bs : List (Nat × Byte)) (tag : Option (Nat × List Nat)) :
    (s.homeWrite g bs tag).frame = s.frame := by
  unfold State.homeWrite
  dsimp only
  repeat' split
  all_goals simp

@[simp] theorem State.sendHome_frame (s : State) (d : Nat) (g : GAddr) (bs : List (Nat × Byte)) : (s.sendHome d g bs).frame = s.frame := by
  unfold State.sendHome
  dsimp only
  repeat' split
  all_goals simp

@[simp] theorem State.addPoison_frame (s : State) (fs : List FaultLoc) : (s.addPoison fs).frame = s.frame := rfl

theorem State.withPoison_frame (s : State) (d : Nat) (g : GAddr) (offs : List Nat) (write : State → State)
    (hw : ∀ s, (write s).frame = s.frame) : (s.withPoison d g offs write).frame = s.frame := by
  unfold State.withPoison
  split
  · exact hw s
  · exact hw s

@[simp] theorem State.sendLine_frame (s : State) (d line : Nat) (p : Nat → Bool) : (s.sendLine d line p).frame = s.frame := by
  unfold State.sendLine
  split
  · rfl
  · exact (State.withPoison_frame _ _ _ _ _ (fun _ => State.sendHome_frame ..)).trans (State.setL2_frame ..)

@[simp] theorem State.homeStore_frame (s : State) (d : Nat) (g : GAddr) (bs : List (Nat × Byte)) : (s.homeStore d g bs).frame = s.frame := by
  unfold State.homeStore
  split <;> simp

@[simp] theorem State.sendAll_frame (s : State) (d : Nat) (p : Nat → Bool) : (s.sendAll d p).frame = s.frame :=
  foldl_frame _ _ _ (fun _ _ => State.sendLine_frame ..)

@[simp] theorem State.l2Alloc_frame (s : State) (d : Nat) (g : GAddr) : (s.l2Alloc d g).frame = s.frame := by
  unfold State.l2Alloc
  dsimp only
  split
  · exact State.setL2_frame ..
  · rw [State.renewStored_frame]
    split
    · exact State.setL2_frame ..
    split
    · rfl
    · refine (State.setL2_frame ..).trans ((State.setDie_still _ d _ ?_).trans (State.sendLine_frame ..))
      rfl

@[simp] theorem State.askFill_frame (s : State) (d : Nat) (g : GAddr) : (s.askFill d g).frame = s.frame := rfl

@[simp] theorem State.l2Put_frame (s : State) (d : Nat) (g : GAddr) (bs : List (Nat × Byte)) : (s.l2Put d g bs).frame = s.frame := by
  unfold State.l2Put
  dsimp only
  split <;> split <;> simp

@[simp] theorem State.dieWrite_frame (s : State) (d : Nat) (g : GAddr) (bs : List (Nat × Byte)) : (s.dieWrite d g bs).frame = s.frame := by
  unfold State.dieWrite
  dsimp only
  repeat' split
  all_goals simp

@[simp] theorem State.fillLine_frame (s : State) (d : Nat) (g : GAddr) : (s.fillLine d g).frame = s.frame := by
  have sent (t : State) (w : List WeltMsg) : State.frame { t with welt := w } = t.frame := rfl
  unfold State.fillLine
  dsimp only
  split
  · exact State.l2Alloc_frame ..
  · rw [sent, State.addPoison_frame, State.setL2_frame, State.l2Alloc_frame]

@[simp] theorem State.stashClean_frame (s : State) (t : Team) (m : StashMap) (off : Nat) (g : GAddr) (drop : Bool) :
    (s.stashClean t m off g drop).frame = s.frame := by
  have written (offs : List Nat) (bs : List (Nat × Byte)) : (s.withPoison t.core.die g offs (fun s =>
      if g.checked then s.homeStore t.core.die g bs else s.dieWrite t.core.die g bs)).frame = s.frame :=
    State.withPoison_frame _ _ _ _ _ (fun s => by split <;> simp)
  unfold State.stashClean
  dsimp only
  split
  · split
    · rfl
    · exact written _ _
  · rename_i found
    refine (State.setTeam_frame found ?_).trans ?_
    · rfl
    split
    · rfl
    · exact written _ _

@[simp] theorem State.stashOut_frame (s : State) (line : Nat) (drop : Bool) (p : Team → Bool) : (s.stashOut line drop p).frame = s.frame := by
  refine foldl_frame _ _ _ (fun s t => ?_)
  split
  · rfl
  · refine foldl_frame _ _ _ (fun s m => foldl_frame _ _ _ (fun s f => ?_))
    split <;> simp

@[simp] theorem State.stashFlush_frame (s : State) (line : Nat) (write : Bool) : (s.stashFlush line write).frame = s.frame :=
  (State.stashOut_frame ..).trans (State.stashOut_frame ..)

@[simp] theorem State.stashCleanTeam_frame (s : State) (l t : Nat) : (s.stashCleanTeam l t).frame = s.frame := by
  unfold State.stashCleanTeam
  split
  · rfl
  · refine foldl_frame _ _ _ (fun s m => foldl_frame _ _ _ (fun s f => ?_))
    split <;> simp

@[simp] theorem State.dieStore_frame (s : State) (d : Nat) (g : GAddr) (bs : List (Nat × Byte)) : (s.dieStore d g bs).frame = s.frame := by
  simp [State.dieStore]

@[simp] theorem State.setL1_frame (s : State) (k : CoreId) (x : L1Line) : (s.setL1 k x).frame = s.frame := State.setCore_still _ k _ rfl

@[simp] theorem State.l1Clean_frame (s : State) (k : CoreId) (line : Nat) (p : Nat → Bool) : (s.l1Clean k line p).frame = s.frame := by
  unfold State.l1Clean
  dsimp only
  split
  · rfl
  split
  · rfl
  · exact (State.withPoison_frame _ _ _ _ _ (fun _ => State.dieStore_frame ..)).trans (State.setL1_frame ..)

@[simp] theorem State.l1CleanAll_frame (s : State) (k : CoreId) : (s.l1CleanAll k).frame = s.frame :=
  foldl_frame _ _ _ (fun _ _ => State.l1Clean_frame ..)

@[simp] theorem State.l1Invalidate_frame (s : State) (k : CoreId) : (s.l1Invalidate k).frame = s.frame := State.setCore_still _ k _ rfl

@[simp] theorem State.l1Drop_frame (s : State) (k : CoreId) (line : Nat) (p : CByte → Bool) : (s.l1Drop k line p).frame = s.frame :=
  State.setCore_still _ k _ rfl

@[simp] theorem State.triggerDecision_frame (s : State) (k : CoreId) : (s.triggerDecision k).frame = s.frame := State.setCore_still _ k _ rfl

@[simp] theorem State.grow_frame (s : State) (k : CoreId) (c : CrewId) : (s.grow k c).frame = s.frame := by
  have grown (x : Crew) : (if x.id == c then { x with grower := true }
      else if s.coreOf x.id.launch x.id.team == k then { x with grower := false } else x : Crew).still = x.still := by
    repeat' split
    all_goals rfl
  have named (x : Crew) : (if x.id == c then { x with grower := true }
      else if s.coreOf x.id.launch x.id.team == k then { x with grower := false } else x : Crew).id = x.id := by
    repeat' split
    all_goals rfl
  have : (fun i => ((s.grow k c).crew? i).map Crew.still) = fun i => (s.crew? i).map Crew.still := by
    funext i
    unfold State.grow State.crew?
    rw [List.find?_map, Option.map_map]
    have same : ((fun x : Crew => x.id == i) ∘ fun x => if x.id == c then { x with grower := true }
      else if s.coreOf x.id.launch x.id.team == k then { x with grower := false } else x) = fun x => x.id == i :=
      funext (fun x => by simp only [Function.comp, named])
    rw [same]
    exact congrArg (fun f => (s.crews.find? (fun x => x.id == i)).map f) (funext grown)
  exact congrArg (fun f => { s.frame with crew := f }) this

@[simp] theorem State.lostLocality_frame (s : State) (k : CoreId) (crew : CrewId) (line : Nat) :
    (s.lostLocality k crew line).frame = s.frame := by
  unfold State.lostLocality
  dsimp only
  split
  · rfl
  split
  · exact State.setCore_still _ k _ rfl
  split
  · exact State.setCore_still _ k _ rfl
  · rename_i found _
    rw [State.triggerDecision_frame]
    split
    · refine (State.grow_frame ..).trans ((State.setCrew_frame found ?_).trans (State.setCore_still _ k _ ?_)) <;> rfl
    · refine (State.setCrew_frame found ?_).trans (State.setCore_still _ k _ ?_) <;> rfl

@[simp] theorem State.touchLine_frame (s : State) (crew : CrewId) (line : Nat) : (s.touchLine crew line).frame = s.frame := by
  unfold State.touchLine
  split
  · split
    · rename_i found _
      exact State.setCrew_frame found rfl
    · rfl
  · rfl

@[simp] theorem State.l1Alloc_frame (s : State) (k : CoreId) (g : GAddr) (crew : CrewId) : (s.l1Alloc k g crew).frame = s.frame := by
  unfold State.l1Alloc
  dsimp only
  split
  · exact State.setL1_frame ..
  · rw [State.renewStored_frame]
    split
    · rw [State.setL1_frame, State.lostLocality_frame]
    split
    · exact State.lostLocality_frame ..
    · refine (State.setL1_frame ..).trans ((State.setCore_still _ k _ ?_).trans ((State.l1Clean_frame ..).trans (State.lostLocality_frame ..)))
      rfl

@[simp] theorem State.l1Fill_frame (s : State) (k : CoreId) (g : GAddr) (crew : CrewId) (bs : List (Nat × Byte)) :
    (s.l1Fill k g crew bs).frame = s.frame := by
  unfold State.l1Fill
  dsimp only
  split <;> simp

@[simp] theorem State.l1Put_frame (s : State) (k : CoreId) (g : GAddr) (crew : CrewId) (bs : List (Nat × Byte)) :
    (s.l1Put k g crew bs).frame = s.frame := by
  unfold State.l1Put
  dsimp only
  split <;> simp

@[simp] theorem State.writeBackRange_frame (s : State) (k : CoreId) (g : GAddr) (n : Nat) (home : Bool) :
    (s.writeBackRange k g n home).frame = s.frame := by
  unfold State.writeBackRange
  dsimp only
  split <;> simp

@[simp] theorem State.dropStale_frame (s : State) (k : CoreId) (g : GAddr) (n : Nat) : (s.dropStale k g n).frame = s.frame :=
  State.l1Drop_frame ..

@[simp] theorem State.dropEmpty_frame (s : State) (d : Nat) : (s.dropEmpty d).frame = s.frame := State.setDie_still _ d _ rfl

@[simp] theorem State.dropStaleL2_frame (s : State) (d : Nat) (g : GAddr) (n : Nat) : (s.dropStaleL2 d g n).frame = s.frame := by
  unfold State.dropStaleL2
  split <;> simp

@[simp] theorem State.seenAtHome_frame (s : State) (k : CoreId) (g : GAddr) (n : Nat) : (s.seenAtHome k g n).frame = s.frame := by
  simp [State.seenAtHome]

@[simp] theorem State.tick_frame (s : State) (d src : Nat) (tag : List Nat) : (s.tick d src tag).frame = s.frame :=
  State.setDie_still _ d _ rfl

@[simp] theorem State.carry_frame (s : State) (d m : Nat) : (s.carry d m).frame = s.frame := by
  unfold State.carry
  split
  · rfl
  · exact State.setDie_still _ d _ rfl

@[simp] theorem State.writeAtHome_frame (s : State) (d : Nat) (g : GAddr) (bs : List (Nat × Byte)) : (s.writeAtHome d g bs).frame = s.frame := by
  unfold State.writeAtHome
  dsimp only
  split <;> simp

/-! ## Walks -/

@[simp] theorem State.walked_frame (s : State) (d : Nat) (v : Vf) (va : Nat) : (s.walked d v va).frame = s.frame :=
  foldl_frame _ _ _ (fun _ _ => State.carry_frame ..)

@[simp] theorem State.markPtes_frame (s : State) (d : Nat) (setD : Bool) (ptes : List Nat) : (s.markPtes d setD ptes).frame = s.frame := by
  refine foldl_frame _ _ _ (fun s a => ?_)
  dsimp only
  repeat' split
  all_goals simp

end Sys2Proof.Machine
end


section
/-! SUPPORT. Power-on, throttling and capture (R325, R334 to R336). -/

namespace Sys2Proof.Machine

/-! ## What a frame says -/

/-- Anything of the threads that no monitor's mark changes is as it was. -/
theorem State.threads_of_frame {α : Type} (g : Thread → α) (hg : ∀ x : Thread, g x.still = g x) {s t : State} (hc : t.frame.cur = s.frame.cur)
    (ho : t.frame.others = s.frame.others) : t.threads.map g = s.threads.map g := by
  have still (u : State) : u.threads.map g = (u.frame.cur :: u.frame.others).map g := by
    simp [State.threads, State.frame, hg, Function.comp_def]
  rw [still, still, hc, ho]

/-! ## Trace records -/

/-- A trace event writes memory, and counts in the ring's own registers (R325, R326). -/
theorem State.trace_frame (s : State) (kind d l team thread : Nat) : ∃ tail drop,
    (s.trace kind d l team thread).frame = { s.frame with mgmt := { s.mgmt with trtail := tail, trdrop := drop } } := by
  unfold State.trace
  dsimp only
  split
  · exact ⟨s.mgmt.trtail, s.mgmt.trdrop, rfl⟩
  split
  · exact ⟨s.mgmt.trtail, s.mgmt.trdrop + 1, rfl⟩
  refine ⟨s.mgmt.trtail + 1, s.mgmt.trdrop, ?_⟩
  split
  · rw [State.homeWrite_frame, State.stashFlush_frame]
    rfl
  · rfl

/-! ## MSTATUS -/

/-- MSTATUS holds its flags in bits 0 to 3 and the failing element from bit 8 on (R334). -/
theorem Mgmt.mstatus_bits (g : Mgmt) (h : g.failing < 256) : g.mstatus.getLsbD 0 = g.ready ∧ g.mstatus.getLsbD 1 = g.calfail ∧
    g.mstatus.getLsbD 2 = g.memInit ∧ g.mstatus.getLsbD 3 = g.predFail ∧ g.mstatus.toNat / 256 = g.failing := by
  have flag (b : Bool) (n : Nat) : (if b then n else 0) = n * b.toNat := by cases b <;> simp
  have bit (b : Bool) {n : Nat} (hn : n = b.toNat) : decide (n = 1) = b := by subst hn; cases b <;> rfl
  have r := g.ready.toNat_lt
  have c := g.calfail.toNat_lt
  have m := g.memInit.toNat_lt
  have p := g.predFail.toNat_lt
  simp only [Mgmt.mstatus, flag, BitVec.getLsbD_ofNat, BitVec.toNat_ofNat, Nat.testBit_eq_decide_div_mod_eq, Nat.reduceLT, decide_true,
    Bool.true_and]
  exact ⟨bit _ (by omega), bit _ (by omega), bit _ (by omega), bit _ (by omega), by omega⟩

/-! ## Memory after initialisation -/

theorem Memory.get_filter (m : Memory) (p : Nat → Bool) (a : Nat) :
    Memory.get (m.filter (fun (c : Host.Cell) => p c.1)) a = if p a then m.get a else 0 := by
  induction m with
  | nil => simp [Memory.get]
  | cons c m ih =>
    rw [List.filter_cons]
    by_cases hc : c.1 = a
    · subst hc
      by_cases hp : p c.1 = true
      · simp [hp, Memory.get]
      · simp only [hp, Bool.false_eq_true, if_false, ih]
    · by_cases hp : p c.1 = true
      · simp [hp, Memory.get, hc, ih]
      · simp only [hp, Bool.false_eq_true, if_false, ih, Memory.get, hc]

/-- What a throttle's start or end leaves: threads and CLOCK stand, the die is as it has been set, and of the registers only those of the
trace ring move on. -/
theorem State.traceEvent_throttle (s : State) (d : Die) (m : Mgmt) (kind n : Nat) :
    let t := State.traceEvent { s.setDie d with mgmt := m } kind n 0
    t.threads.map (fun u => (u.id, u.pc, u.regs)) = s.threads.map (fun u => (u.id, u.pc, u.regs)) ∧ t.clock = s.clock ∧
      (t.die d.id).throttled = d.throttled ∧ (t.die d.id).slow = d.slow ∧ t.mgmt.capturing = m.capturing ∧
      t.mgmt.throttleEnd = m.throttleEnd := by
  intro t
  obtain ⟨tail, drop, h⟩ := State.trace_frame { s.setDie d with mgmt := m } kind n 0 0xFFFFFFFF 0xFFFF
  have die : (t.die d.id).still = d.still := by
    have : (t.die d.id).still = ((s.setDie d).die d.id).still := congrArg (fun f => f.die d.id) h
    rw [this, State.setDie_die, if_pos rfl]
  have mgmt : t.mgmt = { m with trtail := tail, trdrop := drop } := congrArg (fun f => f.mgmt) h
  have cur : t.frame.cur = s.frame.cur := congrArg (fun f => f.cur) h
  have others : t.frame.others = s.frame.others := congrArg (fun f => f.others) h
  have clock : t.clock = s.clock := congrArg (fun f => f.clock) h
  have throttled : (t.die d.id).throttled = d.throttled := congrArg (fun x => x.throttled) die
  have slow : (t.die d.id).slow = d.slow := congrArg (fun x => x.slow) die
  refine ⟨State.threads_of_frame (fun u => (u.id, u.pc, u.regs)) (fun _ => rfl) cur others, clock, throttled, slow, ?_, ?_⟩ <;> rw [mgmt]

/-- Capture goes on while a die is throttled, or for 1,000,000 counts after (R325). -/
theorem traceCaptureStop_eq (s : State) : exec (.traceCaptureStop) s = .next (if s.mgmt.capturing = true ∧ (∀ d ∈ s.dies, d.throttled = false) ∧
    s.mgmt.throttleEnd + 1000000 ≤ s.clock.toNat then { s with mgmt := { s.mgmt with capturing := false } } else s) := by
  rw [exec_traceCaptureStop, execTraceCaptureStop]
  simp [and_assoc]

/-- Settles O52. -/
theorem thePartComesUpAndIsThrottled : Obligations.ThePartComesUpAndIsThrottled := by
  unfold Obligations.ThePartComesUpAndIsThrottled
  refine ⟨Mgmt.mstatus_bits, fun s f => ⟨?_, ?_, ?_, ?_, ?_⟩, fun s d => ⟨?_, ?_, ?_⟩, fun s => ⟨?_, ?_⟩⟩
  · intro h
    simp [exec_powerOn, execPowerOn, h]
  · rintro e rfl bad
    have : calElement e = false := decide_eq_false (by omega)
    simp [exec_powerOn, execPowerOn, this]
  · intro off good
    cases f with
    | none =>
      simp only [exec_powerOn, execPowerOn, off, Bool.false_eq_true, if_false]
      exact ⟨_, rfl, rfl, rfl, rfl, fun _ => ⟨rfl, rfl⟩, nofun⟩
    | some e =>
      have : calElement e = true := decide_eq_true (good e rfl)
      simp only [exec_powerOn, execPowerOn, off, this, Bool.false_eq_true, if_false, if_true]
      exact ⟨_, rfl, rfl, rfl, rfl, nofun, by rintro _ ⟨⟩; exact ⟨rfl, rfl, rfl⟩⟩
  · intro h
    simp [exec_memoryInitComplete, execMemoryInitComplete, h]
  · intro h
    rw [exec_memoryInitComplete, execMemoryInitComplete, if_pos h]
    refine ⟨_, rfl, rfl, rfl, rfl, rfl, rfl, fun a => ?_, fun k => rfl, fun d => rfl⟩
    have kept := Memory.get_filter s.mem (fun x => decide (24 ≤ homeOf x)) a
    by_cases low : homeOf a < 24
    · rw [if_pos low, kept, if_neg (by simpa using low)]
    · rw [if_neg low, kept, if_pos (by simpa using low)]
  · obtain ⟨threads, clock, throttled, slow, capturing, -⟩ := State.traceEvent_throttle s
      { s.die d with throttled := true, slow := min ((s.die d).slow + 1) 20 }
      { s.mgmt with capturing := s.mgmt.capturing || s.mgmt.trctl.getLsbD 0 } 0 d
    rw [s.die_id] at throttled slow
    rw [exec_throttleStart, execThrottleStart]
    dsimp only
    split
    · rename_i already
      refine ⟨_, rfl, rfl, rfl, ?_, ?_, fun h => absurd h (by simp [already])⟩ <;>
        rw [State.setDie_die, if_pos (s.die_id d).symm]
    · exact ⟨_, rfl, threads, clock, throttled, slow, fun _ armed => capturing.trans (by simp [armed])⟩
  · intro h
    simp [exec_throttleEnd, execThrottleEnd, h]
  · intro h
    obtain ⟨threads, clock, throttled, slow, -, ended⟩ := State.traceEvent_throttle s { s.die d with throttled := false, slow := 0 }
      { s.mgmt with throttleEnd := s.clock.toNat } 1 d
    rw [s.die_id] at throttled slow
    rw [exec_throttleEnd, execThrottleEnd]
    simp only [h, Bool.not_true, Bool.false_eq_true, if_false]
    exact ⟨_, rfl, threads, clock, throttled, slow, ended⟩
  · intro goesOn
    rw [traceCaptureStop_eq, if_neg]
    rintro ⟨on, calm, past⟩
    rcases goesOn with off | ⟨d, hd, hot⟩ | early
    · simp [off] at on
    · simp [calm d hd] at hot
    · omega
  · intro on calm past
    rw [traceCaptureStop_eq, if_pos ⟨on, calm, past⟩]

end Sys2Proof.Machine
end


section
/-! SUPPORT. The end of a thread spares the threads that have ended: what it releases is not one of them (R24, R157). -/

namespace Sys2Proof.Machine

/-- A thread keeps its id; one named by `D` that has ended keeps everything but its monitor. -/
def Thread.spared (D : ThreadId → Prop) (x y : Thread) : Prop := y.id = x.id ∧ (D x.id → x.live = false → y.still = x.still)

/-- Every thread is spared. -/
def State.spares (D : ThreadId → Prop) (s t : State) : Prop := List.Forall₂ (Thread.spared D) s.threads t.threads

/-- The threads named by `D` have ended. -/
def State.ended (D : ThreadId → Prop) (s : State) : Prop := ∀ x ∈ s.threads, D x.id → x.live = false

theorem Thread.live_of_still {x y : Thread} (h : y.still = x.still) : y.live = x.live := by
  have phase : y.still.phase = x.still.phase := by rw [h]
  change y.phase = x.phase at phase
  simp [Thread.live, phase]

theorem Thread.spared_refl (D : ThreadId → Prop) (x : Thread) : x.spared D x := ⟨rfl, fun _ _ => rfl⟩

theorem Thread.spared_trans {D : ThreadId → Prop} {x y z : Thread} (h : x.spared D y) (h' : y.spared D z) : x.spared D z := by
  refine ⟨h'.1.trans h.1, fun hd dead => ?_⟩
  have first := h.2 hd dead
  exact (h'.2 (by rw [h.1]; exact hd) (by rw [Thread.live_of_still first, dead])).trans first

section
variable {D : ThreadId → Prop}

theorem State.spares_refl (s : State) : s.spares D s := List.forall₂_same.2 (fun x _ => x.spared_refl D)

theorem State.spares_trans {s t u : State} (h : s.spares D t) (h' : t.spares D u) : s.spares D u := by
  refine (List.forall₂_iff_get.2 ⟨h.length_eq.trans h'.length_eq, fun i hi hk => ?_⟩)
  have hj : i < t.threads.length := h.length_eq ▸ hi
  exact Thread.spared_trans ((List.forall₂_iff_get.1 h).2 i hi hj) ((List.forall₂_iff_get.1 h').2 i hj hk)

theorem State.spares_of_threads {s t : State} (h : t.threads = s.threads) : s.spares D t := by
  unfold State.spares
  rw [h]
  exact s.spares_refl

/-- What leaves the frame alone spares every thread. -/
theorem State.spares_of_frame {s t : State} (h : t.frame = s.frame) : s.spares D t := by
  have cur : t.cur.still = s.cur.still := congrArg (fun f => f.cur) h
  have others : t.others.map Thread.still = s.others.map Thread.still := congrArg (fun f => f.others) h
  have same : s.threads.map Thread.still = t.threads.map Thread.still := by simp [State.threads, cur, others]
  have pairs := List.forall₂_map_left_iff.1 (List.forall₂_map_right_iff.1 (List.forall₂_eq_eq_eq ▸ same : List.Forall₂ (· = ·) _ _))
  refine pairs.imp (fun x y e => ⟨?_, fun _ _ => e.symm⟩)
  exact (congrArg Thread.id e).symm

theorem State.spares_ended {s t : State} (h : s.spares D t) (he : s.ended D) : t.ended D := by
  intro y hy hd
  obtain ⟨i, hi, rfl⟩ := List.getElem_of_mem hy
  have hj : i < s.threads.length := h.length_eq ▸ hi
  obtain ⟨id, same⟩ := (List.forall₂_iff_get.1 h).2 i hj hi
  have id : t.threads[i].id = s.threads[i].id := id
  have hd' : D s.threads[i].id := id ▸ hd
  have dead := he _ (List.getElem_mem hj) hd'
  exact (Thread.live_of_still (same hd' dead)).trans dead

theorem State.mapThreads_spares (s : State) (f : Thread → Thread) (hf : ∀ x : Thread, x.spared D (f x)) : s.spares D (s.mapThreads f) :=
  (List.forall₂_map_right_iff.2 (List.forall₂_same.2 (fun x _ => hf x)) : List.Forall₂ _ s.threads (s.threads.map f))

theorem State.modThread_spares (s : State) {id : ThreadId} (h : ¬ D id) (f : Thread → Thread) (hf : ∀ x, (f x).id = x.id) :
    s.spares D (s.modThread id f) := by
  refine State.mapThreads_spares _ _ (fun x => ?_)
  split
  · rename_i e
    exact ⟨hf x, fun hd => absurd (eq_of_beq e ▸ hd) h⟩
  · exact x.spared_refl D

/-- A change of live threads alone spares those that have ended. -/
theorem State.mapThreads_live_spares (s : State) (p : Thread → Bool) (f : Thread → Thread) (hf : ∀ x, (f x).id = x.id)
    (hp : ∀ x, p x = true → x.live = true) : s.spares D (s.mapThreads (fun x => if p x then f x else x)) := by
  refine State.mapThreads_spares _ _ (fun x => ?_)
  split
  · rename_i e
    exact ⟨hf x, fun _ dead => absurd (hp x e) (by simp [dead])⟩
  · exact x.spared_refl D

theorem State.meetRelease_spares (s : State) (c : CrewId) : s.spares D (s.meetRelease c) := by
  refine s.mapThreads_live_spares _ _ (fun _ => rfl) (fun x hx => ?_)
  have : x.phase = .held := by simp at hx; tauto
  simp [Thread.live, this]

theorem State.wake_spares (s : State) (r : Nat) : s.spares D (s.wake r) := by
  refine s.mapThreads_live_spares (fun t => t.phase == .stalled r) _ (fun _ => rfl) (fun x hx => ?_)
  have : x.phase = .stalled r := by simpa using hx
  simp [Thread.live, this]

theorem State.stir_spares (s : State) : s.spares D s.stir :=
  State.spares_trans (State.spares_trans (s.wake_spares 15) (State.wake_spares _ 3)) (State.wake_spares _ 13)

theorem State.killLaunch_spares (s : State) (l d : Nat) (k : CoreId) : s.spares D (s.killLaunch l d k) := by
  unfold State.killLaunch
  split
  · split
    · exact s.spares_refl
    · exact State.spares_of_threads rfl
  · exact s.spares_refl

theorem State.trapThread_spares (s : State) {id : ThreadId} (h : ¬ D id) (code info : Nat) (addr : DWord) (at_ resume : Word) :
    s.spares D (s.trapThread id code info addr at_ resume) := by
  unfold State.trapThread
  split
  · exact s.spares_refl
  · split
    · refine State.spares_trans ?_ (State.meetRelease_spares _ _)
      refine State.spares_trans ?_ (State.killLaunch_spares _ _ _ _)
      exact s.modThread_spares h _ (fun _ => rfl)
    · refine State.spares_trans ?_ (State.meetRelease_spares _ _)
      exact s.modThread_spares h _ (fun _ => rfl)

theorem State.advanceThread_spares (s : State) {id : ThreadId} (h : ¬ D id) : s.spares D (s.advanceThread id) := by
  unfold State.advanceThread
  split
  · exact s.spares_refl
  · split
    · exact s.trapThread_spares h _ _ _ _ _
    · refine State.spares_trans ?_ (State.meetRelease_spares _ _)
      exact s.modThread_spares h _ (fun _ => rfl)

/-! ## Leaving a barrier -/

/-- Every thread is spared, and no engine operation comes or goes. -/
def State.lets (D : ThreadId → Prop) (s t : State) : Prop := s.spares D t ∧ t.engines = s.engines

theorem State.lets_refl (s : State) : s.lets D s := ⟨s.spares_refl, rfl⟩

theorem State.lets_trans {s t u : State} (h : s.lets D t) (h' : t.lets D u) : s.lets D u :=
  ⟨State.spares_trans h.1 h'.1, h'.2.trans h.2⟩

theorem State.lets_of_eq {s t : State} (hc : t.cur = s.cur) (ho : t.others = s.others) (he : t.engines = s.engines) : s.lets D t :=
  ⟨State.spares_of_threads (by simp [State.threads, hc, ho]), he⟩

theorem State.lets_of_calm {s t : State} (h : s.spares D t) (calm : s.calm t) : s.lets D t := by
  obtain ⟨rest, -, -⟩ := calm
  simp only [State.sameRest] at rest
  exact ⟨h, by tauto⟩

theorem State.learn_lets (s : State) (t : Thread) : s.lets D (s.learn t) := by
  unfold State.learn
  split
  · exact s.lets_refl
  · split
    · exact s.lets_refl
    · exact State.lets_of_eq rfl rfl rfl

theorem State.acquireActs_lets (s : State) (l t scope : Nat) : s.lets D (s.acquireActs l t scope) := by
  unfold State.acquireActs
  split
  · exact s.lets_refl
  · dsimp only
    split <;> exact State.lets_of_eq rfl rfl rfl

theorem State.leaveBarrier_lets (s : State) {t : Thread} (h : ¬ D t.id) : s.lets D (s.leaveBarrier t) := by
  unfold State.leaveBarrier
  dsimp only
  split
  · exact State.lets_trans (s.learn_lets t) (State.lets_trans (State.acquireActs_lets _ _ _ _)
      (State.lets_of_calm (State.advanceThread_spares _ h) (State.advanceThread_calm _ _)))
  · exact s.learn_lets t

/-- A thread that a barrier releases has not ended. -/
theorem State.live_of_phaseOver {s : State} {t : Thread} (h : s.phaseOver t = true) : t.live = true := by
  unfold State.phaseOver at h
  split at h
  · rename_i phase
    simp [Thread.live, phase]
  · exact absurd h (by simp)

theorem foldl_leaveBarrier_lets (ts : List Thread) (s : State) (h : ∀ t ∈ ts, ¬ D t.id) : s.lets D (ts.foldl State.leaveBarrier s) := by
  induction ts generalizing s with
  | nil => exact s.lets_refl
  | cons t ts ih =>
    rw [List.forall_mem_cons] at h
    exact State.lets_trans (s.leaveBarrier_lets h.1) (ih _ h.2)

theorem State.barrierLeave_lets (s : State) (he : s.ended D) : s.lets D s.barrierLeave := by
  refine foldl_leaveBarrier_lets _ _ (fun t ht hd => ?_)
  obtain ⟨mem, gone⟩ := List.mem_filter.1 ht
  have live := State.live_of_phaseOver (Bool.and_elim_left gone)
  exact absurd live (by simp [he t mem hd])

theorem State.checkBarrier_lets (s : State) (he : s.ended D) (l scope owner id : Nat) : s.lets D (s.checkBarrier l scope owner id) := by
  unfold State.checkBarrier
  split
  · exact s.lets_refl
  · split
    · exact State.barrierLeave_lets (s.setBarrier _) he
    · exact s.lets_refl

theorem foldl_checkBarrier_lets (bs : List Barrier) (s : State) (he : s.ended D) :
    s.lets D (bs.foldl (fun s b => s.checkBarrier b.launch b.scope b.owner b.id) s) := by
  induction bs generalizing s with
  | nil => exact s.lets_refl
  | cons b bs ih =>
    have one := s.checkBarrier_lets he b.launch b.scope b.owner b.id
    exact State.lets_trans one (ih _ (State.spares_ended one.1 he))

theorem State.exitBarriers_lets (s : State) (he : s.ended D) (l t : Nat) : s.lets D (s.exitBarriers l t) :=
  foldl_checkBarrier_lets _ s he

theorem State.lacerStir_lets (s : State) (k : CoreId) (vf : Nat) : s.lets D (s.lacerStir k vf) := State.lets_of_eq rfl rfl rfl

theorem State.crewLeave_lets (s : State) (c : CrewId) : s.lets D (s.crewLeave c) := by
  unfold State.crewLeave
  split
  · split
    · exact s.lets_refl
    · exact State.lets_of_eq rfl rfl rfl
  · exact s.lets_refl

/-! ## Retiring a team -/

theorem State.preemptDone_spares (s : State) (vf : Nat) : s.spares D (s.preemptDone vf) := by
  unfold State.preemptDone
  split
  · exact s.spares_refl
  · split
    · exact State.spares_of_threads rfl
    · exact s.spares_refl

theorem foldl_modSeg_threads (s : State) (k : CoreId) (vf coid : Nat) (f : SegEntry → SegEntry) (gs : List Nat) :
    (gs.foldl (fun s g => s.modSeg k vf coid g f) s).threads = s.threads :=
  foldl_keeps (fun s t : State => t.threads = s.threads) (fun _ => rfl) (fun p q => q.trans p)
    (fun s g => s.modSeg k vf coid g f) (fun _ _ => rfl) gs s

theorem State.unpin_spares (s : State) (l : Nat) (k : CoreId) : s.spares D (s.unpin l k) := by
  unfold State.unpin
  split
  · exact s.spares_refl
  · split
    · exact s.spares_refl
    · dsimp only
      split <;> exact State.spares_of_threads (foldl_modSeg_threads _ _ _ _ _ _)

theorem State.dropChains_spares (s : State) (l t : Nat) (k : CoreId) : s.spares D (s.dropChains l t k) := by
  unfold State.dropChains
  split
  · exact State.spares_of_threads rfl
  · exact s.spares_refl

/-- The record of a team that retires: no mapping and no token left. -/
def Team.retire (m : Team) : Team := { m with st := .retired, stash := [], tokens := [] }

/-- A team's record says that it has retired, and its core is rid of its tokens, its launch's pins and its chains. -/
def State.retireOnCore (s : State) (l t : Nat) (m : Team) : State :=
  let s := (s.setTeam m.retire).preemptDone (launchVf l)
  let s := if m.on m.core && !m.tokens.isEmpty then s.lacerStir m.core (launchVf l) else s
  (if m.on m.core then (s.unpin l m.core).nextGen m.core else s).dropChains l t m.core

/-- A retired team's slots and barriers go, and its launch counts it. -/
def State.retireCounted (s : State) (l t q : Nat) : State :=
  let s := { s with slots := s.slots.filter (fun x => !(x.owner.launch == l && x.owner.team == t)) }
  let done := s.quadRetired l q
  let s := { s with
    barriers := s.barriers.filter (fun b => !(b.launch == l &&
      ((b.scope == 1 && b.owner == t) || (done && b.scope == 2 && b.owner == q))))
    drains := if done then s.drains.filter (fun d => !(d.launch == l && d.quad == q)) else s.drains }
  match s.launch? l with
  | none => s
  | some x => (s.setLaunch { x with retired := x.retired + 1, endTime := (s.vfTime (launchVf l)).toNat }).stir

theorem State.teamRetire_eq (s : State) (l t : Nat) : s.teamRetire l t =
    match (s.stashCleanTeam l t).team? l t with
    | none => s.stashCleanTeam l t
    | some m => ((s.stashCleanTeam l t).retireOnCore l t m).retireCounted l t (t / ((s.stashCleanTeam l t).packet l).qsize) := rfl

theorem State.retireOnCore_spares (s : State) (l t : Nat) (m : Team) : s.spares D (s.retireOnCore l t m) := by
  have noted : s.spares D (s.setTeam m.retire) := State.spares_of_threads rfl
  have preempted := State.spares_trans noted (State.preemptDone_spares _ (launchVf l))
  unfold State.retireOnCore
  refine State.spares_trans preempted ?_
  generalize (s.setTeam m.retire).preemptDone (launchVf l) = a
  dsimp only
  refine State.spares_trans ?_ (State.dropChains_spares _ l t m.core)
  have stirred : a.spares D (if m.on m.core && !m.tokens.isEmpty then a.lacerStir m.core (launchVf l) else a) := by
    split
    · exact State.spares_of_threads rfl
    · exact a.spares_refl
  refine State.spares_trans stirred ?_
  generalize (if m.on m.core && !m.tokens.isEmpty then a.lacerStir m.core (launchVf l) else a) = b
  split
  · exact State.spares_trans (b.unpin_spares l m.core) (State.spares_of_threads rfl)
  · exact b.spares_refl

theorem State.retireCounted_spares (s : State) (l t q : Nat) : s.spares D (s.retireCounted l t q) := by
  unfold State.retireCounted
  dsimp only
  split
  · exact State.spares_of_threads rfl
  · exact State.spares_trans (State.spares_of_threads rfl) (State.stir_spares _)

theorem State.teamRetire_spares (s : State) (l t : Nat) : s.spares D (s.teamRetire l t) := by
  rw [State.teamRetire_eq]
  refine State.spares_trans (State.spares_of_frame (s.stashCleanTeam_frame l t)) ?_
  split
  · exact State.spares_refl _
  · exact State.spares_trans (State.retireOnCore_spares _ _ _ _) (State.retireCounted_spares _ _ _ _)

theorem State.retireOnCore_teams (s : State) (l t : Nat) (m : Team) : (s.retireOnCore l t m).teams = (s.setTeam m.retire).teams := by
  unfold State.retireOnCore
  dsimp only
  rw [State.dropChains_teams]
  split
  · rw [State.nextGen_teams, State.unpin_teams]
    split
    · rw [State.lacerStir_teams, State.preemptDone_teams]
    · rw [State.preemptDone_teams]
  · split
    · rw [State.lacerStir_teams, State.preemptDone_teams]
    · rw [State.preemptDone_teams]

theorem State.retireCounted_teams (s : State) (l t q : Nat) : (s.retireCounted l t q).teams = s.teams := by
  unfold State.retireCounted
  dsimp only
  split <;> rfl

theorem State.team?_of_teams {s t : State} (h : t.teams = s.teams) : t.team? = s.team? := by
  funext l i
  simp [State.team?, h]

theorem State.setTeam_found {s : State} {l t : Nat} {x m : Team} (found : s.team? l t = some x) (hl : m.launch = l) (ht : m.idx = t) :
    (s.setTeam m).team? l t = some m := by
  rw [State.setTeam_team?, hl, ht, found]
  simp

/-- A team that retires is retired, with no token and no mapping left (R157). -/
theorem State.teamRetire_found {s : State} {l t : Nat} {m : Team} (found : s.team? l t = some m) :
    ∃ m', (s.teamRetire l t).team? l t = some m' ∧ m'.st = .retired ∧ m'.tokens = [] ∧ m'.stash = [] := by
  have kept : ((s.stashCleanTeam l t).team? l t).map Team.still = (s.team? l t).map Team.still :=
    congrArg (fun f => f.team l t) (s.stashCleanTeam_frame l t)
  rw [found] at kept
  rw [State.teamRetire_eq]
  generalize s.stashCleanTeam l t = s at kept ⊢
  cases here : s.team? l t with
  | none => rw [here] at kept; cases kept
  | some tm =>
    obtain ⟨hl, ht⟩ := State.team?_key here
    refine ⟨tm.retire, ?_, rfl, rfl, rfl⟩
    rw [State.team?_of_teams ((State.retireCounted_teams _ _ _ _).trans (s.retireOnCore_teams l t tm))]
    exact State.setTeam_found here hl ht

/-- Where every thread of a team has ended and no engine operation of it is left, the team stands retired; one that had not retired
before has no token and no mapping left (R157). -/
theorem State.tryRetire_found {s : State} {l t : Nat} {m : Team} (found : s.team? l t = some m) (done : s.teamDone l t = true)
    (idle : s.teamEngines l t = false) :
    ∃ m', (s.tryRetire l t).team? l t = some m' ∧ m'.st = .retired ∧ (m.st ≠ .retired → m'.tokens = [] ∧ m'.stash = []) := by
  unfold State.tryRetire
  rw [found]
  by_cases h : m.st = .retired
  · exact ⟨m, by simp [h, found], h, fun n => absurd h n⟩
  · obtain ⟨m', found', st, tokens, stash⟩ := State.teamRetire_found found
    exact ⟨m', by simp [h, done, idle, found'], st, fun _ => ⟨tokens, stash⟩⟩

theorem State.tryRetire_spares (s : State) (l t : Nat) : s.spares D (s.tryRetire l t) := by
  unfold State.tryRetire
  split
  · exact s.spares_refl
  · split
    · exact s.teamRetire_spares l t
    · exact s.spares_refl

/-! ## The end of a thread -/

/-- The state in which the thread in turn has just exited. -/
def State.exitCur (s : State) : State := s.setCur { s.cur.enter .exited s.cycle with watch := none, inHandler := false }

/-- The state in which the thread in turn has left its crew. -/
def State.exitCrew (s : State) : State := (s.exitCur.meetRelease (crewOf s.cur.id)).crewLeave (crewOf s.cur.id)

/-- The state once the barriers the exit of the thread in turn may complete have been looked at. -/
def State.exitLeft (s : State) : State :=
  (s.exitCrew.lacerStir (s.exitCrew.coreOf s.cur.id.launch s.cur.id.team) (launchVf s.cur.id.launch)).exitBarriers
    s.cur.id.launch s.cur.id.team

/-- The team of the thread in turn notes its end and its counters. -/
def State.noteExit (s : State) (l t : Nat) : State :=
  match s.team? l t with
  | some tm => s.setTeam { tm with exitTime := (s.vfTime (launchVf l)).toNat, stalls := s.stallSums l t }
  | none => s

theorem State.endThread_eq (s : State) : s.endThread =
    if s.exitLeft.teamDone s.cur.id.launch s.cur.id.team
    then (s.exitLeft.noteExit s.cur.id.launch s.cur.id.team).tryRetire s.cur.id.launch s.cur.id.team else s.exitLeft := rfl

theorem State.exitLeft_lets (s : State) (he : s.exitCur.ended D) : s.exitCur.lets D s.exitLeft := by
  have released := State.lets_of_calm (D := D) (s.exitCur.meetRelease_spares (crewOf s.cur.id)) (State.meetRelease_calm _ _)
  have left := State.lets_trans released (State.crewLeave_lets _ (crewOf s.cur.id))
  have stirred := State.lets_trans left (State.lacerStir_lets s.exitCrew
    (s.exitCrew.coreOf s.cur.id.launch s.cur.id.team) (launchVf s.cur.id.launch))
  exact State.lets_trans stirred (State.exitBarriers_lets _ (State.spares_ended stirred.1 he) _ _)

theorem State.exitLeft_teams (s : State) : s.exitLeft.teams = s.teams := by simp [State.exitLeft, State.exitCrew, State.exitCur]

theorem State.noteExit_spares (s : State) (l t : Nat) : s.spares D (s.noteExit l t) := by
  unfold State.noteExit
  split
  · exact State.spares_of_threads rfl
  · exact s.spares_refl

theorem State.endThread_spares (s : State) (he : s.exitCur.ended D) : s.exitCur.spares D s.endThread := by
  rw [State.endThread_eq]
  split
  · exact State.spares_trans (State.spares_trans (s.exitLeft_lets he).1 (State.noteExit_spares _ _ _)) (State.tryRetire_spares _ _ _)
  · exact (s.exitLeft_lets he).1

theorem State.noteExit_found {s : State} {l t : Nat} {m : Team} (found : s.team? l t = some m) :
    ∃ m', (s.noteExit l t).team? l t = some m' ∧ m'.st = m.st := by
  obtain ⟨hl, ht⟩ := State.team?_key found
  refine ⟨{ m with exitTime := (s.vfTime (launchVf l)).toNat, stalls := s.stallSums l t }, ?_, rfl⟩
  unfold State.noteExit
  rw [found]
  exact State.setTeam_found found hl ht

theorem State.noteExit_threads (s : State) (l t : Nat) : (s.noteExit l t).threads = s.threads := by
  unfold State.noteExit
  split <;> rfl

theorem State.noteExit_engines (s : State) (l t : Nat) : (s.noteExit l t).engines = s.engines := by
  unfold State.noteExit
  split <;> rfl

/-- The team of a thread whose others have all ended is done once the thread has. -/
theorem State.teamDone_of_spares {s t : State} {l i : Nat} (h : s.spares (fun id => id.launch = l ∧ id.team = i) t)
    (he : s.ended (fun id => id.launch = l ∧ id.team = i)) : t.teamDone l i = true := by
  simp only [State.teamDone, List.all_eq_true]
  intro x hx
  by_cases hd : x.id.launch = l ∧ x.id.team = i
  · simp [State.spares_ended h he x hx hd]
  · have foreign : (x.id.launch == l && x.id.team == i) = false := by simpa using hd
    simp [foreign]

end

/-- A thread that exits has ended, outside its handler, with its registers as they were (R157). -/
theorem State.endThread_cur (s : State) (nodup : (s.threads.map (fun t => t.id)).Nodup) :
    s.endThread.cur.still = s.exitCur.cur.still ∧ s.endThread.cur.id = s.cur.id := by
  have he : s.exitCur.ended (fun id => id = s.cur.id) := by
    intro x hx hd
    obtain rfl | hx := List.mem_cons.1 hx
    · rfl
    · have := (List.nodup_cons.1 nodup).1
      exact absurd (List.mem_map.2 ⟨x, hx, hd⟩) this
  obtain ⟨same, -⟩ := List.forall₂_cons.1 (s.endThread_spares he)
  exact ⟨same.2 rfl rfl, same.1⟩

theorem State.exitCur_still {s : State} {u : Thread} (h : u.still = s.exitCur.cur.still) :
    u.phase = .exited ∧ u.live = false ∧ u.inHandler = false ∧ u.regs = s.cur.regs := by
  have phase : u.phase = .exited := congrArg Thread.phase h
  have regs : u.still.regs = s.cur.regs := by rw [h]; rfl
  exact ⟨phase, by simp [Thread.live, phase], congrArg Thread.inHandler h, regs⟩

/-- A team whose last thread exits with no engine operation left stands retired (R157). -/
theorem State.endThread_retires {s : State} {m : Team} (found : s.team? s.cur.id.launch s.cur.id.team = some m)
    (others : ∀ x ∈ s.others, x.id.launch = s.cur.id.launch → x.id.team = s.cur.id.team → x.live = false)
    (idle : s.teamEngines s.cur.id.launch s.cur.id.team = false) :
    ∃ m', s.endThread.team? s.cur.id.launch s.cur.id.team = some m' ∧ m'.st = .retired ∧
      (m.st ≠ .retired → m'.tokens = [] ∧ m'.stash = []) := by
  have he : s.exitCur.ended (fun id => id.launch = s.cur.id.launch ∧ id.team = s.cur.id.team) := by
    intro x hx hd
    obtain rfl | hx := List.mem_cons.1 hx
    · rfl
    · exact others x hx hd.1 hd.2
  obtain ⟨spares, engines⟩ := s.exitLeft_lets he
  have done := State.teamDone_of_spares spares he
  obtain ⟨n, found', st⟩ := State.noteExit_found (s := s.exitLeft) (m := m) (by rw [State.team?_of_teams s.exitLeft_teams, found])
  have done' : (s.exitLeft.noteExit s.cur.id.launch s.cur.id.team).teamDone s.cur.id.launch s.cur.id.team = true := by
    rw [State.teamDone, State.noteExit_threads]
    exact done
  have idle' : (s.exitLeft.noteExit s.cur.id.launch s.cur.id.team).teamEngines s.cur.id.launch s.cur.id.team = false := by
    rw [State.teamEngines, State.noteExit_engines, engines]
    exact idle
  rw [State.endThread_eq, if_pos done]
  rw [← st]
  exact State.tryRetire_found found' done' idle'

/-- Settles O30: with results pending EXIT is a switch point; with none the thread ends, what it releases spares every thread that has
ended, and so the team, whose threads have then all ended, retires. -/
theorem exitEndsTheThread : Obligations.ExitEndsTheThread := by
  unfold Obligations.ExitEndsTheThread
  intro s sp flips poison nodup
  refine ⟨fun full => issue_park true false [] _ _ (mustPark_switch full false), fun empty => ⟨s.endThread, ?_, ?_⟩⟩
  · exact issue_next true false [] s _ (by simp [Thread.mustPark, empty]) (by simp) flips poison
  · obtain ⟨same, id⟩ := s.endThread_cur nodup
    obtain ⟨phase, live, handler, regs⟩ := State.exitCur_still same
    refine ⟨id, phase, live, handler, regs, fun others idle m found => ?_⟩
    obtain ⟨m', found', st, rest⟩ := State.endThread_retires found others idle
    simp [found', st]
    exact rest

end Sys2Proof.Machine
end


section
/-! SUPPORT. A word that moves on keeps every register and every special register but the trap registers of a fall (R34, R345). -/

namespace Sys2Proof.Machine

/-- A thread that is not the one in turn keeps its pc, its registers and its results pending. -/
def State.keepsOthers (s t : State) : Prop :=
  t.cur.id = s.cur.id ∧ ∀ id, id ≠ s.cur.id → (t.thread? id).map (fun y => (y.pc, y.held)) = (s.thread? id).map (fun y => (y.pc, y.held))

theorem State.keepsOthers_refl (s : State) : s.keepsOthers s := ⟨rfl, fun _ _ => rfl⟩

theorem State.keepsOthers_trans {s t u : State} (h : s.keepsOthers t) (h' : t.keepsOthers u) : s.keepsOthers u :=
  ⟨h'.1.trans h.1, fun id hid => (h'.2 id (h.1 ▸ hid)).trans (h.2 id hid)⟩

theorem State.mapThreads_keepsOthers (s : State) (f : Thread → Thread) (hf : ∀ x, (f x).id = x.id)
    (h : ∀ x, x.id ≠ s.cur.id → (f x).pc = x.pc ∧ (f x).held = x.held) : s.keepsOthers (s.mapThreads f) := by
  refine ⟨hf _, fun id hid => ?_⟩
  rw [State.mapThreads_thread? s f hf]
  cases found : s.thread? id with
  | none => rfl
  | some x =>
    obtain rfl : x.id = id := State.thread?_id found
    obtain ⟨pc, held⟩ := h x hid
    simp only [Option.map_some, pc, held]

theorem State.setCur_keepsOthers (s : State) (u : Thread) (hu : u.id = s.cur.id) : s.keepsOthers (s.setCur u) := by
  refine ⟨hu, fun id hid => ?_⟩
  rw [State.setCur_thread? s u hu, if_neg hid]

theorem State.meetRelease_keepsOthers (s : State) (c : CrewId) : s.keepsOthers (s.meetRelease c) := by
  refine s.mapThreads_keepsOthers _ (fun x => ?_) (fun x _ => ?_)
  · dsimp only
    split <;> rfl
  · dsimp only
    split <;> exact ⟨rfl, rfl⟩

theorem State.killLaunch_keepsOthers (s : State) (l d : Nat) (k : CoreId) : s.keepsOthers (s.killLaunch l d k) := by
  unfold State.killLaunch
  split
  · split
    · exact s.keepsOthers_refl
    · exact ⟨rfl, fun _ _ => rfl⟩
  · exact s.keepsOthers_refl

theorem State.modThread_keepsOthers (s : State) (f : Thread → Thread) (hf : ∀ x, (f x).id = x.id) : s.keepsOthers (s.modThread s.cur.id f) := by
  refine s.mapThreads_keepsOthers _ (fun x => ?_) (fun x hx => ?_)
  · split
    · exact hf x
    · rfl
  · simp [hx]

theorem State.trapCur_keepsOthers (s : State) (code info : Nat) (addr : DWord) (at_ resume : Word) :
    s.keepsOthers (s.trapThread s.cur.id code info addr at_ resume) := by
  unfold State.trapThread
  split
  · exact s.keepsOthers_refl
  · split
    · refine State.keepsOthers_trans ?_ (State.meetRelease_keepsOthers _ _)
      refine State.keepsOthers_trans ?_ (State.killLaunch_keepsOthers _ _ _ _)
      exact s.modThread_keepsOthers _ (fun _ => rfl)
    · refine State.keepsOthers_trans ?_ (State.meetRelease_keepsOthers _ _)
      exact s.modThread_keepsOthers _ (fun _ => rfl)

theorem State.goto_keepsOthers (s : State) (pc : Word) : s.keepsOthers (s.goto pc) := by
  have moved : s.keepsOthers (s.setCur (s.cur.goto pc (s.inCode s.cur.id.launch pc))) := s.setCur_keepsOthers _ rfl
  unfold State.goto
  dsimp only
  split
  · refine State.keepsOthers_trans ?_ (State.meetRelease_keepsOthers _ _)
    exact State.keepsOthers_trans moved (State.setCur_keepsOthers _ _ rfl)
  · exact moved

theorem State.advance_keepsOthers (s : State) : s.keepsOthers s.advance := by
  unfold State.advance
  split
  · exact s.trapCur_keepsOthers _ _ _ _ _
  · exact s.goto_keepsOthers _

theorem State.goto_traps (s : State) (pc : Word) :
    let u := (s.goto pc).cur
    u.trapcode = s.cur.trapcode ∧ u.trapinfo = s.cur.trapinfo ∧ u.trapaddr = s.cur.trapaddr ∧ u.trappc = s.cur.trappc := by
  unfold State.goto
  dsimp only
  split
  · rcases State.meetRelease_cur ((s.setCur (s.cur.goto pc (s.inCode s.cur.id.launch pc))).setCur
      ((s.setCur (s.cur.goto pc (s.inCode s.cur.id.launch pc))).cur.enter .held s.cycle)) (crewOf s.cur.id) with h | ⟨-, h⟩ <;>
      rw [h] <;> exact ⟨rfl, rfl, rfl, rfl⟩
  · exact ⟨rfl, rfl, rfl, rfl⟩

theorem State.advance_kept (s : State) : Kept s s.advance := by
  obtain ⟨-, ⟨id, regs, winbase, -, lk, meet, fpmode, fpflags, intflags, latch, tlk, tmeet, handler, mask, -, -⟩, -⟩ := s.advance_calm
  refine ⟨id, by rw [regs], winbase, lk, meet, tlk, tmeet, fpmode, fpflags, intflags, latch, handler, mask, fun room => ?_,
    s.advance_keepsOthers.2⟩
  rw [State.advance, if_neg room]
  exact s.goto_traps _

theorem State.advance_moved (s : State) : Moved s s.cur s.advance.cur := by
  have stands := s.advance_stands
  split at stands
  · rename_i last
    rw [Moved, if_pos last]
    exact stands
  · rename_i room
    rw [Moved, if_neg room]
    exact stands.1

/-- The threads of a state are those of another but for monitors and the queue of the one in turn. -/
def State.alike (s t : State) (q : List QEntry) : Prop :=
  t.cur.still = ({ s.cur with queue := q } : Thread).still ∧ t.others.map Thread.still = s.others.map Thread.still

theorem State.alike_of_frame {s t : State} (h : t.frame = s.frame) : s.alike t s.cur.queue :=
  ⟨congrArg (fun f => f.cur) h, congrArg (fun f => f.others) h⟩

theorem State.alike_trans {s t u : State} {q r : List QEntry} (h : s.alike t q) (h' : t.alike u r) : s.alike u r := by
  obtain ⟨cur, others⟩ := h
  obtain ⟨cur', others'⟩ := h'
  refine ⟨cur'.trans ?_, others'.trans others⟩
  have : ({ t.cur.still with queue := r } : Thread) = ({ ({ s.cur with queue := q } : Thread).still with queue := r } : Thread) := by rw [cur]
  exact this

/-- What the monitor has no part in is that of the thread with the queue. -/
theorem State.alike_cur {s t : State} {q : List QEntry} (h : s.alike t q) {β : Type} (f : Thread → β) (hf : ∀ x : Thread, f x.still = f x) :
    f t.cur = f ({ s.cur with queue := q } : Thread) := by
  rw [← hf, h.1, hf]

theorem find?_of_still {xs ys : List Thread} (h : ys.map Thread.still = xs.map Thread.still) (id : ThreadId) :
    (ys.find? (fun y => y.id == id)).map Thread.still = (xs.find? (fun x => x.id == id)).map Thread.still := by
  have through (zs : List Thread) : (zs.find? (fun z => z.id == id)).map Thread.still = (zs.map Thread.still).find? (fun z => z.id == id) := by
    rw [List.find?_map]
    rfl
  rw [through, through, h]

theorem State.alike_thread? {s t : State} {q : List QEntry} (h : s.alike t q) {id : ThreadId} (hid : id ≠ s.cur.id) :
    (t.thread? id).map Thread.still = (s.thread? id).map Thread.still := by
  have same : t.cur.id = s.cur.id := State.alike_cur h Thread.id (fun _ => rfl)
  have foreign : (s.cur.id == id) = false := by simpa using fun e : s.cur.id = id => hid e.symm
  unfold State.thread?
  rw [same, foreign]
  exact find?_of_still h.2 id

/-- What moves a state on that is like another in its threads moves the other on. -/
theorem State.alike_kept {s t u : State} {q : List QEntry} (h : s.alike t q) (kept : Kept t u) : Kept s u := by
  obtain ⟨id, regs, winbase, lk, meet, tlk, tmeet, fpmode, fpflags, intflags, latch, handler, mask, traps, others⟩ := kept
  have same {β : Type} (f : Thread → β) (hf : ∀ x : Thread, f x.still = f x) := State.alike_cur h f hf
  have pc : t.cur.pc = s.cur.pc := same Thread.pc (fun _ => rfl)
  have name : t.cur.id = s.cur.id := same Thread.id (fun _ => rfl)
  refine ⟨id.trans name, regs.trans (same (fun x => x.regs.length) (fun _ => rfl)), winbase.trans (same Thread.winbase (fun _ => rfl)),
    lk.trans (same Thread.lk (fun _ => rfl)), meet.trans (same Thread.meet (fun _ => rfl)), tlk.trans (same Thread.tlk (fun _ => rfl)),
    tmeet.trans (same Thread.tmeet (fun _ => rfl)), fpmode.trans (same Thread.fpmode (fun _ => rfl)),
    fpflags.trans (same Thread.fpflags (fun _ => rfl)), intflags.trans (same Thread.intflags (fun _ => rfl)),
    latch.trans (same Thread.clockLatch (fun _ => rfl)), handler.trans (same Thread.inHandler (fun _ => rfl)),
    mask.trans (same Thread.trapmask (fun _ => rfl)), fun room => ?_, fun j hj => ?_⟩
  · obtain ⟨code, info, addr, at_⟩ := traps (pc ▸ room)
    exact ⟨code.trans (same Thread.trapcode (fun _ => rfl)), info.trans (same Thread.trapinfo (fun _ => rfl)),
      addr.trans (same Thread.trapaddr (fun _ => rfl)), at_.trans (same Thread.trappc (fun _ => rfl))⟩
  · rw [others j (name ▸ hj)]
    have found := congrArg (Option.map (fun y : Thread => (y.pc, y.held))) (State.alike_thread? h hj)
    rw [Option.map_map, Option.map_map] at found
    exact found

/-- A word whose effects leave the threads alone moves on. -/
theorem State.alike_advance {s t : State} {q : List QEntry} (h : s.alike t q) :
    Moved s s.cur t.advance.cur ∧ Kept s t.advance ∧ t.advance.cur.regs = s.cur.regs ∧ t.advance.cur.queue = q := by
  have pc : t.cur.pc = s.cur.pc := State.alike_cur h Thread.pc (fun _ => rfl)
  have regs : t.cur.regs = s.cur.regs := State.alike_cur h Thread.regs (fun _ => rfl)
  have queue : t.cur.queue = q := State.alike_cur h Thread.queue (fun _ => rfl)
  obtain ⟨-, ⟨-, regs', -, queue', -⟩, -⟩ := t.advance_calm
  refine ⟨?_, State.alike_kept h t.advance_kept, regs'.trans regs, queue'.trans queue⟩
  have moved := t.advance_moved
  unfold Moved at moved ⊢
  rw [pc] at moved
  exact moved

end Sys2Proof.Machine
end


section
/-! SUPPORT. Bytes, words and numbers; the aperture of a scratch address; what a load from scratch and a store to scratch come to where
nothing keeps them waiting (R76 to R79, R153, R154). -/

namespace Sys2Proof.Machine

/-! ## Bytes and words -/

theorem natOf_eq_numberOf (bs : List Byte) : natOf bs = numberOf bs := by
  induction bs with
  | nil => rfl
  | cons b bs ih => exact congrArg (fun x => b.toNat + 256 * x) ih

theorem wordsOf_eq_map (n x : Nat) : wordsOf n x = (List.range n).map (fun k => BitVec.ofNat 32 (x / 2 ^ (32 * k))) := by
  induction n generalizing x with
  | zero => rfl
  | succ n ih =>
    rw [wordsOf, ih, List.range_succ_eq_map, List.map_cons, List.map_map]
    congr 1
    · simp
    · refine List.map_congr_left (fun k _ => ?_)
      rw [Nat.div_div_eq_div_mul, ← pow_add, Function.comp_apply, Nat.succ_eq_add_one, show 32 + 32 * k = 32 * (k + 1) by ring]

theorem bytesOf_eq_map (n x : Nat) : bytesOf n x = (List.range n).map (fun k => BitVec.ofNat 8 (x / 256 ^ k)) := by
  induction n generalizing x with
  | zero => rfl
  | succ n ih =>
    rw [bytesOf, ih, List.range_succ_eq_map, List.map_cons, List.map_map]
    congr 1
    · simp
    · refine List.map_congr_left (fun k _ => ?_)
      rw [Nat.div_div_eq_div_mul, Function.comp_apply, Nat.succ_eq_add_one, pow_succ', mul_comm]

/-- A load's words are those of R78. -/
theorem loadWords_eq_loaded (n : Nat) (sgn : Bool) (bs : List Byte) : loadWords n sgn bs = loaded n sgn bs := by
  unfold loadWords loaded
  simp only [natOf_eq_numberOf]
  split
  · by_cases h : sgn = true ∧ 2 ^ (8 * n - 1) ≤ numberOf bs
    · simp [h]
    · rw [if_neg h, if_neg (by simpa using h), BitVec.ofInt_natCast]
  · exact wordsOf_eq_map _ _

/-- A byte of a number that words stand for is one of theirs. -/
theorem natOfWords_byte (ws : List Word) (i : Nat) :
    BitVec.ofNat 8 (natOfWords ws / 256 ^ i) = BitVec.ofNat 8 ((ws.getD (i / 4) 0).toNat / 256 ^ (i % 4)) := by
  induction ws generalizing i with
  | nil => simp [natOfWords]
  | cons w ws ih =>
    apply BitVec.eq_of_toNat_eq
    rw [BitVec.toNat_ofNat, BitVec.toNat_ofNat, natOfWords]
    by_cases low : i < 4
    · have word : ((w :: ws).getD (i / 4) 0).toNat = w.toNat := by rw [Nat.div_eq_of_lt low]; rfl
      rw [word, Nat.mod_eq_of_lt low]
      interval_cases i <;> omega
    · obtain ⟨j, rfl⟩ : ∃ j, i = j + 4 := ⟨i - 4, by omega⟩
      have step : (w.toNat + 2 ^ 32 * natOfWords ws) / 256 ^ (j + 4) = natOfWords ws / 256 ^ j := by
        rw [pow_add, mul_comm (256 ^ j), ← Nat.div_div_eq_div_mul]
        congr 1
        have := w.isLt
        omega
      have tail : (w :: ws).getD ((j + 4) / 4) 0 = ws.getD (j / 4) 0 := by
        rw [show (j + 4) / 4 = j / 4 + 1 by omega]
        rfl
      rw [step, tail, show (j + 4) % 4 = j % 4 by omega]
      simpa using congrArg BitVec.toNat (ih j)

/-- A store's bytes are those of R79, where its registers hold as many. -/
theorem bytesOf_words_eq_stored {n w : Nat} (h : n ≤ 4 * w) (t : Thread) (d : Reg) : bytesOf n (natOfWords (t.words d w)) = stored n t d := by
  rw [bytesOf_eq_map]
  refine List.map_congr_left (fun i hi => ?_)
  have inside : i / 4 < w := by
    have := List.mem_range.1 hi
    omega
  rw [natOfWords_byte]
  simp [Thread.words, List.getD_eq_getElem?_getD, List.getElem?_map, List.getElem?_range inside]

theorem stored_length (n : Nat) (t : Thread) (d : Reg) : (stored n t d).length = n := by simp

/-! ## The place of a scratch access -/

/-- What a scratch address names: the place of a scratch access of the thread in turn. -/
def State.reaches_ (s : State) (ap : Ap) (u off : Nat) : Prop :=
  (ap = .scr off ∧ u = s.cur.id.team) ∨ ∃ r, ap = .clu r off ∧ u = quadPeer s.pk s.cur.id.team r

theorem State.lies_reaches {s : State} {ea : DWord} {n u off : Nat} (h : s.lies ea n u off) : s.reaches_ (aperture s.pk ea n) u off := by
  obtain ⟨fits, low, ⟨rfl, at_⟩ | ⟨r, peer, small, rfl, at_⟩⟩ := h
  · left
    refine ⟨?_, rfl⟩
    unfold aperture
    dsimp only
    rw [at_, if_neg (by omega), if_pos (by omega), show (2 ^ 60 + off) % 2 ^ 32 = off by omega, if_pos fits]
  · right
    refine ⟨r, ?_, rfl⟩
    have rank : (2 ^ 61 + r * 2 ^ 32 + off) / 2 ^ 32 % 16 = r := by omega
    have offset : (2 ^ 61 + r * 2 ^ 32 + off) % 2 ^ 32 = off := by omega
    unfold aperture
    dsimp only
    rw [at_, if_neg (by omega), if_neg (by omega), if_pos (by omega), rank, offset, if_pos (by simpa using ⟨peer, fits⟩)]

/-- A scratch offset in aperture 1 (R153). -/
theorem State.lies_scratchAddr {s : State} {a : Word} {n : Nat} (h : a.toNat + n ≤ s.pk.carveBytes) :
    s.lies (scratchAddr a) n s.cur.id.team a.toNat ∧ (scratchAddr a).toNat = 2 ^ 60 + a.toNat := by
  have at_ : (scratchAddr a).toNat = 2 ^ 60 + a.toNat := by
    have := a.isLt
    unfold scratchAddr
    simp [BitVec.toNat_add]
    omega
  exact ⟨⟨h, a.isLt, Or.inl ⟨rfl, at_⟩⟩, at_⟩

theorem inCluster_of_aperture {ea : DWord} (h : ea.toNat / 2 ^ 60 = 2) : inCluster ea = true := by
  have : ea.extractLsb' 60 4 = 2 := by
    apply BitVec.eq_of_toNat_eq
    simp only [BitVec.extractLsb'_toNat, Nat.shiftRight_eq_div_pow, h]
    rfl
  simp [inCluster, this]

/-! ## Loads and stores that nothing keeps waiting -/

/-- A team that has stashed nothing has its scratch ready (R172). -/
theorem State.stashReady_of_unstashed {s : State} {l u : Nat} {m : Team} (found : s.team? l u = some m) (h : m.stash = []) (off n : Nat) :
    s.stashReady l u off n = .ok s () := by
  have none_ : m.stashAt off = none := by simp [Team.stashAt, h]
  simp [State.stashReady, State.stashTouch, Tried.andThen, State.stashPa, found, none_]

theorem State.consumeScratch_sound {s : State} (hf : s.flips = []) (hp : s.poison = []) (k : CoreId) (l t off n : Nat) :
    s.consumeScratch k l t off n = s := by
  simp [State.consumeScratch, State.useStored, hf, hp]

theorem State.loadScratch_open {s : State} {u off n w : Nat} {sgn : Bool} {d : Reg} (hf : s.flips = []) (hp : s.poison = [])
    (h : s.open_ u off n false) :
    s.loadScratch u off n sgn d w = (((s.bankAccess u off n).enqueue d w).reply s.nextId s.cur.id
      (Machine.loaded n sgn ((List.range n).map (fun k => (s.scratchByte u (off + k)).getD 0)))).advance := by
  obtain ⟨unhatched, ordered, m, found, unstashed⟩ := h
  have read : s.scratchBytes s.cur.id.launch u off n = (List.range n).map (fun k => (s.scratchByte u (off + k)).getD 0) := by
    simp [State.scratchBytes, State.scratchByte, found, Memory.getN]
  unfold State.loadScratch
  dsimp only
  rw [unhatched, ordered, State.stashReady_of_unstashed found unstashed]
  simp only [Bool.false_eq_true, if_false, loadWords_eq_loaded, read]
  rw [State.consumeScratch_sound (s := s.bankAccess u off n) hf hp]

theorem State.storeScratch_open {s : State} {u off : Nat} {bs : List Byte} (h : s.open_ u off bs.length true) :
    s.storeScratch u off bs = ((s.bankAccess u off bs.length).writeScratch s.cur.id.launch u off bs).advance := by
  obtain ⟨unhatched, ordered, m, found, unstashed⟩ := h
  unfold State.storeScratch
  dsimp only
  rw [unhatched, ordered, State.stashReady_of_unstashed found unstashed]
  simp

theorem State.loadThread_reaches {s : State} {ea : DWord} {n cap u off w : Nat} {sgn : Bool} {d : Reg} (aligned : ea.toNat % n = 0)
    (h : s.lies ea n u off) : s.loadThread ea n cap sgn d w = s.loadScratch u off n sgn d w := by
  unfold State.loadThread
  rw [if_neg (by simp [aligned])]
  obtain ⟨ap, rfl⟩ | ⟨r, ap, rfl⟩ := State.lies_reaches h <;> rw [ap]

theorem State.storeThread_reaches {s : State} {ea : DWord} {bs : List Byte} {cap u off : Nat} (aligned : ea.toNat % bs.length = 0)
    (h : s.lies ea bs.length u off) : s.storeThread ea bs cap = s.storeScratch u off bs := by
  unfold State.storeThread
  dsimp only
  rw [if_neg (by simp [aligned])]
  obtain ⟨ap, rfl⟩ | ⟨r, ap, rfl⟩ := State.lies_reaches h <;> rw [ap]

/-- A load from scratch that nothing keeps waiting completes. -/
theorem loadsBytes_of_loadScratch {i : Instr} {s : State} {u off n w : Nat} {sgn : Bool} {d : Reg} (hf : s.flips = []) (hp : s.poison = [])
    (h : s.open_ u off n false) (exec_ : exec i s = .next (s.loadScratch u off n sgn d w)) :
    LoadsBytes i s d n w sgn ((List.range n).map (fun k => (s.scratchByte u (off + k)).getD 0)) := by
  rw [State.loadScratch_open hf hp h] at exec_
  refine ⟨_, exec_, ?_⟩
  have alike : s.alike (((s.bankAccess u off n).enqueue d w).reply s.nextId s.cur.id
      (loaded n sgn ((List.range n).map (fun k => (s.scratchByte u (off + k)).getD 0)))) (s.cur.queue ++ [⟨s.nextId, s.cur.idx d, w, .awaiting, []⟩]) :=
    ⟨rfl, rfl⟩
  obtain ⟨moved, kept, regs, queue⟩ := State.alike_advance alike
  obtain ⟨rest, -, -⟩ := State.advance_calm (((s.bankAccess u off n).enqueue d w).reply s.nextId s.cur.id
    (loaded n sgn ((List.range n).map (fun k => (s.scratchByte u (off + k)).getD 0))))
  simp only [State.sameRest] at rest
  obtain ⟨-, -, -, -, -, -, mem, -, replies, -⟩ := rest
  exact ⟨moved, kept, regs, mem, queue, replies⟩

/-! ## What a store to scratch leaves -/

theorem State.noteLatched_cur (s : State) (l t off n : Nat) : (s.noteLatched l t off n).cur = s.cur := by
  unfold State.noteLatched
  dsimp only
  split <;> rfl

theorem State.noteLatched_others (s : State) (l t off n : Nat) : (s.noteLatched l t off n).others = s.others := by
  unfold State.noteLatched
  dsimp only
  split <;> rfl

/-- The scratch of a team that is written, and the threads as they were but for their monitors. -/
theorem State.putScratch_writes {s : State} {l u : Nat} {m : Team} (found : s.team? l u = some m) (off : Nat) (bs : List Byte) :
    s.alike (s.putScratch l u off bs) s.cur.queue ∧ (s.putScratch l u off bs).teams = (s.setTeam { m with scratch := m.scratch.putN off bs }).teams := by
  unfold State.putScratch
  rw [found]
  refine ⟨⟨?_, ?_⟩, ?_⟩
  · rw [State.noteLatched_cur]
    exact Thread.watchScratch_still l u off bs.length s.cur
  · rw [State.noteLatched_others]
    change (s.others.map (Thread.watchScratch l u off bs.length)).map Thread.still = _
    rw [List.map_map]
    exact List.map_congr_left (fun x _ => Thread.watchScratch_still l u off bs.length x)
  · rw [State.noteLatched_teams, State.renewStored_teams]
    rfl

theorem State.writeScratch_unstashed {s : State} {l u : Nat} {m : Team} (found : s.team? l u = some m) (h : m.stash = []) (off : Nat)
    (bs : List Byte) : s.writeScratch l u off bs = s.putScratch l u off bs := by
  obtain ⟨hl, hu⟩ := State.team?_key found
  have there : (s.putScratch l u off bs).team? l u = some { m with scratch := m.scratch.putN off bs } := by
    rw [State.team?_of_teams (s.putScratch_writes found off bs).2]
    exact State.setTeam_found found hl hu
  unfold State.writeScratch
  dsimp only
  rw [there]
  simp [h]

/-- A byte of scratch after a write: one of those written, or what stood there. -/
theorem Memory.get_putN (m : Memory) (a : Nat) (bs : List Byte) (k : Nat) :
    some ((m.putN a bs).get k) = if a ≤ k ∧ k < a + bs.length then bs[k - a]? else some (m.get k) := by
  split
  · rename_i h
    have inside : k - a < bs.length := by omega
    have := Memory.get_putN_at m a bs (k - a) inside
    rw [show a + (k - a) = k by omega] at this
    rw [this, List.getElem?_eq_getElem inside]
  · rename_i h
    rw [Memory.get_putN_other _ _ _ _ (by omega)]

theorem State.putScratch_byte {s : State} {l u : Nat} {m : Team} (found : s.team? l u = some m) (off : Nat) (bs : List Byte) (x k : Nat) :
    ((s.putScratch l u off bs).team? l x).map (fun y => y.scratch.get k) =
      if x = u ∧ off ≤ k ∧ k < off + bs.length then bs[k - off]? else (s.team? l x).map (fun y => y.scratch.get k) := by
  obtain ⟨hl, hu⟩ := State.team?_key found
  rw [State.team?_of_teams (s.putScratch_writes found off bs).2, State.setTeam_team?]
  by_cases hx : x = u
  · subst hx
    simp only [hl, hu, and_self, if_true, found, Option.map_some, true_and]
    exact Memory.get_putN m.scratch off bs k
  · have : ¬ (l = m.launch ∧ x = m.idx) := fun e => hx (e.2.trans hu)
    rw [if_neg this, if_neg (fun e => hx e.1)]

/-- A store to scratch that nothing keeps waiting completes. -/
theorem storesScratch_of_storeScratch {i : Instr} {s : State} {u off : Nat} {bs : List Byte} (h : s.open_ u off bs.length true)
    (exec_ : exec i s = .next (s.storeScratch u off bs)) : StoresScratch i s u off bs := by
  rw [State.storeScratch_open h] at exec_
  obtain ⟨-, -, m, found, unstashed⟩ := h
  have found' : (s.bankAccess u off bs.length).team? s.cur.id.launch u = some m := found
  rw [State.writeScratch_unstashed found' unstashed] at exec_
  refine ⟨_, exec_, ?_⟩
  have written := State.putScratch_writes found' off bs
  have byte := State.putScratch_byte found' off bs
  have quiet := State.putScratch_quiet (s.bankAccess u off bs.length) s.cur.id.launch u off bs
  obtain ⟨moved, kept, regs, queue⟩ := State.alike_advance (State.alike_trans (State.alike_of_frame (s := s) (t := s) rfl) written.1)
  obtain ⟨rest, ⟨id, -⟩, -⟩ := State.advance_calm ((s.bankAccess u off bs.length).putScratch s.cur.id.launch u off bs)
  simp only [State.sameRest] at rest
  obtain ⟨-, teams, -, -, -, -, mem, -⟩ := rest
  have name := State.alike_cur written.1 Thread.id (fun _ => rfl)
  refine ⟨moved, kept, regs, queue, mem.trans quiet.2.2, fun x k => ?_⟩
  have there := byte x k
  unfold State.scratchByte
  rw [State.team?_of_teams teams, id, name]
  exact there

/-! ## The words -/

theorem loads_exec {sp : Bool} {pol : BitVec 2} {d a : Reg} {o : BitVec 8} {i : Instr} {n w : Nat} {sgn : Bool}
    (h : (i, n, w, sgn) ∈ loads sp pol d a o) (s : State) : exec i s = load n w sgn sp pol d a o s := by
  simp only [loads, List.mem_cons, Prod.mk.injEq, List.not_mem_nil, or_false] at h
  rcases h with ⟨rfl, rfl, rfl, rfl⟩ | ⟨rfl, rfl, rfl, rfl⟩ | ⟨rfl, rfl, rfl, rfl⟩ | ⟨rfl, rfl, rfl, rfl⟩ | ⟨rfl, rfl, rfl, rfl⟩ |
    ⟨rfl, rfl, rfl, rfl⟩ | ⟨rfl, rfl, rfl, rfl⟩ <;> rfl

theorem stores_exec {sp : Bool} {pol : BitVec 2} {d a : Reg} {o : BitVec 8} {i : Instr} {n w : Nat}
    (h : (i, n, w) ∈ stores sp pol d a o) (s : State) : exec i s = store n w sp pol d a o s ∧ n ≤ 4 * w := by
  simp only [stores, List.mem_cons, Prod.mk.injEq, List.not_mem_nil, or_false] at h
  rcases h with ⟨rfl, rfl, rfl⟩ | ⟨rfl, rfl, rfl⟩ | ⟨rfl, rfl, rfl⟩ | ⟨rfl, rfl, rfl⟩ | ⟨rfl, rfl, rfl⟩ <;> exact ⟨rfl, by omega⟩

theorem issue_long {sp : Bool} {ops : List Opnd} {s : State} {k : State → State} (h : s.issuesLong sp) (hops : ∀ o ∈ ops, s.cur.beyond o = false) :
    issue sp true ops s k = .next (k s) := by
  obtain ⟨⟨empty, flips, poison⟩, room⟩ := h
  exact issue_next _ _ _ _ _ (mustPark_long empty room) hops flips poison

theorem issue_short {sp : Bool} {ops : List Opnd} {s : State} {k : State → State} (h : s.issues sp) (hops : ∀ o ∈ ops, s.cur.beyond o = false) :
    issue sp false ops s k = .next (k s) := by
  obtain ⟨empty, flips, poison⟩ := h
  exact issue_next _ _ _ _ _ (mustPark_short empty) hops flips poison

/-- Two operands that lie in the allocation. -/
theorem beyond_of_fits_two {s : State} {o p : Opnd} (ho : s.fits o.name o.width) (hp : s.fits p.name p.width) :
    ∀ x ∈ [o, p], s.cur.beyond x = false := by
  simp only [List.mem_cons, List.not_mem_nil, or_false, forall_eq_or_imp, forall_eq]
  exact ⟨beyond_of_fits ho, beyond_of_fits hp⟩

/-- The scratch loads with their sizes. -/
theorem scratchLoad_exec {sp : Bool} {d a : Reg} {i : Instr} {n w : Nat}
    (h : (i, n, w) ∈ [(Instr.sld32 sp d a, 4, 1), (.sld64 sp d a, 8, 2)]) (s : State) : exec i s = scratchLoad n w sp d a s := by
  simp only [List.mem_cons, Prod.mk.injEq, List.not_mem_nil, or_false] at h
  rcases h with ⟨rfl, rfl, rfl⟩ | ⟨rfl, rfl, rfl⟩ <;> rfl

theorem scratchStore_exec {sp : Bool} {d a : Reg} {i : Instr} {n w : Nat}
    (h : (i, n, w) ∈ [(Instr.sst32 sp d a, 4, 1), (.sst64 sp d a, 8, 2)]) (s : State) :
    exec i s = scratchStore n w sp d a s ∧ n ≤ 4 * w := by
  simp only [List.mem_cons, Prod.mk.injEq, List.not_mem_nil, or_false] at h
  rcases h with ⟨rfl, rfl, rfl⟩ | ⟨rfl, rfl, rfl⟩ <;> exact ⟨rfl, by omega⟩

section
variable {s : State} {sp : Bool} {d a : Reg} {i : Instr} {n w u off : Nat}

theorem load_scratch {pol : BitVec 2} {o : BitVec 8} {sgn : Bool} (mem : (i, n, w, sgn) ∈ loads sp pol d a o) (issues : s.issuesLong sp)
    (fd : s.fits d w) (fa : s.fits a 2) (aligned : (s.ea a o n).toNat % n = 0) (lies : s.lies (s.ea a o n) n u off)
    (free : s.open_ u off n false) : LoadsBytes i s d n w sgn ((List.range n).map (fun k => (s.scratchByte u (off + k)).getD 0)) := by
  refine loadsBytes_of_loadScratch issues.1.2.1 issues.1.2.2 free ?_
  rw [loads_exec mem, load, issue_long issues (beyond_of_fits_two fd fa)]
  exact congrArg _ (State.loadThread_reaches aligned lies)

theorem scratchLoad_scratch (mem : (i, n, w) ∈ [(Instr.sld32 sp d a, 4, 1), (.sld64 sp d a, 8, 2)]) (issues : s.issuesLong sp)
    (fd : s.fits d w) (fa : s.fits a 1) (aligned : (s.cur.w a).toNat % n = 0) (fits : (s.cur.w a).toNat + n ≤ s.pk.carveBytes)
    (free : s.open_ s.cur.id.team (s.cur.w a).toNat n false) :
    LoadsBytes i s d n w false ((List.range n).map (fun k => (s.scratchByte s.cur.id.team ((s.cur.w a).toNat + k)).getD 0)) := by
  refine loadsBytes_of_loadScratch issues.1.2.1 issues.1.2.2 free ?_
  rw [scratchLoad_exec mem, scratchLoad, issue_long issues (beyond_of_fits_two fd fa)]
  obtain ⟨lies, at_⟩ := State.lies_scratchAddr fits
  refine congrArg _ (State.loadThread_reaches ?_ lies)
  rw [at_]
  simp only [List.mem_cons, Prod.mk.injEq, List.not_mem_nil, or_false] at mem
  rcases mem with ⟨-, rfl, -⟩ | ⟨-, rfl, -⟩ <;> omega

theorem qld_scratch (issues : s.issuesLong sp) (fd : s.fits d 1) (fa : s.fits a 2) (aligned : (s.cur.p a).toNat % 4 = 0)
    (cluster : (s.cur.p a).toNat / 2 ^ 60 = 2) (lies : s.lies (s.cur.p a) 4 u off) (free : s.open_ u off 4 false) :
    LoadsBytes (.qld32 sp d a) s d 4 1 false ((List.range 4).map (fun k => (s.scratchByte u (off + k)).getD 0)) := by
  refine loadsBytes_of_loadScratch issues.1.2.1 issues.1.2.2 free ?_
  rw [exec_qld32, execQld32, issue_long issues (beyond_of_fits_two fd fa)]
  simp only [inCluster_of_aperture cluster, Bool.not_true, Bool.and_false, Bool.false_eq_true, if_false]
  exact congrArg _ (State.loadThread_reaches aligned lies)

theorem store_scratch {pol : BitVec 2} {o : BitVec 8} (mem : (i, n, w) ∈ stores sp pol d a o) (issues : s.issues sp)
    (fd : s.fits d w) (fa : s.fits a 2) (aligned : (s.ea a o n).toNat % n = 0) (lies : s.lies (s.ea a o n) n u off)
    (free : s.open_ u off n true) : StoresScratch i s u off (stored n s.cur d) := by
  obtain ⟨exec_, room⟩ := stores_exec mem s
  refine storesScratch_of_storeScratch (by rw [stored_length]; exact free) ?_
  rw [exec_, store, issue_short issues (beyond_of_fits_two fd fa), bytesOf_words_eq_stored room]
  refine congrArg _ (State.storeThread_reaches ?_ ?_)
  · rw [stored_length]; exact aligned
  · rw [stored_length]; exact lies

theorem scratchStore_scratch (mem : (i, n, w) ∈ [(Instr.sst32 sp d a, 4, 1), (.sst64 sp d a, 8, 2)]) (issues : s.issues sp)
    (fd : s.fits d w) (fa : s.fits a 1) (aligned : (s.cur.w a).toNat % n = 0) (fits : (s.cur.w a).toNat + n ≤ s.pk.carveBytes)
    (free : s.open_ s.cur.id.team (s.cur.w a).toNat n true) :
    StoresScratch i s s.cur.id.team (s.cur.w a).toNat (stored n s.cur d) := by
  obtain ⟨exec_, room⟩ := scratchStore_exec mem s
  obtain ⟨lies, at_⟩ := State.lies_scratchAddr fits
  refine storesScratch_of_storeScratch (by rw [stored_length]; exact free) ?_
  rw [exec_, scratchStore, issue_short issues (beyond_of_fits_two fd fa), bytesOf_words_eq_stored room]
  refine congrArg _ (State.storeThread_reaches ?_ ?_)
  · rw [stored_length, at_]
    simp only [List.mem_cons, Prod.mk.injEq, List.not_mem_nil, or_false] at mem
    rcases mem with ⟨-, rfl, -⟩ | ⟨-, rfl, -⟩ <;> omega
  · rw [stored_length]; exact lies

theorem qst_scratch (issues : s.issues sp) (fd : s.fits d 1) (fa : s.fits a 2) (aligned : (s.cur.p a).toNat % 4 = 0)
    (cluster : (s.cur.p a).toNat / 2 ^ 60 = 2) (lies : s.lies (s.cur.p a) 4 u off) (free : s.open_ u off 4 true) :
    StoresScratch (.qst32 sp d a) s u off (stored 4 s.cur d) := by
  refine storesScratch_of_storeScratch (by rw [stored_length]; exact free) ?_
  have word : natOfWords (s.cur.words d 1) = (s.cur.w d).toNat := by simp [Thread.words, natOfWords, Thread.w]
  rw [exec_qst32, execQst32, issue_short issues (beyond_of_fits_two fd fa), ← word, bytesOf_words_eq_stored (by omega)]
  simp only [inCluster_of_aperture cluster, Bool.not_true, Bool.and_false, Bool.false_eq_true, if_false]
  refine congrArg _ (State.storeThread_reaches ?_ ?_)
  · rw [stored_length]; exact aligned
  · rw [stored_length]; exact lies

end

/-- Settles O19: a scratch address names its place, where nothing keeps the access waiting it is performed there, and the word moves on. -/
theorem localAccessesMoveTheirBytes : Obligations.LocalAccessesMoveTheirBytes := by
  unfold Obligations.LocalAccessesMoveTheirBytes
  refine ⟨fun s sp pol d a o u off issues => ⟨?_, ?_, ?_⟩, fun s sp pol d a o u off issues => ⟨?_, ?_, ?_⟩⟩
  · exact fun i n w sgn mem fd fa aligned lies free => load_scratch mem issues fd fa aligned lies free
  · rintro i n w mem fd fa rfl aligned rfl fits free
    exact scratchLoad_scratch mem issues fd fa aligned fits free
  · exact fun fd fa aligned cluster lies free => qld_scratch issues fd fa aligned cluster lies free
  · exact fun i n w mem fd fa aligned lies free => store_scratch mem issues fd fa aligned lies free
  · rintro i n w mem fd fa rfl aligned rfl fits free
    exact scratchStore_scratch mem issues fd fa aligned fits free
  · exact fun fd fa aligned cluster lies free => qst_scratch issues fd fa aligned cluster lies free

end Sys2Proof.Machine
end


section
/-! SUPPORT. Which cores admit a team, and which of them are chosen (R76, R108, R133, R164, R311). -/

namespace Sys2Proof.Machine

/-! ## Admission -/

theorem foldl_add_eq_sum (l : List Nat) : l.foldl (· + ·) 0 = l.sum := by rw [List.sum_eq_foldl]

/-- A sum in which only some count is the sum of those. -/
theorem sum_map_ite {α : Type} (p : α → Bool) (f : α → Nat) (l : List α) :
    (l.map (fun x => if p x then f x else 0)).sum = ((l.filter p).map f).sum := by
  induction l with
  | nil => rfl
  | cons x l ih =>
    rw [List.map_cons, List.sum_cons, ih, List.filter_cons]
    split <;> simp

theorem State.sumOn_eq (s : State) (k : CoreId) (f : Packet → Nat) :
    s.sumOn k f = ((s.teams.filter (fun t => t.on k)).map (fun t => f (s.packet t.launch))).sum := foldl_add_eq_sum _

theorem State.teamsOn_isEmpty (s : State) (k : CoreId) : (s.teamsOn k).isEmpty = true ↔ ∀ t ∈ s.teams, t.on k = false := by
  simp [State.teamsOn]

theorem State.launchOn_iff (s : State) (l : Nat) (k : CoreId) : s.launchOn l k = true ↔ ∃ t ∈ s.teams, t.launch = l ∧ t.on k = true := by
  simp [State.launchOn]

theorem State.coreAdmits_iff (s : State) (v : Vf) (x : Launch) (k : CoreId) :
    s.coreAdmits v x k = true ↔ s.sumOn k Packet.teamRegs + x.packet.teamRegs ≤ 196608 ∧
      s.sumOn k Packet.teamThreads + x.packet.teamThreads ≤ 2048 ∧
      (x.packet.stylus = true → s.sumOn k Packet.teamSlots + x.packet.crews * 32 ≤ 512) ∧
      ((∀ t ∈ s.teams, t.on k = false) ∧ s.peerScratch k = false ∨ x.packet.carve = 0 ∧ (s.core k).carve = 0) ∧
      ((∃ t ∈ s.teams, t.launch = x.id ∧ t.on k = true) ∨ s.pinOk k x = true) ∧ v.diemask.getLsbD k.die = true := by
  have slots : (!x.packet.stylus || decide (s.sumOn k Packet.teamSlots + x.packet.teamSlots ≤ 512)) = true ↔
      (x.packet.stylus = true → s.sumOn k Packet.teamSlots + x.packet.crews * 32 ≤ 512) := by
    cases h : x.packet.stylus <;> simp [Packet.teamSlots, h]
  unfold State.coreAdmits
  simp only [Bool.and_eq_true, slots, Bool.or_eq_true, State.teamsOn_isEmpty, State.launchOn_iff, decide_eq_true_eq, beq_iff_eq,
    Bool.not_eq_true', and_assoc]

theorem State.pinOk_iff (s : State) (k : CoreId) (x : Launch) :
    s.pinOk k x = true ↔ s.pinNeed k x = 0 ∨ (s.core k).framesHeld x.vf + s.pinNeed k x ≤ s.quota k x.vf +
      (((s.core k).segs.filter (fun e => e.vf == x.vf && s.evictable k e && !(e.coid == x.image.coid && x.image.pinned.contains e.seg))).map
        (fun e => e.frames.length)).sum ∧
      s.pinNeed k x ≤ (s.core k).freeFrames.length +
      (((s.core k).segs.filter (fun e => e.vf == x.vf && s.evictable k e && !(e.coid == x.image.coid && x.image.pinned.contains e.seg))).map
        (fun e => e.frames.length)).sum := by
  unfold State.pinOk State.framesFit
  dsimp only
  rw [foldl_add_eq_sum, sum_map_ite]
  simp only [Bool.or_eq_true, Bool.and_eq_true, beq_iff_eq, decide_eq_true_eq]

theorem Core.framesHeld_eq (c : Core) (vf : Nat) :
    c.framesHeld vf = ((c.segs.filter (fun e => e.st != .absent && e.vf == vf)).map (fun e => e.frames.length)).sum := by
  unfold Core.framesHeld
  rw [foldl_add_eq_sum, sum_map_ite]

/-! ## The best of a list -/

/-- The step of a choice: one takes the place of the best so far where it counts more. -/
def better {α : Type} (best : Option (α × Nat)) (x : α × Nat) : Option (α × Nat) :=
  match best with
  | none => some x
  | some b => if b.2 < x.2 then some x else some b

theorem foldl_better_some {α : Type} (l : List (α × Nat)) (b : α × Nat) :
    ∃ c, l.foldl better (some b) = some c ∧ b.2 ≤ c.2 ∧ (∀ y ∈ l, y.2 ≤ c.2) ∧
      (c = b ∨ ∃ pre post, l = pre ++ c :: post ∧ b.2 < c.2 ∧ ∀ y ∈ pre, y.2 < c.2) := by
  induction l generalizing b with
  | nil => exact ⟨b, rfl, le_rfl, by simp, Or.inl rfl⟩
  | cons x l ih =>
    rw [List.foldl_cons, better]
    split
    · rename_i more
      obtain ⟨c, hc, above, all, first⟩ := ih x
      refine ⟨c, hc, by omega, by simpa [above] using all, Or.inr ?_⟩
      obtain rfl | ⟨pre, post, rfl, gt, before⟩ := first
      · exact ⟨[], l, rfl, more, by simp⟩
      · exact ⟨x :: pre, post, rfl, by omega, by simpa [gt] using before⟩
    · rename_i less
      obtain ⟨c, hc, above, all, first⟩ := ih b
      refine ⟨c, hc, above, ?_, ?_⟩
      · rw [List.forall_mem_cons]
        exact ⟨by omega, all⟩
      · obtain rfl | ⟨pre, post, rfl, gt, before⟩ := first
        · exact Or.inl rfl
        · refine Or.inr ⟨x :: pre, post, rfl, gt, ?_⟩
          rw [List.forall_mem_cons]
          exact ⟨by omega, before⟩

/-- The choice is the first of those that count most. -/
theorem foldl_better {α : Type} (l : List (α × Nat)) :
    (l.foldl better none = none ∧ l = []) ∨
    ∃ c pre post, l.foldl better none = some c ∧ l = pre ++ c :: post ∧ (∀ y ∈ pre, y.2 < c.2) ∧ ∀ y ∈ post, y.2 ≤ c.2 := by
  cases l with
  | nil => exact Or.inl ⟨rfl, rfl⟩
  | cons b l =>
    right
    obtain ⟨c, hc, above, all, first⟩ := foldl_better_some l b
    obtain rfl | ⟨pre, post, rfl, gt, before⟩ := first
    · exact ⟨c, [], l, hc, rfl, by simp, all⟩
    · refine ⟨c, b :: pre, post, hc, rfl, ?_, fun y hy => all y (by simp [hy])⟩
      rw [List.forall_mem_cons]
      exact ⟨gt, before⟩

/-! ## The cores of a quad -/

/-- One core before another: on a lower die, or lower on the same die. -/
def lowerCore (a b : CoreId) : Prop := a.die < b.die ∨ a.die = b.die ∧ a.core < b.core

theorem mem_quadOf {d j : Nat} {k : CoreId} : k ∈ Machine.quadOf d j ↔ k.die = d ∧ k.core / 4 = j := by
  obtain ⟨die, core⟩ := k
  simp only [quadOf, List.mem_map, List.mem_range, CoreId.mk.injEq]
  constructor
  · rintro ⟨i, hi, rfl, rfl⟩
    omega
  · rintro ⟨rfl, rfl⟩
    exact ⟨core % 4, by omega, rfl, by omega⟩

theorem quadOf_pairwise (d j : Nat) : (Machine.quadOf d j).Pairwise lowerCore := by
  unfold quadOf
  rw [List.pairwise_map]
  refine List.pairwise_lt_range.imp (fun {a b} h => Or.inr ⟨rfl, ?_⟩)
  dsimp only
  omega

theorem quadOf_nodup (d j : Nat) : (Machine.quadOf d j).Nodup :=
  (quadOf_pairwise d j).imp (fun {a b} h e => by subst e; unfold lowerCore at h; omega)

/-- The head of a list in order comes no later than any of it. -/
theorem head_lower {l : List CoreId} (h : l.Pairwise lowerCore) {k j : CoreId} (hk : l.head? = some k) (hj : j ∈ l) :
    k = j ∨ lowerCore k j := by
  obtain ⟨rest, rfl⟩ : ∃ rest, l = k :: rest := by
    cases l with
    | nil => cases hk
    | cons a rest => cases hk; exact ⟨rest, rfl⟩
  obtain rfl | hj := List.mem_cons.1 hj
  · exact Or.inl rfl
  · exact Or.inr ((List.pairwise_cons.1 h).1 j hj)

/-- A core that has the launch's carve already. -/
def State.carved (s : State) (x : Launch) (k : CoreId) : Bool := (s.core k).carve == x.packet.carve

/-- The admitting cores of a quad, those with the launch's carve first. -/
def State.quadOrder (s : State) (v : Vf) (x : Launch) (d j : Nat) : List CoreId :=
  ((Machine.quadOf d j).filter (s.coreAdmits v x)).filter (s.carved x) ++ ((Machine.quadOf d j).filter (s.coreAdmits v x)).filter (fun k => !s.carved x k)

section
variable (s : State) (v : Vf) (x : Launch) (d j : Nat)

theorem State.mem_quadOrder {k : CoreId} : k ∈ s.quadOrder v x d j ↔ k ∈ Machine.quadOf d j ∧ s.coreAdmits v x k = true := by
  unfold State.quadOrder
  rw [List.mem_append, List.mem_filter, List.mem_filter, List.mem_filter]
  cases s.carved x k <;> simp

theorem State.quadOrder_length : (s.quadOrder v x d j).length = ((Machine.quadOf d j).filter (s.coreAdmits v x)).length := by
  unfold State.quadOrder
  rw [List.length_append]
  exact (List.length_eq_length_filter_add _).symm

theorem State.quadOrder_nodup : (s.quadOrder v x d j).Nodup := by
  have admitted := (quadOf_nodup d j).filter (s.coreAdmits v x)
  refine List.Nodup.append (admitted.filter _) (admitted.filter _) (fun k hk hk' => ?_)
  have yes := (List.mem_filter.1 hk).2
  have no := (List.mem_filter.1 hk').2
  simp [yes] at no

theorem State.quadCores?_eq (n : Nat) : s.quadCores? v x n false (fun _ => true) d j =
    if ((s.quadOrder v x d j).take n).length = n then
      some ((Machine.quadOf d j).filter ((s.quadOrder v x d j).take n).contains, (((s.quadOrder v x d j).take n).filter (s.carved x)).length)
    else none := by
  unfold State.quadCores?
  simp only [Bool.and_true, decide_eq_true_eq, Bool.false_eq_true, if_false]
  rfl

theorem State.quadCores?_isSome (n : Nat) :
    (s.quadCores? v x n false (fun _ => true) d j).isSome = true ↔ n ≤ ((Machine.quadOf d j).filter (s.coreAdmits v x)).length := by
  rw [State.quadCores?_eq, List.length_take, State.quadOrder_length]
  split
  · simp; omega
  · simp; omega

/-- The cores taken in a quad: as many as asked for, each of the quad and admitting. -/
theorem State.quadCores?_found {n : Nat} {c : List CoreId × Nat} (h : s.quadCores? v x n false (fun _ => true) d j = some c) :
    c.1.Perm ((s.quadOrder v x d j).take n) ∧ c.1.length = n ∧ c.1.Nodup ∧ c.2 = (((s.quadOrder v x d j).take n).filter (s.carved x)).length ∧
      ∀ k ∈ c.1, k ∈ Machine.quadOf d j ∧ s.coreAdmits v x k = true := by
  rw [State.quadCores?_eq] at h
  split at h
  · rename_i len
    cases h
    dsimp only
    have nodup := (quadOf_nodup d j).filter ((s.quadOrder v x d j).take n).contains
    have perm : ((Machine.quadOf d j).filter ((s.quadOrder v x d j).take n).contains).Perm ((s.quadOrder v x d j).take n) := by
      rw [List.perm_ext_iff_of_nodup nodup ((s.quadOrder_nodup v x d j).take)]
      intro k
      rw [List.mem_filter, List.contains_iff_mem]
      exact ⟨fun h => h.2, fun h => ⟨((s.mem_quadOrder v x d j).1 (List.mem_of_mem_take h)).1, h⟩⟩
    refine ⟨perm, perm.length_eq.trans len, nodup, rfl, fun k hk => ?_⟩
    exact (s.mem_quadOrder v x d j).1 (List.mem_of_mem_take (perm.subset hk))
  · cases h

/-- The one core taken in a quad is the first in its order. -/
theorem State.quadCores?_one {c : List CoreId × Nat} (h : s.quadCores? v x 1 false (fun _ => true) d j = some c) :
    ∃ k, c = ([k], if s.carved x k then 1 else 0) ∧ (s.quadOrder v x d j).head? = some k := by
  obtain ⟨perm, len, -, count, -⟩ := s.quadCores?_found v x d j h
  obtain ⟨k, hk⟩ := List.length_eq_one_iff.1 len
  rw [hk] at perm
  have first : (s.quadOrder v x d j).take 1 = [k] := List.singleton_perm.1 perm |>.symm
  refine ⟨k, ?_, ?_⟩
  · rw [first] at count
    refine Prod.ext hk (count.trans ?_)
    simp only [List.filter_cons, List.filter_nil]
    cases s.carved x k <;> rfl
  · cases order : s.quadOrder v x d j with
    | nil => rw [order] at first; cases first
    | cons a rest => rw [order] at first; cases first; rfl

/-- The order of R133: the launch's carve first, then the lower die, then the lower number. -/
def State.noWorse (k i : CoreId) : Prop :=
  s.carved x k = true ∧ s.carved x i = false ∨ s.carved x k = s.carved x i ∧ (k = i ∨ lowerCore k i)

theorem State.quadOrder_head {k i : CoreId} (h : (s.quadOrder v x d j).head? = some k) (hi : i ∈ s.quadOrder v x d j) : s.noWorse x k i := by
  have ordered (p : CoreId → Bool) : (((Machine.quadOf d j).filter (s.coreAdmits v x)).filter p).Pairwise lowerCore :=
    ((quadOf_pairwise d j).filter _).filter p
  unfold State.quadOrder at h hi
  cases front : ((Machine.quadOf d j).filter (s.coreAdmits v x)).filter (s.carved x) with
  | cons a rest =>
    rw [front] at h hi
    have ha : s.carved x a = true := (List.mem_filter.1 (front ▸ List.mem_cons_self : a ∈ _)).2
    obtain rfl : a = k := by simpa using h
    rcases List.mem_append.1 hi with hi | hi
    · have hc : s.carved x i = true := (List.mem_filter.1 (front ▸ hi)).2
      exact Or.inr ⟨ha.trans hc.symm, head_lower (front ▸ ordered (s.carved x)) rfl hi⟩
    · have hc := (List.mem_filter.1 hi).2
      exact Or.inl ⟨ha, by simpa using hc⟩
  | nil =>
    rw [front, List.nil_append] at h hi
    have hk := (List.mem_filter.1 (List.mem_of_head? h)).2
    have hc := (List.mem_filter.1 hi).2
    simp only [Bool.not_eq_true'] at hk hc
    exact Or.inr ⟨hk.trans hc.symm, head_lower (ordered _) h hi⟩

end

/-! ## The cores of a launch -/

section
variable (s : State) (v : Vf) (x : Launch)

/-- What every quad offers for n teams, in order of dies and quads. -/
def State.offers (n : Nat) : List (List CoreId × Nat) :=
  v.dies.flatMap (fun d => (List.range 13).filterMap (s.quadCores? v x n false (fun _ => true) d))

theorem State.chooseCores_eq (n : Nat) :
    s.chooseCores v x n false (fun _ => true) = ((s.offers v x n).foldl better none).map (fun c => c.1) := by
  have step : (fun (best : Option (List CoreId × Nat)) (c : List CoreId × Nat) => match best with
      | none => some c
      | some b => if b.2 < c.2 then some c else some b) = better := by
    funext best c
    cases best <;> rfl
  unfold State.chooseCores
  rw [← step]
  rfl

theorem State.mem_offers {n : Nat} {c : List CoreId × Nat} :
    c ∈ s.offers v x n ↔ ∃ d j, d < 24 ∧ v.diemask.getLsbD d = true ∧ j < 13 ∧ s.quadCores? v x n false (fun _ => true) d j = some c := by
  simp only [State.offers, List.mem_flatMap, List.mem_filterMap, List.mem_range, Vf.dies, List.mem_filter]
  constructor
  · rintro ⟨d, ⟨hd, mask⟩, j, hj, h⟩
    exact ⟨d, j, hd, mask, hj, h⟩
  · rintro ⟨d, j, hd, mask, hj, h⟩
    exact ⟨d, ⟨hd, mask⟩, j, hj, h⟩

theorem State.admits_die {k : CoreId} (h : s.coreAdmits v x k = true) : v.diemask.getLsbD k.die = true :=
  ((s.coreAdmits_iff v x k).1 h).2.2.2.2.2

/-- A quad with enough admitting cores offers them. -/
theorem State.offers_of_room {n d j : Nat} (pos : 1 ≤ n) (hd : d < 24) (hj : j < 13)
    (room : n ≤ ((Machine.quadOf d j).filter (s.coreAdmits v x)).length) :
    ∃ c ∈ s.offers v x n, s.quadCores? v x n false (fun _ => true) d j = some c := by
  obtain ⟨c, hc⟩ := Option.isSome_iff_exists.1 ((s.quadCores?_isSome v x d j n).2 room)
  obtain ⟨k, hk⟩ := List.exists_mem_of_length_pos (l := (Machine.quadOf d j).filter (s.coreAdmits v x)) (by omega)
  obtain ⟨inQuad, admits⟩ := List.mem_filter.1 hk
  have mask := s.admits_die v x admits
  rw [(mem_quadOf.1 inQuad).1] at mask
  exact ⟨c, (s.mem_offers v x).2 ⟨d, j, hd, mask, hj, hc⟩, hc⟩

/-- Nothing is chosen exactly where no quad has enough admitting cores. -/
theorem State.chooseCores_none {n : Nat} (pos : 1 ≤ n) : s.chooseCores v x n false (fun _ => true) = none ↔
    ∀ d < 24, ∀ j < 13, ((Machine.quadOf d j).filter (s.coreAdmits v x)).length < n := by
  rw [State.chooseCores_eq, Option.map_eq_none_iff]
  constructor
  · intro h d hd j hj
    by_contra room
    obtain ⟨c, hc, -⟩ := s.offers_of_room v x pos hd hj (by omega)
    obtain ⟨-, empty⟩ | ⟨b, -, -, found, -⟩ := foldl_better (s.offers v x n)
    · rw [empty] at hc
      cases hc
    · rw [h] at found
      cases found
  · intro h
    obtain ⟨none_, -⟩ | ⟨b, pre, post, -, split_, -⟩ := foldl_better (s.offers v x n)
    · exact none_
    · obtain ⟨d, j, hd, -, hj, hb⟩ := (s.mem_offers v x).1 (split_ ▸ by simp : b ∈ s.offers v x n)
      have := (s.quadCores?_isSome v x d j n).1 (by rw [hb]; rfl)
      have := h d hd j hj
      omega

/-- What is chosen is one of the offers, and none counts more; none that counts as much comes before it. -/
theorem State.chooseCores_some {n : Nat} {ks : List CoreId} (h : s.chooseCores v x n false (fun _ => true) = some ks) :
    ∃ c pre post, c.1 = ks ∧ s.offers v x n = pre ++ c :: post ∧ (∀ y ∈ pre, y.2 < c.2) ∧ ∀ y ∈ post, y.2 ≤ c.2 := by
  rw [State.chooseCores_eq, Option.map_eq_some_iff] at h
  obtain ⟨c, found, rfl⟩ := h
  obtain ⟨none_, -⟩ | ⟨b, pre, post, found', split_, before, after⟩ := foldl_better (s.offers v x n)
  · rw [none_] at found
    cases found
  · obtain rfl : b = c := by
      rw [found'] at found
      exact Option.some.inj found
    exact ⟨b, pre, post, rfl, split_, before, after⟩

/-- The offers stand in the order of their cores. -/
theorem State.offers_pairwise (n : Nat) : (s.offers v x n).Pairwise (fun a b => ∀ k ∈ a.1, ∀ i ∈ b.1, lowerCore k i) := by
  have place {d j : Nat} {c : List CoreId × Nat} (h : s.quadCores? v x n false (fun _ => true) d j = some c) (k : CoreId) (hk : k ∈ c.1) :
      k.die = d ∧ k.core / 4 = j := by
    obtain ⟨-, -, -, -, inside⟩ := s.quadCores?_found v x d j h
    exact mem_quadOf.1 (inside k hk).1
  unfold State.offers
  rw [List.pairwise_flatMap]
  constructor
  · intro d _
    rw [List.pairwise_filterMap]
    refine List.pairwise_lt_range.imp (fun {i j} lt a ha b hb k hk l hl => ?_)
    have hk := place ha k hk
    have hl := place hb l hl
    exact Or.inr ⟨by omega, by omega⟩
  · refine (List.pairwise_lt_range.filter _).imp (fun {d e} lt a ha b hb k hk l hl => ?_)
    obtain ⟨i, -, hi⟩ := List.mem_filterMap.1 ha
    obtain ⟨j, -, hj⟩ := List.mem_filterMap.1 hb
    have hk := place hi k hk
    have hl := place hj l hl
    exact Or.inl (by omega)

theorem State.noWorse_trans {a b c : CoreId} (h : s.noWorse x a b) (h' : s.noWorse x b c) : s.noWorse x a c := by
  unfold State.noWorse at *
  have lower : (a = b ∨ lowerCore a b) → (b = c ∨ lowerCore b c) → (a = c ∨ lowerCore a c) := by
    rintro (rfl | h) (rfl | h')
    · exact Or.inl rfl
    · exact Or.inr h'
    · exact Or.inr h
    · refine Or.inr ?_
      unfold lowerCore at *
      omega
  rcases h with ⟨ha, hb⟩ | ⟨hab, before⟩ <;> rcases h' with ⟨hb', hc⟩ | ⟨hbc, before'⟩
  · simp [hb] at hb'
  · exact Or.inl ⟨ha, hbc ▸ hb⟩
  · exact Or.inl ⟨hab.trans hb', hc⟩
  · exact Or.inr ⟨hab.trans hbc, lower before before'⟩

theorem State.noWorse_antisymm {a b : CoreId} (h : s.noWorse x a b) (h' : s.noWorse x b a) : a = b := by
  unfold State.noWorse lowerCore at *
  rcases h with ⟨ha, hb⟩ | ⟨hab, rfl | before⟩
  · rcases h' with ⟨hb', -⟩ | ⟨hba, -⟩
    · simp [hb] at hb'
    · simp [ha, hb] at hba
  · rfl
  · rcases h' with ⟨hb', ha'⟩ | ⟨-, rfl | before'⟩
    · simp [ha', hb'] at hab
    · rfl
    · omega

/-- The admitting cores of the package. -/
def State.inPlay (k : CoreId) : Prop := k.die < 24 ∧ k.core < 52 ∧ s.coreAdmits v x k = true

/-- The cores chosen in a quad, where some are: as many as asked for, of one quad, each admitting. -/
theorem State.chooseCores_quad {n : Nat} {ks : List CoreId} (h : s.chooseCores v x n false (fun _ => true) = some ks) :
    ks.length = n ∧ ks.Nodup ∧ ∃ d j, d < 24 ∧ j < 13 ∧ ∀ k ∈ ks, k.die = d ∧ k.core / 4 = j ∧ s.coreAdmits v x k = true := by
  obtain ⟨c, pre, post, rfl, split_, -, -⟩ := s.chooseCores_some v x h
  obtain ⟨d, j, hd, -, hj, hc⟩ := (s.mem_offers v x).1 (split_ ▸ by simp : c ∈ s.offers v x n)
  obtain ⟨-, len, nodup, -, inside⟩ := s.quadCores?_found v x d j hc
  refine ⟨len, nodup, d, j, hd, hj, fun k hk => ?_⟩
  obtain ⟨inQuad, admits⟩ := inside k hk
  exact ⟨(mem_quadOf.1 inQuad).1, (mem_quadOf.1 inQuad).2, admits⟩

/-- A core in play is no better than the one its quad offers. -/
theorem State.offer_of_inPlay {i : CoreId} (h : s.inPlay v x i) :
    ∃ k, ([k], if s.carved x k then 1 else 0) ∈ s.offers v x 1 ∧ s.noWorse x k i := by
  obtain ⟨hd, hc, admits⟩ := h
  have inQuad : i ∈ Machine.quadOf i.die (i.core / 4) := mem_quadOf.2 ⟨rfl, rfl⟩
  have room : 1 ≤ ((Machine.quadOf i.die (i.core / 4)).filter (s.coreAdmits v x)).length :=
    List.length_pos_of_mem (List.mem_filter.2 ⟨inQuad, admits⟩)
  obtain ⟨c, offered, found⟩ := s.offers_of_room v x le_rfl hd (by omega : i.core / 4 < 13) room
  obtain ⟨k, rfl, head⟩ := s.quadCores?_one v x _ _ found
  exact ⟨k, offered, s.quadOrder_head v x _ _ head ((s.mem_quadOrder v x _ _).2 ⟨inQuad, admits⟩)⟩

/-- The one core chosen is in play, and none in play is better. -/
theorem State.chooseCores_best {ks : List CoreId} (h : s.chooseCores v x 1 false (fun _ => true) = some ks) :
    ∃ k, ks = [k] ∧ s.inPlay v x k ∧ ∀ i, s.inPlay v x i → s.noWorse x k i := by
  obtain ⟨len, -, d, j, hd, hj, inside⟩ := s.chooseCores_quad v x h
  obtain ⟨k, rfl⟩ := List.length_eq_one_iff.1 len
  obtain ⟨die, quad, admits⟩ := inside k (by simp)
  refine ⟨k, rfl, ⟨by omega, by omega, admits⟩, fun i hi => ?_⟩
  obtain ⟨⟨own, count⟩, pre, post, hown, split_, before, after⟩ := s.chooseCores_some v x h
  obtain rfl : own = [k] := hown
  obtain ⟨_, _, -, -, -, hc⟩ := (s.mem_offers v x).1 (split_ ▸ by simp : ([k], count) ∈ s.offers v x 1)
  obtain ⟨k', e, -⟩ := s.quadCores?_one v x _ _ hc
  obtain ⟨rfl, rfl⟩ : k = k' ∧ count = if s.carved x k' then 1 else 0 := by simpa using e
  obtain ⟨a, offered, noWorse⟩ := s.offer_of_inPlay v x hi
  refine s.noWorse_trans x ?_ noWorse
  rw [split_, List.mem_append, List.mem_cons] at offered
  have ordered := s.offers_pairwise v x 1
  rw [split_, List.pairwise_append] at ordered
  have counts (more : (if s.carved x a then 1 else 0) ≤ (if s.carved x k then 1 else 0)) (place : k = a ∨ lowerCore k a) : s.noWorse x k a := by
    unfold State.noWorse
    cases hk : s.carved x k <;> cases ha : s.carved x a <;> simp_all
  rcases offered with offered | offered | offered
  · have fewer := before _ offered
    have same : s.carved x k = true ∧ s.carved x a = false := by
      cases hk : s.carved x k <;> cases ha : s.carved x a <;> simp_all
    exact Or.inl same
  · obtain ⟨rfl, -⟩ : a = k ∧ _ := by simpa using offered
    exact counts le_rfl (Or.inl rfl)
  · exact counts (after _ offered) (Or.inr ((List.pairwise_cons.1 ordered.2.1).1 _ offered k (by simp) a (by simp)))

theorem State.chooseCores_one_none : s.chooseCores v x 1 false (fun _ => true) = none ↔ ∀ k, k.die < 24 ∧ k.core < 52 → ¬ s.coreAdmits v x k = true := by
  rw [State.chooseCores_none s v x le_rfl]
  constructor
  · intro h k hk admits
    have few := h k.die hk.1 (k.core / 4) (by omega)
    have there : k ∈ (Machine.quadOf k.die (k.core / 4)).filter (s.coreAdmits v x) :=
      List.mem_filter.2 ⟨mem_quadOf.2 ⟨rfl, rfl⟩, admits⟩
    have := List.length_pos_of_mem there
    omega
  · intro h d hd j hj
    by_contra some_
    obtain ⟨k, hk⟩ := List.exists_mem_of_length_pos (l := (Machine.quadOf d j).filter (s.coreAdmits v x)) (by omega)
    obtain ⟨inQuad, admits⟩ := List.mem_filter.1 hk
    obtain ⟨rfl, rfl⟩ := mem_quadOf.1 inQuad
    exact h k ⟨hd, by omega⟩ admits

theorem State.chooseCores_one_iff (k : CoreId) : s.chooseCores v x 1 false (fun _ => true) = some [k] ↔
    s.inPlay v x k ∧ ∀ i, s.inPlay v x i → s.noWorse x k i := by
  constructor
  · intro h
    obtain ⟨k', e, best⟩ := s.chooseCores_best v x h
    obtain rfl : k = k' := by simpa using e
    exact best
  · rintro ⟨inPlay, best⟩
    cases chosen : s.chooseCores v x 1 false (fun _ => true) with
    | none => exact absurd inPlay.2.2 ((s.chooseCores_one_none v x).1 chosen k ⟨inPlay.1, inPlay.2.1⟩)
    | some ks =>
      obtain ⟨k', rfl, inPlay', best'⟩ := s.chooseCores_best v x chosen
      rw [s.noWorse_antisymm x (best k' inPlay') (best' k inPlay)]

/-- The order of R133 in the words of its statement. -/
theorem State.noWorse_iff (k i : CoreId) : s.noWorse x k i ↔
    ((s.core k).carve = x.packet.carve ∧ ¬ (s.core i).carve = x.packet.carve ∨
      ((s.core k).carve = x.packet.carve ↔ (s.core i).carve = x.packet.carve) ∧ (k.die < i.die ∨ k.die = i.die ∧ k.core ≤ i.core)) := by
  have place : (k = i ∨ lowerCore k i) ↔ (k.die < i.die ∨ k.die = i.die ∧ k.core ≤ i.core) := by
    obtain ⟨d, c⟩ := k
    obtain ⟨d', c'⟩ := i
    simp only [lowerCore, CoreId.mk.injEq]
    omega
  have carved (a : CoreId) : s.carved x a = true ↔ (s.core a).carve = x.packet.carve := beq_iff_eq
  have other : s.carved x i = false ↔ ¬ (s.core i).carve = x.packet.carve := beq_eq_false_iff_ne
  have alike : s.carved x k = s.carved x i ↔ ((s.core k).carve = x.packet.carve ↔ (s.core i).carve = x.packet.carve) := by
    rw [Bool.eq_iff_iff, carved, carved]
  unfold State.noWorse
  rw [place, alike, other, carved]

end

end Sys2Proof.Machine
end


section
/-! SUPPORT. What placing teams leaves as it was, and what it puts there (R11, R18, R108, R132, R166). -/

namespace Sys2Proof.Machine

/-- The threads and teams are as they were but for monitors and mappings, and so are the carves. -/
structure State.Seats (s t : State) : Prop where
  cur : t.cur.still = s.cur.still
  others : t.others.map Thread.still = s.others.map Thread.still
  team : ∀ l i, (t.team? l i).map Team.still = (s.team? l i).map Team.still
  carve : ∀ k, (t.core k).carve = (s.core k).carve

theorem State.Seats.refl (s : State) : s.Seats s := ⟨rfl, rfl, fun _ _ => rfl, fun _ => rfl⟩

theorem State.Seats.trans {s t u : State} (h : s.Seats t) (h' : t.Seats u) : s.Seats u :=
  ⟨h'.cur.trans h.cur, h'.others.trans h.others, fun l i => (h'.team l i).trans (h.team l i), fun k => (h'.carve k).trans (h.carve k)⟩

theorem State.seats_of_frame {s t : State} (h : t.frame = s.frame) : s.Seats t where
  cur := congrArg (fun f => f.cur) h
  others := congrArg (fun f => f.others) h
  team l i := congrArg (fun f => f.team l i) h
  carve k := (congrArg (fun f => (f.core k).carve) h :)

/-- A core that keeps its carve is put in place. -/
theorem State.setCore_seats (s : State) (k : CoreId) (c : Core) (id : c.id = k) (carve : c.carve = (s.core k).carve) : s.Seats (s.setCore c) := by
  refine ⟨rfl, rfl, fun _ _ => rfl, fun j => ?_⟩
  rw [State.setCore_core, id]
  split
  · rename_i e
    rw [carve, e]
  · rfl

/-- Nothing of it but crews, launches and slots is another. -/
theorem State.seats_of_eq {s t : State} (cur : t.cur = s.cur) (others : t.others = s.others) (teams : t.teams = s.teams)
    (cores : t.cores = s.cores) : s.Seats t :=
  ⟨by rw [cur], by rw [others], fun l i => by rw [State.team?_of_teams teams], fun k => by simp only [State.core, cores]⟩

theorem State.modSeg_seats (s : State) (k : CoreId) (vf coid seg : Nat) (f : SegEntry → SegEntry) : s.Seats (s.modSeg k vf coid seg f) :=
  s.setCore_seats k _ (s.core_id k) rfl

theorem State.lacerStir_seats (s : State) (k : CoreId) (vf : Nat) : s.Seats (s.lacerStir k vf) := s.setCore_seats k _ (s.core_id k) rfl

theorem State.nextGen_seats (s : State) (k : CoreId) : s.Seats (s.nextGen k) := s.setCore_seats k _ (s.core_id k) rfl

theorem State.startLoad_seats (s : State) (k : CoreId) (vf coid seg len launch : Nat) (owner : ThreadId) (named : Bool) (pins : List Nat) :
    s.Seats (s.startLoad k vf coid seg len launch owner named pins) := by
  unfold State.startLoad
  dsimp only
  split <;> exact s.setCore_seats k _ (s.core_id k) rfl

theorem State.evictFor_seats (s : State) (k : CoreId) (vf need fuel : Nat) : s.Seats (s.evictFor k vf need fuel) := by
  induction fuel generalizing s with
  | zero => exact .refl s
  | succ fuel ih =>
    unfold State.evictFor
    split
    · exact .refl s
    · dsimp only
      split
      · exact .refl s
      · refine State.Seats.trans ?_ (ih _)
        refine State.Seats.trans ?_ (State.lacerStir_seats _ k vf)
        exact s.setCore_seats k _ (s.core_id k) rfl

theorem foldl_seats {α : Type} (f : State → α → State) (one : ∀ s x, State.Seats s (f s x)) (items : List α) (s : State) :
    s.Seats (items.foldl f s) :=
  foldl_keeps State.Seats State.Seats.refl State.Seats.trans f one items s

theorem State.pinLaunch_seats (s : State) (k : CoreId) (x : Launch) (t : Nat) : s.Seats (s.pinLaunch k x t) := by
  unfold State.pinLaunch
  split
  · exact .refl s
  · dsimp only
    refine State.Seats.trans ?_ (foldl_seats _ (fun s g => State.startLoad_seats s _ _ _ _ _ _ _ _ _) _ _)
    refine State.Seats.trans ?_ (State.evictFor_seats _ _ _ _ _)
    exact foldl_seats _ (fun s g => State.modSeg_seats s _ _ _ _ _) _ _

theorem State.seatCrew_seats (s : State) (k : CoreId) (c : Crew) : s.Seats (s.seatCrew k c) := State.seats_of_eq rfl rfl rfl rfl

/-- A core takes a carve: only its own is another (R166). -/
theorem State.setCarve_places (s : State) (k : CoreId) (carve : Nat) :
    let t := s.setCarve k carve
    t.cur.still = s.cur.still ∧ t.others.map Thread.still = s.others.map Thread.still ∧
      (∀ l i, (t.team? l i).map Team.still = (s.team? l i).map Team.still) ∧
      ∀ j, (t.core j).carve = if j = k then carve else (s.core j).carve := by
  unfold State.setCarve
  dsimp only
  split
  · rename_i already
    refine ⟨rfl, rfl, fun _ _ => rfl, fun j => ?_⟩
    split
    · rename_i e
      rw [e, already]
    · rfl
  · have cleaned : s.Seats (((s.core k).l1.filter (fun x => decide (carveLines carve / 128 ≤ x.way))).foldl
        (fun s x => s.l1Clean k x.line (fun _ => true)) s) :=
      State.seats_of_frame (foldl_frame _ _ _ (fun s x => State.l1Clean_frame s k x.line _))
    refine ⟨cleaned.cur, cleaned.others, cleaned.team, fun j => ?_⟩
    rw [State.setCore_core]
    dsimp only
    rw [State.core_id]
    split
    · rfl
    · exact cleaned.carve j

/-! ## One team -/

/-- A team stands on its core, with nothing in its scratch. -/
def Team.placed (m : Team) (k : CoreId) : Prop := m.core = k ∧ (m.st = .resident ∨ m.st = .pinning) ∧ m.scratch = []

/-- What the placing of a team makes of the threads, the teams and the carves. -/
structure State.Placed (s u : State) (x : Launch) (t : Nat) (k : CoreId) : Prop where
  cur : u.cur.still = s.cur.still
  others : u.others.map Thread.still = s.others.map Thread.still ++ (x.newThreads t).map Thread.still
  team : ∀ l i, ¬ (l = x.id ∧ i = t) → (u.team? l i).map Team.still = (s.team? l i).map Team.still
  own : ∃ m, u.team? x.id t = some m ∧ m.placed k
  carve : ∀ j, (u.core j).carve = if j = k then x.packet.carve else (s.core j).carve

/-- The state with a team's core made ready for it. -/
def State.readyCore (s : State) (x : Launch) (t : Nat) (k : CoreId) : State :=
  ((s.setCarve k x.packet.carve).pinLaunch k x t).nextGen k

/-- The state with a team on its core, its crews seated and its threads there. -/
def State.seatTeam (s : State) (x : Launch) (t : Nat) (k : CoreId) (m : Team) : State :=
  let s := s.setTeam { m with core := k, st := .pinning, scratch := [] }
  let s := (List.range x.packet.crews).foldl (fun s c => s.seatCrew k (Crew.start ⟨x.id, t, c⟩ x.packet)) s
  { s with
    others := s.others ++ x.newThreads t
    slots := if x.packet.stylus
      then s.slots ++ (List.range (x.packet.crews * 32)).map (fun i => CandSlot.start ⟨x.id, t, i⟩) else s.slots }

/-- The launch notes when its first team was placed. -/
def State.noteStart (s : State) (x : Launch) : State :=
  match s.launch? x.id with
  | none => s
  | some y => s.setLaunch { y with start := some (y.start.getD (s.vfTime x.vf).toNat) }

theorem State.placeTeam_eq (s : State) (x : Launch) (t : Nat) (k : CoreId) : s.placeTeam x t k =
    match s.team? x.id t with
    | none => s
    | some m => ((((s.readyCore x t k).seatTeam x t k m).noteStart x).standTeam x.id t).triggerDecision k := rfl

theorem State.noteStart_seats (s : State) (x : Launch) : s.Seats (s.noteStart x) := by
  unfold State.noteStart
  split
  · exact .refl s
  · exact State.seats_of_eq rfl rfl rfl rfl

theorem State.triggerDecision_seats (s : State) (k : CoreId) : s.Seats (s.triggerDecision k) := State.seats_of_frame (State.triggerDecision_frame s k)

theorem State.readyCore_places (s : State) (x : Launch) (t : Nat) (k : CoreId) :
    let u := s.readyCore x t k
    u.cur.still = s.cur.still ∧ u.others.map Thread.still = s.others.map Thread.still ∧
      (∀ l i, (u.team? l i).map Team.still = (s.team? l i).map Team.still) ∧
      ∀ j, (u.core j).carve = if j = k then x.packet.carve else (s.core j).carve := by
  obtain ⟨cur, others, team, carve⟩ := s.setCarve_places k x.packet.carve
  have pinned := (State.pinLaunch_seats (s.setCarve k x.packet.carve) k x t).trans (State.nextGen_seats _ k)
  exact ⟨pinned.cur.trans cur, pinned.others.trans others, fun l i => (pinned.team l i).trans (team l i),
    fun j => (pinned.carve j).trans (carve j)⟩

/-- A team is found in a state in which its record stands as far as the frame says. -/
theorem State.team_of_still {s t : State} {l i : Nat} {m : Team} (h : (t.team? l i).map Team.still = (s.team? l i).map Team.still)
    (found : s.team? l i = some m) : ∃ z, t.team? l i = some z ∧ z.still = m.still := by
  rw [found] at h
  cases there : t.team? l i with
  | none => rw [there] at h; cases h
  | some z => rw [there] at h; exact ⟨z, rfl, Option.some.inj h⟩

theorem Team.placed_of_still {m z : Team} {k : CoreId} (h : z.still = m.still) (hm : m.placed k) : z.placed k := by
  have core : z.core = m.core := (congrArg Team.core h :)
  have st : z.st = m.st := (congrArg Team.st h :)
  have scratch : z.scratch = m.scratch := (congrArg Team.scratch h :)
  unfold Team.placed
  rw [core, st, scratch]
  exact hm

theorem State.seatTeam_places (s : State) (x : Launch) {t : Nat} (k : CoreId) {m z : Team} (hl : m.launch = x.id) (ht : m.idx = t)
    (found : s.team? x.id t = some z) :
    let u := s.seatTeam x t k m
    u.cur = s.cur ∧ u.others = s.others ++ x.newThreads t ∧ (∀ l i, ¬ (l = x.id ∧ i = t) → u.team? l i = s.team? l i) ∧
      (∃ y, u.team? x.id t = some y ∧ y.launch = x.id ∧ y.idx = t ∧ y.placed k) ∧ ∀ j, u.core j = s.core j := by
  have seated (u : State) := foldl_keeps (fun s t : State => t.cur = s.cur ∧ t.others = s.others ∧ t.teams = s.teams ∧ t.cores = s.cores)
    (fun _ => ⟨rfl, rfl, rfl, rfl⟩) (fun a b => ⟨b.1.trans a.1, b.2.1.trans a.2.1, b.2.2.1.trans a.2.2.1, b.2.2.2.trans a.2.2.2⟩)
    (fun s c => s.seatCrew k (Crew.start ⟨x.id, t, c⟩ x.packet)) (fun _ _ => ⟨rfl, rfl, rfl, rfl⟩) (List.range x.packet.crews) u
  obtain ⟨cur, others, teams, cores⟩ := seated (s.setTeam { m with core := k, st := .pinning, scratch := [] })
  have team? := State.team?_of_teams teams
  unfold State.seatTeam
  dsimp only
  refine ⟨cur, by rw [others]; rfl, fun l i other => ?_, 
    ⟨{ m with core := k, st := .pinning, scratch := [] }, ?_, hl, ht, rfl, Or.inr rfl, rfl⟩, fun j => ?_⟩
  · refine (congrFun (congrFun team? l) i).trans ?_
    rw [State.setTeam_team?, if_neg (by rw [hl, ht]; exact other)]
  · exact (congrFun (congrFun team? x.id) t).trans
      (State.setTeam_found (m := { m with core := k, st := .pinning, scratch := [] }) found hl ht)
  · simp only [State.core, cores]
    rfl

theorem State.standTeam_places (s : State) {l t : Nat} {m : Team} {k : CoreId} (found : s.team? l t = some m) (hm : m.placed k) :
    let u := s.standTeam l t
    u.cur = s.cur ∧ u.others = s.others ∧ (∀ a i, ¬ (a = l ∧ i = t) → u.team? a i = s.team? a i) ∧
      (∃ y, u.team? l t = some y ∧ y.placed k) ∧ ∀ j, u.core j = s.core j := by
  obtain ⟨hl, ht⟩ := State.team?_key found
  obtain ⟨core, -, scratch⟩ := hm
  unfold State.standTeam
  rw [found]
  refine ⟨rfl, rfl, fun a i other => ?_, ⟨_, State.setTeam_found found hl ht, core, ?_, scratch⟩, fun j => rfl⟩
  · rw [State.setTeam_team?, if_neg (by rw [hl, ht]; exact other)]
  · dsimp only
    split
    · exact Or.inl rfl
    · exact Or.inr rfl

/-- The placing of a team. -/
theorem State.placeTeam_placed {s : State} {x : Launch} {t : Nat} {m : Team} (found : s.team? x.id t = some m) (k : CoreId) :
    s.Placed (s.placeTeam x t k) x t k := by
  obtain ⟨hl, ht⟩ := State.team?_key found
  rw [State.placeTeam_eq, found]
  dsimp only
  obtain ⟨cur, others, team, carve⟩ := s.readyCore_places x t k
  obtain ⟨z, found₁, -⟩ := State.team_of_still (team x.id t) found
  obtain ⟨cur₂, others₂, team₂, ⟨y, found₂, -, -, placed⟩, core₂⟩ := State.seatTeam_places (s.readyCore x t k) x k hl ht found₁
  generalize (s.readyCore x t k).seatTeam x t k m = b at *
  have noted := b.noteStart_seats x
  obtain ⟨z₃, found₃, still₃⟩ := State.team_of_still (noted.team x.id t) found₂
  obtain ⟨cur₄, others₄, team₄, ⟨z₄, found₄, placed₄⟩, core₄⟩ := State.standTeam_places (b.noteStart x) found₃ (Team.placed_of_still still₃ placed)
  generalize (b.noteStart x).standTeam x.id t = c at *
  have decided := c.triggerDecision_seats k
  obtain ⟨z₅, found₅, still₅⟩ := State.team_of_still (decided.team x.id t) found₄
  refine ⟨?_, ?_, fun l i other => ?_, ⟨z₅, found₅, Team.placed_of_still still₅ placed₄⟩, fun j => ?_⟩
  · rw [decided.cur, cur₄, noted.cur, cur₂, cur]
  · rw [decided.others, others₄, noted.others, others₂, List.map_append, others]
  · rw [decided.team, team₄ l i other, noted.team, team₂ l i other, team]
  · rw [decided.carve, core₄, noted.carve, core₂, carve]

/-! ## A quad team -/

/-- The teams of a quad team are placed one after another, each on its core. -/
def State.placeQuad (s : State) (x : Launch) (t : Nat) (ps : List (Nat × CoreId)) : State :=
  ps.foldl (fun s p => s.placeTeam x (t + p.1) p.2) s

/-- What the placing of a quad team makes of the threads, the teams and the carves. -/
structure State.QuadPlaced (s u : State) (x : Launch) (t : Nat) (ps : List (Nat × CoreId)) : Prop where
  cur : u.cur.still = s.cur.still
  others : u.others.map Thread.still = s.others.map Thread.still ++ ps.flatMap (fun p => (x.newThreads (t + p.1)).map Thread.still)
  team : ∀ i, (∀ p ∈ ps, i ≠ t + p.1) → (u.team? x.id i).map Team.still = (s.team? x.id i).map Team.still
  own : ∀ p ∈ ps, ∃ m, u.team? x.id (t + p.1) = some m ∧ m.placed p.2
  carve : ∀ p ∈ ps, (u.core p.2).carve = x.packet.carve
  carved : ∀ k, (s.core k).carve = x.packet.carve → (u.core k).carve = x.packet.carve

theorem State.placeQuad_placed {s : State} {x : Launch} {t : Nat} {ps : List (Nat × CoreId)} (distinct : (ps.map (fun p => p.1)).Nodup)
    (found : ∀ p ∈ ps, ∃ m, s.team? x.id (t + p.1) = some m) : s.QuadPlaced (s.placeQuad x t ps) x t ps := by
  induction ps generalizing s with
  | nil => exact ⟨rfl, by simp [State.placeQuad], fun _ _ => rfl, by simp, by simp, fun _ h => h⟩
  | cons p ps ih =>
    rw [List.map_cons, List.nodup_cons] at distinct
    obtain ⟨m, here⟩ := found p (by simp)
    have one := State.placeTeam_placed here p.2
    have other : ∀ q ∈ ps, ¬ (x.id = x.id ∧ t + q.1 = t + p.1) := by
      rintro q hq ⟨-, e⟩
      exact distinct.1 (List.mem_map.2 ⟨q, hq, by omega⟩)
    have rest := ih (s := s.placeTeam x (t + p.1) p.2) distinct.2 (fun q hq => by
      obtain ⟨m', found'⟩ := found q (by simp [hq])
      obtain ⟨z, found'', -⟩ := State.team_of_still (one.team x.id (t + q.1) (other q hq)) found'
      exact ⟨z, found''⟩)
    have carves (k : CoreId) (h : (s.core k).carve = x.packet.carve) : ((s.placeTeam x (t + p.1) p.2).core k).carve = x.packet.carve := by
      rw [one.carve]
      split
      · rfl
      · exact h
    refine ⟨rest.cur.trans one.cur, ?_, fun i hi => ?_, fun q hq => ?_, fun q hq => ?_, fun k hk => rest.carved k (carves k hk)⟩
    · rw [show s.placeQuad x t (p :: ps) = (s.placeTeam x (t + p.1) p.2).placeQuad x t ps from rfl, rest.others, one.others, List.flatMap_cons,
        List.append_assoc]
    · rw [List.forall_mem_cons] at hi
      exact (rest.team i hi.2).trans (one.team x.id i (fun e => hi.1 e.2))
    · obtain rfl | hq := List.mem_cons.1 hq
      · obtain ⟨m', found', placed⟩ := one.own
        have kept := rest.team (t + q.1) (fun r hr e => other r hr ⟨rfl, e.symm⟩)
        obtain ⟨z, found'', still⟩ := State.team_of_still kept found'
        exact ⟨z, found'', Team.placed_of_still still placed⟩
      · exact rest.own q hq
    · obtain rfl | hq := List.mem_cons.1 hq
      · exact rest.carved q.2 (by rw [one.carve, if_pos rfl])
      · exact rest.carve q hq

/-! ## Its threads -/

/-- A thread of a launch at its start values (R11, R18). -/
def Launch.newThread (x : Launch) (t i : Nat) : Thread :=
  { Thread.start ⟨x.id, t, i⟩ x.image.entry x.packet.regs with phase := if i < x.packet.threads then .ready else .neverStarted }

/-- A thread is found among the others as far as the frame says. -/
theorem find?_still (l : List Thread) (id : ThreadId) :
    (l.find? (fun x => x.id == id)).map Thread.still = (l.map Thread.still).find? (fun x => x.id == id) := by
  rw [List.find?_map]
  rfl

theorem State.thread?_still (s : State) (id : ThreadId) : (s.thread? id).map Thread.still =
    if s.cur.still.id = id then some s.cur.still else (s.others.map Thread.still).find? (fun x => x.id == id) := by
  rw [← find?_still]
  unfold State.thread?
  by_cases h : s.cur.id = id
  · have h' : s.cur.still.id = id := h
    simp [h, h']
  · have h' : ¬ s.cur.still.id = id := h
    simp [h, h']

section
variable {s u : State} {x : Launch} {t : Nat} {ps : List (Nat × CoreId)} (placed : s.QuadPlaced u x t ps)
include placed

/-- A thread that was there is there as it was but for its monitor. -/
theorem State.QuadPlaced.kept {id : ThreadId} {y : Thread} (h : s.thread? id = some y) : ∃ z, u.thread? id = some z ∧ z.still = y.still := by
  have before := s.thread?_still id
  have after := u.thread?_still id
  rw [placed.cur, placed.others, List.find?_append] at after
  rw [h, Option.map_some] at before
  have same : (u.thread? id).map Thread.still = some y.still := by
    rw [after, before]
    by_cases hc : s.cur.still.id = id
    · rw [if_pos hc, if_pos hc]
    · rw [if_neg hc] at before ⊢
      rw [if_neg hc, ← before]
      rfl
  obtain ⟨z, hz, still⟩ := Option.map_eq_some_iff.1 same
  exact ⟨z, hz, still⟩

/-- A thread of a team that is placed stands at its start values, where no thread of its name was there. -/
theorem State.QuadPlaced.started {p : Nat × CoreId} (hp : p ∈ ps) {i : Nat} (hi : i < x.packet.crews * 32)
    (absent : s.thread? ⟨x.id, t + p.1, i⟩ = none) : u.thread? ⟨x.id, t + p.1, i⟩ = some (x.newThread (t + p.1) i) := by
  have before := s.thread?_still ⟨x.id, t + p.1, i⟩
  have after := u.thread?_still ⟨x.id, t + p.1, i⟩
  rw [absent, Option.map_none] at before
  rw [placed.cur, placed.others, List.find?_append] at after
  have notCur : ¬ s.cur.still.id = ⟨x.id, t + p.1, i⟩ := by
    intro e
    rw [if_pos e] at before
    cases before
  rw [if_neg notCur] at before after
  rw [← before, Option.none_or] at after
  have new : (ps.flatMap (fun p => (x.newThreads (t + p.1)).map Thread.still)).find? (fun y => y.id == ⟨x.id, t + p.1, i⟩) =
      some (x.newThread (t + p.1) i) := by
    have there : x.newThread (t + p.1) i ∈ ps.flatMap (fun p => (x.newThreads (t + p.1)).map Thread.still) := by
      rw [List.mem_flatMap]
      refine ⟨p, hp, List.mem_map.2 ⟨x.newThread (t + p.1) i, ?_, rfl⟩⟩
      exact List.mem_map.2 ⟨i, List.mem_range.2 hi, rfl⟩
    cases hf : (ps.flatMap (fun p => (x.newThreads (t + p.1)).map Thread.still)).find? (fun y => y.id == ⟨x.id, t + p.1, i⟩) with
    | none => exact absurd (List.find?_eq_none.1 hf _ there) (by simp [Launch.newThread, Thread.start])
    | some y =>
      have name : y.id = ⟨x.id, t + p.1, i⟩ := by simpa using List.find?_some hf
      obtain ⟨q, -, hy⟩ := List.mem_flatMap.1 (List.mem_of_find?_eq_some hf)
      obtain ⟨w, hw, rfl⟩ := List.mem_map.1 hy
      obtain ⟨j, -, rfl⟩ := List.mem_map.1 hw
      have name : (⟨x.id, t + q.1, j⟩ : ThreadId) = ⟨x.id, t + p.1, i⟩ := name
      obtain ⟨-, e, rfl⟩ := ThreadId.mk.injEq .. ▸ name
      rw [e]
      rfl
  rw [new] at after
  obtain ⟨z, hz, still⟩ := Option.map_eq_some_iff.1 after
  rw [hz, Thread.still_unwatched (x := x.newThread (t + p.1) i) still rfl]

end

/-! ## A launch -/

theorem State.placeNext_eq {s : State} {x : Launch} {t : Nat} {ts : List Nat} (pending : s.pendingTeams x.id = t :: ts) (v : Vf) (spread : Bool) :
    s.placeNext v x spread = (s.chooseCores v x x.packet.qsize spread (fun _ => true)).map (fun ks =>
      s.placeQuad x t ((List.range ks.length).zip ks)) := by
  unfold State.placeNext
  rw [pending]
  rfl

/-- A grid placed whole leaves no team pending (R132). -/
theorem State.placeGrid_whole {s t : State} {v : Vf} {x : Launch} {spread : Bool} {n : Nat} (h : s.placeGrid v x spread n = some t) :
    t.pendingTeams x.id = [] := by
  induction n generalizing s with
  | zero =>
    unfold State.placeGrid at h
    split at h
    · cases h
      exact List.isEmpty_iff.1 ‹_›
    · cases h
  | succ n ih =>
    unfold State.placeGrid at h
    split at h
    · cases h
      exact List.isEmpty_iff.1 ‹_›
    · obtain ⟨u, -, hu⟩ := Option.bind_eq_some_iff.1 h
      exact ih hu

/-- TEAM_PLACEMENT of a launch that may not place: not in its stage, killed or stopped (R129, R132). -/
theorem teamPlacement_idle {s : State} {x : Launch} {v : Vf} (hx : s.launch? x.id = some x) (hv : s.vf? x.vf = some v)
    (h : x.stage ≠ 1 ∨ x.kill.isSome = true ∨ v.migctl ≠ 0) : exec (.teamPlacement x.id) s = .next s := by
  have stop : (!x.places || v.migctl != 0) = true := by
    rcases h with h | h | h
    · simp [Launch.places, h]
    · cases hk : x.kill with
      | none => simp [hk] at h
      | some _ => simp [Launch.places, hk]
    · simp [h]
  simp only [exec_teamPlacement, execTeamPlacement, hx, hv, stop, Bool.true_or, if_true]

/-- TEAM_PLACEMENT of a launch whose turn it is. -/
theorem teamPlacement_turn {s : State} {x : Launch} {v : Vf} (hx : s.launch? x.id = some x) (hv : s.vf? x.vf = some v) (stage : x.stage = 1)
    (kill : x.kill = none) (mig : v.migctl = 0) (back : ∀ t ∈ s.teams, t.launch = x.id → s.mayReturn t = false)
    (first : ∀ y ∈ s.launches, y.before x = true → s.holdsBack y = false) :
    exec (.teamPlacement x.id) s = .next ((s.placeSome v x).getD s) := by
  have places : x.places = true := by simp [Launch.places, stage, kill]
  have returns : s.teams.any (fun t => t.launch == x.id && s.mayReturn t) = false := by
    rw [List.any_eq_false]
    intro t ht h
    rw [Bool.and_eq_true, beq_iff_eq] at h
    simp [back t ht h.1] at h
  have held : s.launches.any (fun y => y.before x && s.holdsBack y) = false := by
    rw [List.any_eq_false]
    intro y hy h
    rw [Bool.and_eq_true] at h
    simp [first y hy h.1] at h
  simp only [exec_teamPlacement, execTeamPlacement, hx, hv, places, mig, returns, held, Bool.not_true, bne_self_eq_false, Bool.or_self,
    Bool.false_eq_true, if_false]

theorem State.placeSome_resident {s : State} {x : Launch} {v : Vf} (resident : x.packet.resident = true) :
    ((s.placeGrid v x false x.packet.grid).isSome = true ∨ (s.placeGrid v x true x.packet.grid).isSome = true →
      ((s.placeSome v x).getD s).pendingTeams x.id = []) ∧
    (¬ (s.placeGrid v x false x.packet.grid).isSome = true → ¬ (s.placeGrid v x true x.packet.grid).isSome = true →
      (s.placeSome v x).getD s = s) := by
  have grid : s.placeSome v x = match s.placeGrid v x false x.packet.grid with
      | some s => some s
      | none => s.placeGrid v x true x.packet.grid := by
    unfold State.placeSome
    rw [resident]
    rfl
  rw [grid]
  cases tight : s.placeGrid v x false x.packet.grid with
  | some t => exact ⟨fun _ => State.placeGrid_whole tight, fun h => absurd rfl h⟩
  | none =>
    cases spread : s.placeGrid v x true x.packet.grid with
    | some t => exact ⟨fun _ => State.placeGrid_whole spread, fun _ h => absurd rfl h⟩
    | none => exact ⟨by simp, fun _ _ => rfl⟩

theorem State.placeSome_quad {s : State} {x : Launch} (v : Vf) (single : x.packet.resident = false) {t : Nat} {ts : List Nat}
    (pending : s.pendingTeams x.id = t :: ts) :
    s.placeSome v x = (s.chooseCores v x x.packet.qsize false (fun _ => true)).map (fun ks => s.placeQuad x t ((List.range ks.length).zip ks)) := by
  rw [← State.placeNext_eq pending]
  simp [State.placeSome, single]

/-- The ranks and cores of a quad team. -/
theorem mem_ranks {ks : List CoreId} {p : Nat × CoreId} : p ∈ (List.range ks.length).zip ks ↔ ks[p.1]? = some p.2 := by
  rw [List.mem_iff_getElem?]
  constructor
  · rintro ⟨i, hi⟩
    obtain ⟨h, hk⟩ := List.getElem?_zip_eq_some.1 hi
    have : i = p.1 := by
      rw [List.getElem?_range (List.getElem?_eq_some_iff.1 hk).1] at h
      exact Option.some.inj h
    rw [← this]
    exact hk
  · intro h
    refine ⟨p.1, List.getElem?_zip_eq_some.2 ⟨List.getElem?_range (List.getElem?_eq_some_iff.1 h).1, h⟩⟩

theorem ranks_nodup (ks : List CoreId) : (((List.range ks.length).zip ks).map (fun p => p.1)).Nodup := by
  rw [show (fun p : Nat × CoreId => p.1) = Prod.fst from rfl, List.map_fst_zip (by simp)]
  exact List.nodup_range

/-- What placing a quad team puts on its cores, and that it leaves every thread. -/
theorem State.placeQuad_stands {s : State} {x : Launch} {t : Nat} {ks : List CoreId} (found : ∀ i < ks.length, ∃ z, s.team? x.id (t + i) = some z)
    (absent : ∀ r < ks.length, ∀ i, s.thread? ⟨x.id, t + r, i⟩ = none) :
    let u := s.placeQuad x t ((List.range ks.length).zip ks)
    (∀ r k, ks[r]? = some k → (u.core k).carve = x.packet.carve ∧
      (∃ z, u.team? x.id (t + r) = some z ∧ z.core = k ∧ (z.st = .resident ∨ z.st = .pinning) ∧ z.scratch = []) ∧
      ∀ i < x.packet.crews * 32, u.thread? ⟨x.id, t + r, i⟩ = some (x.newThread (t + r) i)) ∧
    ∀ id y, s.thread? id = some y → ∃ z, u.thread? id = some z ∧ z.regs = y.regs ∧ z.pc = y.pc ∧ z.phase = y.phase := by
  have rank {p : Nat × CoreId} (hp : p ∈ (List.range ks.length).zip ks) : p.1 < ks.length := (List.getElem?_eq_some_iff.1 (mem_ranks.1 hp)).1
  have placed := State.placeQuad_placed (s := s) (x := x) (t := t) (ranks_nodup ks) (fun p hp => found p.1 (rank hp))
  refine ⟨fun r k hk => ?_, fun id y hy => ?_⟩
  · have hp : (r, k) ∈ (List.range ks.length).zip ks := mem_ranks.2 hk
    exact ⟨placed.carve _ hp, placed.own _ hp, fun i hi => placed.started hp hi (absent r (rank hp) i)⟩
  · obtain ⟨z, hz, still⟩ := placed.kept hy
    exact ⟨z, hz, (congrArg Thread.regs still :), (congrArg Thread.pc still :), (congrArg Thread.phase still :)⟩

theorem quadOf_filter_length (p : CoreId → Bool) (d j : Nat) :
    ((Machine.quadOf d j).filter p).length = ((List.range 4).filter (fun i => p ⟨d, 4 * j + i⟩)).length := by
  unfold Machine.quadOf
  rw [List.filter_map, List.length_map]
  rfl

/-- Settles O40: the choice takes the first of the best offers, and placing a quad team or a whole grid places one team after another. -/
theorem teamsArePlacedWhereTheyFit : Obligations.TeamsArePlacedWhereTheyFit := by
  unfold Obligations.TeamsArePlacedWhereTheyFit
  refine ⟨fun s v x => ?_, fun s x v m hx hv => ?_⟩
  · intro p on frames inPart admits same choose
    refine ⟨fun k => ?_, fun k => ?_, ?_, fun k => ?_, fun n pos four => ⟨?_, fun ks hks => ?_⟩⟩
    · have sums (f : Packet → Nat) : s.sumOn k f = on k f := s.sumOn_eq k f
      have regs := sums Packet.teamRegs
      have threads := sums Packet.teamThreads
      have slots := sums Packet.teamSlots
      exact (s.coreAdmits_iff v x k).trans (by rw [regs, threads, slots]; rfl)
    · have need : s.pinNeed k x = ((x.image.pinned.filter (fun g => s.segState k x.vf x.image.coid g == .absent)).map
          (fun g => (((x.image.segLen g).getD 0) + 4095) / 4096)).sum := foldl_add_eq_sum _
      have held := (s.core k).framesHeld_eq x.vf
      exact (s.pinOk_iff k x).trans (by rw [need, held])
    · refine (s.chooseCores_one_none v x).trans ?_
      rfl
    · refine (s.chooseCores_one_iff v x k).trans ?_
      simp only [State.inPlay, s.noWorse_iff, inPart, admits, same, and_assoc, and_imp]
      rfl
    · refine (s.chooseCores_none v x pos).trans ?_
      simp only [quadOf_filter_length]
    · exact s.chooseCores_quad v x hks
  · refine ⟨teamPlacement_idle hx hv, fun stage kill mig back first => ⟨fun resident => ?_, fun single pending => ?_⟩⟩
    · intro fits
      obtain ⟨whole, none_⟩ := State.placeSome_resident (s := s) (v := v) resident
      exact ⟨_, teamPlacement_turn hx hv stage kill mig back first, none_, whole⟩
    · obtain ⟨ts, pending⟩ := pending
      intro choice
      have turn := teamPlacement_turn hx hv stage kill mig back first
      rw [State.placeSome_quad v single pending] at turn
      refine ⟨fun none_ => ?_, fun ks some_ _ found absent => ⟨_, turn, ?_⟩⟩
      · have : s.chooseCores v x x.packet.qsize false (fun _ => true) = none := none_
        rw [this] at turn
        exact turn
      · have : s.chooseCores v x x.packet.qsize false (fun _ => true) = some ks := some_
        rw [this]
        exact State.placeQuad_stands found absent

end Sys2Proof.Machine
end


section
/-! SUPPORT. A global access of the thread in turn that passes its checks (R77, R80, R168, R185). -/

namespace Sys2Proof.Machine

/-! ## Checks and routes -/

theorem State.checkGlobal_of_grants {s : State} {va n cap det : Nat} {k : AccKind} {hostOk : Bool} {v : Vf} {e : TlbEntry}
    (h : s.grants va n k hostOk v e) (hdet : det = 0 ∨ s.pk.det = false) :
    s.checkGlobal va n cap k hostOk det = .ok (s.target v e va cap) := by
  obtain ⟨vf, watch, held, reads, writes, host, valid⟩ := h
  have unwatched : (if s.cur.debugPass.contains va then none else v.watched va n k.writes) = none := by
    rcases watch with pass | none_
    · rw [pass]
      rfl
    · rw [none_, ite_self]
  have allowed : ¬ (det ≠ 0 ∧ s.pk.det = true) := by
    rintro ⟨h, h'⟩
    rcases hdet with e | e
    · exact h e
    · simp [e] at h'
  have permitted : ((k.reads && !e.r) || (k.writes && !e.w)) = false := by
    rw [Bool.or_eq_false_iff]
    constructor
    · cases hr : k.reads with
      | false => rfl
      | true => simp [reads hr]
    · cases hw : k.writes with
      | false => rfl
      | true => simp [(writes hw).1]
  have hosted : (e.host && !hostOk) = false := by
    cases hh : e.host with
    | false => rfl
    | true => simp [host hh]
  have named : (!e.host && !s.validPa (e.pa + (va - e.va))) = false := by
    cases hh : e.host with
    | true => rfl
    | false => simp [valid hh]
  have dirty : (k.writes && !e.d) = false := by
    cases hw : k.writes with
    | false => rfl
    | true => simp [(writes hw).2]
  unfold State.checkGlobal
  rw [vf]
  dsimp only
  rw [unwatched]
  dsimp only
  rw [if_neg allowed, held]
  dsimp only
  rw [permitted, hosted, named, dirty]
  rfl

/-- A team that has stashed nothing goes to memory. -/
theorem State.routeOf_unstashed {s : State} {l t : Nat} (h : ∀ m, s.team? l t = some m → m.stash = []) (g : GAddr) (va : Nat) :
    s.routeOf l t g va = .mem s := by
  unfold State.routeOf
  split
  · rfl
  · have own : s.ownStash l t g.pa = none := by
      unfold State.ownStash
      cases found : s.team? l t with
      | none => rfl
      | some m => simp [h m found]
    rw [own]
    dsimp only
    cases found : s.team? l t with
    | none => rfl
    | some m =>
      have none_ : m.stashVa va = none := by simp [Team.stashVa, h m found]
      simp [none_]

theorem State.route_unstashed {s : State} (h : s.unstashed) (g : GAddr) (va : Nat) : s.route g va = .mem s := by
  obtain ⟨m, found, stash⟩ := h
  refine State.routeOf_unstashed (fun m' found' => ?_) g va
  rw [found] at found'
  cases found'
  exact stash

theorem aperture_glob {p : Packet} {ea : DWord} {n : Nat} (h : ea.toNat < 2 ^ 48) : aperture p ea n = .glob ea.toNat := by
  unfold aperture
  dsimp only
  rw [if_pos h]

theorem polCap_eq_capOf (pol : BitVec 2) : polCap pol = capOf pol := by
  unfold polCap
  simp only [beq_iff_eq]

/-! ## The words -/

section
variable {s : State} {sp : Bool} {pol : BitVec 2} {d a : Reg} {o : BitVec 8} {v : Vf} {e : TlbEntry} {i : Instr} {n w : Nat}

/-- A load that passes its checks goes to memory. -/
theorem load_global {sgn : Bool} (mem : (i, n, w, sgn) ∈ loads sp pol d a o) (issues : s.issuesLong sp) (fd : s.fits d w) (fa : s.fits a 2)
    (low : (s.ea a o n).toNat < 2 ^ 48) (aligned : (s.ea a o n).toNat % n = 0) (grants : s.grants (s.ea a o n).toNat n .load true v e)
    (ordered : s.unordered (s.target v e (s.ea a o n).toNat (capOf pol)).pa n = false)
    (route : s.route (s.target v e (s.ea a o n).toNat (capOf pol)) (s.ea a o n).toNat = .mem s)
    (room : s.missFull s.curCore (s.target v e (s.ea a o n).toNat (capOf pol)) n = false) :
    exec i s = .next (s.loadGlobal (s.target v e (s.ea a o n).toNat (capOf pol)) n sgn d w).advance := by
  rw [loads_exec mem, load, issue_long issues (beyond_of_fits_two fd fa)]
  refine congrArg _ ?_
  have check := State.checkGlobal_of_grants (cap := capOf pol) grants (Or.inl rfl)
  unfold State.loadThread
  rw [show effAddr (s.cur.p a) o n = s.ea a o n from rfl, if_neg (fun h => h aligned), aperture_glob low, polCap_eq_capOf]
  dsimp only
  rw [check]
  dsimp only
  rw [ordered, route]
  dsimp only
  rw [room]
  rfl

/-- A store that passes its checks goes to memory. -/
theorem store_global (mem : (i, n, w) ∈ stores sp pol d a o) (issues : s.issues sp) (fd : s.fits d w) (fa : s.fits a 2)
    (low : (s.ea a o n).toNat < 2 ^ 48) (aligned : (s.ea a o n).toNat % n = 0) (grants : s.grants (s.ea a o n).toNat n .store true v e)
    (ordered : s.unordered (s.target v e (s.ea a o n).toNat (capOf pol)).pa n = false)
    (route : s.route (s.target v e (s.ea a o n).toNat (capOf pol)) (s.ea a o n).toNat = .mem s) :
    exec i s = .next (s.storeGlobal (s.target v e (s.ea a o n).toNat (capOf pol)) (stored n s.cur d)).advance := by
  obtain ⟨exec_, size⟩ := stores_exec mem s
  rw [exec_, store, issue_short issues (beyond_of_fits_two fd fa), bytesOf_words_eq_stored size]
  refine congrArg _ ?_
  have check := State.checkGlobal_of_grants (cap := capOf pol) grants (Or.inl rfl)
  unfold State.storeThread
  dsimp only
  rw [stored_length, show effAddr (s.cur.p a) o n = s.ea a o n from rfl, if_neg (fun h => h aligned), aperture_glob low, polCap_eq_capOf]
  dsimp only
  rw [check]
  dsimp only
  rw [ordered, route]
  rfl

end

/-! ## What a load and a store leave -/

theorem State.loadAllocate_frame (s : State) (k : CoreId) (g : GAddr) (n : Nat) (crew : CrewId) :
    (s.loadAllocate k g n crew).frame = s.frame := by
  unfold State.loadAllocate
  split
  · simp
  · split
    · simp
    · dsimp only
      (repeat' split) <;> simp

/-- The state in which a load looks for its bytes: its entry stands, its line is touched, and what is older is written back (R22, R172). -/
def State.loadFrom (s : State) (g : GAddr) (n : Nat) (d : Reg) (w : Nat) : State :=
  let s' := (s.enqueue d w).touchLine (crewOf s.cur.id) (lineOf g.pa)
  if g.checked then s'.writeBackRange s.curCore g n true else s'.stashFlush (lineOf g.pa) false

theorem State.loadGlobal_eq (s : State) (g : GAddr) (n : Nat) (sgn : Bool) (d : Reg) (w : Nat) : s.loadGlobal g n sgn d w =
    if ((s.loadFrom g n d w).loadBytes s.curCore g n).all Option.isSome then
      ((s.loadFrom g n d w).loadAllocate s.curCore g n (crewOf s.cur.id)).reply s.nextId (s.loadFrom g n d w).cur.id
        (loadWords n sgn (((s.loadFrom g n d w).loadBytes s.curCore g n).filterMap (fun b => b)))
    else (s.loadFrom g n d w).request s.nextId (.load g (loadSource s.curCore.die g).2 n sgn
      (((List.range n).zip ((s.loadFrom g n d w).loadBytes s.curCore g n)).filterMap (fun x => x.2.map (fun b => (x.1, b))))) false := rfl

/-- The entry a load leaves in its thread's queue. -/
def State.entryFor (s : State) (d : Reg) (w : Nat) : QEntry := ⟨s.nextId, s.cur.idx d, w, .awaiting, []⟩

theorem State.loadFrom_frame (s : State) (g : GAddr) (n : Nat) (d : Reg) (w : Nat) : (s.loadFrom g n d w).frame = (s.enqueue d w).frame := by
  unfold State.loadFrom
  dsimp only
  split <;> simp

theorem State.alike_of_enqueue {s t : State} {d : Reg} {w : Nat} (h : t.frame = (s.enqueue d w).frame) :
    s.alike t (s.cur.queue ++ [s.entryFor d w]) := by
  have start : s.alike (s.enqueue d w) (s.cur.queue ++ [s.entryFor d w]) := ⟨rfl, rfl⟩
  exact State.alike_trans start (State.alike_of_frame h)

/-- The threads after a load: its own has one more entry. -/
theorem State.loadGlobal_alike (s : State) (g : GAddr) (n : Nat) (sgn : Bool) (d : Reg) (w : Nat) :
    s.alike (s.loadGlobal g n sgn d w) (s.cur.queue ++ [s.entryFor d w]) := by
  rw [State.loadGlobal_eq]
  split
  · have allocated := State.alike_of_enqueue (((s.loadFrom g n d w).loadAllocate_frame s.curCore g n (crewOf s.cur.id)).trans (s.loadFrom_frame g n d w))
    exact ⟨allocated.1, allocated.2⟩
  · have asked := State.alike_of_enqueue (s.loadFrom_frame g n d w)
    exact ⟨asked.1, asked.2⟩

theorem State.cur_id_of_alike {s t : State} {q : List QEntry} (h : s.alike t q) : t.cur.id = s.cur.id := State.alike_cur h Thread.id (fun _ => rfl)

theorem State.advance_rest (s : State) : s.sameRest s.advance := s.advance_calm.1

theorem State.advance_sameParts (s : State) : s.advance.replies = s.replies ∧ s.advance.requests = s.requests ∧ s.advance.mem = s.mem ∧
    s.advance.cores = s.cores ∧ s.advance.dies = s.dies := by
  obtain ⟨-, -, -, cores, dies, -, mem, requests, replies, -⟩ := s.advance_rest
  exact ⟨replies, requests, mem, cores, dies⟩

theorem State.advance_replies (s : State) : s.advance.replies = s.replies := s.advance_sameParts.1
theorem State.advance_requests (s : State) : s.advance.requests = s.requests := s.advance_sameParts.2.1
theorem State.advance_mem (s : State) : s.advance.mem = s.mem := s.advance_sameParts.2.2.1
theorem State.advance_cores (s : State) : s.advance.cores = s.cores := s.advance_sameParts.2.2.2.1
theorem State.advance_dies (s : State) : s.advance.dies = s.dies := s.advance_sameParts.2.2.2.2

theorem State.advance_core (s : State) (k : CoreId) : s.advance.core k = s.core k := by simp only [State.core, s.advance_cores]

theorem State.loadAllocate_replies (s : State) (k : CoreId) (g : GAddr) (n : Nat) (crew : CrewId) :
    (s.loadAllocate k g n crew).replies = s.replies := congrArg (fun f => f.replies) (s.loadAllocate_frame k g n crew)

theorem State.loadFrom_replies (s : State) (g : GAddr) (n : Nat) (d : Reg) (w : Nat) : (s.loadFrom g n d w).replies = s.replies :=
  congrArg (fun f => f.replies) (s.loadFrom_frame g n d w)

/-- A load that its core and its die can serve has its reply on its way. -/
theorem State.loadGlobal_served {s : State} {g : GAddr} {n : Nat} {bs : List Byte} (sgn : Bool) {d : Reg} {w : Nat}
    (found : (s.loadFrom g n d w).loadBytes s.curCore g n = bs.map some) :
    (s.loadGlobal g n sgn d w).replies = s.replies ++ [⟨s.nextId, s.cur.id, Machine.loaded n sgn bs, false, 0⟩] ∧
      (s.loadGlobal g n sgn d w).mem = ((s.loadFrom g n d w).loadAllocate s.curCore g n (crewOf s.cur.id)).mem := by
  have id := State.cur_id_of_alike (State.alike_of_enqueue (s.loadFrom_frame g n d w))
  have all : ((s.loadFrom g n d w).loadBytes s.curCore g n).all Option.isSome = true := by rw [found]; simp
  rw [State.loadGlobal_eq, if_pos all, id, found]
  refine ⟨?_, rfl⟩
  rw [State.reply_replies, State.loadAllocate_replies, State.loadFrom_replies, List.filterMap_map, loadWords_eq_loaded]
  have : bs.filterMap ((fun b => b) ∘ some) = bs := List.filterMap_some
  rw [this]

/-- A load has one entry and its reply, or a request (R22). -/
theorem State.loadGlobal_answer (s : State) (g : GAddr) (n : Nat) (sgn : Bool) (d : Reg) (w : Nat) :
    (∃ x, (s.loadGlobal g n sgn d w).replies = s.replies ++ [⟨s.nextId, s.cur.id, x, false, 0⟩]) ∨
    ((s.loadGlobal g n sgn d w).replies = s.replies ∧ ∃ q ∈ (s.loadGlobal g n sgn d w).requests, q.id = s.nextId ∧ q.t = s.cur.id ∧
      ∃ src got, q.kind = .load g src n sgn got) := by
  by_cases all : ((s.loadFrom g n d w).loadBytes s.curCore g n).all Option.isSome = true
  · left
    refine ⟨loadWords n sgn (((s.loadFrom g n d w).loadBytes s.curCore g n).filterMap (fun b => b)), ?_⟩
    have id := State.cur_id_of_alike (State.alike_of_enqueue (s.loadFrom_frame g n d w))
    rw [State.loadGlobal_eq, if_pos all, id, State.reply_replies, State.loadAllocate_replies, State.loadFrom_replies]
  · right
    rw [State.loadGlobal_eq, if_neg all]
    have id := State.cur_id_of_alike (State.alike_of_enqueue (s.loadFrom_frame g n d w))
    refine ⟨s.loadFrom_replies g n d w, _, List.mem_append_right _ (List.mem_singleton.2 rfl), rfl, id, _, _, rfl⟩

theorem State.storeGlobal_frame (s : State) (g : GAddr) (bs : List Byte) : (s.storeGlobal g bs).frame = s.frame := by
  unfold State.storeGlobal
  dsimp only
  split
  · split <;> simp
  · (repeat' split) <;> simp

end Sys2Proof.Machine
end


section
/-! SUPPORT. Loads and stores of a line homed on the die of the core, or held in its L1 (R78 to R80, R168). -/

namespace Sys2Proof.Machine

/-! ## What does nothing where nothing is stashed or cached -/

theorem foldl_fixed {α : Type} {f : State → α → State} {items : List α} {s : State} (h : ∀ x ∈ items, f s x = s) : items.foldl f s = s := by
  induction items with
  | nil => rfl
  | cons x items ih =>
    rw [List.forall_mem_cons] at h
    rw [List.foldl_cons, h.1, ih h.2]

theorem State.stashOut_stashless {s : State} (h : ∀ m ∈ s.teams, m.stash = []) (line : Nat) (drop : Bool) (p : Team → Bool) :
    s.stashOut line drop p = s := by
  refine foldl_fixed (fun m hm => ?_)
  split
  · rfl
  · rw [h m hm]
    rfl

/-- Where no team has stashed anything there is nothing to write back (R172). -/
theorem State.stashFlush_stashless {s : State} (h : ∀ m ∈ s.teams, m.stash = []) (line : Nat) (write : Bool) : s.stashFlush line write = s := by
  unfold State.stashFlush
  dsimp only
  rw [State.stashOut_stashless h, State.stashOut_stashless h]

theorem State.touchLine_eq (s : State) (crew : CrewId) (line : Nat) : ∃ cs, s.touchLine crew line = { s with crews := cs } := by
  unfold State.touchLine
  split
  · split
    · exact ⟨_, rfl⟩
    · exact ⟨s.crews, rfl⟩
  · exact ⟨s.crews, rfl⟩

theorem State.l1Clean_absent {s : State} {k : CoreId} {line : Nat} (h : (s.core k).l1Line line = none) (p : Nat → Bool) : s.l1Clean k line p = s := by
  unfold State.l1Clean
  rw [h]

theorem State.sendLine_absent {s : State} {d line : Nat} (h : s.l2Line d line = none) (p : Nat → Bool) : s.sendLine d line p = s := by
  unfold State.sendLine
  rw [h]

/-- What is written back before an access beyond the L1, where nothing is cached or stashed (R346). -/
theorem State.writeBackRange_absent {s : State} {k : CoreId} {g : GAddr} (stashless : ∀ m ∈ s.teams, m.stash = [])
    (l1 : (s.core k).l1Line (lineOf g.pa) = none) (l2 : homeOf g.pa = k.die ∨ s.l2Line k.die (lineOf g.pa) = none) (n : Nat) (home : Bool) :
    s.writeBackRange k g n home = s := by
  unfold State.writeBackRange
  dsimp only
  rw [State.stashFlush_stashless stashless, State.l1Clean_absent l1]
  rcases l2 with here | none_
  · simp [here]
  · rw [State.sendLine_absent none_, ite_self]

/-- Nothing is older than memory: only the entry of the load stands, and the crew that has touched its line. -/
theorem State.loadFrom_eq {s : State} {g : GAddr} (stashless : ∀ m ∈ s.teams, m.stash = [])
    (clean : g.checked = true → (s.core s.curCore).l1Line (lineOf g.pa) = none ∧ homeOf g.pa = s.curCore.die) (n : Nat) (d : Reg) (w : Nat) :
    ∃ cs, s.loadFrom g n d w = { s.enqueue d w with crews := cs } := by
  obtain ⟨cs, hcs⟩ := (s.enqueue d w).touchLine_eq (crewOf s.cur.id) (lineOf g.pa)
  refine ⟨cs, ?_⟩
  unfold State.loadFrom
  dsimp only
  rw [hcs]
  split
  · rename_i checked
    obtain ⟨l1, here⟩ := clean checked
    exact State.writeBackRange_absent (s := { s.enqueue d w with crews := cs }) stashless l1 (Or.inl here) n true
  · exact State.stashFlush_stashless (s := { s.enqueue d w with crews := cs }) stashless _ _

/-! ## What a load finds -/

theorem State.loadBytes_home {s : State} {k : CoreId} {g : GAddr} (l1 : (s.core k).l1Line (lineOf g.pa) = none) (repl : g.repl = false)
    (here : homeOf g.pa = k.die) (n : Nat) : s.loadBytes k g n = ((List.range n).map (fun i => s.mem.get (g.pa + i))).map some := by
  unfold State.loadBytes
  rw [l1, List.map_map]
  refine List.map_congr_left (fun i _ => ?_)
  have read : s.readDie k.die g i = some (s.mem.get (g.pa + i)) := by simp [State.readDie, serveOf, repl, here]
  simp [read, here]

theorem State.loadBytes_held {s : State} {k : CoreId} {g : GAddr} {ln : L1Line} (l1 : (s.core k).l1Line (lineOf g.pa) = some ln)
    (unchecked : g.checked = false) {n : Nat} (held : ∀ i < n, (byteAt ln.bytes (g.pa % 128 + i)).isSome = true) :
    s.loadBytes k g n = ((List.range n).map (fun i => ((byteAt ln.bytes (g.pa % 128 + i)).map (fun b => b.val)).getD 0)).map some := by
  have all : (List.range n).all (fun i => (byteAt ln.bytes (g.pa % 128 + i)).isSome) = true := by
    simpa using held
  unfold State.loadBytes
  rw [l1, List.map_map]
  refine List.map_congr_left (fun i hi => ?_)
  obtain ⟨b, hb⟩ := Option.isSome_iff_exists.1 (held i (List.mem_range.1 hi))
  simp only [unchecked, Bool.false_eq_true, if_false, Option.bind_some, all, hb, Bool.true_or, if_true, Function.comp_apply, Option.map_some,
    Option.getD_some]

theorem State.l1Hit_absent {s : State} {k : CoreId} {g : GAddr} (l1 : (s.core k).l1Line (lineOf g.pa) = none) (n : Nat) : s.l1Hit k g n = false := by
  unfold State.l1Hit
  rw [l1]
  exact Bool.and_false _

/-- An uncached load of a line that the L1 does not hold leaves memory (R80). -/
theorem State.loadAllocate_uncached {s : State} {k : CoreId} {g : GAddr} (l1 : (s.core k).l1Line (lineOf g.pa) = none) (uncached : g.cache = 0)
    (n : Nat) (crew : CrewId) : (s.loadAllocate k g n crew).mem = s.mem := by
  unfold State.loadAllocate
  rw [State.l1Hit_absent l1, uncached]
  split
  · exact ((State.countRead_quiet s g).trans (State.consumeAt_quiet _ _ _ _ _)).2.2
  · exact (State.consumeAt_quiet s _ _ _ _).2.2

/-- A load that the L1 serves leaves memory (R168). -/
theorem State.loadAllocate_held {s : State} {k : CoreId} {g : GAddr} {ln : L1Line} (l1 : (s.core k).l1Line (lineOf g.pa) = some ln)
    (unchecked : g.checked = false) {n : Nat} (held : ∀ i < n, (byteAt ln.bytes (g.pa % 128 + i)).isSome = true) (crew : CrewId) :
    (s.loadAllocate k g n crew).mem = s.mem := by
  have hit : s.l1Hit k g n = true := by
    unfold State.l1Hit
    rw [l1, unchecked]
    simpa using held
  have marked : (s.l1Alloc k g crew).mem = s.mem := by
    unfold State.l1Alloc
    dsimp only
    rw [l1]
    rfl
  unfold State.loadAllocate
  rw [unchecked, hit]
  exact (State.consumeL1_quiet _ _ _ _ _).2.2.trans marked

/-! ## What a write at a home leaves in memory -/

theorem homeOf_line (g : GAddr) : homeOf g.line.pa = homeOf g.pa := by
  unfold GAddr.line homeOf lineOf
  dsimp only
  have page : g.pa / 128 * 128 / 2 ^ 48 = g.pa / 2 ^ 48 := by omega
  have die : g.pa / 128 * 128 / 2 ^ 43 = g.pa / 2 ^ 43 := by omega
  have frame : g.pa / 128 * 128 % 2 ^ 48 / 4096 = g.pa % 2 ^ 48 / 4096 := by omega
  rw [page, die, frame]

theorem State.storeAt_mem (s : State) (g : GAddr) (bs : List (Nat × Byte)) : (s.storeAt g bs).mem = s.mem.putAt g.pa bs := by
  unfold State.storeAt
  split
  · rfl
  · dsimp only
    refine (foldl_mem (fun s (b : Nat × Byte) => s.mapThreads (Thread.watchWrite (g.pa + b.1) 1)) _ _ (fun _ _ => rfl)).trans ?_
    have logged := (State.logWrite_quiet s g.launch g.pa).2.2
    exact congrArg (fun m => Memory.putAt m g.pa _) logged

theorem State.ticketFilter_free {s : State} {g : GAddr} (det : g.det = false) (bs : List (Nat × Byte)) : s.ticketFilter g bs = (s, bs) := by
  unfold State.ticketFilter
  rw [det]
  rfl

/-- A write of a launch without DET stores all its bytes at the home (R314). -/
theorem State.homeWrite_mem {g : GAddr} (det : g.det = false) (s : State) (bs : List (Nat × Byte)) (tag : Option (Nat × List Nat)) :
    (s.homeWrite g bs tag).mem = s.mem.putAt g.pa bs := by
  have stored : ((s.countWrite g).storeAt g bs).mem = s.mem.putAt g.pa bs := by
    rw [State.storeAt_mem, (State.countWrite_quiet s g).2.2]
  unfold State.homeWrite
  dsimp only
  rw [State.ticketFilter_free det]
  dsimp only
  split
  · exact stored
  · split
    · exact (State.forward_quiet _ _ _ _ _).2.2.trans stored
    · split
      · exact stored
      · exact ((State.number_quiet _ _).trans (State.forward_quiet _ _ _ _ _)).2.2.trans stored

theorem Memory.putAt_congr (m : Memory) {a b : Nat} {xs ys : List (Nat × Byte)}
    (h : xs.map (fun x => (a + x.1, x.2)) = ys.map (fun y => (b + y.1, y.2))) : m.putAt a xs = m.putAt b ys := by
  induction xs generalizing m ys with
  | nil =>
    cases ys with
    | nil => rfl
    | cons y ys => cases h
  | cons x xs ih =>
    cases ys with
    | nil => cases h
    | cons y ys =>
      simp only [List.map_cons, List.cons.injEq, Prod.mk.injEq] at h
      obtain ⟨⟨at_, val⟩, rest⟩ := h
      rw [Memory.putAt, Memory.putAt, at_, val]
      exact ih _ rest

/-- Bytes numbered from an offset are those written upward from there. -/
theorem Memory.putAt_range (m : Memory) (a i : Nat) (bs : List Byte) :
    m.putAt a ((List.range' i bs.length).zip bs) = m.putN (a + i) bs := by
  induction bs generalizing m i with
  | nil => rfl
  | cons b bs ih =>
    rw [List.length_cons, List.range'_succ, List.zip_cons_cons, Memory.putAt, Memory.putN]
    exact ih _ _

/-- The bytes of an access, by offset in its line, written at the line. -/
theorem Memory.putAt_line (m : Memory) (g : GAddr) (bs : List Byte) : m.putAt g.line.pa (inLine g (numbered bs)) = m.putN g.pa bs := by
  have start : m.putAt g.pa (numbered bs) = m.putN g.pa bs := by
    rw [numbered, List.range_eq_range']
    exact Memory.putAt_range m g.pa 0 bs
  rw [← start]
  refine Memory.putAt_congr m ?_
  unfold inLine
  rw [List.map_map]
  refine List.map_congr_left (fun x _ => ?_)
  have whole : g.line.pa + (x.1 + g.pa % 128) = g.pa + x.1 := by
    unfold GAddr.line lineOf
    dsimp only
    omega
  simp [whole]

/-- An uncached store of a die's own line stands in memory (R79, R294). -/
theorem State.storeGlobal_home {s : State} {g : GAddr} (stashless : ∀ m ∈ s.teams, m.stash = []) (unchecked : g.checked = false) (det : g.det = false)
    (uncached : g.cache = 0) (here : homeOf g.pa = s.curCore.die) (l1 : (s.core s.curCore).l1Line (lineOf g.pa) = none) (bs : List Byte) :
    (s.storeGlobal g bs).mem = s.mem.putN g.pa bs := by
  obtain ⟨cs, hcs⟩ := s.touchLine_eq (crewOf s.cur.id) (lineOf g.pa)
  have l1' : (({ s with crews := cs } : State).core s.curCore).l1Line (lineOf g.pa) = none := l1
  unfold State.storeGlobal
  dsimp only
  rw [hcs, unchecked, uncached, l1']
  simp only [Bool.false_eq_true, if_false, Option.isSome_none]
  rw [if_neg (by omega)]
  unfold State.dieStore
  rw [State.stashFlush_stashless (s := { s with crews := cs }) stashless]
  unfold State.dieWrite
  dsimp only
  rw [homeOf_line, if_pos here, if_pos (show g.line.cache = 0 from uncached), State.homeWrite_mem (g := g.line) det, Memory.putAt_line]

/-! ## A line of the L1 -/

theorem Core.l1Line_line {c : Core} {line : Nat} {x : L1Line} (h : c.l1Line line = some x) : x.line = line := by
  simpa using List.find?_some h

theorem State.setL1_core (s : State) (k : CoreId) (x : L1Line) :
    (s.setL1 k x).core k = { s.core k with l1 := upsert (fun l => l.line == x.line) x (s.core k).l1 } := by
  unfold State.setL1
  rw [State.setCore_core]
  exact if_pos (s.core_id k).symm

theorem State.setL1_l1Line (s : State) (k : CoreId) (x : L1Line) : ((s.setL1 k x).core k).l1Line x.line = some x := by
  rw [State.setL1_core]
  unfold Core.l1Line
  rw [find?_upsert (fun l : L1Line => l.line), if_pos rfl]

theorem lruOf_isSome {α : Type} (used way : α → Nat) {l : List α} (h : l ≠ []) : ∃ v, lruOf used way l = some v := by
  cases l with
  | nil => exact absurd rfl h
  | cons x xs =>
    rw [lruOf]
    split
    · exact ⟨_, rfl⟩
    · split <;> exact ⟨_, rfl⟩

/-- A core whose carve leaves its L1 a way has a line there once it is allocated (R167). -/
theorem State.l1Alloc_found {s : State} {k : CoreId} (ways : (s.core k).carve + 16 ≤ 320) (g : GAddr) (crew : CrewId) :
    ∃ ln, ((s.l1Alloc k g crew).core k).l1Line (lineOf g.pa) = some ln := by
  unfold State.l1Alloc
  dsimp only
  split
  · rename_i l found
    refine ⟨{ l with used := s.cycle, crew := crew }, ?_⟩
    rw [← Core.l1Line_line found]
    exact s.setL1_l1Line k { l with used := s.cycle, crew := crew }
  · have carve : ((s.lostLocality k crew (lineOf g.pa)).core k).carve = (s.core k).carve :=
      (congrArg (fun f => (f.core k).carve) (s.lostLocality_frame k crew (lineOf g.pa)) :)
    generalize s.lostLocality k crew (lineOf g.pa) = b at carve ⊢
    have new (t : State) (w : Nat) : ∃ ln, ((t.setL1 k ⟨lineOf g.pa, g.line, w, b.cycle, crew, b.cycle, []⟩).core k).l1Line (lineOf g.pa) = some ln :=
      ⟨_, t.setL1_l1Line k ⟨lineOf g.pa, g.line, w, b.cycle, crew, b.cycle, []⟩⟩
    split
    · exact new b _
    · rename_i full
      have some_ : 0 ∈ List.range (carveLines (b.core k).carve / 128) := by
        rw [List.mem_range, carve]
        unfold carveLines
        omega
      have taken := List.find?_eq_none.1 full 0 some_
      obtain ⟨v, hv⟩ := lruOf_isSome (fun l : L1Line => l.used) (fun l => l.way)
        (l := (b.core k).l1.filter (fun l => l.line % 128 == lineOf g.pa % 128)) (by
          intro empty
          rw [empty] at taken
          simp at taken)
      rw [hv]
      exact new _ _

theorem byteAt_setByte (bs : List CByte) (off : Nat) (v : Byte) (dirty : Bool) (o : Nat) :
    byteAt (setByte bs off v dirty) o = if o = off then some ⟨off, v, dirty⟩ else byteAt bs o :=
  find?_upsert (fun b : CByte => b.off) ⟨off, v, dirty⟩ bs o

/-- Bytes set one after another at an access's offsets stand there. -/
theorem byteAt_setBytes (bs : List CByte) (base i : Nat) (new : List Byte) (o : Nat) :
    byteAt (setBytes bs (((List.range' i new.length).zip new).map (fun b => (b.1 + base, b.2))) true) o =
      if base + i ≤ o ∧ o < base + i + new.length then (new[o - (base + i)]?).map (fun v => ⟨o, v, true⟩) else byteAt bs o := by
  induction new generalizing bs i with
  | nil =>
    have : ¬ (base + i ≤ o ∧ o < base + i + 0) := by omega
    simp only [List.length_nil, this, if_false]
    rfl
  | cons v new ih =>
    have step := ih (setByte bs (i + base) v true) (i + 1)
    rw [List.length_cons, List.range'_succ, List.zip_cons_cons, List.map_cons]
    refine (step.trans ?_)
    rw [byteAt_setByte]
    by_cases here : o = base + i
    · subst here
      rw [if_neg (by omega), if_pos (by omega), if_pos (by omega)]
      simp [Nat.add_comm]
    · by_cases inside : base + i ≤ o ∧ o < base + i + (new.length + 1)
      · obtain ⟨j, rfl⟩ : ∃ j, o = base + i + (j + 1) := ⟨o - (base + i) - 1, by omega⟩
        rw [if_pos (by omega), if_pos inside]
        simp [show base + i + (j + 1) - (base + (i + 1)) = j by omega]
      · rw [if_neg (by omega), if_neg (by omega), if_neg inside]

theorem inLine_eq (g : GAddr) (bs : List Byte) :
    inLine g (numbered bs) = ((List.range' 0 bs.length).zip bs).map (fun b => (b.1 + g.pa % 128, b.2)) := by
  rw [inLine, numbered, List.range_eq_range']

/-- Bytes put into the L1 stand dirty in their line (R168). -/
theorem State.l1Put_found {s : State} {k : CoreId} (ways : (s.core k).carve + 16 ≤ 320) (g : GAddr) (crew : CrewId) (bs : List Byte) :
    ∃ ln, ((s.l1Put k g crew (inLine g (numbered bs))).core k).l1Line (lineOf g.pa) = some ln ∧
      ∀ i < bs.length, (byteAt ln.bytes (g.pa % 128 + i)).map (fun b => (some b.val, b.dirty)) = some (bs[i]?, true) := by
  obtain ⟨ln, found⟩ := State.l1Alloc_found ways g crew
  unfold State.l1Put
  dsimp only
  rw [found]
  obtain line := Core.l1Line_line found
  refine ⟨_, (congrArg (Core.l1Line _) line.symm).trans (State.setL1_l1Line _ k _), fun i hi => ?_⟩
  dsimp only
  rw [inLine_eq, byteAt_setBytes, if_pos (by omega)]
  simp [hi]

/-- A cached store stands dirty in its line of the L1 (R80, R168). -/
theorem State.storeGlobal_cached {s : State} {g : GAddr} (unchecked : g.checked = false) (cached : 2 ≤ g.cache)
    (ways : (s.core s.curCore).carve + 16 ≤ 320) (bs : List Byte) :
    ∃ ln, ((s.storeGlobal g bs).core s.curCore).l1Line (lineOf g.pa) = some ln ∧
      ∀ i < bs.length, (byteAt ln.bytes (g.pa % 128 + i)).map (fun b => (some b.val, b.dirty)) = some (bs[i]?, true) := by
  obtain ⟨cs, hcs⟩ := s.touchLine_eq (crewOf s.cur.id) (lineOf g.pa)
  unfold State.storeGlobal
  dsimp only
  rw [hcs, unchecked]
  simp only [Bool.false_eq_true, if_false, cached, if_true]
  exact State.l1Put_found (s := { s with crews := cs }) ways g _ bs

end Sys2Proof.Machine
end


section
/-! SUPPORT. What O21 says of a load and of a store on the die of its core (R22, R78, R79, R168). -/

namespace Sys2Proof.Machine

section
variable {s : State} {g : GAddr} {n w : Nat} {sgn : Bool} {d : Reg}

/-- A load moves on with one entry, and its reply or a request. -/
theorem State.loadGlobal_issued (s : State) (g : GAddr) (n : Nat) (sgn : Bool) (d : Reg) (w : Nat) :
    let t := (s.loadGlobal g n sgn d w).advance
    Moved s s.cur t.cur ∧ Kept s t ∧ t.cur.regs = s.cur.regs ∧ t.cur.queue = s.cur.queue ++ [s.entryFor d w] ∧
      ((∃ x, t.replies = s.replies ++ [⟨s.nextId, s.cur.id, x, false, 0⟩]) ∨
        (t.replies = s.replies ∧ ∃ q ∈ t.requests, q.id = s.nextId ∧ q.t = s.cur.id ∧ ∃ src got, q.kind = .load g src n sgn got)) := by
  intro t
  obtain ⟨moved, kept, regs, queue⟩ := State.alike_advance (s.loadGlobal_alike g n sgn d w)
  refine ⟨moved, kept, regs, queue, ?_⟩
  rw [State.advance_replies, State.advance_requests]
  exact s.loadGlobal_answer g n sgn d w

/-- A load of a line of the die, not held in the L1, carries memory's bytes. -/
theorem State.loadGlobal_home (stashless : ∀ m ∈ s.teams, m.stash = []) (repl : g.repl = false) (here : homeOf g.pa = s.curCore.die)
    (l1 : (s.core s.curCore).l1Line (lineOf g.pa) = none) (n : Nat) (sgn : Bool) (d : Reg) (w : Nat) :
    let t := (s.loadGlobal g n sgn d w).advance
    (g.cache = 0 → t.mem = s.mem) ∧
      t.replies = s.replies ++ [⟨s.nextId, s.cur.id, Machine.loaded n sgn ((List.range n).map (fun k => s.mem.get (g.pa + k))), false, 0⟩] := by
  intro t
  obtain ⟨cs, from_⟩ := State.loadFrom_eq stashless (fun _ => ⟨l1, here⟩) n d w
  have l1' : ((s.loadFrom g n d w).core s.curCore).l1Line (lineOf g.pa) = none := by
    rw [from_]
    exact l1
  have mem : (s.loadFrom g n d w).mem = s.mem := by
    rw [from_]
    rfl
  obtain ⟨replies, left⟩ := State.loadGlobal_served sgn (State.loadBytes_home (s := s.loadFrom g n d w) l1' repl here n)
  rw [State.advance_mem, State.advance_replies, replies, left, mem]
  exact ⟨fun uncached => (State.loadAllocate_uncached l1' uncached n _).trans mem, rfl⟩

/-- A load of a line held in the L1 carries the L1's bytes. -/
theorem State.loadGlobal_held (stashless : ∀ m ∈ s.teams, m.stash = []) (unchecked : g.checked = false) {ln : L1Line}
    (l1 : (s.core s.curCore).l1Line (lineOf g.pa) = some ln) (held : ∀ k < n, (byteAt ln.bytes (g.pa % 128 + k)).isSome = true)
    (sgn : Bool) (d : Reg) (w : Nat) :
    let t := (s.loadGlobal g n sgn d w).advance
    t.mem = s.mem ∧ t.replies = s.replies ++ [⟨s.nextId, s.cur.id,
      Machine.loaded n sgn ((List.range n).map (fun k => ((byteAt ln.bytes (g.pa % 128 + k)).map (fun b => b.val)).getD 0)), false, 0⟩] := by
  intro t
  obtain ⟨cs, from_⟩ := State.loadFrom_eq stashless (fun checked => absurd (unchecked.symm.trans checked) Bool.false_ne_true) n d w
  have l1' : ((s.loadFrom g n d w).core s.curCore).l1Line (lineOf g.pa) = some ln := by
    rw [from_]
    exact l1
  have mem : (s.loadFrom g n d w).mem = s.mem := by
    rw [from_]
    rfl
  obtain ⟨replies, left⟩ := State.loadGlobal_served sgn (State.loadBytes_held (s := s.loadFrom g n d w) l1' unchecked held)
  rw [State.advance_mem, State.advance_replies, replies, left]
  exact ⟨(State.loadAllocate_held l1' unchecked held _).trans mem, rfl⟩

/-- A store moves on with no register changed and nothing pending. -/
theorem State.storeGlobal_issued (s : State) (g : GAddr) (bs : List Byte) :
    let t := (s.storeGlobal g bs).advance
    Moved s s.cur t.cur ∧ Kept s t ∧ t.cur.regs = s.cur.regs ∧ t.cur.queue = s.cur.queue ∧ t.replies = s.replies := by
  intro t
  obtain ⟨moved, kept, regs, queue⟩ := State.alike_advance (State.alike_of_frame (s.storeGlobal_frame g bs))
  exact ⟨moved, kept, regs, queue, (State.advance_replies _).trans (congrArg (fun f => f.replies) (s.storeGlobal_frame g bs))⟩

end

end Sys2Proof.Machine
end


section
/-! SUPPORT. What answers a request and what follows a write leave: memory, the requests, the replies and the clocks of the dies (R196,
R297). -/

namespace Sys2Proof.Machine

/-! ## What waits and goes on -/

/-- Memory, requests, replies, and the writes each die has seen are as they were. -/
def State.holdsStill (s t : State) : Prop :=
  t.mem = s.mem ∧ t.requests = s.requests ∧ t.replies = s.replies ∧ ∀ d, (t.die d).v = (s.die d).v

theorem State.holdsStill_refl (s : State) : s.holdsStill s := ⟨rfl, rfl, rfl, fun _ => rfl⟩

theorem State.holdsStill_trans {s t u : State} (h : s.holdsStill t) (h' : t.holdsStill u) : s.holdsStill u := by
  obtain ⟨mem, requests, replies, seen⟩ := h
  obtain ⟨mem', requests', replies', seen'⟩ := h'
  exact ⟨mem'.trans mem, requests'.trans requests, replies'.trans replies, fun d => (seen' d).trans (seen d)⟩

theorem State.calm.holdsStill {s t : State} (h : s.calm t) : s.holdsStill t := by
  obtain ⟨rest, -, -⟩ := h
  simp only [State.sameRest] at rest
  obtain ⟨-, -, -, -, dies, -, mem, requests, replies, -⟩ := rest
  exact ⟨mem, requests, replies, fun d => by simp only [State.die, dies]⟩

/-- A die is put back that has seen the same writes. -/
theorem State.setDie_holdsStill (s : State) (x : Die) (h : x.v = (s.die x.id).v) : s.holdsStill (s.setDie x) := by
  refine ⟨rfl, rfl, rfl, fun d => ?_⟩
  rw [State.setDie_die]
  split
  · rename_i same
    rw [h, same]
  · rfl

theorem State.setDie_seen (s : State) (d : Nat) (x : Die) (id : x.id = (s.die d).id) (h : x.v = (s.die d).v) : s.holdsStill (s.setDie x) :=
  s.setDie_holdsStill x (by rw [id, State.die_id, h])

theorem State.setCore_holdsStill (s : State) (c : Core) : s.holdsStill (s.setCore c) := ⟨rfl, rfl, rfl, fun _ => rfl⟩

theorem State.learn_holdsStill (s : State) (t : Thread) : s.holdsStill (s.learn t) := by
  unfold State.learn
  split
  · exact s.holdsStill_refl
  · split
    · exact s.holdsStill_refl
    · exact s.setDie_seen _ _ rfl rfl

theorem State.acquireActs_holdsStill (s : State) (l t scope : Nat) : s.holdsStill (s.acquireActs l t scope) := by
  have invalidated : s.holdsStill (s.l1Invalidate (s.coreOf l t)) := s.setCore_holdsStill _
  unfold State.acquireActs
  split
  · exact s.holdsStill_refl
  · dsimp only
    split
    · exact invalidated
    · exact State.holdsStill_trans invalidated (State.setDie_seen _ _ _ rfl rfl)

theorem State.leaveBarrier_holdsStill (s : State) (t : Thread) : s.holdsStill (s.leaveBarrier t) := by
  unfold State.leaveBarrier
  dsimp only
  split
  · exact State.holdsStill_trans (s.learn_holdsStill t)
      (State.holdsStill_trans (State.acquireActs_holdsStill _ _ _ _) (State.advanceThread_calm _ _).holdsStill)
  · exact s.learn_holdsStill t

theorem State.barrierLeave_holdsStill (s : State) : s.holdsStill s.barrierLeave :=
  foldl_keeps State.holdsStill State.holdsStill_refl State.holdsStill_trans State.leaveBarrier State.leaveBarrier_holdsStill _ s

/-- The only request taken out of flight leaves none. -/
theorem State.dropReq_only {s : State} {r : Request} (only : s.requests = [r]) :
    (s.dropReq r.id).requests = [] ∧ (s.dropReq r.id).mem = s.mem ∧ (s.dropReq r.id).replies = s.replies ∧
      ∀ d, ((s.dropReq r.id).die d).v = (s.die d).v := by
  have gone : s.requests.filter (fun x => x.id != r.id) = [] := by rw [only]; simp
  obtain ⟨mem, requests, replies, seen⟩ := State.holdsStill_trans
    (State.stir_calm { s with requests := s.requests.filter (fun x => x.id != r.id) }).holdsStill (State.barrierLeave_holdsStill _)
  exact ⟨requests.trans gone, mem, replies, seen⟩

/-! ## Where no fault has struck -/

theorem State.useStored_faultless {s : State} (flips : s.flips = []) (poison : s.poison = []) (vf : Nat) (k : CoreId) (p : FaultLoc → Bool) :
    s.useStored vf k p = s := by
  unfold State.useStored
  rw [flips, poison]
  rfl

theorem State.consumeAt_faultless {s : State} (flips : s.flips = []) (poison : s.poison = []) (vf : Nat) (k : CoreId) (key n : Nat) :
    s.consumeAt vf k key n = s := State.useStored_faultless flips poison _ _ _

/-- All but cores and crews is as it was, and no fault has come. -/
def State.sameBeyond (s t : State) : Prop :=
  t.mem = s.mem ∧ t.requests = s.requests ∧ t.welt = s.welt ∧ t.dies = s.dies ∧ (s.flips = [] → t.flips = []) ∧ (s.poison = [] → t.poison = [])

theorem State.sameBeyond_refl (s : State) : s.sameBeyond s := ⟨rfl, rfl, rfl, rfl, id, id⟩

theorem State.sameBeyond_trans {s t u : State} (h : s.sameBeyond t) (h' : t.sameBeyond u) : s.sameBeyond u := by
  obtain ⟨mem, requests, welt, dies, flips, poison⟩ := h
  obtain ⟨mem', requests', welt', dies', flips', poison'⟩ := h'
  exact ⟨mem'.trans mem, requests'.trans requests, welt'.trans welt, dies'.trans dies, fun e => flips' (flips e), fun e => poison' (poison e)⟩

theorem State.setCore_sameBeyond (s : State) (c : Core) : s.sameBeyond (s.setCore c) := ⟨rfl, rfl, rfl, rfl, id, id⟩

theorem State.setL1_sameBeyond (s : State) (k : CoreId) (x : L1Line) : s.sameBeyond (s.setL1 k x) := s.setCore_sameBeyond _

theorem State.renewStored_sameBeyond (s : State) (p : FaultLoc → Bool) : s.sameBeyond (s.renewStored p) :=
  ⟨rfl, rfl, rfl, rfl, fun e => by simp [State.renewStored, e], fun e => by simp [State.renewStored, e]⟩

theorem State.lostLocality_sameBeyond (s : State) (k : CoreId) (crew : CrewId) (line : Nat) : s.sameBeyond (s.lostLocality k crew line) := by
  have grown (t : State) : t.sameBeyond (t.grow k crew) := ⟨rfl, rfl, rfl, rfl, id, id⟩
  have triggered (t : State) : t.sameBeyond (t.triggerDecision k) := t.setCore_sameBeyond _
  have cut := s.setCore_sameBeyond { s.core k with victims := (s.core k).victims.filter (fun v => !(v.1 == line && v.2 == crew)) }
  unfold State.lostLocality
  dsimp only
  generalize s.setCore _ = u at cut ⊢
  split
  · exact s.sameBeyond_refl
  · split
    · exact cut
    · split
      · exact cut
      · rename_i w _ _
        have set (x : Crew) : s.sameBeyond (u.setCrew x) := State.sameBeyond_trans cut ⟨rfl, rfl, rfl, rfl, id, id⟩
        split
        · exact State.sameBeyond_trans (State.sameBeyond_trans (set _) (grown _)) (triggered _)
        · exact State.sameBeyond_trans (set _) (triggered _)

theorem State.lostLocality_l1 (s : State) (k : CoreId) (crew : CrewId) (line : Nat) : ((s.lostLocality k crew line).core k).l1 = (s.core k).l1 := by
  have put (t : State) (c : Core) (h : c.id = k) : ((t.setCore c).core k).l1 = c.l1 := by
    rw [State.setCore_core, if_pos h.symm]
  have triggered (t : State) : ((t.triggerDecision k).core k).l1 = (t.core k).l1 := put t _ (t.core_id k)
  have cut : ((s.setCore { s.core k with victims := (s.core k).victims.filter (fun v => !(v.1 == line && v.2 == crew)) }).core k).l1 =
    (s.core k).l1 := put s _ (s.core_id k)
  unfold State.lostLocality
  dsimp only
  generalize s.setCore _ = u at cut ⊢
  split
  · rfl
  · split
    · exact cut
    · split
      · exact cut
      · rw [triggered]
        split <;> exact cut

/-- A line allocated in an empty L1 puts none out. -/
theorem State.l1Alloc_sameBeyond {s : State} {k : CoreId} (empty : (s.core k).l1 = []) (g : GAddr) (crew : CrewId) :
    s.sameBeyond (s.l1Alloc k g crew) := by
  have absent : (s.core k).l1Line (lineOf g.pa) = none := by simp [Core.l1Line, empty]
  have still : ((s.lostLocality k crew (lineOf g.pa)).core k).l1 = [] := (s.lostLocality_l1 k crew _).trans empty
  have lost := s.lostLocality_sameBeyond k crew (lineOf g.pa)
  unfold State.l1Alloc
  dsimp only
  rw [absent]
  dsimp only
  rw [still]
  refine State.sameBeyond_trans lost (State.sameBeyond_trans ?_ (State.renewStored_sameBeyond _ _))
  split
  · exact State.setL1_sameBeyond _ _ _
  · exact State.sameBeyond_refl _

/-- The fill of an empty L1. -/
theorem State.l1Fill_sameBeyond {s : State} {k : CoreId} (empty : (s.core k).l1 = []) (poison : s.poison = []) (g : GAddr) (crew : CrewId)
    (bs : List (Nat × Byte)) : s.sameBeyond (s.l1Fill k g crew bs) := by
  have allocated := State.l1Alloc_sameBeyond empty g crew
  have sound : (s.l1Alloc k g crew).poison = [] := by
    obtain ⟨-, -, -, -, -, h⟩ := allocated
    exact h poison
  unfold State.l1Fill
  dsimp only
  rw [sound]
  split
  · exact allocated
  · rename_i l _
    refine State.sameBeyond_trans allocated (State.sameBeyond_trans (State.setL1_sameBeyond _ k { l with bytes := setAbsent l.bytes bs }) ?_)
    exact ⟨rfl, rfl, rfl, rfl, id, fun e => by simp [State.addPoison, e]⟩

/-! ## A copy filled from memory -/

theorem State.renewStored_faultless {s : State} (flips : s.flips = []) (poison : s.poison = []) (p : FaultLoc → Bool) :
    s.renewStored p = s := by
  have same (a b : List FaultLoc) (ha : a = s.flips) (hb : b = s.poison) : ({ s with flips := a, poison := b } : State) = s := by
    subst ha hb
    rfl
  exact same _ _ (by simp [flips]) (by simp [poison])

theorem State.ownPending_idle {s : State} (welt : s.welt = []) (d line off : Nat) : s.ownPending d line off = none := by
  unfold State.ownPending
  rw [welt]
  rfl

/-- A line of which a die holds no byte yet, and memory's bytes of a line. -/
def State.blankLine (s : State) (g : GAddr) : L2Line := ⟨lineOf g.pa, g.line, sliceOf (lineOf g.pa), setOf (lineOf g.pa), 0, s.cycle, s.cycle, []⟩
def State.memoryLine (s : State) (line : Nat) : List (Nat × Byte) := (List.range 128).map (fun k => (k, s.mem.get (line * 128 + k)))

/-- A line allocated in an empty L2 puts none out. -/
theorem State.l2Alloc_empty {s : State} {d : Nat} (empty : (s.die d).l2 = []) (flips : s.flips = []) (poison : s.poison = []) (g : GAddr) :
    s.l2Alloc d g = s.setL2 d (s.blankLine g) := by
  have absent : s.l2Line d (lineOf g.pa) = none := by simp [State.l2Line, empty]
  unfold State.l2Alloc
  dsimp only
  rw [absent, empty]
  exact State.renewStored_faultless (s := s.setL2 d _) flips poison _

theorem State.setL2_l2Line (s : State) (d : Nat) (x : L2Line) : (s.setL2 d x).l2Line d x.line = some x := by
  unfold State.l2Line State.setL2
  dsimp only
  rw [State.setDie_die, if_pos (s.die_id d).symm]
  dsimp only
  rw [find?_upsert (fun l : L2Line => l.line), if_pos rfl]

theorem State.setL2_poison (s : State) (d : Nat) (x : L2Line) : (s.setL2 d x).poison = s.poison := rfl

/-- What is put clean into an empty line stands there. -/
theorem byteAt_setClean_of {P : CByte → Prop} {bs : List CByte} {new : List (Nat × Byte)} (old : ∀ b ∈ bs, P b)
    (fresh : ∀ x ∈ new, P ⟨x.1, x.2, false⟩) : ∀ b ∈ setClean bs new, P b := by
  have set (l : List CByte) (h : ∀ b ∈ l, P b) (x : Nat × Byte) (hx : P ⟨x.1, x.2, false⟩) : ∀ b ∈ setByte l x.1 x.2 false, P b := by
    intro b hb
    unfold setByte upsert at hb
    split at hb
    · rw [List.mem_map] at hb
      obtain ⟨c, hc, rfl⟩ := hb
      split
      · exact hx
      · exact h c hc
    · rw [List.mem_append, List.mem_singleton] at hb
      rcases hb with hb | rfl
      · exact h b hb
      · exact hx
  induction new generalizing bs with
  | nil => exact old
  | cons x new ih =>
    rw [List.forall_mem_cons] at fresh
    refine ih (fun b hb => ?_) fresh.2
    dsimp only at hb
    split at hb
    · split at hb
      · exact old b hb
      · exact set bs old x fresh.1 b hb
    · exact set bs old x fresh.1 b hb

/-- What die d holds of a line is memory's. -/
def State.copiesMemory (s : State) (d line : Nat) : Prop :=
  ∀ l, s.l2Line d line = some l → ∀ off b, byteAt l.bytes off = some b → b.val = s.mem.get (line * 128 + off)

theorem byteAt_setClean_memoryLine {s : State} {line off : Nat} {b : CByte} (held : byteAt (setClean [] (s.memoryLine line)) off = some b) :
    b.val = s.mem.get (line * 128 + off) := by
  have values := byteAt_setClean_of (P := fun b => b.val = s.mem.get (line * 128 + b.off)) (bs := []) (by simp) (new := s.memoryLine line) (by
    intro x hx
    rw [State.memoryLine, List.mem_map] at hx
    obtain ⟨k, -, rfl⟩ := hx
    rfl)
  generalize setClean [] (s.memoryLine line) = bs at held values
  have at_ : b.off = off := by simpa using List.find?_some held
  have val := values b (List.mem_of_find?_eq_some held)
  rw [at_] at val
  exact val

/-- A line filled from memory where nothing is under way (R294). -/
theorem State.fillLine_empty {s : State} {d : Nat} (empty : (s.die d).l2 = []) (flips : s.flips = []) (poison : s.poison = [])
    (welt : s.welt = []) (g : GAddr) :
    (s.fillLine d g).copiesMemory d (lineOf g.pa) ∧ (s.fillLine d g).mem = s.mem ∧ (s.fillLine d g).requests = s.requests ∧
      (s.fillLine d g).cores = s.cores ∧ (s.fillLine d g).welt = [] ∧ (s.fillLine d g).flips = [] ∧ (s.fillLine d g).poison = [] := by
  have bytes : (List.range 128).map (fun k => (k, ((s.setL2 d (s.blankLine g)).ownPending d (lineOf g.pa) k).getD
      ((s.setL2 d (s.blankLine g)).mem.get (lineOf g.pa * 128 + k)))) = s.memoryLine (lineOf g.pa) := by
    refine List.map_congr_left (fun k _ => ?_)
    rw [State.ownPending_idle (s := s.setL2 d (s.blankLine g)) welt]
    rfl
  have blank : (s.setL2 d (s.blankLine g)).l2Line d (lineOf g.pa) = some (s.blankLine g) := s.setL2_l2Line d (s.blankLine g)
  have sound : (s.setL2 d (s.blankLine g)).poison.isEmpty = true := by
    rw [State.setL2_poison, poison]
    rfl
  unfold State.fillLine
  dsimp only
  rw [State.l2Alloc_empty empty flips poison, blank]
  dsimp only
  rw [bytes, sound]
  have full := (s.setL2 d (s.blankLine g)).setL2_l2Line d { s.blankLine g with bytes := setClean (s.blankLine g).bytes (s.memoryLine (lineOf g.pa)) }
  have values (off : Nat) (b : CByte) : byteAt (setClean (s.blankLine g).bytes (s.memoryLine (lineOf g.pa))) off = some b →
      b.val = s.mem.get (lineOf g.pa * 128 + off) := byteAt_setClean_memoryLine
  generalize setClean (s.blankLine g).bytes (s.memoryLine (lineOf g.pa)) = filled at full values ⊢
  refine ⟨fun l found off b held => ?_, rfl, rfl, rfl, (congrArg _ welt).trans List.map_nil, flips, (congrArg (· ++ _) poison).trans rfl⟩
  cases (found.symm.trans full :)
  exact values off b held

end Sys2Proof.Machine
end


section
/-! SUPPORT. A load of a line homed on another die, served there (R290, R294, R297). -/

namespace Sys2Proof.Machine

theorem State.countRead_holdsStill (s : State) (g : GAddr) : s.holdsStill (s.countRead g) := by
  unfold State.countRead
  dsimp only
  (repeat' split) <;> exact ⟨rfl, rfl, rfl, fun _ => rfl⟩

theorem State.carry_holdsStill (s : State) (d m : Nat) : s.holdsStill (s.carry d m) := by
  unfold State.carry
  split
  · exact s.holdsStill_refl
  · exact s.setDie_seen d _ rfl rfl

/-- What a die reads of a line homed on another, where nothing is under way, is memory's where it is had at all. -/
theorem State.readDie_idle {s : State} {d : Nat} {g : GAddr} (repl : g.repl = false) (away : homeOf g.pa ≠ d) (below : homeOf g.pa < 24)
    (welt : s.welt = []) (copies : s.copiesMemory d (lineOf g.pa)) (i : Nat) :
    (s.readDie d g i).getD (s.mem.get (g.pa + i)) = s.mem.get (g.pa + i) := by
  have place : lineOf g.pa * 128 + (g.pa % 128 + i) = g.pa + i := by
    unfold lineOf
    omega
  have host : homeOf g.pa ≠ hostHome := by
    unfold hostHome
    omega
  unfold State.readDie serveOf
  dsimp only
  rw [State.ownPending_idle welt, repl]
  simp only [Bool.not_false, if_true, away, decide_false, Bool.and_false, Bool.false_eq_true, if_false, host, Bool.or_false]
  cases found : s.l2Line d (lineOf g.pa) with
  | none => rfl
  | some l =>
    cases held : byteAt l.bytes (g.pa % 128 + i) with
    | none => simp [held]
    | some b => simpa [held, place] using copies l found _ b held

/-- What of a line homed on another die a die can give, whose L2 holds nothing and that has nothing under way: nothing. -/
theorem State.readDie_absent {s : State} {d : Nat} {g : GAddr} (repl : g.repl = false) (away : homeOf g.pa ≠ d) (below : homeOf g.pa < 24)
    (welt : s.welt = []) (empty : (s.die d).l2 = []) (i : Nat) : s.readDie d g i = none := by
  have host : homeOf g.pa ≠ hostHome := by
    unfold hostHome
    omega
  have absent : s.l2Line d (lineOf g.pa) = none := by simp [State.l2Line, empty]
  unfold State.readDie serveOf
  dsimp only
  rw [State.ownPending_idle welt, repl, absent]
  simp [away, host]

section
variable {s : State} {r : Request} {g : GAddr}

/-- A fill of the caches of an idle core leaves memory, and the die holds memory's bytes of the line. -/
theorem State.fillFrom_idle (welt : s.welt = []) (flips : s.flips = []) (poison : s.poison = []) (l1 : (s.core r.core).l1 = [])
    (l2 : (s.die r.core.die).l2 = []) :
    (s.fillFrom r g).mem = s.mem ∧ (s.fillFrom r g).requests = s.requests ∧ (s.fillFrom r g).welt = [] ∧ (s.fillFrom r g).flips = [] ∧
      (s.fillFrom r g).poison = [] ∧ (s.fillFrom r g).copiesMemory r.core.die (lineOf g.pa) := by
  obtain ⟨copies, mem, requests, cores, welt', flips', poison'⟩ := State.fillLine_empty l2 flips poison welt g
  have l1' : ((s.fillLine r.core.die g).core r.core).l1 = [] := by
    simp only [State.core, cores]
    exact l1
  unfold State.fillFrom
  split
  · refine ⟨rfl, rfl, welt, flips, poison, fun l found => ?_⟩
    simp [State.l2Line, l2] at found
  · dsimp only
    split
    · obtain ⟨mem2, requests2, welt2, dies2, flips2, poison2⟩ :=
        State.l1Fill_sameBeyond l1' poison' g (crewOf r.t) ((s.fillLine r.core.die g).lineBytes r.core.die g)
      refine ⟨mem2.trans mem, requests2.trans requests, welt2.trans welt', flips2 flips', poison2 poison', fun l found off b held => ?_⟩
      rw [mem2]
      refine copies l ?_ off b held
      simp only [State.l2Line, State.die, dies2] at found
      exact found
    · exact ⟨mem, requests, welt', flips', poison', copies⟩

theorem State.fillFrom_frame (s : State) (r : Request) (g : GAddr) : (s.fillFrom r g).frame = s.frame := by
  unfold State.fillFrom
  split
  · rfl
  · dsimp only
    split <;> simp

theorem loadWords_served (n : Nat) (sgn : Bool) (f : Nat → Byte) :
    loadWords n sgn (((List.range n).map (fun i => (0 + i, f i))).map (fun x : Nat × Byte => x.2)) = loaded n sgn ((List.range n).map f) := by
  rw [loadWords_eq_loaded, List.map_map]
  rfl

/-- A load is served at the home of its line: memory's bytes come back, and memory is as it was. -/
theorem State.serve_load {n : Nat} {sgn : Bool} (only : s.requests = [r]) (kind : r.kind = .load g g.pa n sgn [])
    (current : s.awaitsReissue r = false) (stashless : ∀ m ∈ s.teams, m.stash = []) (welt : s.welt = []) (flips : s.flips = [])
    (poison : s.poison = []) (l1 : (s.core r.core).l1 = []) (l2 : (s.die r.core.die).l2 = []) (repl : g.repl = false)
    (unchecked : g.checked = false) (away : homeOf g.pa ≠ r.core.die) (below : homeOf g.pa < 24) :
    (s.mayServe r (homeOf g.pa) = false → exec (.remoteRequestServe r.id) s = .next s) ∧
    (s.mayServe r (homeOf g.pa) = true → ∃ u, exec (.remoteRequestServe r.id) s = .next u ∧ u.mem = s.mem ∧ u.requests = [] ∧
      u.replies = s.replies ++ [⟨r.id, r.t, Machine.loaded n sgn ((List.range n).map (fun j => s.mem.get (g.pa + j))), false, 0⟩]) := by
  have found : s.requests.find? (fun x => x.id == r.id) = some r := by rw [only]; simp
  have run : exec (.remoteRequestServe r.id) s = if !s.mayServe r (homeOf g.pa) then .next s else
      .next (((s.servePart r g g.pa n 0 []).1.dropReq r.id).reply r.id r.t
        (loadWords n sgn ((s.servePart r g g.pa n 0 []).2.map (fun x : Nat × Byte => x.2)))) := by
    show execRemoteRequestServe r.id s = _
    unfold execRemoteRequestServe
    rw [found]
    dsimp only
    rw [current, kind]
    rfl
  refine ⟨fun waits => by rw [run, waits]; rfl, fun serves => ?_⟩
  rw [serves] at run
  obtain ⟨mem, requests, welt', flips', poison', copies⟩ := State.fillFrom_idle (g := g) welt flips poison l1 l2
  have replies : (s.fillFrom r g).replies = s.replies := congrArg (fun f => f.replies) (s.fillFrom_frame r g)
  have part : s.servePart r g g.pa n 0 [] =
      (((s.fillFrom r g).countRead g).carry r.core.die (homeOf g.pa), (s.fillFrom r g).servedBytes r g g.pa n 0 []) := by
    unfold State.servePart
    dsimp only
    rw [State.stashFlush_stashless stashless, State.consumeAt_faultless flips' poison']
  have bytes : (s.fillFrom r g).servedBytes r g g.pa n 0 [] = (List.range n).map (fun i => (0 + i, s.mem.get (g.pa + i))) := by
    refine List.map_congr_left (fun i _ => ?_)
    rw [unchecked, ← mem]
    exact congrArg _ (State.readDie_idle repl away below welt' copies i)
  rw [part, bytes] at run
  obtain ⟨mem2, requests2, replies2, -⟩ :=
    State.holdsStill_trans ((s.fillFrom r g).countRead_holdsStill g) (State.carry_holdsStill _ r.core.die (homeOf g.pa))
  obtain ⟨requests3, mem3, replies3, -⟩ := State.dropReq_only ((requests2.trans requests).trans only)
  refine ⟨_, run, mem3.trans (mem2.trans mem), requests3, ?_⟩
  rw [State.reply_replies, loadWords_served, replies3, replies2, replies]

end

/-! ## The load, from end to end -/

theorem covers_vmax (a b c : List Nat) : covers a (vmax b c) = true ↔ ∀ i < 24, b.getD i 0 ≤ a.getD i 0 ∧ c.getD i 0 ≤ a.getD i 0 := by
  unfold covers vmax
  simp only [List.all_eq_true, List.mem_range, decide_eq_true_eq]
  refine forall₂_congr (fun i hi => ?_)
  rw [List.getD_eq_getElem _ _ (by simpa using hi)]
  simp

section
variable {s : State} {g : GAddr}

theorem State.l1Line_idle (idle : s.idle) (line : Nat) : (s.core s.curCore).l1Line line = none := by
  obtain ⟨-, -, l1, -⟩ := idle
  simp [Core.l1Line, l1]

/-- A load of a line that nothing near holds asks the home for all its bytes. -/
theorem State.loadGlobal_away {n : Nat} (idle : s.idle) (distant : s.distant g) (some_ : 0 < n) (sgn : Bool) (d : Reg) (w : Nat) :
    ∃ cs, s.loadGlobal g n sgn d w = ({ s.enqueue d w with crews := cs } : State).request s.nextId (.load g g.pa n sgn []) false := by
  obtain ⟨welt, -, l1, l2, -, -, stashless, -, -⟩ := id idle
  obtain ⟨repl, unchecked, -, away, below⟩ := distant
  obtain ⟨cs, from_⟩ := State.loadFrom_eq stashless (fun checked => absurd (unchecked.symm.trans checked) Bool.false_ne_true) n d w
  have bytes : (s.loadFrom g n d w).loadBytes s.curCore g n = (List.range n).map (fun _ => none) := by
    rw [from_]
    have absent : (({ s.enqueue d w with crews := cs } : State).core s.curCore).l1Line (lineOf g.pa) = none := s.l1Line_idle idle _
    unfold State.loadBytes
    dsimp only
    rw [absent, unchecked]
    exact List.map_congr_left (fun i _ => State.readDie_absent (s := { s.enqueue d w with crews := cs }) repl away below welt l2 i)
  have lacks : ((List.range n).map (fun _ => (none : Option Byte))).all Option.isSome = false := by
    rw [List.all_eq_false]
    exact ⟨none, List.mem_map.2 ⟨0, List.mem_range.2 some_, rfl⟩, by simp⟩
  have source : loadSource s.curCore.die g = (homeOf g.pa, g.pa) := by simp [loadSource, serveOf, unchecked, repl]
  have nothing : ((List.range n).zip ((List.range n).map (fun _ => (none : Option Byte)))).filterMap (fun x => x.2.map (fun b => (x.1, b))) = [] := by
    rw [List.filterMap_eq_nil_iff]
    rintro ⟨i, b⟩ h
    have := List.of_mem_zip h
    simp at this
    simp [this.2]
  refine ⟨cs, ?_⟩
  rw [State.loadGlobal_eq, bytes, lacks, source, nothing, from_]
  rfl

/-- The load of a line homed on another die, from its issue to its reply. -/
theorem State.loadGlobal_remote {n : Nat} (idle : s.idle) (distant : s.distant g) (some_ : 0 < n) (fresh : ∀ x ∈ s.cur.queue, x.req ≠ s.nextId)
    (sgn : Bool) (d : Reg) (w : Nat) :
    let t := (s.loadGlobal g n sgn d w).advance
    t.mem = s.mem ∧ t.replies = s.replies ∧
      (¬ s.covered (homeOf g.pa) s.curCore.die → exec (.remoteRequestServe s.nextId) t = .next t) ∧
      (s.covered (homeOf g.pa) s.curCore.die → ∃ u, exec (.remoteRequestServe s.nextId) t = .next u ∧ u.mem = s.mem ∧ u.requests = [] ∧
        u.replies = s.replies ++ [⟨s.nextId, s.cur.id, Machine.loaded n sgn ((List.range n).map (fun j => s.mem.get (g.pa + j))), false, 0⟩]) := by
  intro t
  obtain ⟨welt, none_, l1, l2, -, -, stashless, flips, poison⟩ := id idle
  have queue : t.cur.queue = s.cur.queue ++ [s.entryFor d w] := (s.loadGlobal_issued g n sgn d w).2.2.2.1
  have rest : (s.loadGlobal g n sgn d w).sameRest t := State.advance_rest _
  have name : t.cur.id = s.cur.id := (s.loadGlobal_issued g n sgn d w).2.1.1
  clear_value t
  obtain ⟨cs, asked⟩ := State.loadGlobal_away idle distant some_ sgn d w
  obtain ⟨repl, unchecked, -, away, below⟩ := distant
  let r : Request := ⟨s.nextId, s.cur.id, s.curCore, launchVf s.cur.id.launch, vmax (s.die s.curCore.die).h (s.die s.curCore.die).v, [],
    .load g g.pa n sgn []⟩
  rw [asked] at rest
  simp only [State.sameRest] at rest
  obtain ⟨-, teams, -, cores, dies, -, mem, requests, replies, -, -, -, -, -, -, -, -, welt', -, flips', poison', -⟩ := rest
  have mem' : t.mem = s.mem := mem
  have only : t.requests = [r] := requests.trans (congrArg (· ++ [r]) none_)
  have die (x : Nat) : t.die x = s.die x := by
    simp only [State.die, dies]
    rfl
  have core (k : CoreId) : t.core k = s.core k := by
    simp only [State.core, cores]
    rfl
  have current : t.awaitsReissue r = false := by
    have turn : t.thread? r.t = some t.cur := (congrArg t.thread? name.symm).trans t.thread?_cur
    unfold State.awaitsReissue
    rw [turn]
    show t.cur.queue.any (fun e => e.req == r.id && e.st == .reissue) = false
    rw [queue, List.any_append, Bool.or_eq_false_iff, List.any_eq_false]
    refine ⟨fun x hx => ?_, by simp [State.entryFor]⟩
    have other : (x.req == r.id) = false := beq_eq_false_iff_ne.2 (fresh x hx)
    simp [other]
  have ready : t.mayServe r (homeOf g.pa) = true ↔ s.covered (homeOf g.pa) s.curCore.die := by
    have near : ¬ 24 ≤ homeOf g.pa := by omega
    rw [State.mayServe, die, decide_eq_false near, Bool.false_or]
    exact covers_vmax _ _ _
  obtain ⟨waits, serves⟩ := State.serve_load (r := r) (g := g) only rfl current (teams ▸ stashless) (welt'.trans welt) (flips'.trans flips)
    (poison'.trans poison) ((congrArg Core.l1 (core _)).trans l1) ((congrArg Die.l2 (die _)).trans l2) repl unchecked away below
  refine ⟨mem', replies, fun h => waits ?_, fun h => ?_⟩
  · rw [← Bool.not_eq_true, ready]
    exact h
  · obtain ⟨u, run, umem, ureq, urep⟩ := serves (ready.2 h)
    refine ⟨u, run, umem.trans mem', ureq, ?_⟩
    rw [urep, mem', replies]
    rfl

end

end Sys2Proof.Machine
end


section
/-! SUPPORT. An uncached store and an atomic of a line homed on another die, performed there (R186, R295 to R297). -/

namespace Sys2Proof.Machine

/-! ## The next write of a die -/

theorem getD_set (v : List Nat) (d x i : Nat) : (v.set d x).getD i 0 = if i = d ∧ d < v.length then x else v.getD i 0 := by
  simp only [List.getD_eq_getElem?_getD, List.getElem?_set]
  by_cases h : d = i
  · subst h
    by_cases inside : d < v.length
    · simp [inside]
    · simp [inside]
  · have h' : ¬ i = d := fun e => h e.symm
    simp [h, h']

/-- A home applies a die's next write, and no later one, once it has seen what that die had seen (R296). -/
theorem canApply_next {v seen : List Nat} {d : Nat} (length : v.length = 24) (below : d < 24) :
    canApply seen (v.set d (v.getD d 0 + 1)) d = true ↔ seen.getD d 0 = v.getD d 0 ∧ ∀ i < 24, i ≠ d → v.getD i 0 ≤ seen.getD i 0 := by
  unfold canApply
  simp only [Bool.and_eq_true, decide_eq_true_eq, List.all_eq_true, List.mem_range, Bool.or_eq_true, beq_iff_eq, getD_set, length, below,
    and_true, if_true]
  refine and_congr (by omega) (forall₂_congr (fun i _ => ?_))
  by_cases h : i = d
  · simp [h]
  · simp [h]

/-! ## What a numbered write leaves -/

/-- Requests, cores and dies are as they were. -/
def State.sameDies (s t : State) : Prop := t.requests = s.requests ∧ t.cores = s.cores ∧ t.dies = s.dies

theorem State.sameDies_refl (s : State) : s.sameDies s := ⟨rfl, rfl, rfl⟩

theorem State.sameDies_trans {s t u : State} (h : s.sameDies t) (h' : t.sameDies u) : s.sameDies u := by
  obtain ⟨requests, cores, dies⟩ := h
  obtain ⟨requests', cores', dies'⟩ := h'
  exact ⟨requests'.trans requests, cores'.trans cores, dies'.trans dies⟩

theorem State.countWrite_sameDies (s : State) (g : GAddr) : s.sameDies (s.countWrite g) := by
  unfold State.countWrite
  dsimp only
  (repeat' split) <;> exact ⟨rfl, rfl, rfl⟩

theorem State.logWrite_sameDies (s : State) (l key : Nat) : s.sameDies (s.logWrite l key) := by
  have marked : s.sameDies (s.markUnroll l) := by
    unfold State.markUnroll
    split <;> exact ⟨rfl, rfl, rfl⟩
  unfold State.logWrite
  dsimp only
  split
  · exact s.sameDies_refl
  · split
    · exact marked
    · (repeat' split) <;> exact ⟨rfl, rfl, rfl⟩

theorem State.storeAt_sameDies (s : State) (g : GAddr) (bs : List (Nat × Byte)) : s.sameDies (s.storeAt g bs) := by
  unfold State.storeAt
  split
  · exact s.sameDies_refl
  · refine State.sameDies_trans (State.sameDies_trans (s.logWrite_sameDies g.launch g.pa) ?_)
      (foldl_keeps State.sameDies State.sameDies_refl State.sameDies_trans (fun s (b : Nat × Byte) => s.mapThreads (Thread.watchWrite (g.pa + b.1) 1))
        (fun _ _ => ⟨rfl, rfl, rfl⟩) bs _)
    exact ⟨rfl, rfl, rfl⟩

theorem State.forward_sameDies (s : State) (g : GAddr) (bs : List (Nat × Byte)) (src : Nat) (tag : List Nat) :
    s.sameDies (s.forward g bs src tag) := by
  unfold State.forward
  dsimp only
  refine foldl_keeps State.sameDies State.sameDies_refl State.sameDies_trans _ (fun t x => ?_) _ s
  split
  · exact t.sameDies_refl
  · split
    · exact t.sameDies_refl
    · exact ⟨rfl, rfl, rfl⟩

theorem State.homeWrite_sameDies {g : GAddr} (det : g.det = false) (s : State) (bs : List (Nat × Byte)) (tag : Nat × List Nat) :
    s.sameDies (s.homeWrite g bs (some tag)) := by
  have stored := State.sameDies_trans (s.countWrite_sameDies g) (State.storeAt_sameDies _ g bs)
  unfold State.homeWrite
  dsimp only
  rw [State.ticketFilter_free det]
  dsimp only
  split
  · exact stored
  · exact State.sameDies_trans stored (State.forward_sameDies _ _ _ _ _)

theorem State.tick_die (s : State) (d src : Nat) (tag : List Nat) (x : Nat) :
    ((s.tick d src tag).die x).v = if x = d then (s.die d).v.set src (tag.getD src 0) else (s.die x).v := by
  unfold State.tick
  dsimp only
  rw [State.setDie_die, State.die_id]
  split <;> rfl

theorem State.number_die (s : State) (d x : Nat) :
    (s.number d).die x = if x = d then { s.die d with v := (s.die d).v.set d ((s.die d).v.getD d 0 + 1) } else s.die x := by
  unfold State.number
  dsimp only
  rw [State.setDie_die, State.die_id]

/-! ## A store, from end to end -/

section
variable {s : State} {g : GAddr}

/-- An uncached store of a line that nothing near holds goes home as one tagged write (R79, R295). -/
theorem State.storeGlobal_away {bs : List Byte} (idle : s.idle) (distant : s.distant g) (uncached : g.cache = 0) (some_ : bs ≠ []) :
    ∃ cs, s.storeGlobal g bs = (({ s with crews := cs } : State).number s.curCore.die).addMsg s.curCore.die
      ((s.die s.curCore.die).v.set s.curCore.die ((s.die s.curCore.die).v.getD s.curCore.die 0 + 1)) (homeOf g.pa) g.line
      (inLine g (numbered bs)) true false := by
  obtain ⟨cs, hcs⟩ := s.touchLine_eq (crewOf s.cur.id) (lineOf g.pa)
  have l1' : (({ s with crews := cs } : State).core s.curCore).l1Line (lineOf g.pa) = none := s.l1Line_idle idle _
  have seen := congrArg Die.v ((({ s with crews := cs } : State).number_die s.curCore.die s.curCore.die).trans (if_pos rfl))
  obtain ⟨-, -, -, l2, -, -, stashless, -, -⟩ := idle
  obtain ⟨repl, unchecked, -, away, below⟩ := distant
  have absent : ({ s with crews := cs } : State).l2Line s.curCore.die (lineOf g.line.pa) = none := by
    simp only [State.l2Line, State.die] at l2 ⊢
    simp [l2]
  have bytes : (inLine g (numbered bs)).isEmpty = false := by
    cases bs with
    | nil => exact absurd rfl some_
    | cons b bs => simp [inLine, numbered, List.range_succ_eq_map]
  have host : ¬ homeOf g.pa = hostHome := by
    unfold hostHome
    omega
  refine ⟨cs, ?_⟩
  unfold State.storeGlobal
  dsimp only
  rw [hcs, unchecked, uncached, l1']
  simp only [Bool.false_eq_true, if_false, Option.isSome_none]
  rw [if_neg (by omega)]
  unfold State.dieStore
  rw [State.stashFlush_stashless (s := { s with crews := cs }) stashless]
  unfold State.dieWrite
  dsimp only
  rw [homeOf_line, if_neg away, if_neg host, absent, show g.line.repl = false from repl, show g.line.cache = 0 from uncached]
  unfold State.sendHome
  dsimp only
  rw [bytes, homeOf_line, seen]
  simp only [Option.isNone_none, decide_true, Bool.and_self, Bool.or_true, if_true, Bool.false_eq_true, if_false]
  rw [if_neg (by omega)]
  rfl

/-- A write under way to its home, applied there in its turn (R296). -/
theorem State.apply_write {m : WeltMsg} (only : s.welt = [m]) (home : m.toHome = true) (away : m.src ≠ m.dst) (sound : m.bad = [])
    (det : m.g.det = false) (stashless : ∀ x ∈ s.teams, x.stash = []) :
    (canApply (s.die m.dst).v m.tag m.src = false → exec (.writeApply m.id) s = .next s) ∧
    (canApply (s.die m.dst).v m.tag m.src = true → ∃ u, exec (.writeApply m.id) s = .next u ∧ u.mem = s.mem.putAt m.g.pa m.bytes) := by
  have found : s.welt.find? (fun x => x.id == m.id) = some m := by rw [only]; simp
  have turn : s.mayApply m = canApply (s.die m.dst).v m.tag m.src := by
    unfold State.mayApply State.lineTurn
    simp [home, away]
  have run : exec (.writeApply m.id) s = .next (if canApply (s.die m.dst).v m.tag m.src then (s.applyMsg m).stir.barrierLeave else s) := by
    show execWriteApply m.id s = _
    unfold execWriteApply
    rw [found]
    dsimp only
    rw [turn]
  have applied : (s.applyMsg m).mem = s.mem.putAt m.g.pa m.bytes := by
    unfold State.applyMsg
    dsimp only
    rw [home, beq_eq_false_iff_ne.2 away]
    unfold State.tick State.applyHome State.withPoison
    rw [sound]
    have flushed := State.stashFlush_stashless (s := { s with welt := s.welt.filter (fun x => x.id != m.id) }) stashless (lineOf m.g.pa) true
    exact (congrArg (fun t : State => (t.homeWrite m.g m.bytes (some (m.src, m.tag))).mem) flushed).trans (State.homeWrite_mem det _ _ _)
  refine ⟨fun waits => by simp [run, waits], fun goes => ⟨_, by rw [run, goes, if_pos rfl], ?_⟩⟩
  exact (((State.stir_quiet _).trans (State.barrierLeave_quiet _)).2.2).trans applied

/-- An uncached store of a line homed on another die, from its issue until it stands in memory. -/
theorem State.storeGlobal_remote {bs : List Byte} (idle : s.idle) (distant : s.distant g) (uncached : g.cache = 0) (some_ : bs ≠ []) :
    let t := (s.storeGlobal g bs).advance
    ∃ m, t.mem = s.mem ∧ t.welt = [m] ∧ m.src = s.curCore.die ∧ m.dst = homeOf g.pa ∧ m.toHome = true ∧
      m.tag = (s.die s.curCore.die).v.set s.curCore.die ((s.die s.curCore.die).v.getD s.curCore.die 0 + 1) ∧
      (¬ s.nextOf (homeOf g.pa) s.curCore.die → exec (.writeApply m.id) t = .next t) ∧
      (s.nextOf (homeOf g.pa) s.curCore.die → ∃ u, exec (.writeApply m.id) t = .next u ∧ u.mem = s.mem.putN g.pa bs) := by
  intro t
  have rest : (s.storeGlobal g bs).sameRest t := State.advance_rest _
  clear_value t
  obtain ⟨cs, sent⟩ := State.storeGlobal_away idle distant uncached some_
  obtain ⟨welt, -, -, -, low, length, stashless, -, -⟩ := idle
  obtain ⟨-, -, det, away, -⟩ := distant
  rw [sent] at rest
  simp only [State.sameRest] at rest
  obtain ⟨-, teams, -, -, dies, -, mem, -, -, -, -, -, -, -, -, -, -, welt', -⟩ := rest
  have mem' : t.mem = s.mem := mem
  let m : WeltMsg := ⟨s.nextId, s.curCore.die,
    (s.die s.curCore.die).v.set s.curCore.die ((s.die s.curCore.die).v.getD s.curCore.die 0 + 1), homeOf g.pa, g.line,
    inLine g (numbered bs), true, false, []⟩
  have only : t.welt = [m] := welt'.trans (congrArg (· ++ [m]) welt)
  have die : t.die (homeOf g.pa) = s.die (homeOf g.pa) := by
    have same : t.die (homeOf g.pa) = (({ s with crews := cs } : State).number s.curCore.die).die (homeOf g.pa) := by
      simp only [State.die, dies]
      rfl
    rw [same, State.number_die, if_neg away]
    rfl
  have ready : canApply (t.die m.dst).v m.tag m.src = true ↔ s.nextOf (homeOf g.pa) s.curCore.die := by
    rw [show t.die m.dst = s.die (homeOf g.pa) from die]
    exact canApply_next length low
  obtain ⟨waits, goes⟩ := State.apply_write only rfl (Ne.symm away) rfl det (teams ▸ stashless)
  refine ⟨m, mem', only, rfl, rfl, rfl, rfl, fun h => waits ?_, fun h => ?_⟩
  · rw [← Bool.not_eq_true, ready]
    exact h
  · obtain ⟨u, run, umem⟩ := goes (ready.2 h)
    exact ⟨u, run, by rw [umem, mem']; exact Memory.putAt_line _ _ _⟩

end

end Sys2Proof.Machine
end


section
/-! SUPPORT. An atomic of a line homed on another die, performed there (R186, R187, R295, R297). -/

namespace Sys2Proof.Machine

theorem State.setL2_holdsStill (s : State) (d : Nat) (x : L2Line) : s.holdsStill (s.setL2 d x) := s.setDie_seen d _ rfl rfl

theorem State.dropEmpty_holdsStill (s : State) (d : Nat) : s.holdsStill (s.dropEmpty d) := s.setDie_seen d _ rfl rfl

theorem State.seenAtHome_holdsStill (s : State) (k : CoreId) (g : GAddr) (n : Nat) : s.holdsStill (s.seenAtHome k g n) := by
  have dropped : s.holdsStill (s.dropStale k g n) := s.setCore_holdsStill _
  unfold State.seenAtHome
  refine State.holdsStill_trans dropped ?_
  unfold State.dropStaleL2
  split
  · exact State.holdsStill_refl _
  · exact State.holdsStill_trans (State.setL2_holdsStill _ _ _) (State.dropEmpty_holdsStill _ _)

theorem bytesOf_length (n x : Nat) : (bytesOf n x).length = n := by simp [bytesOf_eq_map]

/-- The old value of an atomic, as its words. -/
theorem atomWords_eq {n : Nat} (size : n = 4 ∨ n = 8) (old : Nat) :
    (if n = 8 then pairWords (BitVec.ofNat 64 old) else [DWord.lo (BitVec.ofNat 64 old)]) = atomWords old n := by
  have lo : DWord.lo (BitVec.ofNat 64 old) = BitVec.ofNat 32 old := by
    unfold DWord.lo
    bv_omega
  have hi : DWord.hi (BitVec.ofNat 64 old) = BitVec.ofNat 32 (old / 2 ^ 32) := by
    unfold DWord.hi
    refine BitVec.eq_of_toNat_eq ?_
    simp only [BitVec.truncate_eq_setWidth, BitVec.toNat_setWidth, BitVec.toNat_ushiftRight, BitVec.toNat_ofNat, Nat.shiftRight_eq_div_pow]
    omega
  rcases size with rfl | rfl
  · simp [atomWords, lo]
  · simp [atomWords, pairWords, lo, hi, List.range_succ]

section
variable {s : State} {r : Request} {g : GAddr}

/-- A numbered read and write at the home: its bytes stand, and the home has seen one more write of the die (R296). -/
theorem State.homePerform_numbered {n : Nat} {bs : List Byte} (reads : r.kind.readsHome = true) (tagged : r.tag.isEmpty = false)
    (below : homeOf g.pa < 24) (away : homeOf g.pa ≠ r.core.die) (det : g.det = false) (stashless : ∀ m ∈ s.teams, m.stash = [])
    (flips : s.flips = []) (poison : s.poison = []) :
    let u := s.homePerform r g n (some bs)
    u.mem = s.mem.putN g.pa bs ∧ u.requests = s.requests ∧ u.replies = s.replies ∧
      (u.die (homeOf g.pa)).v = (s.die (homeOf g.pa)).v.set r.core.die (r.tag.getD r.core.die 0) := by
  obtain ⟨rmem, rrequests, rreplies, rseen⟩ := s.countRead_holdsStill g
  have wmem := State.homeWrite_mem (g := g.line) det (s.countRead g) (inLine g (numbered bs)) (some (r.core.die, r.tag))
  obtain ⟨wrequests, -, wdies⟩ := State.homeWrite_sameDies (g := g.line) det (s.countRead g) (inLine g (numbered bs)) (r.core.die, r.tag)
  have wreplies : ((s.countRead g).homeWrite g.line (inLine g (numbered bs)) (some (r.core.die, r.tag))).replies = (s.countRead g).replies :=
    congrArg (fun f => f.replies) (State.homeWrite_frame _ _ _ _)
  have run : s.homePerform r g n (some bs) =
      ((((s.countRead g).homeWrite g.line (inLine g (numbered bs)) (some (r.core.die, r.tag))).tick (homeOf g.pa) r.core.die r.tag).carry
        r.core.die (homeOf g.pa)).seenAtHome r.core g n := by
    unfold State.homePerform
    dsimp only
    rw [State.stashFlush_stashless stashless, State.consumeAt_faultless flips poison, reads, tagged, decide_eq_false (by omega),
      beq_eq_false_iff_ne.2 away]
    rfl
  intro u
  have outcome : u = _ := run
  clear_value u
  generalize (s.countRead g).homeWrite g.line (inLine g (numbered bs)) (some (r.core.die, r.tag)) = x at wmem wrequests wdies wreplies outcome
  have die (d : Nat) : x.die d = (s.countRead g).die d := by simp only [State.die, wdies]
  obtain ⟨mem, requests, replies, seen⟩ := State.holdsStill_trans (State.carry_holdsStill (x.tick (homeOf g.pa) r.core.die r.tag) r.core.die (homeOf g.pa))
    (State.seenAtHome_holdsStill _ r.core g n)
  rw [outcome]
  refine ⟨?_, requests.trans (wrequests.trans rrequests), replies.trans (wreplies.trans rreplies), ?_⟩
  · rw [mem, show (x.tick (homeOf g.pa) r.core.die r.tag).mem = x.mem from rfl, wmem, rmem]
    exact Memory.putAt_line _ _ _
  · rw [seen, State.tick_die, if_pos rfl, die, rseen]

/-- An atomic of a scope beyond the die is performed at the home of its line, once that has seen what its die had seen. -/
theorem State.perform_atomic {op : AtomOp} {scope : Nat} {b c : DWord} (only : s.requests = [r])
    (kind : r.kind = .atomic op scope false (.glob g) b c) (wide : 2 ≤ scope) (size : op.size = 4 ∨ op.size = 8) (tagged : r.tag.isEmpty = false)
    (below : homeOf g.pa < 24) (away : homeOf g.pa ≠ r.core.die) (det : g.det = false) (stashless : ∀ m ∈ s.teams, m.stash = [])
    (flips : s.flips = []) (poison : s.poison = []) :
    ((covers (s.die (homeOf g.pa)).v r.hor && canApply (s.die (homeOf g.pa)).v r.tag r.core.die) = false →
      exec (.atomicPerform r.id) s = .next s) ∧
    ((covers (s.die (homeOf g.pa)).v r.hor && canApply (s.die (homeOf g.pa)).v r.tag r.core.die) = true →
      ∃ u, exec (.atomicPerform r.id) s = .next u ∧ u.requests = [] ∧
        u.replies = s.replies ++ [⟨r.id, r.t, atomWords (atomOld s.mem g.pa op.size) op.size, false, 0⟩] ∧
        (u.die (homeOf g.pa)).v = (s.die (homeOf g.pa)).v.set r.core.die (r.tag.getD r.core.die 0) ∧
        u.mem = s.mem.putN g.pa (bytesOf op.size (op.apply (BitVec.ofNat 64 (atomOld s.mem g.pa op.size)) b c).toNat)) := by
  have found : s.requests.find? (fun x => x.id == r.id) = some r := by rw [only]; simp
  have home : atomHome g scope = true := by simp [atomHome, wide]
  have ready : s.homeReady r g = (covers (s.die (homeOf g.pa)).v r.hor && canApply (s.die (homeOf g.pa)).v r.tag r.core.die) := by
    unfold State.homeReady
    dsimp only
    rw [tagged, decide_eq_false (by omega), beq_eq_false_iff_ne.2 away]
    simp
  have old : natOf (s.mem.getN g.pa op.size) = atomOld s.mem g.pa op.size := natOf_eq_numberOf _
  have look : s.atomFind r false scope op.size (.glob g) = if s.homeReady r g then .ok s (s.mem.getN g.pa op.size) else .wait s := by
    unfold State.atomFind
    dsimp only
    rw [home, if_pos rfl, State.stashFlush_stashless stashless]
  rw [← ready]
  refine ⟨fun waits => ?_, fun goes => ?_⟩
  · have act : s.atomAct r op false scope (.glob g) b c = .wait s := by
      unfold State.atomAct
      rw [look, waits]
      rfl
    show execAtomicPerform r.id s = _
    unfold execAtomicPerform
    rw [found]
    dsimp only
    rw [kind]
    dsimp only
    rw [act]
  · have act : s.atomAct r op false scope (.glob g) b c =
        .ok (s.homePerform r g op.size (some (bytesOf op.size (op.apply (BitVec.ofNat 64 (atomOld s.mem g.pa op.size)) b c).toNat)))
          (BitVec.ofNat 64 (atomOld s.mem g.pa op.size)) := by
      unfold State.atomAct
      rw [look, goes]
      unfold Tried.andThen State.atomWrite
      dsimp only
      rw [home, if_pos rfl]
      dsimp only
      rw [if_pos rfl, old, bytesOf_length]
    have run : exec (.atomicPerform r.id) s = .next (((s.homePerform r g op.size (some (bytesOf op.size
        (op.apply (BitVec.ofNat 64 (atomOld s.mem g.pa op.size)) b c).toNat))).dropReq r.id).reply r.id r.t
          (atomWords (atomOld s.mem g.pa op.size) op.size)) := by
      show execAtomicPerform r.id s = _
      unfold execAtomicPerform
      rw [found]
      dsimp only
      rw [kind]
      dsimp only
      rw [act]
      dsimp only
      rw [atomWords_eq size]
    obtain ⟨mem, requests, replies, seen⟩ := State.homePerform_numbered (n := op.size)
      (bs := bytesOf op.size (op.apply (BitVec.ofNat 64 (atomOld s.mem g.pa op.size)) b c).toNat)
      (by rw [kind]; rfl) tagged below away det stashless flips poison
    generalize s.homePerform r g op.size _ = x at run mem requests replies seen
    obtain ⟨requests2, mem2, replies2, seen2⟩ := State.dropReq_only (requests.trans only)
    refine ⟨_, run, requests2, ?_, (seen2 _).trans seen, mem2.trans mem⟩
    rw [State.reply_replies, replies2, replies]

end

/-! ## The atomic, from end to end -/

theorem atoms_exec {sp : Bool} {sc : BitVec 2} {d a b : Reg} {i : Instr} {op : AtomOp} {w wb : Nat} (h : (i, op, w, wb) ∈ atoms sp sc d a b)
    (s : State) : exec i s = atom op w wb sp sc d a b s ∧ op.size = 4 * w ∧ (op.size = 4 ∨ op.size = 8) := by
  simp only [atoms, List.mem_cons, Prod.mk.injEq, List.not_mem_nil, or_false] at h
  rcases h with h | h | h | h | h | h | h | h | h | h | h | h | h | h | h | h <;> obtain ⟨rfl, rfl, rfl, rfl⟩ := h <;>
    exact ⟨rfl, rfl, by simp [AtomOp.size]⟩

section
variable {s : State} {sp : Bool} {sc : BitVec 2} {d a b : Reg} {v : Vf} {e : TlbEntry} {i : Instr} {op : AtomOp} {w wb : Nat}

/-- An atomic of a scope beyond the die, of a line homed on another, sends one numbered request (R187, R295). -/
theorem atom_away (mem : (i, op, w, wb) ∈ atoms sp sc d a b) (issues : s.issuesLong sp) (fd : s.fits d w) (fa : s.fits a 2) (fb : s.fits b wb)
    (low : (s.cur.p a).toNat < 2 ^ 48) (aligned : (s.cur.p a).toNat % (4 * w) = 0)
    (grants : s.grants (s.cur.p a).toNat (4 * w) .atomic false v e)
    (ordered : s.unordered (s.target v e (s.cur.p a).toNat 3).pa (4 * w) = false) (det : s.pk.det = false) (idle : s.idle)
    (distant : s.distant (s.target v e (s.cur.p a).toNat 3)) (wide : 2 ≤ sc.toNat) :
    exec i s = .next ((s.enqueue d w).request s.nextId
      (.atomic op sc.toNat false (.glob (s.target v e (s.cur.p a).toNat 3)) (s.cur.bVal b wb) (s.cur.cVal b wb)) true).advance := by
  obtain ⟨run, size, -⟩ := atoms_exec mem s
  rw [← size] at aligned grants ordered
  have check := State.checkGlobal_of_grants (cap := 3) (det := 1) grants (Or.inr det)
  have nearby := s.l1Line_idle idle (lineOf (s.target v e (s.cur.p a).toNat 3).pa)
  obtain ⟨-, -, -, l2, -, -, stashless, -, -⟩ := idle
  obtain ⟨-, unchecked, -, away, below⟩ := distant
  have place : s.atomPlace (s.cur.p a) op.size .atomic false false 1 = .ok s (.glob (s.target v e (s.cur.p a).toNat 3)) := by
    unfold State.atomPlace
    dsimp only
    rw [if_neg (fun h => h aligned), aperture_glob low]
    dsimp only
    rw [check]
    dsimp only
    rw [ordered]
    rfl
  have farther : atomL1 (s.target v e (s.cur.p a).toNat 3) sc.toNat = false := by
    have : (sc.toNat == 0) = false := beq_eq_false_iff_ne.2 (by omega)
    simp [atomL1, this]
  have home : atomHome (s.target v e (s.cur.p a).toNat 3) sc.toNat = true := by simp [atomHome, wide]
  have numbered_ : isNumbered (s.target v e (s.cur.p a).toNat 3) s.curCore.die = true := by
    simp only [isNumbered, below, decide_true, Bool.true_and, bne_iff_ne, ne_eq]
    exact away
  have back : s.writeBackRange s.curCore (s.target v e (s.cur.p a).toNat 3) op.size true = s :=
    State.writeBackRange_absent stashless nearby (Or.inr (by simp [State.l2Line, l2])) _ _
  have lies : ∀ x ∈ [opD d w, opA a 2, opB b wb], s.cur.beyond x = false := by
    simp only [List.mem_cons, List.not_mem_nil, or_false, forall_eq_or_imp, forall_eq]
    exact ⟨beyond_of_fits fd, beyond_of_fits fa, beyond_of_fits fb⟩
  rw [run, atom, issue_long issues lies]
  refine congrArg _ ?_
  dsimp only
  rw [place]
  dsimp only
  rw [farther, home, back, numbered_]
  rfl

end

/-- The atomic of a line homed on another die, from its request to its old value. -/
theorem State.atomic_remote {s : State} {g : GAddr} {op : AtomOp} {scope : Nat} {b c : DWord} (idle : s.idle) (distant : s.distant g)
    (wide : 2 ≤ scope) (size : op.size = 4 ∨ op.size = 8) (d : Reg) (w : Nat) :
    let t := ((s.enqueue d w).request s.nextId (.atomic op scope false (.glob g) b c) true).advance
    let h := homeOf g.pa
    let k := s.curCore.die
    let old := atomOld s.mem g.pa op.size
    ∃ q, t.mem = s.mem ∧ t.replies = s.replies ∧ t.requests = [q] ∧
      (¬ (s.covered h k ∧ s.nextOf h k) → exec (.atomicPerform q.id) t = .next t) ∧
      (s.covered h k → s.nextOf h k → ∃ u, exec (.atomicPerform q.id) t = .next u ∧ u.requests = [] ∧
        u.replies = s.replies ++ [⟨q.id, s.cur.id, atomWords old op.size, false, 0⟩] ∧
        (u.die h).v.getD k 0 = (s.die h).v.getD k 0 + (if k < (s.die h).v.length then 1 else 0) ∧
        u.mem = s.mem.putN g.pa (bytesOf op.size (op.apply (BitVec.ofNat 64 old) b c).toNat)) := by
  intro t h k old
  have rest := State.advance_rest ((s.enqueue d w).request s.nextId (.atomic op scope false (.glob g) b c) true)
  have rest : ((s.enqueue d w).request s.nextId (.atomic op scope false (.glob g) b c) true).sameRest t := rest
  clear_value t
  obtain ⟨-, none_, -, -, below_, length, stashless, flips, poison⟩ := idle
  obtain ⟨-, -, det, away, below⟩ := distant
  simp only [State.sameRest] at rest
  obtain ⟨-, teams, -, -, dies, -, mem, requests, replies, -, -, -, -, -, -, -, -, -, -, flips', poison', -⟩ := rest
  let tag := (s.die k).v.set k ((s.die k).v.getD k 0 + 1)
  let q : Request := ⟨s.nextId, s.cur.id, s.curCore, launchVf s.cur.id.launch, vmax (s.die k).h (s.die k).v, tag,
    .atomic op scope false (.glob g) b c⟩
  have number : ((s.enqueue d w).number k).die k = { s.die k with v := tag } :=
    ((s.enqueue d w).number_die k k).trans (if_pos rfl)
  have mem' : t.mem = s.mem := mem
  have replies' : t.replies = s.replies := replies
  have only : t.requests = [q] := by
    have sent : t.requests = s.requests ++ [⟨s.nextId, s.cur.id, s.curCore, launchVf s.cur.id.launch, vmax (s.die k).h (s.die k).v,
      (((s.enqueue d w).number k).die k).v, .atomic op scope false (.glob g) b c⟩] := requests
    rw [sent, none_, number]
    rfl
  have die : t.die h = s.die h := by
    have same : t.die h = ((s.enqueue d w).number k).die h := by
      simp only [State.die, dies]
      rfl
    rw [same, State.number_die, if_neg away]
    rfl
  have tagged : q.tag.isEmpty = false := by
    have : tag.length = 24 := (List.length_set).trans length
    exact List.isEmpty_eq_false_iff.2 (List.ne_nil_of_length_pos (by rw [this]; omega))
  have next : tag.getD k 0 = (s.die k).v.getD k 0 + 1 := by
    rw [getD_set, if_pos ⟨rfl, by rw [length]; exact below_⟩]
  have ready : (covers (t.die h).v q.hor && canApply (t.die h).v q.tag q.core.die) = true ↔ s.covered h k ∧ s.nextOf h k := by
    rw [die, Bool.and_eq_true]
    exact and_congr (covers_vmax _ _ _) (canApply_next length below_)
  obtain ⟨waits, goes⟩ := State.perform_atomic (r := q) only rfl wide size tagged below away det (teams ▸ stashless) (flips'.trans flips)
    (poison'.trans poison)
  refine ⟨q, mem', replies', only, fun no => waits ?_, fun covered turn => ?_⟩
  · rw [← Bool.not_eq_true, ready]
    exact no
  · obtain ⟨u, run, ureq, urep, useen, umem⟩ := goes (ready.2 ⟨covered, turn⟩)
    rw [mem'] at urep umem
    rw [replies'] at urep
    refine ⟨u, run, ureq, urep, ?_, umem⟩
    rw [useen, die, getD_set]
    by_cases inside : k < (s.die h).v.length
    · rw [if_pos ⟨rfl, inside⟩, if_pos inside]
      exact next.trans (congrArg (· + 1) turn.1.symm)
    · rw [if_neg (fun x => inside x.2), if_neg inside]
      rfl

end Sys2Proof.Machine
end


section
/-! PROOF. O21: loads and stores of global memory. -/

namespace Sys2Proof.Machine

theorem loads_some {sp : Bool} {pol : BitVec 2} {d a : Reg} {o : BitVec 8} {i : Instr} {n w : Nat} {sgn : Bool}
    (h : (i, n, w, sgn) ∈ loads sp pol d a o) : 0 < n := by
  simp only [loads, List.mem_cons, Prod.mk.injEq, List.not_mem_nil, or_false] at h
  omega

theorem stores_some {sp : Bool} {pol : BitVec 2} {d a : Reg} {o : BitVec 8} {i : Instr} {n w : Nat}
    (h : (i, n, w) ∈ stores sp pol d a o) : 0 < n := by
  simp only [stores, List.mem_cons, Prod.mk.injEq, List.not_mem_nil, or_false] at h
  omega

theorem State.route_stashless {s : State} (h : ∀ m ∈ s.teams, m.stash = []) (g : GAddr) (va : Nat) : s.route g va = .mem s :=
  State.routeOf_unstashed (fun m found => h m (List.mem_of_find?_eq_some found)) g va

/-- With no request under way every miss entry is free. -/
theorem State.missFull_idle {s : State} (h : s.requests = []) (k : CoreId) (g : GAddr) (n : Nat) : s.missFull k g n = false := by
  unfold State.missFull
  rw [h]
  simp

theorem stored_some {n : Nat} (h : 0 < n) (t : Thread) (d : Reg) : stored n t d ≠ [] :=
  List.ne_nil_of_length_pos (by rw [stored_length]; exact h)

theorem Memory.get_putN_stored (m : Memory) (a n : Nat) (t : Thread) (d : Reg) (k : Nat) :
    some ((m.putN a (stored n t d)).get k) = if a ≤ k ∧ k < a + n then (stored n t d)[k - a]? else some (m.get k) := by
  have := Memory.get_putN m a (stored n t d) k
  rw [stored_length] at this
  exact this

/-- The bytes an atomic leaves. -/
theorem Memory.get_putN_bytesOf (m : Memory) (a n x j : Nat) :
    (m.putN a (bytesOf n x)).get j = if a ≤ j ∧ j < a + n then BitVec.ofNat 8 (x / 256 ^ (j - a)) else m.get j := by
  have put := Memory.get_putN m a (bytesOf n x) j
  rw [bytesOf_length] at put
  split at put
  · rename_i inside
    rw [if_pos inside]
    have : j - a < n := by omega
    simpa [bytesOf_eq_map, this] using put
  · rename_i outside
    rw [if_neg outside]
    exact Option.some.inj put

/-- Settles O21: a load's entry and reply, a store's bytes, and an access of another die's memory from its issue to its end. -/
theorem globalAccessesMoveTheirBytes : Obligations.GlobalAccessesMoveTheirBytes := by
  unfold Obligations.GlobalAccessesMoveTheirBytes
  refine ⟨?_, ?_, ?_⟩
  · intro s sp pol d a o v e i n w sgn mem issues fd fa va g low aligned grants ordered unstashed room entry
    have run : exec i s = .next (s.loadGlobal g n sgn d w).advance :=
      load_global mem issues fd fa low aligned grants ordered (State.route_unstashed unstashed _ _) room
    refine ⟨⟨_, run, s.loadGlobal_issued g n sgn d w⟩, fun stashless repl here l1 => ⟨_, run, ?_⟩,
      fun stashless unchecked ln l1 held => ⟨_, run, ?_⟩⟩
    · exact State.loadGlobal_home stashless.2 repl here l1 n sgn d w
    · exact State.loadGlobal_held stashless.2 unchecked l1 held sgn d w
  · intro s sp pol d a o v e i n w mem issues fd fa va g bs low aligned grants ordered unstashed
    have run : exec i s = .next (s.storeGlobal g bs).advance :=
      store_global mem issues fd fa low aligned grants ordered (State.route_unstashed unstashed _ _)
    refine ⟨⟨_, run, s.storeGlobal_issued g bs⟩, fun stashless unchecked det uncached here l1 => ⟨_, run, fun k => ?_⟩,
      fun stashless unchecked cached ways => ?_⟩
    · rw [State.advance_mem, State.storeGlobal_home stashless.2 unchecked det uncached here l1]
      exact Memory.get_putN_stored _ _ _ _ _ _
    · obtain ⟨ln, found, put⟩ := State.storeGlobal_cached unchecked cached ways bs
      refine ⟨_, ln, run, (congrArg (fun c => Core.l1Line c _) (State.advance_core _ _)).trans found, fun k hk => put k ?_⟩
      rw [show bs.length = n from stored_length n s.cur d]
      exact hk
  · intro s sp a d b v e idle fa k
    obtain ⟨-, none_, -, -, -, -, stashless, -, -⟩ := id idle
    refine ⟨?_, ?_, ?_⟩
    · intro pol o i n w sgn mem issues fd va g h low aligned grants ordered distant fresh
      have run : exec i s = .next (s.loadGlobal g n sgn d w).advance :=
        load_global mem issues fd fa low aligned grants ordered (State.route_stashless stashless _ _) (State.missFull_idle none_ _ _ _)
      exact ⟨_, run, State.loadGlobal_remote idle distant (loads_some mem) fresh sgn d w⟩
    · intro pol o i n w mem issues fd va g h bs low aligned grants ordered distant uncached _
      have run : exec i s = .next (s.storeGlobal g bs).advance :=
        store_global mem issues fd fa low aligned grants ordered (State.route_stashless stashless _ _)
      obtain ⟨m, left, only, src, dst, home, tag, waits, goes⟩ :=
        State.storeGlobal_remote idle distant uncached (stored_some (stores_some mem) s.cur d)
      refine ⟨_, m, run, left, only, src, dst, home, tag, waits, fun next => ?_⟩
      obtain ⟨u, applied, umem⟩ := goes next
      refine ⟨u, applied, fun j => ?_⟩
      rw [umem]
      exact Memory.get_putN_stored _ _ _ _ _ _
    · intro sc i op w wb mem issues fd fb va n g h old low aligned grants ordered det distant wide _
      have run := atom_away mem issues fd fa fb low aligned grants ordered det idle distant wide
      obtain ⟨-, size, sizes⟩ := atoms_exec mem s
      obtain ⟨q, left, replies, only, waits, goes⟩ :=
        State.atomic_remote (b := s.cur.bVal b wb) (c := s.cur.cVal b wb) idle distant wide sizes d w
      refine ⟨_, q, run, left, replies, only, waits, fun covered next => ?_⟩
      obtain ⟨u, performed, ureq, urep, useen, umem⟩ := goes covered next
      rw [size] at urep umem
      refine ⟨u, performed, ureq, urep, useen, fun j => ?_⟩
      rw [umem]
      exact Memory.get_putN_bytesOf _ _ _ _ _

end Sys2Proof.Machine
end


section
/-! PROOF. O39 fails: the trace record of an accepted launch is written by another agent of every stash, so it writes back and drops a line
that a team has stashed of the trace buffer (R172, R336), and the teams are not those before with the launch's own added. -/

namespace Sys2Proof.Machine

/-! ## A packet that is accepted -/

/-- A packet of one team of one thread, for the object at 0x1000 (R127). -/
def plainPacket : List Byte :=
  bytesOf 8 1 ++ bytesOf 8 0x1000 ++ bytesOf 2 0 ++ bytesOf 1 1 ++ bytesOf 1 1 ++ bytesOf 2 32 ++ bytesOf 6 0 ++ bytesOf 2 1 ++ bytesOf 1 1 ++
    bytesOf 1 1 ++ bytesOf 4 1 ++ bytesOf 2 1 ++ bytesOf 2 1 ++ bytesOf 32 0 ++ bytesOf 4 64 ++ bytesOf 52 0

/-- A code object of one image with one segment of one word (R112, R114). -/
def plainHeader : List Byte :=
  bytesOf 4 0x314F435A ++ bytesOf 2 1 ++ bytesOf 2 1 ++ bytesOf 2 1 ++ bytesOf 2 64 ++ bytesOf 4 0 ++ bytesOf 8 256 ++ bytesOf 4 0 ++ bytesOf 4 0 ++
    bytesOf 4 64 ++ bytesOf 28 0
def plainTable : List Byte :=
  bytesOf 2 0x300 ++ bytesOf 2 0 ++ bytesOf 2 1 ++ bytesOf 2 1 ++ bytesOf 4 96 ++ bytesOf 4 112 ++ bytesOf 8 0 ++ bytesOf 2 0xFFFF ++ bytesOf 6 0
def plainSegments : List Byte := bytesOf 4 128 ++ bytesOf 4 4 ++ bytesOf 8 0
def plainEntries : List Byte := bytesOf 16 0
def plainImage : Image := ⟨0x1000, 0x300, 0, [(128, 4)], 0, none⟩

/-! ## A package that traces, with a line of its trace buffer stashed -/

/-- A queue with one packet, all of whose parts the front end has read. -/
def readQueue : Queue := { Queue.fresh with
  logsize := 1, tail := 1,
  memo := [(0, plainPacket), (0x1000, plainHeader), (0x1040, plainTable), (0x1060, plainSegments), (0x1070, plainEntries)] }

def readVf : Vf := { Vf.fresh 0 256 0 with diemask := 1, quotas := [(⟨0, 0⟩, 64)], queues := [readQueue] }

/-- A resident team that has stashed the line at address 0, clean. -/
def stashTeam : Team := { Team.start 7 (packetOf plainPacket) 0 with st := .resident, stash := [⟨0, 128, 0, [(0, GAddr.bare 0)], []⟩] }

/-- A ready package that traces into a buffer at address 0. -/
def tracedState : State := { State.reset with
  mgmt := { Mgmt.reset with powered := true, ready := true, dlsize := 1, trctl := 2, trlog := 1 }, vfs := [readVf], teams := [stashTeam] }

/-- What each team has stashed after a step. -/
def stashesAfter : Out → List (List StashMap)
  | .next t => t.teams.map Team.stash
  | _ => []

set_option maxRecDepth 4000 in
theorem readQueue_rd : readQueue.rd (readQueue.base + 128 * (readQueue.head.toNat % 2 ^ readQueue.logsize)) 128 = some plainPacket := rfl

set_option maxRecDepth 4000 in
/-- The packet is accepted. -/
theorem tracedState_judgePacket : tracedState.judgePacket readVf readQueue plainPacket = .accept plainImage := rfl

set_option maxRecDepth 4000 in
/-- Its service drops the stashed line. -/
theorem tracedState_packetServe : stashesAfter (exec (.packetServe 0 0) tracedState) = [[⟨0, 128, 0, [], []⟩], []] := rfl

/-- Refutes O39: a traced package accepts a packet, and a team's stashed line of the trace buffer is gone. -/
theorem not_packetsAreAppendedAndServed : ¬ Obligations.PacketsAreAppendedAndServed := by
  unfold Obligations.PacketsAreAppendedAndServed
  rintro ⟨-, -, -, -, serve⟩
  obtain ⟨-, step⟩ := serve tracedState readVf 0 rfl (by decide)
  obtain ⟨-, -, -, turn⟩ := step rfl rfl rfl rfl rfl rfl
  obtain ⟨-, -, take⟩ := turn tracedState rfl rfl rfl
  obtain ⟨accepts, -⟩ := take plainPacket rfl (by decide) readQueue_rd
  obtain ⟨t, w, y, run, -, -, -, -, -, -, -, -, -, -, -, -, teams⟩ := accepts plainImage tracedState_judgePacket rfl
  have dropped : stashesAfter (.next t) = [[⟨0, 128, 0, [], []⟩], []] := (congrArg stashesAfter run).symm.trans tracedState_packetServe
  have kept : stashesAfter (.next t) = [[⟨0, 128, 0, [(0, GAddr.bare 0)], []⟩], []] := congrArg (List.map Team.stash) teams
  rw [dropped] at kept
  exact absurd kept (by decide)

end Sys2Proof.Machine
end


section
/-! SUPPORT. Rounding to an integer in a mode (R28): what `roundAt` gives, and what an integral value rounded so is nearest to. -/

namespace Sys2Proof.Machine

/-! ## Magnitudes rounded to whole numbers -/

/-- A mode that takes the greater magnitude of a value of a sign. -/
def Outward (rm : BitVec 2) (neg : Bool) : Prop := rm = 2 ∧ neg = false ∨ rm = 3 ∧ neg = true

/-- The whole number r is the magnitude X of a value of a sign, rounded in a mode. -/
def RoundsTo (rm : BitVec 2) (neg : Bool) (X : ℝ) (r : Nat) : Prop :=
  (rm = 0 → |X - r| ≤ 1 / 2 ∧ (|X - r| = 1 / 2 → r % 2 = 0)) ∧
  (Outward rm neg → X ≤ r ∧ r < X + 1) ∧
  (rm ≠ 0 → ¬ Outward rm neg → r ≤ X ∧ X < r + 1)

theorem RoundsTo.self (rm : BitVec 2) (neg : Bool) (r : Nat) : RoundsTo rm neg r r :=
  ⟨fun _ => by norm_num, fun _ => by simp, fun _ _ => by simp⟩

/-- A whole number rounds to itself. -/
theorem RoundsTo.whole {rm : BitVec 2} {neg : Bool} {k r : Nat} (h : RoundsTo rm neg k r) : r = k := by
  obtain ⟨near, away, toward⟩ := h
  have close : (r : ℝ) < k + 1 ∧ (k : ℝ) < r + 1 := by
    by_cases zero : rm = 0
    · have := abs_le.1 (near zero).1
      constructor <;> linarith
    · by_cases out : Outward rm neg
      · have := away out
        constructor <;> linarith
      · have := toward zero out
        constructor <;> linarith
  have low : r < k + 1 := by exact_mod_cast close.1
  have high : k < r + 1 := by exact_mod_cast close.2
  omega

/-- How a fraction lies to one half. -/
def halfOrder (φ : ℝ) (cmp : Ordering) : Prop := (cmp = .lt ↔ φ < 1 / 2) ∧ (cmp = .eq ↔ φ = 1 / 2) ∧ (cmp = .gt ↔ 1 / 2 < φ)

/-- Taking the next whole number or not, as the mode, the sign and the fraction say. -/
theorem roundUp_roundsTo {rm : BitVec 2} {neg inexact : Bool} {hi : Nat} {φ : ℝ} {cmp : Ordering} (h0 : 0 ≤ φ) (h1 : φ < 1)
    (exact_ : inexact = true ↔ φ ≠ 0) (order : halfOrder φ cmp) :
    RoundsTo rm neg (hi + φ) (if roundUp rm neg (hi % 2 == 1) inexact cmp then hi + 1 else hi) := by
  obtain ⟨lt, eq, gt⟩ := order
  have modes : rm = 0 ∨ rm = 1 ∨ rm = 2 ∨ rm = 3 := by
    revert rm
    decide
  have up_ (h : φ ≠ 0) : (hi : ℝ) + φ ≤ ((hi + 1 : Nat) : ℝ) ∧ ((hi + 1 : Nat) : ℝ) < hi + φ + 1 := by
    have : 0 < φ := lt_of_le_of_ne h0 (Ne.symm h)
    push_cast
    constructor <;> linarith
  have down : (hi : ℝ) ≤ hi + φ ∧ (hi : ℝ) + φ < hi + 1 := by constructor <;> linarith
  have outward (h : Outward rm neg) (taken : roundUp rm neg (hi % 2 == 1) inexact cmp = inexact) :
      RoundsTo rm neg (hi + φ) (if roundUp rm neg (hi % 2 == 1) inexact cmp then hi + 1 else hi) := by
    have away : rm ≠ 0 := by rcases h with ⟨rfl, -⟩ | ⟨rfl, -⟩ <;> decide
    refine ⟨fun e => absurd e away, fun _ => ?_, fun _ no => absurd h no⟩
    rw [taken]
    by_cases zero : φ = 0
    · rw [if_neg (fun e => exact_.1 e zero), zero]
      simp
    · rw [if_pos (exact_.2 zero)]
      exact up_ zero
  have inward (nonzero : rm ≠ 0) (h : ¬ Outward rm neg) (taken : roundUp rm neg (hi % 2 == 1) inexact cmp = false) :
      RoundsTo rm neg (hi + φ) (if roundUp rm neg (hi % 2 == 1) inexact cmp then hi + 1 else hi) := by
    rw [taken]
    exact ⟨fun e => absurd e nonzero, fun yes => absurd yes h, fun _ _ => down⟩
  rcases modes with rfl | rfl | rfl | rfl
  · refine ⟨fun _ => ?_, fun h => by simp [Outward] at h, fun h => absurd rfl h⟩
    have taken : roundUp 0 neg (hi % 2 == 1) inexact cmp = (cmp == .gt || (cmp == .eq && (hi % 2 == 1))) := rfl
    rw [taken]
    rcases lt_trichotomy φ (1 / 2) with below | half | above
    · rw [lt.2 below]
      have : |(hi : ℝ) + φ - hi| = φ := by rw [add_sub_cancel_left, abs_of_nonneg h0]
      simp only [reduceCtorEq, beq_iff_eq, Bool.or_eq_true, Bool.and_eq_true, false_and, or_self, if_false, this]
      exact ⟨below.le, fun e => absurd e below.ne⟩
    · rw [eq.2 half]
      rcases Nat.mod_two_eq_zero_or_one hi with even | odd
      · have : |(hi : ℝ) + φ - hi| = 1 / 2 := by rw [add_sub_cancel_left, half]; norm_num
        rw [if_neg (by simp [even]), this]
        exact ⟨le_refl _, fun _ => even⟩
      · have : |(hi : ℝ) + φ - ((hi + 1 : Nat) : ℝ)| = 1 / 2 := by
          push_cast
          rw [half, show (hi : ℝ) + 1 / 2 - (hi + 1) = -(1 / 2) by ring, abs_neg]
          norm_num
        rw [if_pos (by simp [odd]), this]
        exact ⟨le_refl _, fun _ => by omega⟩
    · rw [gt.2 above]
      have : |(hi : ℝ) + φ - ((hi + 1 : Nat) : ℝ)| = 1 - φ := by
        push_cast
        rw [show (hi : ℝ) + φ - (hi + 1) = -(1 - φ) by ring, abs_neg, abs_of_nonneg (by linarith)]
      simp only [beq_self_eq_true, Bool.true_or, if_true, this]
      exact ⟨by linarith, fun e => by linarith⟩
  · exact inward (by decide) (by simp [Outward]) rfl
  · cases neg with
    | false => exact outward (Or.inl ⟨rfl, rfl⟩) (by simp [roundUp])
    | true => exact inward (by decide) (by simp [Outward]) (by simp [roundUp])
  · cases neg with
    | false => exact inward (by decide) (by simp [Outward]) (by simp [roundUp])
    | true => exact outward (Or.inr ⟨rfl, rfl⟩) (by simp [roundUp])

/-- A magnitude `m` and a fraction beyond it, none where `sticky` is not set. -/
def Beyond (sticky : Bool) (δ : ℝ) : Prop := 0 ≤ δ ∧ δ < 1 ∧ (sticky = true ↔ δ ≠ 0)

theorem Beyond.exact : Beyond false 0 := ⟨le_refl _, one_pos, by simp⟩

/-- `roundAt` rounds (m + δ) × 2^e to a multiple of 2^q, and says whether that is inexact (R28). -/
theorem roundAt_roundsTo {sticky : Bool} {δ : ℝ} (beyond : Beyond sticky δ) (rm : BitVec 2) (neg : Bool) (m : Nat) {e q : Int}
    (room : q ≤ e → sticky = false) :
    RoundsTo rm neg ((m + δ) * (2 : ℝ) ^ (e - q)) (roundAt rm neg m e sticky q).1 ∧
      ((roundAt rm neg m e sticky q).2 = true ↔ ((roundAt rm neg m e sticky q).1 : ℝ) ≠ (m + δ) * (2 : ℝ) ^ (e - q)) := by
  obtain ⟨h0, h1, hs⟩ := beyond
  unfold roundAt
  split
  · rename_i fine
    have none_ := room fine
    have zero : δ = 0 := by
      rw [none_] at hs
      simpa using hs
    have value : ((m : ℝ) + δ) * (2 : ℝ) ^ (e - q) = ((m * 2 ^ (e - q).toNat : Nat) : ℝ) := by
      rw [zero, add_zero]
      push_cast
      rw [← zpow_natCast, Int.toNat_of_nonneg (by omega)]
    rw [value, none_]
    exact ⟨RoundsTo.self _ _ _, by simp⟩
  · rename_i coarse
    obtain ⟨s, hs1, hsq⟩ : ∃ s : Nat, 1 ≤ s ∧ q - e = s := ⟨(q - e).toNat, by omega, by omega⟩
    have toNat : (q - e).toNat = s := by omega
    dsimp only
    rw [toNat]
    have pos : (0 : ℝ) < 2 ^ s := by positivity
    have split_ : (m : ℝ) = (m / 2 ^ s : Nat) * 2 ^ s + (m % 2 ^ s : Nat) := by exact_mod_cast (Nat.div_add_mod' m (2 ^ s)).symm
    have value : ((m : ℝ) + δ) * (2 : ℝ) ^ (e - q) = (m / 2 ^ s : Nat) + ((m % 2 ^ s : Nat) + δ) / 2 ^ s := by
      rw [show e - q = -(s : Int) by omega, zpow_neg, zpow_natCast, split_]
      field_simp
      ring
    have low : m % 2 ^ s < 2 ^ s := Nat.mod_lt _ (by positivity)
    have half : 2 ^ s = 2 * 2 ^ (s - 1) := by rw [← Nat.pow_succ']; congr 1; omega
    have halfR : (2 : ℝ) ^ s = 2 * 2 ^ (s - 1) := by exact_mod_cast half
    generalize m % 2 ^ s = rem at *
    generalize m / 2 ^ s = hi at *
    have lowR : (rem : ℝ) + 1 ≤ 2 ^ s := by exact_mod_cast low
    have remR : (0 : ℝ) ≤ rem := Nat.cast_nonneg _
    have φ0 : 0 ≤ ((rem : ℝ) + δ) / 2 ^ s := by positivity
    have φ1 : ((rem : ℝ) + δ) / 2 ^ s < 1 := by rw [div_lt_one pos]; linarith
    have inexact : (rem != 0 || sticky) = true ↔ ((rem : ℝ) + δ) / 2 ^ s ≠ 0 := by
      simp only [Bool.or_eq_true, bne_iff_ne, hs, ne_eq, div_eq_zero_iff, pos.ne', or_false]
      constructor
      · rintro (h | h) zero
        · have : (rem : ℝ) = 0 := by linarith
          exact h (by exact_mod_cast this)
        · exact h (by linarith)
      · intro h
        by_contra both
        obtain ⟨hr, hd⟩ := not_or.1 both
        exact h (by rw [not_not.1 hr, not_not.1 hd]; simp)
    have order : halfOrder (((rem : ℝ) + δ) / 2 ^ s) (if rem < 2 ^ (s - 1) then Ordering.lt else if rem == 2 ^ (s - 1) && !sticky then .eq else .gt) := by
      have below : ((rem : ℝ) + δ) / 2 ^ s < 1 / 2 ↔ (rem : ℝ) + δ < 2 ^ (s - 1) := by
        rw [div_lt_iff₀ pos, halfR]
        constructor <;> intro h <;> linarith
      have at_ : ((rem : ℝ) + δ) / 2 ^ s = 1 / 2 ↔ (rem : ℝ) + δ = 2 ^ (s - 1) := by
        rw [div_eq_iff pos.ne', halfR]
        constructor <;> intro h <;> linarith
      have above : 1 / 2 < ((rem : ℝ) + δ) / 2 ^ s ↔ 2 ^ (s - 1) < (rem : ℝ) + δ := by
        rw [lt_div_iff₀ pos, halfR]
        constructor <;> intro h <;> linarith
      rw [halfOrder, below, at_, above]
      rcases Nat.lt_trichotomy rem (2 ^ (s - 1)) with less | same | more
      · have : (rem : ℝ) + 1 ≤ 2 ^ (s - 1) := by exact_mod_cast less
        rw [if_pos less]
        exact ⟨by simp; linarith, by simp; exact ne_of_lt (by linarith), by simp; linarith⟩
      · have : (rem : ℝ) = 2 ^ (s - 1) := by exact_mod_cast same
        have beq : (rem == 2 ^ (s - 1)) = true := beq_iff_eq.2 same
        rw [if_neg (by omega), beq, this]
        cases sticky with
        | false =>
          have zero : δ = 0 := by simpa using hs
          simp [zero]
        | true =>
          have some_ : 0 < δ := lt_of_le_of_ne h0 (Ne.symm (hs.1 rfl))
          simp [some_, some_.ne', h0]
      · have : (2 : ℝ) ^ (s - 1) + 1 ≤ rem := by exact_mod_cast more
        have other : (rem == 2 ^ (s - 1)) = false := beq_eq_false_iff_ne.2 (by omega)
        rw [if_neg (by omega), other]
        exact ⟨by simp; linarith, by simp; exact ne_of_gt (by linarith), by simp; linarith⟩
    rw [value]
    have rounds := roundUp_roundsTo (rm := rm) (neg := neg) (hi := hi) φ0 φ1 inexact order
    refine ⟨rounds, inexact.trans ?_⟩
    generalize ((rem : ℝ) + δ) / 2 ^ s = φ at φ0 φ1 rounds ⊢
    generalize (if roundUp rm neg (hi % 2 == 1) (rem != 0 || sticky) _ then hi + 1 else hi) = r at rounds ⊢
    constructor
    · intro some_ same
      have above : 0 < φ := lt_of_le_of_ne φ0 (Ne.symm some_)
      have low : hi < r := by exact_mod_cast (by linarith : (hi : ℝ) < r)
      have high : r < hi + 1 := by exact_mod_cast (by linarith : (r : ℝ) < hi + 1)
      omega
    · intro other zero
      rw [zero, add_zero] at rounds other
      exact other (by rw [rounds.whole])

end Sys2Proof.Machine
end


section
/-! SUPPORT. A value rounded to an integer in a mode is the nearest in that mode of all values of a coarser grid (R28). -/

namespace Sys2Proof.Machine

/-! ## Signed values -/

/-- A magnitude with a sign. -/
def withSign (neg : Bool) (X : ℝ) : ℝ := if neg then -X else X

theorem cast_signed (neg : Bool) (r : Nat) : ((signed neg r : Int) : ℝ) = withSign neg r := by
  cases neg <;> simp [signed, withSign]

theorem abs_withSign {neg : Bool} {X : ℝ} (h : 0 ≤ X) : |withSign neg X| = X := by
  cases neg
  · exact abs_of_nonneg h
  · exact (abs_neg X).trans (abs_of_nonneg h)

theorem withSign_mul (neg : Bool) (X u : ℝ) : withSign neg X * u = withSign neg (X * u) := by
  cases neg <;> simp [withSign]

theorem withSign_inj {neg : Bool} {X Y : ℝ} : withSign neg X = withSign neg Y ↔ X = Y := by
  cases neg <;> simp [withSign]

theorem withSign_neg_iff {neg : Bool} {X : ℝ} (h : 0 < X) : withSign neg X < 0 ↔ neg = true := by
  cases neg
  · simp [withSign, h.le]
  · simp [withSign, h]

theorem signed_even (neg : Bool) (r : Nat) : signed neg r % 2 = 0 ↔ r % 2 = 0 := by
  cases neg <;> simp only [signed, if_true, Bool.false_eq_true, if_false] <;> omega

/-- A magnitude rounded as the mode says of its sign is its value rounded in that mode. -/
theorem RoundsTo.integral {rm : BitVec 2} {neg : Bool} {X : ℝ} {r : Nat} (h0 : 0 ≤ X) (h : RoundsTo rm neg X r) :
    Integral rm (withSign neg X) (signed neg r) := by
  obtain ⟨near, away, toward⟩ := h
  have diff : |withSign neg X - withSign neg r| = |X - r| := by
    cases neg
    · rfl
    · simp only [withSign, if_true]
      rw [show -X - -(r : ℝ) = -(X - r) by ring, abs_neg]
  have r0 : (0 : ℝ) ≤ r := Nat.cast_nonneg r
  rw [Integral, cast_signed, diff, signed_even]
  refine ⟨near, fun one => ?_, fun two => ?_, fun three => ?_⟩
  · have in_ := toward (by rw [one]; decide) (by rw [one]; simp [Outward])
    rw [abs_withSign h0, abs_withSign r0]
    refine ⟨?_, in_⟩
    cases neg
    · exact mul_nonneg r0 h0
    · simpa [withSign] using mul_nonneg r0 h0
  · cases neg with
    | false => exact away (Or.inl ⟨two, rfl⟩)
    | true =>
      have in_ := toward (by rw [two]; decide) (by rw [two]; simp [Outward])
      simp only [withSign, if_true]
      constructor <;> linarith
  · cases neg with
    | false =>
      have in_ := toward (by rw [three]; decide) (by rw [three]; simp [Outward])
      simpa [withSign] using in_
    | true =>
      have out := away (Or.inr ⟨three, rfl⟩)
      simp only [withSign, if_true]
      constructor <;> linarith

/-! ## The nearest in a mode -/

/-- η is the best for ξ in a mode against ζ: of two equally near ones it is the other only where `even` holds. -/
def Best (rm : BitVec 2) (ξ η ζ : ℝ) (even : Prop) : Prop :=
  (rm = 0 → |ξ - η| ≤ |ξ - ζ| ∧ (|ξ - η| = |ξ - ζ| → ζ ≠ η → even)) ∧
  (rm = 1 → |η| ≤ |ξ| ∧ (|ζ| ≤ |ξ| → |ζ| ≤ |η|)) ∧
  (rm = 2 → ξ ≤ η ∧ (ξ ≤ ζ → η ≤ ζ)) ∧
  (rm = 3 → η ≤ ξ ∧ (ζ ≤ ξ → ζ ≤ η))

/-- The scale does not matter. -/
theorem Best.scale {rm : BitVec 2} {ξ η ζ : ℝ} {even : Prop} (h : Best rm ξ η ζ even) {u : ℝ} (hu : 0 < u) :
    Best rm (ξ * u) (η * u) (ζ * u) even := by
  have size (a : ℝ) : |a * u| = |a| * u := by rw [abs_mul, abs_of_pos hu]
  obtain ⟨zero, one, two, three⟩ := h
  refine ⟨fun e => ?_, fun e => ?_, fun e => ?_, fun e => ?_⟩
  · rw [← sub_mul, ← sub_mul, size, size, mul_le_mul_iff_left₀ hu, mul_left_inj' hu.ne', ne_eq, mul_left_inj' hu.ne']
    exact zero e
  · rw [size, size, size, mul_le_mul_iff_left₀ hu, mul_le_mul_iff_left₀ hu, mul_le_mul_iff_left₀ hu]
    exact one e
  · rw [mul_le_mul_iff_left₀ hu, mul_le_mul_iff_left₀ hu, mul_le_mul_iff_left₀ hu]
    exact two e
  · rw [mul_le_mul_iff_left₀ hu, mul_le_mul_iff_left₀ hu, mul_le_mul_iff_left₀ hu]
    exact three e

/-- Two integers less than one apart are one. -/
theorem int_le_of_lt_add_one {a b : Int} (h : (a : ℝ) < b + 1) : (a : ℝ) ≤ b := by
  have : a < b + 1 := by exact_mod_cast h
  exact_mod_cast Int.lt_add_one_iff.1 this

/-- A value rounded to an integer is the best of the integers. -/
theorem Integral.best {rm : BitVec 2} {ξ : ℝ} {n : Int} (h : Integral rm ξ n) (k : Int) : Best rm ξ n k (n % 2 = 0) := by
  obtain ⟨zero, one, two, three⟩ := h
  refine ⟨fun e => ?_, fun e => ?_, fun e => ?_, fun e => ?_⟩
  · obtain ⟨near, tie⟩ := zero e
    by_cases same : k = n
    · rw [same]
      exact ⟨le_refl _, fun _ other => absurd rfl other⟩
    · have apart : (1 : ℝ) ≤ |(n : ℝ) - k| := by
        have : (1 : Int) ≤ |n - k| := Int.one_le_abs (by omega)
        exact_mod_cast this
      have sum : |(n : ℝ) - k| ≤ |ξ - n| + |ξ - k| := by
        rw [abs_sub_comm ξ n]
        exact abs_sub_le _ _ _
      exact ⟨by linarith, fun equal _ => tie (by linarith)⟩
  · obtain ⟨-, low, high⟩ := one e
    refine ⟨low, fun within => ?_⟩
    have := int_le_of_lt_add_one (a := |k|) (b := |n|) (by push_cast; linarith)
    push_cast at this
    exact this
  · obtain ⟨low, high⟩ := two e
    exact ⟨low, fun within => int_le_of_lt_add_one (by linarith)⟩
  · obtain ⟨low, high⟩ := three e
    exact ⟨low, fun within => int_le_of_lt_add_one (by linarith)⟩

/-- It is better than every value smaller than a whole number that the value itself reaches. -/
theorem Integral.best_small {rm : BitVec 2} {ξ ζ : ℝ} {n : Int} (h : Integral rm ξ n) (P : Nat) (small : |ζ| < P) (reaches : P ≤ |ξ|) :
    Best rm ξ n ζ (n % 2 = 0) := by
  rcases le_total 0 ξ with pos | neg
  · have other := h.best P
    rw [Int.cast_natCast] at other
    obtain ⟨zero, one, two, three⟩ := other
    rw [abs_of_nonneg pos] at reaches
    obtain ⟨lower, upper⟩ := abs_lt.1 small
    have whole : |(P : ℝ)| = P := abs_of_nonneg (Nat.cast_nonneg P)
    refine ⟨fun e => ?_, fun e => ?_, fun e => ?_, fun e => ?_⟩
    · have near := (zero e).1
      have gap : |ξ - P| < |ξ - ζ| := by rw [abs_of_nonneg (by linarith), abs_of_nonneg (by linarith)]; linarith
      exact ⟨by linarith, fun equal => absurd equal (by linarith [near, gap] : |ξ - n| < |ξ - ζ|).ne⟩
    · refine ⟨(one e).1, fun _ => ?_⟩
      have := (one e).2 (by rw [whole, abs_of_nonneg pos]; exact reaches)
      rw [whole] at this
      linarith
    · exact ⟨(two e).1, fun within => absurd within (by linarith)⟩
    · have := (three e).2 reaches
      exact ⟨(three e).1, fun _ => by linarith⟩
  · have other := h.best (-P)
    push_cast at other
    obtain ⟨zero, one, two, three⟩ := other
    rw [abs_of_nonpos neg] at reaches
    obtain ⟨lower, upper⟩ := abs_lt.1 small
    have whole : |-(P : ℝ)| = P := by rw [abs_neg, abs_of_nonneg (Nat.cast_nonneg P)]
    refine ⟨fun e => ?_, fun e => ?_, fun e => ?_, fun e => ?_⟩
    · have near := (zero e).1
      have gap : |ξ - -P| < |ξ - ζ| := by rw [abs_of_nonpos (by linarith), abs_of_nonpos (by linarith)]; linarith
      exact ⟨by linarith, fun equal => absurd equal (by linarith [near, gap] : |ξ - n| < |ξ - ζ|).ne⟩
    · refine ⟨(one e).1, fun _ => ?_⟩
      have := (one e).2 (by rw [whole, abs_of_nonpos neg]; exact reaches)
      rw [whole] at this
      linarith
    · have := (two e).2 (by linarith)
      exact ⟨(two e).1, fun _ => by linarith⟩
    · exact ⟨(three e).1, fun within => absurd within (by linarith)⟩

/-! ## Where the next power of two is reached -/

/-- Which magnitudes below 2P a mode rounds up to 2P. -/
theorem RoundsTo.double {rm : BitVec 2} {neg : Bool} {X : ℝ} {r P : Nat} (h : RoundsTo rm neg X r) (hi : X < 2 * P) (hP : 0 < P) :
    r = 2 * P ↔ rm = 0 ∧ 2 * P - 1 / 2 ≤ X ∨ Outward rm neg ∧ 2 * P - 1 < X := by
  obtain ⟨near, away, toward⟩ := h
  have cast (e : r = 2 * P) : (r : ℝ) = 2 * P := by exact_mod_cast e
  have odd : (2 * P - 1) % 2 = 1 := by omega
  by_cases zero : rm = 0
  · have out : ¬ Outward rm neg := by simp [Outward, zero]
    obtain ⟨close, tie⟩ := near zero
    rw [and_iff_right zero, or_iff_left (fun h => out h.1)]
    obtain ⟨low, high⟩ := abs_le.1 close
    constructor
    · intro e
      rw [cast e] at low
      linarith
    · intro reach
      have below : r < 2 * P + 1 := by exact_mod_cast (by linarith : (r : ℝ) < 2 * P + 1)
      have above : 2 * P - 1 ≤ r := by
        have : 2 * P ≤ r + 1 := by exact_mod_cast (by linarith : (2 * P : ℝ) ≤ r + 1)
        omega
      rcases Nat.lt_or_ge r (2 * P) with less | more
      · have r_ : r = 2 * P - 1 := by omega
        have rR : (r : ℝ) = 2 * P - 1 := by
          rw [r_, Nat.cast_sub (by omega)]
          push_cast
          ring
        have : r % 2 = 0 := tie (by rw [abs_of_nonneg (by linarith)]; linarith)
        omega
      · omega
  · simp only [zero, false_and, false_or]
    by_cases out : Outward rm neg
    · obtain ⟨low, high⟩ := away out
      simp only [out, true_and]
      constructor
      · intro e
        rw [cast e] at high
        linarith
      · intro reach
        have below : r < 2 * P + 1 := by exact_mod_cast (by linarith : (r : ℝ) < 2 * P + 1)
        have above : 2 * P < r + 1 := by exact_mod_cast (by linarith : (2 * P : ℝ) < r + 1)
        omega
    · obtain ⟨low, high⟩ := toward zero out
      simp only [out, false_and, iff_false]
      intro e
      rw [cast e] at low
      linarith

/-- A magnitude of at least P and below 2P rounds to a number from P to 2P. -/
theorem RoundsTo.bounds {rm : BitVec 2} {neg : Bool} {X : ℝ} {r P : Nat} (h : RoundsTo rm neg X r) :
    ((P : ℝ) ≤ X → P ≤ r) ∧ (X < P → r ≤ P) := by
  obtain ⟨near, away, toward⟩ := h
  have close : X < r + 1 ∧ (r : ℝ) < X + 1 := by
    by_cases zero : rm = 0
    · obtain ⟨low, high⟩ := abs_le.1 (near zero).1
      constructor <;> linarith
    · by_cases out : Outward rm neg
      · have := away out
        constructor <;> linarith
      · have := toward zero out
        constructor <;> linarith
  constructor
  · intro low
    have : P < r + 1 := by exact_mod_cast (by linarith : (P : ℝ) < r + 1)
    omega
  · intro high
    have : r < P + 1 := by exact_mod_cast (by linarith : (r : ℝ) < P + 1)
    omega

end Sys2Proof.Machine
end


section
/-! SUPPORT. The bits of a format and the numbers they stand for (R27). -/

namespace Sys2Proof.Machine

/-- What the four formats share that the arithmetic needs: more than one exponent bit and a fraction bit. -/
def Fmt.Proper (f : Fmt) : Prop := 2 ≤ f.ew ∧ 1 ≤ f.fw

theorem Fmt.proper_of_formats {f : Fmt} (h : f ∈ formats) : f.Proper := by
  simp only [formats, List.mem_cons, List.not_mem_nil, or_false] at h
  rcases h with rfl | rfl | rfl | rfl <;> exact ⟨by decide, by decide⟩

theorem Fmt.proper_f32 : f32.Proper := ⟨by decide, by decide⟩

/-! ## Fields -/

theorem Fmt.fields {f : Fmt} {S E F : Nat} (hE : E < 2 ^ f.ew) (hF : F < 2 ^ f.fw) :
    let b := S * 2 ^ (f.ew + f.fw) + (E * 2 ^ f.fw + F)
    f.exOf b = E ∧ f.frOf b = F ∧ b / 2 ^ (f.ew + f.fw) = S := by
  intro b
  have hb : b = (S * 2 ^ f.ew + E) * 2 ^ f.fw + F := by
    simp only [b, pow_add]
    ring
  have upper : b / 2 ^ f.fw = S * 2 ^ f.ew + E := by
    rw [hb, Nat.mul_comm, Nat.mul_add_div (by positivity), Nat.div_eq_of_lt hF, Nat.add_zero]
  refine ⟨?_, ?_, ?_⟩
  · rw [Fmt.exOf, upper, Nat.mul_comm, Nat.mul_add_mod, Nat.mod_eq_of_lt hE]
  · rw [Fmt.frOf, hb, Nat.mul_comm, Nat.mul_add_mod, Nat.mod_eq_of_lt hF]
  · rw [pow_add, Nat.mul_comm (2 ^ f.ew), ← Nat.div_div_eq_div_mul, upper, Nat.mul_comm, Nat.mul_add_div (by positivity),
      Nat.div_eq_of_lt hE, Nat.add_zero]

/-- The whole part and the exponent of the number bits stand for, and their sign. -/
def Fmt.whole (f : Fmt) (b : Nat) : Nat := if f.exOf b = 0 then f.frOf b else 2 ^ f.fw + f.frOf b
def Fmt.quantum (f : Fmt) (b : Nat) : Int := if f.exOf b = 0 then f.qmin else f.qmin + f.exOf b - 1
def Fmt.sign (f : Fmt) (b : Nat) : Bool := decide (f.minus b)

theorem Fmt.emin_eq {f : Fmt} (h : f.Proper) : f.emin = f.qmin + f.fw := by
  obtain ⟨he, -⟩ := h
  have : (1 : Int) ≤ 2 ^ (f.ew - 1) := by exact_mod_cast Nat.one_le_two_pow
  unfold Fmt.emin Fmt.qmin Fmt.bias
  push_cast [Nat.one_le_two_pow]
  ring

theorem Fmt.whole_lt (f : Fmt) (b : Nat) : f.whole b < 2 ^ (f.fw + 1) := by
  have : f.frOf b < 2 ^ f.fw := Nat.mod_lt _ (by positivity)
  unfold Fmt.whole
  rw [pow_succ]
  split <;> omega

theorem Fmt.qmin_le_quantum (f : Fmt) (b : Nat) : f.qmin ≤ f.quantum b := by
  unfold Fmt.quantum
  split <;> omega

theorem neg_one_pow_sign (f : Fmt) (b : Nat) (X : ℝ) : (-1) ^ (b / 2 ^ (f.ew + f.fw) % 2) * X = withSign (f.sign b) X := by
  unfold Fmt.sign withSign Fmt.minus
  rcases Nat.mod_two_eq_zero_or_one (b / 2 ^ (f.ew + f.fw)) with h | h <;> simp [h]

/-- The number that bits stand for (R27). -/
theorem Fmt.holds_iff {f : Fmt} (h : f.Proper) (b : Nat) (y : ℝ) :
    f.holds b y ↔ f.exOf b ≠ 2 ^ f.ew - 1 ∧ y = withSign (f.sign b) (f.whole b * (2 : ℝ) ^ f.quantum b) := by
  have two : (2 : ℝ) ≠ 0 := by norm_num
  have frac : (2 : ℝ) ^ (f.fw : Int) ≠ 0 := by positivity
  have value : (if f.exOf b = 0 then (f.frOf b : ℝ) / 2 ^ f.fw * (2 : ℝ) ^ f.emin
      else (1 + (f.frOf b : ℝ) / 2 ^ f.fw) * (2 : ℝ) ^ (f.emin + f.exOf b - 1)) = f.whole b * (2 : ℝ) ^ f.quantum b := by
    unfold Fmt.whole Fmt.quantum
    rw [Fmt.emin_eq h]
    split
    · rw [zpow_add₀ two, zpow_natCast]
      field_simp
    · rw [show f.qmin + f.fw + f.exOf b - 1 = f.qmin + f.exOf b - 1 + f.fw by ring, zpow_add₀ two (f.qmin + f.exOf b - 1), zpow_natCast]
      push_cast
      field_simp
  rw [Fmt.holds, value, neg_one_pow_sign]

/-- Bits stand for one number at most. -/
theorem Fmt.holds_unique {f : Fmt} (h : f.Proper) {b : Nat} {x y : ℝ} (hx : f.holds b x) (hy : f.holds b y) : x = y := by
  rw [Fmt.holds_iff h] at hx hy
  exact hx.2.trans hy.2.symm

/-! ## Reading -/

theorem Fmt.read_eq (f : Fmt) (b : Nat) : f.read b =
    if f.exOf b = 2 ^ f.ew - 1 then (if f.frOf b = 0 then .inf (f.sign b) else .nan (f.frOf b / 2 ^ (f.fw - 1) == 0))
    else .fin (f.sign b) (f.whole b) (f.quantum b) := by
  have sign : (b / f.signBit % 2 == 1) = f.sign b := by
    rw [Bool.eq_iff_iff, beq_iff_eq]
    exact (decide_eq_true_iff (p := f.minus b)).symm
  unfold Fmt.read
  dsimp only
  rw [sign]
  by_cases top : f.exOf b = 2 ^ f.ew - 1
  · rw [if_pos top, if_pos top]
  · rw [if_neg top, if_neg top]
    unfold Fmt.whole Fmt.quantum
    by_cases zero : f.exOf b = 0
    · rw [if_pos zero, if_pos zero, if_pos zero]
    · rw [if_neg zero, if_neg zero, if_neg zero]

theorem Fmt.read_fin {f : Fmt} (h : f.Proper) {b : Nat} {x : ℝ} (hx : f.holds b x) :
    f.read b = .fin (f.sign b) (f.whole b) (f.quantum b) ∧ x = withSign (f.sign b) (f.whole b * (2 : ℝ) ^ f.quantum b) := by
  obtain ⟨finite, value⟩ := (Fmt.holds_iff h b x).1 hx
  exact ⟨by rw [Fmt.read_eq, if_neg finite], value⟩

theorem Fmt.read_inf {f : Fmt} {b : Nat} (h : f.isInf b) : f.read b = .inf (f.sign b) := by
  rw [Fmt.read_eq, if_pos h.1, if_pos h.2]

theorem Fmt.read_nan {f : Fmt} {b : Nat} (h : f.isNaN b) : f.read b = .nan (decide (f.isSNaN b)) := by
  rw [Fmt.read_eq, if_pos h.1, if_neg h.2]
  congr 1
  rw [Bool.eq_iff_iff, beq_iff_eq, decide_eq_true_eq, Nat.div_eq_zero_iff_lt (by positivity)]
  exact ⟨fun low => ⟨h, low⟩, fun s => s.2⟩

/-- A non-zero magnitude stands for a non-zero number. -/
theorem withSign_eq_zero {neg : Bool} {m : Nat} {e : Int} : withSign neg (m * (2 : ℝ) ^ e) = 0 ↔ m = 0 := by
  have : ((2 : ℝ) ^ e) ≠ 0 := by positivity
  cases neg <;> simp [withSign, this]

/-! ## The grid -/

/-- Every number of a format is a multiple of a power of two, or less than 2^fw times it. -/
theorem Fmt.holds_grid {f : Fmt} (h : f.Proper) {b : Nat} {z : ℝ} (hz : f.holds b z) {q : Int} (least : f.qmin ≤ q) :
    (∃ k : Int, z = k * (2 : ℝ) ^ q) ∨ f.qmin < q ∧ |z| < (2 ^ f.fw : Nat) * (2 : ℝ) ^ q := by
  obtain ⟨-, value⟩ := (Fmt.holds_iff h b z).1 hz
  have low := f.qmin_le_quantum b
  rcases le_or_gt q (f.quantum b) with coarse | fine
  · left
    refine ⟨signed (f.sign b) (f.whole b * 2 ^ (f.quantum b - q).toNat), ?_⟩
    rw [value, cast_signed, withSign_mul]
    congr 1
    push_cast
    rw [← zpow_natCast, Int.toNat_of_nonneg (by omega), mul_assoc, ← zpow_add₀ (by norm_num)]
    congr 2
    ring
  · right
    have whole : (f.whole b : ℝ) < 2 ^ (f.fw + 1) := by exact_mod_cast f.whole_lt b
    refine ⟨by omega, ?_⟩
    rw [value, abs_withSign (by positivity)]
    calc (f.whole b : ℝ) * (2 : ℝ) ^ f.quantum b < 2 ^ (f.fw + 1) * (2 : ℝ) ^ f.quantum b := by gcongr
      _ ≤ 2 ^ (f.fw + 1) * (2 : ℝ) ^ (q - 1) := by gcongr <;> [norm_num; omega]
      _ = (2 ^ f.fw : Nat) * (2 : ℝ) ^ q := by
        rw [pow_succ, mul_assoc, ← zpow_one_add₀ (by norm_num)]
        push_cast
        congr 2
        ring

/-- The exponent of the unit in the last place of the greatest number. -/
def Fmt.top (f : Fmt) : Int := f.qmin + 2 ^ f.ew - 3

theorem Fmt.qmin_lt_top {f : Fmt} (h : f.Proper) : f.qmin < f.top := by
  have : (2 : Int) ^ 2 ≤ 2 ^ f.ew := by exact_mod_cast Nat.pow_le_pow_right (by omega) h.1
  unfold Fmt.top
  omega

theorem Fmt.greatest_iff {f : Fmt} (h : f.Proper) (y : ℝ) : f.greatest y ↔ y = (2 * (2 ^ f.fw : Nat) - 1) * (2 : ℝ) ^ f.top := by
  have : (2 - 1 / 2 ^ f.fw) * (2 : ℝ) ^ (f.emin + 2 ^ f.ew - 3) = (2 * (2 ^ f.fw : Nat) - 1) * (2 : ℝ) ^ f.top := by
    rw [Fmt.emin_eq h, show f.qmin + f.fw + 2 ^ f.ew - 3 = f.top + f.fw by unfold Fmt.top; ring, zpow_add₀ (by norm_num), zpow_natCast]
    push_cast
    field_simp
  rw [Fmt.greatest, this]

theorem Fmt.next_iff {f : Fmt} (h : f.Proper) (y : ℝ) : f.next y ↔ y = 2 * (2 ^ f.fw : Nat) * (2 : ℝ) ^ f.top := by
  have : 2 * (2 : ℝ) ^ (f.emin + 2 ^ f.ew - 3) = 2 * (2 ^ f.fw : Nat) * (2 : ℝ) ^ f.top := by
    rw [Fmt.emin_eq h, show f.qmin + f.fw + 2 ^ f.ew - 3 = f.fw + f.top by unfold Fmt.top; ring, zpow_add₀ (by norm_num), zpow_natCast]
    push_cast
    ring
  rw [Fmt.next, this]

/-- No number of a format is greater than its greatest. -/
theorem Fmt.holds_le_greatest {f : Fmt} (h : f.Proper) {b : Nat} {z : ℝ} (hz : f.holds b z) :
    |z| ≤ (2 * (2 ^ f.fw : Nat) - 1) * (2 : ℝ) ^ f.top := by
  obtain ⟨finite, value⟩ := (Fmt.holds_iff h b z).1 hz
  have whole : (f.whole b : ℝ) ≤ 2 * (2 ^ f.fw : Nat) - 1 := by
    have := f.whole_lt b
    rw [pow_succ, Nat.mul_comm] at this
    have : ((f.whole b + 1 : Nat) : ℝ) ≤ ((2 * 2 ^ f.fw : Nat) : ℝ) := by exact_mod_cast this
    push_cast at this ⊢
    linarith
  have low : f.quantum b ≤ f.top := by
    have small : f.exOf b < 2 ^ f.ew := Nat.mod_lt _ (by positivity)
    have : f.exOf b ≤ 2 ^ f.ew - 2 := by omega
    have four : 2 ^ 2 ≤ 2 ^ f.ew := Nat.pow_le_pow_right (by omega) h.1
    have cast : ((f.exOf b : Nat) : Int) ≤ 2 ^ f.ew - 2 := by
      have : (f.exOf b : Int) ≤ ((2 ^ f.ew - 2 : Nat) : Int) := by exact_mod_cast this
      rw [Nat.cast_sub (by omega)] at this
      push_cast at this
      exact this
    have gap := Fmt.qmin_lt_top h
    unfold Fmt.quantum Fmt.top at *
    split <;> omega
  rw [value, abs_withSign (by positivity)]
  have : (0 : ℝ) ≤ 2 * (2 ^ f.fw : Nat) - 1 := le_trans (Nat.cast_nonneg _) whole
  calc (f.whole b : ℝ) * (2 : ℝ) ^ f.quantum b ≤ (2 * (2 ^ f.fw : Nat) - 1) * (2 : ℝ) ^ f.quantum b := by gcongr
    _ ≤ (2 * (2 ^ f.fw : Nat) - 1) * (2 : ℝ) ^ f.top := by gcongr; norm_num

/-! ## Bits put together -/

theorem Fmt.zero_eq (f : Fmt) (neg : Bool) : f.zero neg = (if neg then 1 else 0) * 2 ^ (f.ew + f.fw) := by
  cases neg <;> simp [Fmt.zero, Fmt.signBit]

/-- Bits made of a sign and the two fields. -/
theorem Fmt.bits_spec {f : Fmt} (h : f.Proper) {neg : Bool} {E F : Nat} (hE : E < 2 ^ f.ew) (hF : F < 2 ^ f.fw) :
    let b := f.zero neg + (E * 2 ^ f.fw + F)
    f.exOf b = E ∧ f.frOf b = F ∧ f.sign b = neg ∧ b < 2 ^ (f.ew + f.fw + 1) ∧ b % 2 = F % 2 := by
  intro b
  have hb : b = (if neg then 1 else 0) * 2 ^ (f.ew + f.fw) + (E * 2 ^ f.fw + F) := by simp only [b, Fmt.zero_eq]
  obtain ⟨ex, fr, s⟩ := Fmt.fields (f := f) (S := if neg then 1 else 0) hE hF
  rw [← hb] at ex fr s
  have body : E * 2 ^ f.fw + F < 2 ^ (f.ew + f.fw) := by
    rw [pow_add]
    calc E * 2 ^ f.fw + F < E * 2 ^ f.fw + 2 ^ f.fw := by omega
      _ = (E + 1) * 2 ^ f.fw := by ring
      _ ≤ 2 ^ f.ew * 2 ^ f.fw := Nat.mul_le_mul_right _ hE
  refine ⟨ex, fr, ?_, ?_, ?_⟩
  · unfold Fmt.sign Fmt.minus
    rw [s]
    cases neg <;> simp
  · rw [hb, pow_succ]
    cases neg
    · simp only [Bool.false_eq_true, if_false]
      omega
    · simp only [if_true]
      omega
  · obtain ⟨w, hw⟩ : ∃ w, f.fw = w + 1 := ⟨f.fw - 1, by have := h.2; omega⟩
    rw [hb, hw, show f.ew + (w + 1) = (f.ew + w) + 1 by omega, pow_succ, pow_succ, ← Nat.mul_assoc, ← Nat.mul_assoc]
    omega

end Sys2Proof.Machine
end


section
/-! SUPPORT. A magnitude rounded once to a format (R28, R30). -/

namespace Sys2Proof.Machine

/-! ## The result of a rounded magnitude -/

/-- The bits and flags of r × 2^q once it is rounded to the format's last place. -/
def Fmt.deliver (f : Fmt) (rm : BitVec 2) (neg : Bool) (r : Nat) (q : Int) (inexact tiny : Bool) : FRes :=
  let (r, q) := if r = 2 ^ (f.fw + 1) then (2 ^ f.fw, q + 1) else (r, q)
  let ex := if r < 2 ^ f.fw then 0 else (q - f.qmin + 1).toNat
  if 2 ^ f.ew - 1 ≤ ex then ⟨f.overflow rm neg, fOF ||| fNX⟩
  else ⟨f.zero neg + (if ex = 0 then r else ex * 2 ^ f.fw + (r - 2 ^ f.fw)),
        (if inexact then fNX else 0) ||| (if tiny && inexact then fUF else 0)⟩

/-- The last place of a magnitude of a whole part in a format without a least exponent, and in the format. -/
def Fmt.place (f : Fmt) (m : Nat) (e : Int) : Int := e + (m.log2 : Int) - f.fw
def Fmt.lastPlace (f : Fmt) (m : Nat) (e : Int) : Int := if f.place m e < f.qmin then f.qmin else f.place m e

theorem Fmt.round_eq {f : Fmt} {m : Nat} (pos : 0 < m) (rm : BitVec 2) (neg : Bool) (e : Int) (sticky : Bool) :
    f.round rm neg m e sticky = f.deliver rm neg (roundAt rm neg m e sticky (f.lastPlace m e)).1 (f.lastPlace m e)
      (roundAt rm neg m e sticky (f.lastPlace m e)).2
      (f.place m e < f.qmin && !(f.place m e + 1 == f.qmin && (roundAt rm neg m e sticky (f.place m e)).1 == 2 ^ (f.fw + 1))) := by
  unfold Fmt.round
  rw [if_neg (by omega)]
  rfl

section
variable {f : Fmt} (h : f.Proper)
include h

/-- A rounded magnitude is beyond the format. -/
def Fmt.Over (f : Fmt) (r : Nat) (q : Int) : Prop := f.top < q ∨ q = f.top ∧ r = 2 * 2 ^ f.fw

/-- What a rounded magnitude within the format delivers: bits that stand for it. -/
theorem Fmt.deliver_within {r : Nat} {q : Int} (least : f.qmin ≤ q) (normal : q = f.qmin ∨ 2 ^ f.fw ≤ r) (bound : r ≤ 2 * 2 ^ f.fw)
    (within : ¬ f.Over r q) (rm : BitVec 2) (neg inexact tiny : Bool) :
    let d := f.deliver rm neg r q inexact tiny
    f.holds d.bits (withSign neg (r * (2 : ℝ) ^ q)) ∧ f.sign d.bits = neg ∧ d.bits < 2 ^ (f.ew + f.fw + 1) ∧ d.bits % 2 = r % 2 ∧
      d.flags = (if inexact then fNX else 0) ||| (if tiny && inexact then fUF else 0) := by
  have four : 2 ^ 2 ≤ 2 ^ f.ew := Nat.pow_le_pow_right (by omega) h.1
  have cast : ((2 ^ f.ew : Nat) : Int) = 2 ^ f.ew := by push_cast; rfl
  have evenP : 2 ^ f.fw % 2 = 0 := by
    obtain ⟨w, hw⟩ : ∃ w, f.fw = w + 1 := ⟨f.fw - 1, by have := h.2; omega⟩
    rw [hw, pow_succ]
    omega
  have one : 1 ≤ 2 ^ f.fw := Nat.one_le_two_pow
  obtain ⟨below, notTop⟩ := not_or.1 within
  have gap := Fmt.qmin_lt_top h
  -- the magnitude as a normalized one
  obtain ⟨r', q', value, parity, low, least', normal', exLow, same⟩ : ∃ (r' : Nat) (q' : Int), (r' : ℝ) * (2 : ℝ) ^ q' = r * (2 : ℝ) ^ q ∧
      r' % 2 = r % 2 ∧ r' < 2 * 2 ^ f.fw ∧ f.qmin ≤ q' ∧ (q' = f.qmin ∨ 2 ^ f.fw ≤ r') ∧ q' ≤ f.top ∧
      (if r = 2 ^ (f.fw + 1) then (2 ^ f.fw, q + 1) else (r, q)) = (r', q') := by
    by_cases full : r = 2 * 2 ^ f.fw
    · refine ⟨2 ^ f.fw, q + 1, ?_, by omega, by omega, by omega, Or.inr (le_refl _), ?_, if_pos (by rw [pow_succ]; omega)⟩
      · rw [full, zpow_add_one₀ (by norm_num)]
        push_cast
        ring
      · have : q ≠ f.top := fun e => notTop ⟨e, full⟩
        omega
    · exact ⟨r, q, rfl, rfl, by omega, least, normal, by omega, if_neg (by rw [pow_succ]; omega)⟩
  unfold Fmt.deliver
  rw [same]
  dsimp only
  unfold Fmt.top at exLow gap
  rw [← cast] at exLow gap
  by_cases sub : r' < 2 ^ f.fw
  · have q_ : q' = f.qmin := by omega
    rw [if_pos sub, if_neg (by omega), if_pos rfl]
    obtain ⟨ex, fr, sign, size, odd⟩ := Fmt.bits_spec h (neg := neg) (E := 0) (F := r') (by positivity) sub
    rw [Nat.zero_mul, Nat.zero_add] at ex fr sign size odd
    refine ⟨?_, sign, size, odd.trans parity, rfl⟩
    rw [Fmt.holds_iff h, ex, sign, ← value]
    refine ⟨by omega, ?_⟩
    unfold Fmt.whole Fmt.quantum
    rw [if_pos ex, if_pos ex, fr, q_]
  · have exponent : (q' - f.qmin + 1).toNat < 2 ^ f.ew - 1 := by omega
    have some_ : (q' - f.qmin + 1).toNat ≠ 0 := by omega
    rw [if_neg sub, if_neg (by omega), if_neg some_]
    obtain ⟨ex, fr, sign, size, odd⟩ := Fmt.bits_spec h (neg := neg) (E := (q' - f.qmin + 1).toNat) (F := r' - 2 ^ f.fw) (by omega) (by omega)
    refine ⟨?_, sign, size, ?_, rfl⟩
    · rw [Fmt.holds_iff h, ex, sign, ← value]
      refine ⟨by omega, ?_⟩
      unfold Fmt.whole Fmt.quantum
      have ex0 : ¬ f.exOf (f.zero neg + ((q' - f.qmin + 1).toNat * 2 ^ f.fw + (r' - 2 ^ f.fw))) = 0 := by
        rw [ex]
        exact some_
      rw [if_neg ex0, if_neg ex0, fr, ex, Nat.add_sub_cancel' (by omega)]
      congr 3
      omega
    · rw [odd]
      omega

/-- What a rounded magnitude beyond the format delivers. -/
theorem Fmt.deliver_over {r : Nat} {q : Int} (normal : q = f.qmin ∨ 2 ^ f.fw ≤ r)
    (past : f.Over r q) (rm : BitVec 2) (neg inexact tiny : Bool) :
    f.deliver rm neg r q inexact tiny = ⟨f.overflow rm neg, fOF ||| fNX⟩ := by
  have gap := Fmt.qmin_lt_top h
  have four : 2 ^ 2 ≤ 2 ^ f.ew := Nat.pow_le_pow_right (by omega) h.1
  have cast : ((2 ^ f.ew : Nat) : Int) = 2 ^ f.ew := by push_cast; rfl
  unfold Fmt.Over Fmt.top at past
  unfold Fmt.top at gap
  rw [← cast] at past gap
  have double : 2 ^ (f.fw + 1) = 2 * 2 ^ f.fw := by rw [pow_succ]; omega
  have reach : 2 ^ f.fw ≤ r := by
    rcases past with beyond | ⟨-, full⟩ <;> omega
  unfold Fmt.deliver
  by_cases full : r = 2 ^ (f.fw + 1)
  · rw [if_pos full]
    dsimp only
    rw [if_neg (lt_irrefl _), if_pos]
    rcases past with beyond | ⟨same, -⟩ <;> omega
  · have ex0 : (if r < 2 ^ f.fw then 0 else (q - f.qmin + 1).toNat) = (q - f.qmin + 1).toNat := if_neg (by omega)
    rw [if_neg full]
    dsimp only
    rw [ex0, if_pos]
    rcases past with beyond | ⟨-, whole⟩ <;> omega

theorem Fmt.infinity_spec (neg : Bool) :
    f.isInf (f.infinity neg) ∧ f.sign (f.infinity neg) = neg ∧ f.infinity neg < 2 ^ (f.ew + f.fw + 1) := by
  have four : 2 ^ 2 ≤ 2 ^ f.ew := Nat.pow_le_pow_right (by omega) h.1
  obtain ⟨ex, fr, sign, size, -⟩ := Fmt.bits_spec h (neg := neg) (E := 2 ^ f.ew - 1) (F := 0) (by omega) (by positivity)
  have same : f.infinity neg = f.zero neg + ((2 ^ f.ew - 1) * 2 ^ f.fw + 0) := by
    unfold Fmt.infinity Fmt.infBits
    omega
  rw [same]
  exact ⟨⟨ex, fr⟩, sign, size⟩

theorem Fmt.greatest_spec (neg : Bool) :
    f.holds (f.maxBits + f.zero neg) (withSign neg ((2 * (2 ^ f.fw : Nat) - 1) * (2 : ℝ) ^ f.top)) ∧ f.sign (f.maxBits + f.zero neg) = neg ∧
      f.maxBits + f.zero neg < 2 ^ (f.ew + f.fw + 1) := by
  have four : 2 ^ 2 ≤ 2 ^ f.ew := Nat.pow_le_pow_right (by omega) h.1
  have cast : ((2 ^ f.ew : Nat) : Int) = 2 ^ f.ew := by push_cast; rfl
  have one : 1 ≤ 2 ^ f.fw := Nat.one_le_two_pow
  obtain ⟨ex, fr, sign, size, -⟩ := Fmt.bits_spec h (neg := neg) (E := 2 ^ f.ew - 2) (F := 2 ^ f.fw - 1) (by omega) (by omega)
  have same : f.maxBits + f.zero neg = f.zero neg + ((2 ^ f.ew - 2) * 2 ^ f.fw + (2 ^ f.fw - 1)) := by
    have : (2 ^ f.ew - 1) * 2 ^ f.fw = (2 ^ f.ew - 2) * 2 ^ f.fw + 2 ^ f.fw := by
      rw [← Nat.succ_mul]
      congr 1
      omega
    unfold Fmt.maxBits Fmt.infBits
    omega
  rw [same]
  refine ⟨?_, sign, size⟩
  rw [Fmt.holds_iff h, ex, sign]
  refine ⟨by omega, ?_⟩
  unfold Fmt.whole Fmt.quantum Fmt.top
  have ex0 : ¬ f.exOf (f.zero neg + ((2 ^ f.ew - 2) * 2 ^ f.fw + (2 ^ f.fw - 1))) = 0 := by omega
  rw [if_neg ex0, if_neg ex0, fr, ex]
  congr 2
  · push_cast [Nat.cast_sub one]
    ring
  · congr 1
    rw [← cast]
    omega

end

end Sys2Proof.Machine
end


section
/-! SUPPORT. `Fmt.round` gives the nearest number of the format in the mode, with its flags (R28, R30). -/

namespace Sys2Proof.Machine

/-! ## Which magnitudes overflow and which are tiny -/

/-- R30: a magnitude that overflows in a mode; R28: one that is tiny after rounding. -/
def Fmt.Large (f : Fmt) (rm : BitVec 2) (neg : Bool) (X : ℝ) : Prop :=
  rm = 0 ∧ ((2 * (2 ^ f.fw : Nat) - 1) * (2 : ℝ) ^ f.top + 2 * (2 ^ f.fw : Nat) * (2 : ℝ) ^ f.top) / 2 ≤ X ∨
    Outward rm neg ∧ (2 * (2 ^ f.fw : Nat) - 1) * (2 : ℝ) ^ f.top < X ∨
    (rm ≠ 0 ∧ ¬ Outward rm neg) ∧ 2 * (2 ^ f.fw : Nat) * (2 : ℝ) ^ f.top ≤ X

def Fmt.Tiny (f : Fmt) (rm : BitVec 2) (neg : Bool) (X : ℝ) : Prop :=
  rm = 0 ∧ X < (2 : ℝ) ^ f.emin * (1 - 1 / 2 ^ (f.fw + 2)) ∨ Outward rm neg ∧ X ≤ (2 : ℝ) ^ f.emin * (1 - 1 / 2 ^ (f.fw + 1)) ∨
    (rm ≠ 0 ∧ ¬ Outward rm neg) ∧ X < (2 : ℝ) ^ f.emin

/-- A magnitude that overflows is beyond the greatest number. -/
theorem Fmt.Large.greatest_lt {f : Fmt} {rm : BitVec 2} {neg : Bool} {X : ℝ} (large : f.Large rm neg X) :
    (2 * (2 ^ f.fw : Nat) - 1) * (2 : ℝ) ^ f.top < X := by
  have last : (0 : ℝ) < (2 : ℝ) ^ f.top := by positivity
  rcases large with ⟨-, reach⟩ | ⟨-, reach⟩ | ⟨-, reach⟩ <;> linarith

/-- A magnitude at or beyond the number that would follow the greatest overflows. -/
theorem Fmt.large_of_next_le {f : Fmt} {X : ℝ} (beyond : 2 * (2 ^ f.fw : Nat) * (2 : ℝ) ^ f.top ≤ X) (rm : BitVec 2) (neg : Bool) : f.Large rm neg X := by
  have last : (0 : ℝ) < (2 : ℝ) ^ f.top := by positivity
  by_cases zero : rm = 0
  · exact Or.inl ⟨zero, by linarith⟩
  · by_cases out : Outward rm neg
    · exact Or.inr (Or.inl ⟨out, by linarith⟩)
    · exact Or.inr (Or.inr ⟨⟨zero, out⟩, beyond⟩)

/-- A tiny magnitude is below the least normal one. -/
theorem Fmt.Tiny.lt_least {f : Fmt} {rm : BitVec 2} {neg : Bool} {X : ℝ} (tiny : f.Tiny rm neg X) : X < (2 : ℝ) ^ f.emin := by
  have cut (n : Nat) : (2 : ℝ) ^ f.emin * (1 - 1 / 2 ^ n) < (2 : ℝ) ^ f.emin :=
    mul_lt_of_lt_one_right (by positivity) (sub_lt_self 1 (by positivity))
  rcases tiny with ⟨-, low⟩ | ⟨-, low⟩ | ⟨-, low⟩
  · exact low.trans (cut _)
  · exact low.trans_lt (cut _)
  · exact low

/-- A magnitude below the least normal one by more than half a last place is tiny. -/
theorem Fmt.tiny_of_lt {f : Fmt} {X : ℝ} (below : X < (2 : ℝ) ^ f.emin * (1 - 1 / 2 ^ (f.fw + 1))) (rm : BitVec 2) (neg : Bool) : f.Tiny rm neg X := by
  have least : (0 : ℝ) ≤ (2 : ℝ) ^ f.emin := by positivity
  have order : (1 : ℝ) / 2 ^ (f.fw + 2) ≤ 1 / 2 ^ (f.fw + 1) := by gcongr <;> norm_num
  have none_ : (0 : ℝ) ≤ 1 / 2 ^ (f.fw + 1) := by positivity
  by_cases zero : rm = 0
  · exact Or.inl ⟨zero, below.trans_le (mul_le_mul_of_nonneg_left (by linarith) least)⟩
  · by_cases out : Outward rm neg
    · exact Or.inr (Or.inl ⟨out, below.le⟩)
    · exact Or.inr (Or.inr ⟨⟨zero, out⟩, below.trans_le (mul_le_of_le_one_right least (by linarith))⟩)

theorem two_zpow_succ (q : Int) : (2 : ℝ) ^ (q + 1) = 2 * (2 : ℝ) ^ q := by rw [zpow_add_one₀ (by norm_num), mul_comm]

theorem two_zpow_le {p q : Int} (h : p ≤ q) : (2 : ℝ) ^ p ≤ (2 : ℝ) ^ q := zpow_le_zpow_right₀ one_le_two h

theorem Outward.nonzero {rm : BitVec 2} {neg : Bool} (out : Outward rm neg) : rm ≠ 0 := by
  rcases out with ⟨rfl, -⟩ | ⟨rfl, -⟩ <;> decide

/-- A magnitude overflows exactly where its last place is beyond that of the greatest number, or it rounds up to the next power of two. -/
theorem Fmt.large_iff {f : Fmt} {rm : BitVec 2} {neg : Bool} {Y : ℝ} {q : Int} {r : Nat} (low : f.top < q → ((2 ^ f.fw : Nat) : ℝ) ≤ Y)
    (high : Y < 2 * (2 ^ f.fw : Nat)) (rounds : q = f.top → RoundsTo rm neg Y r) : f.Large rm neg (Y * (2 : ℝ) ^ q) ↔ f.Over r q := by
  have onePos : (1 : ℝ) ≤ (2 ^ f.fw : Nat) := by exact_mod_cast Nat.one_le_two_pow
  have unit : (0 : ℝ) < (2 : ℝ) ^ q := by positivity
  have last : (0 : ℝ) < (2 : ℝ) ^ f.top := by positivity
  rcases lt_trichotomy q f.top with below | same | above
  · refine iff_of_false (fun large => ?_) (by rintro (beyond | ⟨e, -⟩) <;> omega)
    have half : 2 * (2 : ℝ) ^ q ≤ (2 : ℝ) ^ f.top := two_zpow_succ q ▸ two_zpow_le (by omega)
    have small := mul_lt_mul_of_pos_right high unit
    have scaled := mul_le_mul_of_nonneg_left half (zero_le_one.trans onePos)
    have room := mul_le_mul_of_nonneg_right onePos last.le
    linarith [large.greatest_lt]
  · rw [same] at unit ⊢
    have double := (rounds same).double (P := 2 ^ f.fw) high (by positivity)
    have over_ : f.Over r f.top ↔ r = 2 * 2 ^ f.fw := by
      unfold Fmt.Over
      exact ⟨fun o => o.elim (fun b => absurd b (lt_irrefl _)) (fun e => e.2), fun e => Or.inr ⟨rfl, e⟩⟩
    rw [over_, double, Fmt.Large]
    generalize ((2 ^ f.fw : Nat) : ℝ) = P at *
    have mid : ((2 * P - 1) * (2 : ℝ) ^ f.top + 2 * P * (2 : ℝ) ^ f.top) / 2 ≤ Y * (2 : ℝ) ^ f.top ↔ 2 * P - 1 / 2 ≤ Y := by
      rw [show ((2 * P - 1) * (2 : ℝ) ^ f.top + 2 * P * (2 : ℝ) ^ f.top) / 2 = (2 * P - 1 / 2) * (2 : ℝ) ^ f.top by ring, mul_le_mul_iff_left₀ unit]
    rw [mid, mul_lt_mul_iff_left₀ unit, mul_le_mul_iff_left₀ unit]
    exact or_congr_right (or_iff_left (fun n => absurd n.2 (not_le.2 high)))
  · refine iff_of_true (Fmt.large_of_next_le ?_ rm neg) (Or.inl above)
    calc 2 * (2 ^ f.fw : Nat) * (2 : ℝ) ^ f.top = (2 ^ f.fw : Nat) * (2 : ℝ) ^ (f.top + 1) := by rw [two_zpow_succ]; ring
      _ ≤ Y * (2 : ℝ) ^ q := mul_le_mul (low above) (two_zpow_le (by omega)) (by positivity) ((zero_le_one.trans onePos).trans (low above))

section
variable {f : Fmt} (h : f.Proper)
include h

/-- The least normal number, and the bounds below it for a tiny magnitude, in last places. -/
theorem Fmt.least_eq : (2 : ℝ) ^ f.emin = (2 ^ f.fw : Nat) * (2 : ℝ) ^ f.qmin ∧
    (2 : ℝ) ^ f.emin * (1 - 1 / 2 ^ (f.fw + 2)) = ((2 ^ f.fw : Nat) - 1 / 4) * (2 : ℝ) ^ f.qmin ∧
    (2 : ℝ) ^ f.emin * (1 - 1 / 2 ^ (f.fw + 1)) = ((2 ^ f.fw : Nat) - 1 / 2) * (2 : ℝ) ^ f.qmin := by
  have least : (2 : ℝ) ^ f.emin = (2 ^ f.fw : Nat) * (2 : ℝ) ^ f.qmin := by
    rw [Fmt.emin_eq h, add_comm, zpow_add₀ (by norm_num), zpow_natCast]
    push_cast
    rfl
  refine ⟨least, ?_, ?_⟩ <;> rw [least, pow_add] <;> push_cast <;> field_simp
  ring

/-- A magnitude is tiny where its last place, rounded without a least exponent, lies below that of a subnormal. -/
theorem Fmt.tiny_iff {rm : BitVec 2} {neg : Bool} {Y : ℝ} {q : Int} {ru : Nat} (low : ((2 ^ f.fw : Nat) : ℝ) ≤ Y) (high : Y < 2 * (2 ^ f.fw : Nat))
    (rounds : RoundsTo rm neg Y ru) :
    f.Tiny rm neg (Y * (2 : ℝ) ^ q) ↔ (decide (q < f.qmin) && !(q + 1 == f.qmin && ru == 2 ^ (f.fw + 1))) = true := by
  have onePos : (1 : ℝ) ≤ (2 ^ f.fw : Nat) := by exact_mod_cast Nat.one_le_two_pow
  have unit : (0 : ℝ) < (2 : ℝ) ^ q := by positivity
  have double := rounds.double (P := 2 ^ f.fw) high (by positivity)
  have power : 2 ^ (f.fw + 1) = 2 * 2 ^ f.fw := by rw [pow_succ]; omega
  obtain ⟨least, quarter, half⟩ := Fmt.least_eq h
  rw [power]
  rcases lt_trichotomy (q + 1) f.qmin with below | same | above
  · have model : (decide (q < f.qmin) && !(q + 1 == f.qmin && ru == 2 * 2 ^ f.fw)) = true := by
      rw [decide_eq_true (by omega), beq_eq_false_iff_ne.2 (by omega : q + 1 ≠ f.qmin)]
      rfl
    refine iff_of_true (Fmt.tiny_of_lt ?_ rm neg) model
    have fourth : 2 * (2 * (2 : ℝ) ^ q) ≤ (2 : ℝ) ^ f.qmin := two_zpow_succ q ▸ two_zpow_succ (q + 1) ▸ two_zpow_le (by omega)
    rw [half]
    calc Y * (2 : ℝ) ^ q < 2 * (2 ^ f.fw : Nat) * (2 : ℝ) ^ q := mul_lt_mul_of_pos_right high unit
      _ = (2 ^ f.fw : Nat) / 2 * (2 * (2 * (2 : ℝ) ^ q)) := by ring
      _ ≤ (2 ^ f.fw : Nat) / 2 * (2 : ℝ) ^ f.qmin := mul_le_mul_of_nonneg_left fourth (by positivity)
      _ ≤ ((2 ^ f.fw : Nat) - 1 / 2) * (2 : ℝ) ^ f.qmin := mul_le_mul_of_nonneg_right (by linarith) (by positivity)
  · have twice : (2 : ℝ) ^ f.qmin = 2 * (2 : ℝ) ^ q := by rw [← same, two_zpow_succ]
    have model : (decide (q < f.qmin) && !(q + 1 == f.qmin && ru == 2 * 2 ^ f.fw)) = true ↔ ¬ ru = 2 * 2 ^ f.fw := by
      rw [decide_eq_true (by omega), beq_iff_eq.2 same]
      simp
    rw [model, double, Fmt.Tiny, quarter, half, least, twice]
    generalize ((2 ^ f.fw : Nat) : ℝ) = P at *
    rw [show (P - 1 / 4) * (2 * (2 : ℝ) ^ q) = (2 * P - 1 / 2) * (2 : ℝ) ^ q by ring,
      show (P - 1 / 2) * (2 * (2 : ℝ) ^ q) = (2 * P - 1) * (2 : ℝ) ^ q by ring, show P * (2 * (2 : ℝ) ^ q) = 2 * P * (2 : ℝ) ^ q by ring,
      mul_lt_mul_iff_left₀ unit, mul_le_mul_iff_left₀ unit, mul_lt_mul_iff_left₀ unit]
    by_cases zero : rm = 0
    · have out : ¬ Outward rm neg := fun o => o.nonzero zero
      simp only [eq_true zero, eq_false out, true_and, false_and, or_false, ne_eq, not_true_eq_false, not_le]
    · by_cases out : Outward rm neg
      · simp only [eq_false zero, eq_true out, true_and, false_and, or_false, false_or, and_false, ne_eq, not_true_eq_false, not_lt]
      · simp only [eq_false zero, eq_false out, true_and, false_and, or_false, ne_eq, not_false_eq_true, true_and, or_true, high]
  · have model : ¬ (decide (q < f.qmin) && !(q + 1 == f.qmin && ru == 2 * 2 ^ f.fw)) = true := by
      rw [decide_eq_false (by omega)]
      simp
    refine iff_of_false (fun tiny => absurd tiny.lt_least (not_lt.2 ?_)) model
    rw [least]
    exact mul_le_mul low (two_zpow_le (by omega)) (by positivity) ((zero_le_one.trans onePos).trans low)

end

end Sys2Proof.Machine
end


section
/-! SUPPORT. What `Fmt.round` delivers is the number rounded once, with its flags (R28, R30). -/

namespace Sys2Proof.Machine

/-! ## A result judged by the magnitude of the number -/

/-- The flags of an overflow: NX and OF, and no other. -/
theorem overflow_flags : (fOF ||| fNX).getLsbD 0 = true ∧ ¬ (fOF ||| fNX).getLsbD 1 = true ∧ (fOF ||| fNX).getLsbD 2 = true ∧
    (fOF ||| fNX).getLsbD 3 = false ∧ (fOF ||| fNX).getLsbD 4 = false := by
  decide

theorem Fmt.overflow_outward {f : Fmt} {rm : BitVec 2} {neg : Bool} (out : rm = 0 ∨ Outward rm neg) : f.overflow rm neg = f.infinity neg := by
  unfold Fmt.overflow Fmt.infinity
  rcases out with rfl | ⟨rfl, rfl⟩ | ⟨rfl, rfl⟩ <;> rfl

theorem Fmt.overflow_inward {f : Fmt} {rm : BitVec 2} {neg : Bool} (out : ¬ (rm = 0 ∨ Outward rm neg)) : f.overflow rm neg = f.maxBits + f.zero neg := by
  have none_ : ¬ (rm == 0 || (rm == 2 && !neg) || (rm == 3 && neg)) = true := by
    intro some_
    refine out ?_
    simpa [Outward, or_assoc] using some_
  rw [Fmt.overflow, if_neg none_]

section
variable {f : Fmt} (h : f.Proper)
include h

theorem Fmt.Large.not_tiny {rm : BitVec 2} {neg : Bool} {X : ℝ} (large : f.Large rm neg X) : ¬ f.Tiny rm neg X := by
  intro tiny
  have onePos : (1 : ℝ) ≤ (2 ^ f.fw : Nat) := by exact_mod_cast Nat.one_le_two_pow
  have order : (2 : ℝ) ^ f.qmin ≤ (2 : ℝ) ^ f.top := zpow_le_zpow_right₀ (by norm_num) (Fmt.qmin_lt_top h).le
  have first : (0 : ℝ) < (2 : ℝ) ^ f.qmin := by positivity
  have low := tiny.lt_least
  have high := large.greatest_lt
  rw [Fmt.emin_eq h, add_comm, zpow_add₀ (by norm_num), zpow_natCast] at low
  push_cast at high onePos
  nlinarith

/-- `Rounds`, said by the magnitude and the sign of the number. -/
theorem Rounds.of_magnitude {rm : BitVec 2} {neg : Bool} {X : ℝ} {r : FRes} (pos : 0 < X) (size : r.bits < 2 ^ (f.ew + f.fw + 1))
    (sign : f.sign r.bits = neg)
    (infinite : f.Large rm neg X → rm = 0 ∨ Outward rm neg → f.isInf r.bits)
    (finite : ¬ (f.Large rm neg X ∧ (rm = 0 ∨ Outward rm neg)) →
      ∃ y, f.holds r.bits y ∧ ∀ b z, f.holds b z → Best rm (withSign neg X) y z (r.bits % 2 = 0))
    (nx : r.flags.getLsbD 0 = true ↔ ¬ f.holds r.bits (withSign neg X))
    (uf : r.flags.getLsbD 1 = true ↔ f.Tiny rm neg X ∧ ¬ f.holds r.bits (withSign neg X))
    (of_ : r.flags.getLsbD 2 = true ↔ f.Large rm neg X) (rest : r.flags.getLsbD 3 = false ∧ r.flags.getLsbD 4 = false) :
    Rounds f rm (withSign neg X) r := by
  have below : withSign neg X < 0 ↔ neg = true := withSign_neg_iff pos
  have above : 0 < withSign neg X ↔ neg = false := by cases neg <;> simp [withSign, pos, pos.le]
  have out : (rm = 2 ∧ 0 < withSign neg X ∨ rm = 3 ∧ withSign neg X < 0) ↔ Outward rm neg := by rw [below, above, Outward]
  have inward : ¬ (rm ≠ 0 ∧ ¬ Outward rm neg) ↔ rm = 0 ∨ Outward rm neg := by rw [not_and_or, not_not, not_not]
  have great := (Fmt.greatest_iff h ((2 * (2 ^ f.fw : Nat) - 1) * (2 : ℝ) ^ f.top)).2 rfl
  have following := (Fmt.next_iff h (2 * (2 ^ f.fw : Nat) * (2 : ℝ) ^ f.top)).2 rfl
  refine ⟨(2 * (2 ^ f.fw : Nat) - 1) * (2 : ℝ) ^ f.top, 2 * (2 ^ f.fw : Nat) * (2 : ℝ) ^ f.top, great, following, ?_⟩
  dsimp only
  rw [abs_withSign pos.le, out, below, inward]
  refine ⟨size, ?_, fun big => infinite big.1 big.2, fun notBig => ?_, nx, uf, of_, rest⟩
  · rw [← sign]
    exact (decide_eq_true_iff (p := f.minus r.bits)).symm
  · obtain ⟨y, hy, best⟩ := finite notBig
    have inner (e : rm = 1) (b : Nat) (z : ℝ) (hz : f.holds b z) : |y| ≤ X ∧ (|z| ≤ X → |z| ≤ |y|) := by
      have := (best b z hz).2.1 e
      rwa [abs_withSign pos.le] at this
    refine ⟨y, hy, fun e b z hz => (best b z hz).1 e, fun e => ⟨(inner e _ y hy).1, fun b z hz => (inner e b z hz).2⟩,
      fun e => ⟨((best _ y hy).2.2.1 e).1, fun b z hz => ((best b z hz).2.2.1 e).2⟩,
      fun e => ⟨((best _ y hy).2.2.2 e).1, fun b z hz => ((best b z hz).2.2.2 e).2⟩⟩

/-! ## The two outcomes -/

/-- A rounded magnitude within the format is the best of the format's numbers. -/
theorem Fmt.best_within {rm : BitVec 2} {neg : Bool} {Y : ℝ} {r bits : Nat} {q : Int} (least : f.qmin ≤ q) (low : q = f.qmin ∨ ((2 ^ f.fw : Nat) : ℝ) ≤ Y)
    (nonneg : 0 ≤ Y) (rounds : RoundsTo rm neg Y r) (parity : bits % 2 = r % 2) {b : Nat} {z : ℝ} (hz : f.holds b z) :
    Best rm (withSign neg (Y * (2 : ℝ) ^ q)) (withSign neg (r * (2 : ℝ) ^ q)) z (bits % 2 = 0) := by
  have unit : (0 : ℝ) < (2 : ℝ) ^ q := by positivity
  have whole := rounds.integral nonneg
  have even : (signed neg r % 2 = 0) = (bits % 2 = 0) := by rw [signed_even, parity]
  obtain ⟨ζ, rfl⟩ : ∃ ζ, z = ζ * (2 : ℝ) ^ q := ⟨z / (2 : ℝ) ^ q, by field_simp⟩
  rw [← withSign_mul, ← withSign_mul, ← cast_signed, ← even]
  refine Best.scale ?_ unit
  rcases Fmt.holds_grid h hz least with ⟨k, hk⟩ | ⟨fine, small⟩
  · rw [mul_left_inj' unit.ne'] at hk
    rw [hk]
    exact whole.best k
  · rw [abs_mul, abs_of_pos unit, mul_lt_mul_iff_left₀ unit] at small
    refine whole.best_small _ small ?_
    rw [abs_withSign nonneg]
    exact low.resolve_left (ne_of_gt fine)

/-- Beyond the format and rounded toward zero, the greatest number is the best. -/
theorem Fmt.best_greatest {rm : BitVec 2} {neg : Bool} {X : ℝ} {even : Prop} (nonzero : rm ≠ 0) (inward : ¬ Outward rm neg)
    (beyond : (2 * (2 ^ f.fw : Nat) - 1) * (2 : ℝ) ^ f.top < X) {b : Nat} {z : ℝ} (hz : f.holds b z) :
    Best rm (withSign neg X) (withSign neg ((2 * (2 ^ f.fw : Nat) - 1) * (2 : ℝ) ^ f.top)) z even := by
  have bound := Fmt.holds_le_greatest h hz
  have nonneg := (abs_nonneg z).trans bound
  obtain ⟨lower, upper⟩ := abs_le.1 bound
  generalize (2 * (2 ^ f.fw : Nat) - 1) * (2 : ℝ) ^ f.top = G at *
  have outward : rm = 2 ∧ neg = false ∨ rm = 3 ∧ neg = true → False := inward
  refine ⟨fun e => absurd e nonzero, fun _ => ?_, fun e => ?_, fun e => ?_⟩
  · rw [abs_withSign nonneg, abs_withSign (nonneg.trans beyond.le)]
    exact ⟨beyond.le, fun _ => bound⟩
  · cases neg with
    | false => exact (outward (Or.inl ⟨e, rfl⟩)).elim
    | true => exact ⟨neg_le_neg beyond.le, fun _ => lower⟩
  · cases neg with
    | false => exact ⟨beyond.le, fun _ => upper⟩
    | true => exact (outward (Or.inr ⟨e, rfl⟩)).elim

/-- What is delivered for a magnitude Y × 2^q, Y rounded to a whole number, is its value rounded once. -/
theorem Fmt.deliver_rounds {rm : BitVec 2} {neg inexact tiny : Bool} {Y : ℝ} {r : Nat} {q : Int} (least : f.qmin ≤ q)
    (low : q = f.qmin ∨ ((2 ^ f.fw : Nat) : ℝ) ≤ Y) (pos : 0 < Y) (high : Y < 2 * (2 ^ f.fw : Nat)) (rounds : RoundsTo rm neg Y r)
    (differs : inexact = true ↔ (r : ℝ) ≠ Y) (small : f.Tiny rm neg (Y * (2 : ℝ) ^ q) ↔ tiny = true) :
    Rounds f rm (withSign neg (Y * (2 : ℝ) ^ q)) (f.deliver rm neg r q inexact tiny) := by
  have gap := Fmt.qmin_lt_top h
  have unit : (0 : ℝ) < (2 : ℝ) ^ q := by positivity
  have large := Fmt.large_iff (f := f) (q := q) (fun above => low.resolve_left (by omega)) high fun _ => rounds
  have normal : q = f.qmin ∨ 2 ^ f.fw ≤ r := low.imp_right rounds.bounds.1
  have bound : r ≤ 2 * 2 ^ f.fw := rounds.bounds.2 (by push_cast at high ⊢; exact high)
  by_cases past : f.Over r q
  · have big := large.2 past
    have delivered := Fmt.deliver_over h normal past rm neg inexact tiny
    obtain ⟨f0, f1, f2, f3, f4⟩ := overflow_flags
    rw [delivered]
    by_cases out : rm = 0 ∨ Outward rm neg
    · rw [Fmt.overflow_outward out]
      obtain ⟨inf, sign, size⟩ := Fmt.infinity_spec h neg
      have noNumber (y : ℝ) : ¬ f.holds (f.infinity neg) y := fun hy => hy.1 inf.1
      refine Rounds.of_magnitude h (by positivity) size sign (fun _ _ => inf) (fun no => absurd ⟨big, out⟩ no) ?_ ?_ ?_ ⟨f3, f4⟩
      · exact iff_of_true f0 (noNumber _)
      · exact iff_of_false f1 (fun t => Fmt.Large.not_tiny h big t.1)
      · exact iff_of_true f2 big
    · obtain ⟨nonzero, inward⟩ := not_or.1 out
      rw [Fmt.overflow_inward out]
      obtain ⟨held, sign, size⟩ := Fmt.greatest_spec h neg
      refine Rounds.of_magnitude h (by positivity) size sign (fun _ o => absurd o out)
        (fun _ => ⟨_, held, fun b z hz => Fmt.best_greatest h nonzero inward big.greatest_lt hz⟩) ?_ ?_ ?_ ⟨f3, f4⟩
      · refine iff_of_true f0 fun hx => ?_
        exact big.greatest_lt.ne (withSign_inj.1 (Fmt.holds_unique h held hx))
      · exact iff_of_false f1 (fun t => Fmt.Large.not_tiny h big t.1)
      · exact iff_of_true f2 big
  · have notBig : ¬ f.Large rm neg (Y * (2 : ℝ) ^ q) := fun b => past (large.1 b)
    obtain ⟨held, sign, size, parity, flags⟩ := Fmt.deliver_within h least normal bound past rm neg inexact tiny
    have exact_ : inexact = true ↔ ¬ f.holds (f.deliver rm neg r q inexact tiny).bits (withSign neg (Y * (2 : ℝ) ^ q)) := by
      rw [differs, not_iff_not]
      constructor
      · intro same
        rwa [same] at held
      · intro hx
        have := withSign_inj.1 (Fmt.holds_unique h held hx)
        exact (mul_left_inj' unit.ne').1 this
    refine Rounds.of_magnitude h (by positivity) size sign (fun b => absurd b notBig)
      (fun _ => ⟨_, held, fun b z hz => Fmt.best_within h least low pos.le rounds parity hz⟩) ?_ ?_ ?_ ?_
    · rw [flags, ← exact_]
      cases inexact <;> cases tiny <;> decide
    · rw [flags, ← exact_, small]
      cases inexact <;> cases tiny <;> decide
    · rw [flags]
      refine iff_of_false ?_ notBig
      cases inexact <;> cases tiny <;> decide
    · rw [flags]
      cases inexact <;> cases tiny <;> decide

/-! ## Rounding once -/

omit h in
/-- At its last place, a magnitude has as many bits as the format. -/
theorem Fmt.place_bounds {m : Nat} (pos : 0 < m) {sticky : Bool} {δ : ℝ} (beyond : Beyond sticky δ) (e : Int) :
    ((2 ^ f.fw : Nat) : ℝ) ≤ (m + δ) * (2 : ℝ) ^ (e - f.place m e) ∧ (m + δ) * (2 : ℝ) ^ (e - f.place m e) < 2 * (2 ^ f.fw : Nat) := by
  obtain ⟨h0, h1, -⟩ := beyond
  have low : (2 : ℝ) ^ m.log2 ≤ m := by exact_mod_cast Nat.log2_self_le pos.ne'
  have high : (m : ℝ) + 1 ≤ 2 ^ (m.log2 + 1) := by exact_mod_cast Nat.lt_log2_self (n := m)
  have scale : (2 : ℝ) ^ (e - f.place m e) = (2 ^ f.fw : Nat) / 2 ^ m.log2 := by
    rw [show e - f.place m e = (f.fw : Int) - (m.log2 : Int) by unfold Fmt.place; ring, zpow_sub₀ (by norm_num), zpow_natCast, zpow_natCast]
    push_cast
    rfl
  have pw : (0 : ℝ) < 2 ^ m.log2 := by positivity
  have one : (0 : ℝ) < (2 ^ f.fw : Nat) := by positivity
  rw [scale, mul_div_assoc', le_div_iff₀ pw, div_lt_iff₀ pw]
  rw [pow_succ] at high
  constructor <;> nlinarith

/-- The model's rounding is the number rounded once (R28, R30). -/
theorem Fmt.round_rounds {sticky : Bool} {δ : ℝ} (beyond : Beyond sticky δ) {m : Nat} (pos : 0 < m) (rm : BitVec 2) (neg : Bool) (e : Int)
    (room : sticky = true → f.fw < m.log2) : Rounds f rm (withSign neg ((m + δ) * (2 : ℝ) ^ e)) (f.round rm neg m e sticky) := by
  obtain ⟨low, high⟩ := Fmt.place_bounds (f := f) pos beyond e
  have noRest (coarse : f.place m e ≤ e) : sticky = false := by
    unfold Fmt.place at coarse
    cases sticky with
    | false => rfl
    | true =>
      have := room rfl
      omega
  have below : f.place m e ≤ f.lastPlace m e := by
    unfold Fmt.lastPlace
    split <;> omega
  have least : f.qmin ≤ f.lastPlace m e := by
    unfold Fmt.lastPlace
    split <;> omega
  have scaled (q : Int) : ((m : ℝ) + δ) * (2 : ℝ) ^ e = (m + δ) * (2 : ℝ) ^ (e - q) * (2 : ℝ) ^ q := by
    rw [mul_assoc, ← zpow_add₀ (by norm_num), sub_add_cancel]
  have positive : 0 < ((m : ℝ) + δ) * (2 : ℝ) ^ (e - f.lastPlace m e) := by
    have : (0 : ℝ) < m := by exact_mod_cast pos
    have := beyond.1
    positivity
  have shrink : ((m : ℝ) + δ) * (2 : ℝ) ^ (e - f.lastPlace m e) ≤ (m + δ) * (2 : ℝ) ^ (e - f.place m e) := by
    have : (0 : ℝ) ≤ m + δ := add_nonneg (Nat.cast_nonneg m) beyond.1
    gcongr
    norm_num
  obtain ⟨rounds, differs⟩ := roundAt_roundsTo beyond rm neg m (q := f.lastPlace m e) (fun coarse => noRest (below.trans coarse))
  obtain ⟨free, -⟩ := roundAt_roundsTo beyond rm neg m (q := f.place m e) noRest
  have tiny := Fmt.tiny_iff h (q := f.place m e) low high free
  rw [← scaled, scaled (f.lastPlace m e)] at tiny
  rw [Fmt.round_eq pos, scaled (f.lastPlace m e)]
  refine Fmt.deliver_rounds h least ?_ positive (shrink.trans_lt high) rounds differs tiny
  unfold Fmt.lastPlace
  split
  · exact Or.inl rfl
  · exact Or.inr low

end

end Sys2Proof.Machine
end


section
/-! SUPPORT. Sums, differences and products: NaNs, infinities and zeros, and else one rounding (R29, R84, R85). -/

namespace Sys2Proof.Machine

/-! ## What bits read as -/

theorem Fmt.sign_iff (f : Fmt) (b : Nat) : f.sign b = true ↔ f.minus b := decide_eq_true_iff

theorem FVal.isNan_iff (x : FVal) : x.isNan = true ↔ ∃ s, x = .nan s := by
  cases x <;> simp [FVal.isNan]

/-- Bits stand for a NaN, an infinity or a number. -/
theorem Fmt.read_cases {f : Fmt} (h : f.Proper) (b : Nat) : f.isNaN b ∨ f.isInf b ∨ ∃ x, f.holds b x := by
  by_cases top : f.exOf b = 2 ^ f.ew - 1
  · by_cases zero : f.frOf b = 0
    · exact Or.inr (Or.inl ⟨top, zero⟩)
    · exact Or.inl ⟨top, zero⟩
  · exact Or.inr (Or.inr ⟨_, (Fmt.holds_iff h b _).2 ⟨top, rfl⟩⟩)

theorem Fmt.read_isNan (f : Fmt) (b : Nat) : (f.read b).isNan = true ↔ f.isNaN b := by
  rw [Fmt.read_eq]
  by_cases top : f.exOf b = 2 ^ f.ew - 1
  · by_cases zero : f.frOf b = 0
    · rw [if_pos top, if_pos zero]
      exact iff_of_false (by simp [FVal.isNan]) (fun n => n.2 zero)
    · rw [if_pos top, if_neg zero]
      exact iff_of_true rfl ⟨top, zero⟩
  · rw [if_neg top]
    exact iff_of_false (by simp [FVal.isNan]) (fun n => top n.1)

theorem Fmt.read_isSig (f : Fmt) (b : Nat) : (f.read b).isSig = true ↔ f.isSNaN b := by
  by_cases nan : f.isNaN b
  · rw [Fmt.read_nan nan]
    exact decide_eq_true_iff
  · refine iff_of_false (fun sig => nan ((f.read_isNan b).1 ?_)) (fun s => nan s.1)
    revert sig
    cases f.read b <;> simp [FVal.isSig, FVal.isNan]

theorem Fmt.not_isNaN_of_isInf {f : Fmt} {b : Nat} (inf : f.isInf b) : ¬ f.isNaN b := fun nan => nan.2 inf.2
theorem Fmt.not_isNaN_of_holds {f : Fmt} {b : Nat} {x : ℝ} (hx : f.holds b x) : ¬ f.isNaN b := fun nan => hx.1 nan.1
theorem Fmt.not_isInf_of_holds {f : Fmt} {b : Nat} {x : ℝ} (hx : f.holds b x) : ¬ f.isInf b := fun inf => hx.1 inf.1

theorem bne_sign_iff (f : Fmt) (a b : Nat) : (f.sign a != f.sign b) = true ↔ ¬ (f.minus a ↔ f.minus b) := by
  rw [← f.sign_iff, ← f.sign_iff, bne_iff_ne, ne_eq, Bool.eq_iff_iff]

theorem beq_sign_iff (f : Fmt) (a b : Nat) : (f.sign a == f.sign b) = true ↔ (f.minus a ↔ f.minus b) := by
  rw [← f.sign_iff, ← f.sign_iff, beq_iff_eq, Bool.eq_iff_iff]

/-! ## Results no rounding touches -/

theorem Fmt.nan_gives (f : Fmt) {s : Bool} {nv : Prop} (same : s = true ↔ nv) : GivesNaN f nv (f.nan s) := by
  refine ⟨rfl, fun yes => ?_, fun no => ?_⟩
  · rw [same.2 yes]
    rfl
  · rw [Bool.eq_false_iff.2 fun e => no (same.1 e)]
    rfl

theorem Fmt.inf_gives {f : Fmt} (h : f.Proper) {s : Bool} {neg : Prop} (same : s = true ↔ neg) (fl : BitVec 5) : GivesInf f neg fl ⟨f.infinity s, fl⟩ := by
  obtain ⟨inf, sign, size⟩ := Fmt.infinity_spec h s
  refine ⟨size, inf, ?_, rfl⟩
  rw [← f.sign_iff, sign, same]

theorem Fmt.zero_gives (f : Fmt) {s : Bool} {neg : Prop} (same : s = true ↔ neg) : GivesZero f neg ⟨f.zero s, 0⟩ := by
  refine ⟨fun yes => ?_, fun no => ?_, rfl⟩
  · rw [same.2 yes]
    rfl
  · rw [Bool.eq_false_iff.2 fun e => no (same.1 e)]
    rfl

/-! ## Integers and magnitudes rounded -/

/-- An exact magnitude rounds to its number (R28). -/
theorem Fmt.round_exact_rounds {f : Fmt} (h : f.Proper) {m : Nat} (pos : 0 < m) (rm : BitVec 2) (neg : Bool) (e : Int) :
    Rounds f rm (withSign neg (m * (2 : ℝ) ^ e)) (f.round rm neg m e false) := by
  have := Fmt.round_rounds h Beyond.exact pos rm neg e (by simp)
  rwa [add_zero] at this

theorem Fmt.roundInt_zero (f : Fmt) (rm : BitVec 2) (zneg : Bool) (e : Int) : f.roundInt rm zneg 0 e = ⟨f.zero zneg, 0⟩ := if_pos rfl

/-- An integer times a power of two rounds to its number. -/
theorem Fmt.roundInt_rounds {f : Fmt} (h : f.Proper) {v : Int} (nonzero : v ≠ 0) (rm : BitVec 2) (zneg : Bool) (e : Int) :
    Rounds f rm ((v : ℝ) * (2 : ℝ) ^ e) (f.roundInt rm zneg v e) := by
  have rounds := Fmt.round_exact_rounds h (m := v.natAbs) (Int.natAbs_pos.2 nonzero) rm (decide (v < 0)) e
  have value : withSign (decide (v < 0)) (v.natAbs * (2 : ℝ) ^ e) = (v : ℝ) * (2 : ℝ) ^ e := by
    rw [← withSign_mul, ← cast_signed]
    congr 2
    unfold signed
    by_cases neg : v < 0
    · rw [if_pos (decide_eq_true neg)]
      omega
    · rw [if_neg (by simpa using neg)]
      omega
  rw [value] at rounds
  rwa [Fmt.roundInt, if_neg nonzero]

/-! ## Sums -/

/-- The sum of two numbers: exact zero with the sign of R84, and else rounded once. -/
theorem Fmt.addFin_spec {f : Fmt} (h : f.Proper) (rm : BitVec 2) (na : Bool) (ma : Nat) (ea : Int) (nb : Bool) (mb : Nat) (eb : Int) :
    let x := withSign na (ma * (2 : ℝ) ^ ea) + withSign nb (mb * (2 : ℝ) ^ eb)
    (x = 0 → GivesZero f (na ≠ nb ∧ rm = 3 ∨ na = nb ∧ na = true) (f.addFin rm na ma ea nb mb eb)) ∧
      (x ≠ 0 → Rounds f rm x (f.addFin rm na ma ea nb mb eb)) := by
  intro x
  have unit : ((2 : ℝ) ^ min ea eb) ≠ 0 := by positivity
  have part (neg : Bool) (m : Nat) (e : Int) (le : min ea eb ≤ e) :
      withSign neg (m * (2 : ℝ) ^ e) = (signed neg (m * 2 ^ (e - min ea eb).toNat) : Int) * (2 : ℝ) ^ min ea eb := by
    rw [cast_signed, withSign_mul]
    congr 1
    push_cast
    rw [← zpow_natCast, Int.toNat_of_nonneg (by omega), mul_assoc, ← zpow_add₀ (by norm_num), sub_add_cancel]
  have value : x = ((signed na (ma * 2 ^ (ea - min ea eb).toNat) + signed nb (mb * 2 ^ (eb - min ea eb).toNat) : Int) : ℝ) * (2 : ℝ) ^ min ea eb := by
    simp only [x]
    rw [part na ma ea (by omega), part nb mb eb (by omega)]
    push_cast
    ring
  unfold Fmt.addFin
  by_cases zeros : ma = 0 ∧ mb = 0
  · rw [if_pos (by simpa using zeros)]
    have zero : x = 0 := by simp [x, withSign, zeros]
    refine ⟨fun _ => f.zero_gives ?_, fun other => absurd zero other⟩
    unfold zeroSum
    cases na <;> cases nb <;> simp
  · rw [if_neg (by simpa using zeros)]
    dsimp only
    rw [value]
    by_cases sum : signed na (ma * 2 ^ (ea - min ea eb).toNat) + signed nb (mb * 2 ^ (eb - min ea eb).toNat) = 0
    · rw [sum, Fmt.roundInt_zero]
      refine ⟨fun _ => f.zero_gives ?_, fun other => absurd (by simp) other⟩
      have differ : na ≠ nb := by
        rintro rfl
        have pa : 0 < 2 ^ (ea - min ea eb).toNat := by positivity
        have pb : 0 < 2 ^ (eb - min ea eb).toNat := by positivity
        have both : ma * 2 ^ (ea - min ea eb).toNat = 0 ∧ mb * 2 ^ (eb - min ea eb).toNat = 0 := by
          cases na <;> simp only [signed, if_true, Bool.false_eq_true, if_false] at sum <;> omega
        exact zeros ⟨by simpa [pa.ne'] using both.1, by simpa [pb.ne'] using both.2⟩
      rw [beq_iff_eq]
      exact ⟨fun e => Or.inl ⟨differ, e⟩, fun e => e.elim (fun l => l.2) (fun r => absurd r.1 differ)⟩
    · refine ⟨fun zero => ?_, fun _ => Fmt.roundInt_rounds h sum rm _ _⟩
      rw [mul_eq_zero, or_iff_left unit] at zero
      exact absurd (by exact_mod_cast zero) sum

/-- A sum with a NaN. -/
theorem Fmt.addV_nan (f : Fmt) (rm : BitVec 2) {x y : FVal} (nan : x.isNan = true ∨ y.isNan = true) : f.addV rm x y = f.nan (x.isSig || y.isSig) := by
  cases x with
  | nan s => rfl
  | inf n =>
    obtain ⟨s, rfl⟩ := y.isNan_iff.1 (nan.resolve_left (by simp [FVal.isNan]))
    exact congrArg f.nan (Bool.or_false s)
  | fin n m e =>
    obtain ⟨s, rfl⟩ := y.isNan_iff.1 (nan.resolve_left (by simp [FVal.isNan]))
    exact congrArg f.nan (Bool.or_false s)

/-- Subtraction is addition with the other sign. -/
theorem Fmt.read_flip {f : Fmt} {b : Nat} (size : b < 2 ^ (f.ew + f.fw + 1)) :
    f.read (if b < 2 ^ (f.ew + f.fw) then b + 2 ^ (f.ew + f.fw) else b - 2 ^ (f.ew + f.fw)) = (f.read b).neg := by
  have low : b % 2 ^ (f.ew + f.fw) < 2 ^ (f.ew + f.fw) := Nat.mod_lt _ (by positivity)
  have body : b % 2 ^ (f.ew + f.fw) = f.exOf b * 2 ^ f.fw + f.frOf b := by
    unfold Fmt.exOf Fmt.frOf
    rw [Nat.add_comm f.ew, pow_add, Nat.mod_mul, Nat.mul_comm (_ % _), Nat.add_comm]
  have fields (S : Nat) : let c := S * 2 ^ (f.ew + f.fw) + b % 2 ^ (f.ew + f.fw)
      f.exOf c = f.exOf b ∧ f.frOf c = f.frOf b ∧ f.sign c = decide (S % 2 = 1) := by
    intro c
    obtain ⟨ex, fr, s⟩ := Fmt.fields (f := f) (S := S) (E := f.exOf b) (F := f.frOf b) (Nat.mod_lt _ (by positivity)) (Nat.mod_lt _ (by positivity))
    rw [← body] at ex fr s
    refine ⟨ex, fr, ?_⟩
    unfold Fmt.sign Fmt.minus
    rw [s]
  have neg_of {c : Nat} (ex : f.exOf c = f.exOf b) (fr : f.frOf c = f.frOf b) (sign : f.sign c = !f.sign b) : f.read c = (f.read b).neg := by
    rw [Fmt.read_eq, Fmt.read_eq]
    unfold Fmt.whole Fmt.quantum
    rw [ex, fr, sign]
    split
    · split <;> rfl
    · rfl
  rw [pow_succ] at size
  have own := fields (b / 2 ^ (f.ew + f.fw))
  rw [Nat.div_add_mod'] at own
  by_cases small : b < 2 ^ (f.ew + f.fw)
  · have sum : b + 2 ^ (f.ew + f.fw) = 1 * 2 ^ (f.ew + f.fw) + b % 2 ^ (f.ew + f.fw) := by rw [Nat.mod_eq_of_lt small]; omega
    rw [if_pos small, sum]
    obtain ⟨ex, fr, sign⟩ := fields 1
    refine neg_of ex fr ?_
    rw [sign, own.2.2, Nat.div_eq_of_lt small]
    rfl
  · have quot : b / 2 ^ (f.ew + f.fw) = 1 := Nat.div_eq_of_lt_le (by omega) (by omega)
    have diff : b - 2 ^ (f.ew + f.fw) = 0 * 2 ^ (f.ew + f.fw) + b % 2 ^ (f.ew + f.fw) := by
      have := Nat.div_add_mod b (2 ^ (f.ew + f.fw))
      rw [quot] at this
      omega
    rw [if_neg small, diff]
    obtain ⟨ex, fr, sign⟩ := fields 0
    refine neg_of ex fr ?_
    rw [sign, own.2.2, quot]
    rfl

/-! ## Products -/

theorem Fmt.mul_nan (f : Fmt) (rm : BitVec 2) {a b : Nat} (nan : f.isNaN a ∨ f.isNaN b) : f.mul rm a b = f.nan ((f.read a).isSig || (f.read b).isSig) := by
  rw [← f.read_isNan, ← f.read_isNan] at nan
  unfold Fmt.mul
  generalize f.read a = x at *
  generalize f.read b = y at *
  cases x with
  | nan s => rfl
  | inf n =>
    obtain ⟨s, rfl⟩ := y.isNan_iff.1 (nan.resolve_left (by simp [FVal.isNan]))
    exact congrArg f.nan (Bool.or_false s)
  | fin n m e =>
    obtain ⟨s, rfl⟩ := y.isNan_iff.1 (nan.resolve_left (by simp [FVal.isNan]))
    exact congrArg f.nan (Bool.or_false s)

/-- Two numbers' product, as a magnitude with a sign. -/
theorem withSign_mul_withSign (s t : Bool) (X Y : ℝ) : withSign s X * withSign t Y = withSign (s != t) (X * Y) := by
  cases s <;> cases t <;> simp [withSign]

theorem mul_pow_mul_pow (m n : ℝ) (p q : Int) : m * (2 : ℝ) ^ p * (n * (2 : ℝ) ^ q) = m * n * (2 : ℝ) ^ (p + q) := by
  rw [zpow_add₀ (by norm_num)]
  ring

section
variable {f : Fmt} (h : f.Proper) {a b : Nat} (rm : BitVec 2)
include h

theorem Fmt.add_inf_inf (infA : f.isInf a) (infB : f.isInf b) :
    (¬ (f.minus a ↔ f.minus b) → GivesNaN f True (f.add rm a b)) ∧ (¬ ¬ (f.minus a ↔ f.minus b) → GivesInf f (f.minus a) 0 (f.add rm a b)) := by
  unfold Fmt.add
  rw [Fmt.read_inf infA, Fmt.read_inf infB]
  unfold Fmt.addV
  dsimp only
  refine ⟨fun differ => ?_, fun same => ?_⟩
  · rw [if_neg (fun e => differ ((beq_sign_iff f a b).1 e))]
    exact f.nan_gives (by simp)
  · rw [if_pos ((beq_sign_iff f a b).2 (not_not.1 same))]
    exact Fmt.inf_gives h (f.sign_iff a) 0

theorem Fmt.add_inf_fin (infA : f.isInf a) {y : ℝ} (hy : f.holds b y) : GivesInf f (f.minus a) 0 (f.add rm a b) := by
  unfold Fmt.add
  rw [Fmt.read_inf infA, (Fmt.read_fin h hy).1]
  exact Fmt.inf_gives h (f.sign_iff a) 0

theorem Fmt.add_fin_inf {x : ℝ} (hx : f.holds a x) (infB : f.isInf b) : GivesInf f (f.minus b) 0 (f.add rm a b) := by
  unfold Fmt.add
  rw [Fmt.read_inf infB, (Fmt.read_fin h hx).1]
  exact Fmt.inf_gives h (f.sign_iff b) 0

theorem Fmt.add_fin_fin {x y : ℝ} (hx : f.holds a x) (hy : f.holds b y) :
    (x + y = 0 → GivesZero f (¬ (f.minus a ↔ f.minus b) ∧ rm = 3 ∨ ¬ ¬ (f.minus a ↔ f.minus b) ∧ f.minus a) (f.add rm a b)) ∧
      (x + y ≠ 0 → Rounds f rm (x + y) (f.add rm a b)) := by
  obtain ⟨readA, valueA⟩ := Fmt.read_fin h hx
  obtain ⟨readB, valueB⟩ := Fmt.read_fin h hy
  have spec := Fmt.addFin_spec h rm (f.sign a) (f.whole a) (f.quantum a) (f.sign b) (f.whole b) (f.quantum b)
  unfold Fmt.add
  rw [readA, readB]
  rwa [← valueA, ← valueB, ne_eq (f.sign a), Bool.eq_iff_iff, f.sign_iff, f.sign_iff, ← not_not (a := (f.minus a ↔ f.minus b)), not_not (a := ¬ (f.minus a ↔ f.minus b))] at spec

theorem Fmt.mul_inf_inf (infA : f.isInf a) (infB : f.isInf b) : GivesInf f (¬ (f.minus a ↔ f.minus b)) 0 (f.mul rm a b) := by
  unfold Fmt.mul
  rw [Fmt.read_inf infA, Fmt.read_inf infB]
  exact Fmt.inf_gives h (bne_sign_iff f a b) 0

theorem Fmt.mul_inf_fin (infA : f.isInf a) {y : ℝ} (hy : f.holds b y) :
    (y = 0 → GivesNaN f True (f.mul rm a b)) ∧ (y ≠ 0 → GivesInf f (¬ (f.minus a ↔ f.minus b)) 0 (f.mul rm a b)) := by
  obtain ⟨readB, valueB⟩ := Fmt.read_fin h hy
  unfold Fmt.mul
  rw [Fmt.read_inf infA, readB]
  dsimp only
  rw [valueB, ne_eq, withSign_eq_zero]
  refine ⟨fun zero => ?_, fun other => ?_⟩
  · rw [if_pos zero]
    exact f.nan_gives (by simp)
  · rw [if_neg other]
    exact Fmt.inf_gives h (bne_sign_iff f a b) 0

theorem Fmt.mul_fin_inf {x : ℝ} (hx : f.holds a x) (infB : f.isInf b) :
    (x = 0 → GivesNaN f True (f.mul rm a b)) ∧ (x ≠ 0 → GivesInf f (¬ (f.minus a ↔ f.minus b)) 0 (f.mul rm a b)) := by
  obtain ⟨readA, valueA⟩ := Fmt.read_fin h hx
  unfold Fmt.mul
  rw [readA, Fmt.read_inf infB]
  dsimp only
  rw [valueA, ne_eq, withSign_eq_zero]
  refine ⟨fun zero => ?_, fun other => ?_⟩
  · rw [if_pos zero]
    exact f.nan_gives (by simp)
  · rw [if_neg other]
    exact Fmt.inf_gives h (bne_sign_iff f a b) 0

/-- The exact product of two numbers. -/
theorem Fmt.product_value {x y : ℝ} (hx : f.holds a x) (hy : f.holds b y) :
    x * y = withSign (f.sign a != f.sign b) ((f.whole a * f.whole b : Nat) * (2 : ℝ) ^ (f.quantum a + f.quantum b)) := by
  rw [(Fmt.read_fin h hx).2, (Fmt.read_fin h hy).2, withSign_mul_withSign, mul_pow_mul_pow]
  push_cast
  rfl

theorem Fmt.mul_fin_fin {x y : ℝ} (hx : f.holds a x) (hy : f.holds b y) :
    (x * y = 0 → GivesZero f (¬ (f.minus a ↔ f.minus b)) (f.mul rm a b)) ∧ (x * y ≠ 0 → Rounds f rm (x * y) (f.mul rm a b)) := by
  unfold Fmt.mul
  rw [(Fmt.read_fin h hx).1, (Fmt.read_fin h hy).1, Fmt.product_value h hx hy]
  dsimp only
  rw [ne_eq, withSign_eq_zero]
  refine ⟨fun zero => ?_, fun other => ?_⟩
  · rw [if_pos zero]
    exact f.zero_gives (bne_sign_iff f a b)
  · rw [if_neg other]
    exact Fmt.round_exact_rounds h (Nat.pos_of_ne_zero other) rm _ _

end

end Sys2Proof.Machine
end


section
/-! SUPPORT. Quotients, square roots and their reciprocals: NaNs, infinities and zeros, and else one rounding (R84 to R86). -/

namespace Sys2Proof.Machine

/-- A magnitude with enough bits for a fraction beyond it. -/
theorem log2_room {m fw : Nat} (reach : 2 ^ (fw + 1) ≤ m) : 0 < m ∧ fw < m.log2 := by
  have one : 0 < 2 ^ (fw + 1) := by positivity
  have pos : 0 < m := by omega
  exact ⟨pos, (Nat.le_log2 pos.ne').2 reach⟩

/-! ## Quotients -/

/-- A whole quotient and the fraction beyond it. -/
theorem Beyond.quotient (n : Nat) {d : Nat} (pos : 0 < d) : Beyond (n % d != 0) ((n % d : Nat) / d) := by
  have dR : (0 : ℝ) < d := by exact_mod_cast pos
  refine ⟨by positivity, ?_, ?_⟩
  · rw [div_lt_one dR]
    exact_mod_cast Nat.mod_lt n pos
  · rw [bne_iff_ne, ne_eq, ne_eq, div_eq_zero_iff, or_iff_left dR.ne', Nat.cast_eq_zero]

theorem quotient_add_fraction (n : Nat) {d : Nat} (pos : 0 < d) : ((n / d : Nat) : ℝ) + (n % d : Nat) / d = n / d := by
  have dR : (d : ℝ) ≠ 0 := by exact_mod_cast pos.ne'
  have := congrArg (Nat.cast (R := ℝ)) (Nat.div_add_mod n d)
  push_cast at this
  field_simp
  linarith

/-- The quotient of two magnitudes, rounded once. -/
theorem Fmt.divFin_rounds {f : Fmt} (h : f.Proper) (rm : BitVec 2) (neg : Bool) {ma mb : Nat} (posA : 0 < ma) (posB : 0 < mb) (ea eb : Int) :
    Rounds f rm (withSign neg (ma * (2 : ℝ) ^ ea / (mb * (2 : ℝ) ^ eb))) (f.divFin rm neg ma ea mb eb) := by
  obtain ⟨k, hk⟩ : ∃ k, k = f.fw + 4 + mb.log2 := ⟨_, rfl⟩
  have reach : 2 ^ (f.fw + 1) ≤ ma * 2 ^ k / mb := by
    rw [Nat.le_div_iff_mul_le posB]
    calc 2 ^ (f.fw + 1) * mb ≤ 2 ^ (f.fw + 1) * 2 ^ (mb.log2 + 1) := Nat.mul_le_mul_left _ Nat.lt_log2_self.le
      _ = 2 ^ (f.fw + 2 + mb.log2) := by rw [← pow_add]; congr 1; omega
      _ ≤ 2 ^ k := Nat.pow_le_pow_right (by omega) (by omega)
      _ ≤ ma * 2 ^ k := Nat.le_mul_of_pos_left _ posA
  obtain ⟨pos, room⟩ := log2_room reach
  have rounds := Fmt.round_rounds h (Beyond.quotient (ma * 2 ^ k) posB) pos rm neg (ea - eb - k) (fun _ => room)
  have value : (ma : ℝ) * (2 : ℝ) ^ ea / (mb * (2 : ℝ) ^ eb) =
      (((ma * 2 ^ k / mb : Nat) : ℝ) + (ma * 2 ^ k % mb : Nat) / mb) * (2 : ℝ) ^ (ea - eb - k) := by
    have mbR : (mb : ℝ) ≠ 0 := by exact_mod_cast posB.ne'
    rw [quotient_add_fraction _ posB, zpow_sub₀ (by norm_num), zpow_sub₀ (by norm_num), zpow_natCast]
    push_cast
    field_simp
  unfold Fmt.divFin
  rwa [← hk, value]

theorem withSign_div_withSign (s t : Bool) (X Y : ℝ) : withSign s X / withSign t Y = withSign (s != t) (X / Y) := by
  cases s <;> cases t <;> simp [withSign, neg_div, div_neg]

theorem Fmt.div_nan (f : Fmt) (rm : BitVec 2) {a b : Nat} (nan : f.isNaN a ∨ f.isNaN b) : f.div rm a b = f.nan ((f.read a).isSig || (f.read b).isSig) := by
  rw [← f.read_isNan, ← f.read_isNan] at nan
  unfold Fmt.div
  generalize f.read a = x at *
  generalize f.read b = y at *
  cases x with
  | nan s => rfl
  | inf n =>
    obtain ⟨s, rfl⟩ := y.isNan_iff.1 (nan.resolve_left (by simp [FVal.isNan]))
    exact congrArg f.nan (Bool.or_false s)
  | fin n m e =>
    obtain ⟨s, rfl⟩ := y.isNan_iff.1 (nan.resolve_left (by simp [FVal.isNan]))
    exact congrArg f.nan (Bool.or_false s)

section
variable {f : Fmt} (h : f.Proper) {a b : Nat} (rm : BitVec 2)

theorem Fmt.div_inf_inf (infA : f.isInf a) (infB : f.isInf b) : GivesNaN f True (f.div rm a b) := by
  unfold Fmt.div
  rw [Fmt.read_inf infA, Fmt.read_inf infB]
  exact f.nan_gives (by simp)

include h

theorem Fmt.div_inf_fin (infA : f.isInf a) {y : ℝ} (hy : f.holds b y) : GivesInf f (¬ (f.minus a ↔ f.minus b)) 0 (f.div rm a b) := by
  unfold Fmt.div
  rw [Fmt.read_inf infA, (Fmt.read_fin h hy).1]
  exact Fmt.inf_gives h (bne_sign_iff f a b) 0

theorem Fmt.div_fin_inf {x : ℝ} (hx : f.holds a x) (infB : f.isInf b) : GivesZero f (¬ (f.minus a ↔ f.minus b)) (f.div rm a b) := by
  unfold Fmt.div
  rw [(Fmt.read_fin h hx).1, Fmt.read_inf infB]
  exact f.zero_gives (bne_sign_iff f a b)

/-- The sign and the whole part of a number below, at or above zero. -/
theorem Fmt.sign_of_number {x : ℝ} (hx : f.holds a x) :
    (x = 0 ↔ f.whole a = 0) ∧ (x < 0 → f.whole a ≠ 0 ∧ f.sign a = true) ∧ (0 < x → f.whole a ≠ 0 ∧ f.sign a = false) := by
  have value := (Fmt.read_fin h hx).2
  have zero : x = 0 ↔ f.whole a = 0 := by rw [value, withSign_eq_zero]
  have size : 0 ≤ (f.whole a : ℝ) * (2 : ℝ) ^ f.quantum a := by positivity
  refine ⟨zero, fun below => ⟨fun e => below.ne (zero.2 e), ?_⟩, fun above => ⟨fun e => above.ne' (zero.2 e), ?_⟩⟩
  · by_contra pos
    rw [value, Bool.eq_false_iff.2 pos] at below
    exact absurd below (not_lt.2 size)
  · by_contra neg
    rw [value, Bool.eq_true_of_not_eq_false neg] at above
    exact absurd above (not_lt.2 (neg_nonpos.2 size))

theorem Fmt.div_fin_fin {x y : ℝ} (hx : f.holds a x) (hy : f.holds b y) :
    (y = 0 → x = 0 → GivesNaN f True (f.div rm a b)) ∧ (y = 0 → x ≠ 0 → GivesInf f (¬ (f.minus a ↔ f.minus b)) 8 (f.div rm a b)) ∧
      (y ≠ 0 → x = 0 → GivesZero f (¬ (f.minus a ↔ f.minus b)) (f.div rm a b)) ∧ (y ≠ 0 → x ≠ 0 → Rounds f rm (x / y) (f.div rm a b)) := by
  obtain ⟨readA, valueA⟩ := Fmt.read_fin h hx
  obtain ⟨readB, valueB⟩ := Fmt.read_fin h hy
  have zeroA := (Fmt.sign_of_number h hx).1
  have zeroB := (Fmt.sign_of_number h hy).1
  unfold Fmt.div
  rw [readA, readB, ne_eq, ne_eq, zeroA, zeroB]
  dsimp only
  refine ⟨fun noneB noneA => ?_, fun noneB someA => ?_, fun someB noneA => ?_, fun someB someA => ?_⟩
  · rw [if_pos noneB, if_pos noneA]
    exact f.nan_gives (by simp)
  · rw [if_pos noneB, if_neg someA]
    exact Fmt.inf_gives h (bne_sign_iff f a b) _
  · rw [if_neg someB, if_pos noneA]
    exact f.zero_gives (bne_sign_iff f a b)
  · rw [if_neg someB, if_neg someA, valueA, valueB, withSign_div_withSign]
    exact Fmt.divFin_rounds h rm _ (Nat.pos_of_ne_zero someA) (Nat.pos_of_ne_zero someB) _ _

end

/-! ## Square roots -/

/-- The model's whole square root is that of the library. -/
theorem isqrt_eq (n : Nat) : isqrt n = n.sqrt := by
  unfold isqrt
  refine floorBits_eq _ _ (fun i => ?_) _ 0 (Nat.zero_le _) ?_
  · rw [decide_eq_true_iff, Nat.le_sqrt]
  · rw [Nat.zero_add, Nat.sqrt_lt, ← pow_add]
    exact Nat.lt_log2_self.trans_le (Nat.pow_le_pow_right (by omega) (by omega))

/-- The whole square root of a quotient's whole part, and the fraction beyond it. -/
theorem Beyond.root (n : Nat) {d : Nat} (pos : 0 < d) :
    Beyond ((n / d).sqrt * (n / d).sqrt * d != n) (Real.sqrt (n / d) - (n / d).sqrt) := by
  have dR : (0 : ℝ) < d := by exact_mod_cast pos
  have nonneg : (0 : ℝ) ≤ n / d := by positivity
  have low : (n / d).sqrt * (n / d).sqrt * d ≤ n := (Nat.mul_le_mul_right d (Nat.sqrt_le (n / d))).trans (Nat.div_mul_le_self n d)
  have high : n < ((n / d).sqrt + 1) * ((n / d).sqrt + 1) * d := by
    rw [← Nat.div_lt_iff_lt_mul pos]
    exact Nat.lt_succ_sqrt (n / d)
  generalize (n / d).sqrt = r at *
  have square : Real.sqrt (n / d) * Real.sqrt (n / d) * d = n := by
    rw [Real.mul_self_sqrt nonneg]
    field_simp
  have root : 0 ≤ Real.sqrt (n / d) := Real.sqrt_nonneg _
  have lowR : (r : ℝ) * r * d ≤ n := by exact_mod_cast low
  have highR : (n : ℝ) < (r + 1) * (r + 1) * d := by exact_mod_cast high
  have rR : (0 : ℝ) ≤ r := Nat.cast_nonneg r
  generalize Real.sqrt (n / d) = s at *
  have s2 : (r : ℝ) * r ≤ s * s := by
    rw [← square] at lowR
    exact le_of_mul_le_mul_right lowR dR
  have s3 : s * s < (r + 1) * (r + 1) := by
    rw [← square] at highR
    exact lt_of_mul_lt_mul_right highR dR.le
  have above : (r : ℝ) ≤ s := by nlinarith
  have below : s < r + 1 := by nlinarith
  refine ⟨by linarith, by linarith, ?_⟩
  rw [bne_iff_ne, ne_eq, ne_eq, sub_eq_zero, not_iff_not]
  constructor
  · intro e
    have eR : (r : ℝ) * r * d = n := by exact_mod_cast e
    rw [← square] at eR
    have := mul_right_cancel₀ dR.ne' eR
    nlinarith
  · intro e
    rw [e] at square
    exact_mod_cast square

/-- The root of a whole number with an even power of two. -/
theorem sqrt_mul_even_zpow {y : ℝ} (hy : 0 ≤ y) (k : Int) : Real.sqrt (y * (2 : ℝ) ^ (2 * k)) = Real.sqrt y * (2 : ℝ) ^ k := by
  rw [Real.sqrt_mul hy, show (2 : ℝ) ^ (2 * k) = ((2 : ℝ) ^ k) ^ 2 by rw [← zpow_natCast, ← zpow_mul, mul_comm]; rfl, Real.sqrt_sq (by positivity)]

/-- The square root of a magnitude, rounded once. -/
theorem Fmt.sqrtFin_rounds {f : Fmt} (h : f.Proper) (rm : BitVec 2) {m : Nat} (pos : 0 < m) (e : Int) {k : Nat} (hk : k = 2 * (f.fw + 4) + (e % 2).toNat) :
    Rounds f rm (Real.sqrt (m * (2 : ℝ) ^ e))
      (f.round rm false (isqrt (m * 2 ^ k)) ((e - k) / 2) (isqrt (m * 2 ^ k) * isqrt (m * 2 ^ k) != m * 2 ^ k)) := by
  have even : e = k + 2 * ((e - k) / 2) := by omega
  rw [isqrt_eq]
  have reach : 2 ^ (f.fw + 1) ≤ (m * 2 ^ k).sqrt := by
    rw [Nat.le_sqrt, ← pow_add]
    exact (Nat.pow_le_pow_right (by omega) (by omega)).trans (Nat.le_mul_of_pos_left _ pos)
  obtain ⟨rootPos, room⟩ := log2_room reach
  have beyond := Beyond.root (m * 2 ^ k) one_pos
  rw [Nat.div_one, Nat.mul_one, Nat.cast_one, div_one] at beyond
  have rounds := Fmt.round_rounds h beyond rootPos rm false ((e - k) / 2) (fun _ => room)
  have value : Real.sqrt (m * (2 : ℝ) ^ e) = withSign false ((((m * 2 ^ k).sqrt : Nat) + (Real.sqrt ((m * 2 ^ k : Nat) : ℝ) - ((m * 2 ^ k).sqrt : Nat))) * (2 : ℝ) ^ ((e - k) / 2)) := by
    have shape : (m : ℝ) * (2 : ℝ) ^ e = ((m * 2 ^ k : Nat) : ℝ) * (2 : ℝ) ^ (2 * ((e - k) / 2)) := by
      conv_lhs => rw [even, zpow_add₀ (by norm_num), zpow_natCast]
      push_cast
      ring
    rw [shape, sqrt_mul_even_zpow (Nat.cast_nonneg _), add_sub_cancel]
    rfl
  rwa [value]

/-- The reciprocal square root of a magnitude, rounded once. -/
theorem Fmt.rsqrtFin_rounds {f : Fmt} (h : f.Proper) (rm : BitVec 2) {m : Nat} (pos : 0 < m) (e : Int) {k : Nat}
    (hk : k = m.log2 + 2 * (f.fw + 4) + ((e + (m.log2 + 2 * (f.fw + 4) : Nat)) % 2).toNat) :
    Rounds f rm (1 / Real.sqrt (m * (2 : ℝ) ^ e))
      (f.round rm false (isqrt (2 ^ k / m)) ((-e - k) / 2) (isqrt (2 ^ k / m) * isqrt (2 ^ k / m) * m != 2 ^ k)) := by
  have even : -e = k + 2 * ((-e - k) / 2) := by omega
  rw [isqrt_eq]
  have reach : 2 ^ (f.fw + 1) ≤ (2 ^ k / m).sqrt := by
    rw [Nat.le_sqrt, ← pow_add, Nat.le_div_iff_mul_le pos]
    calc 2 ^ (f.fw + 1 + (f.fw + 1)) * m ≤ 2 ^ (f.fw + 1 + (f.fw + 1)) * 2 ^ (m.log2 + 1) := Nat.mul_le_mul_left _ Nat.lt_log2_self.le
      _ = 2 ^ (f.fw + 1 + (f.fw + 1) + (m.log2 + 1)) := by rw [← pow_add]
      _ ≤ 2 ^ k := Nat.pow_le_pow_right (by omega) (by omega)
  obtain ⟨rootPos, room⟩ := log2_room reach
  have rounds := Fmt.round_rounds h (Beyond.root (2 ^ k) pos) rootPos rm false ((-e - k) / 2) (fun _ => room)
  have value : 1 / Real.sqrt (m * (2 : ℝ) ^ e) =
      withSign false ((((2 ^ k / m).sqrt : Nat) + (Real.sqrt (((2 ^ k : Nat) : ℝ) / m) - ((2 ^ k / m).sqrt : Nat))) * (2 : ℝ) ^ ((-e - k) / 2)) := by
    have mR : (0 : ℝ) < m := by exact_mod_cast pos
    have shape : ((m : ℝ) * (2 : ℝ) ^ e)⁻¹ = ((2 ^ k : Nat) : ℝ) / m * (2 : ℝ) ^ (2 * ((-e - k) / 2)) := by
      rw [mul_inv, ← zpow_neg]
      conv_lhs => rw [even, zpow_add₀ (by norm_num), zpow_natCast]
      push_cast
      field_simp
    rw [one_div, ← Real.sqrt_inv, shape, sqrt_mul_even_zpow (by positivity), add_sub_cancel]
    rfl
  rwa [value]

section
variable {f : Fmt} (rm : BitVec 2) {a : Nat}

theorem Fmt.sqrt_nan (nan : f.isNaN a) : GivesNaN f (f.isSNaN a) (f.sqrt rm a) := by
  unfold Fmt.sqrt
  rw [Fmt.read_nan nan]
  exact f.nan_gives decide_eq_true_iff

theorem Fmt.rsqrt_nan (nan : f.isNaN a) : GivesNaN f (f.isSNaN a) (f.rsqrt rm a) := by
  unfold Fmt.rsqrt
  rw [Fmt.read_nan nan]
  exact f.nan_gives decide_eq_true_iff

variable (h : f.Proper)
include h

theorem Fmt.sqrt_inf (inf : f.isInf a) : (f.minus a → GivesNaN f True (f.sqrt rm a)) ∧ (¬ f.minus a → GivesInf f False 0 (f.sqrt rm a)) := by
  unfold Fmt.sqrt
  rw [Fmt.read_inf inf]
  dsimp only
  rw [← f.sign_iff]
  refine ⟨fun neg => ?_, fun pos => ?_⟩
  · rw [if_pos neg]
    exact f.nan_gives (by simp)
  · rw [if_neg pos]
    exact Fmt.inf_gives h (by simp) 0

omit h in
theorem Fmt.rsqrt_inf (inf : f.isInf a) : (f.minus a → GivesNaN f True (f.rsqrt rm a)) ∧ (¬ f.minus a → GivesZero f False (f.rsqrt rm a)) := by
  unfold Fmt.rsqrt
  rw [Fmt.read_inf inf]
  dsimp only
  rw [← f.sign_iff]
  refine ⟨fun neg => ?_, fun pos => ?_⟩
  · rw [if_pos neg]
    exact f.nan_gives (by simp)
  · rw [if_neg pos]
    exact f.zero_gives (by simp)

theorem Fmt.sqrt_fin {x : ℝ} (hx : f.holds a x) :
    (x = 0 → GivesZero f (f.minus a) (f.sqrt rm a)) ∧ (x < 0 → GivesNaN f True (f.sqrt rm a)) ∧ (0 < x → Rounds f rm (Real.sqrt x) (f.sqrt rm a)) := by
  obtain ⟨read, value⟩ := Fmt.read_fin h hx
  obtain ⟨zero, below, above⟩ := Fmt.sign_of_number h hx
  unfold Fmt.sqrt
  rw [read]
  dsimp only
  refine ⟨fun e => ?_, fun e => ?_, fun e => ?_⟩
  · rw [if_pos (zero.1 e)]
    exact f.zero_gives (f.sign_iff a)
  · rw [if_neg (below e).1, if_pos (below e).2]
    exact f.nan_gives (by simp)
  · rw [if_neg (above e).1, if_neg (by rw [(above e).2]; decide), value, (above e).2]
    exact Fmt.sqrtFin_rounds h rm (Nat.pos_of_ne_zero (above e).1) _ rfl

theorem Fmt.rsqrt_fin {x : ℝ} (hx : f.holds a x) :
    (x = 0 → GivesInf f (f.minus a) 8 (f.rsqrt rm a)) ∧ (x < 0 → GivesNaN f True (f.rsqrt rm a)) ∧ (0 < x → Rounds f rm (1 / Real.sqrt x) (f.rsqrt rm a)) := by
  obtain ⟨read, value⟩ := Fmt.read_fin h hx
  obtain ⟨zero, below, above⟩ := Fmt.sign_of_number h hx
  unfold Fmt.rsqrt
  rw [read]
  dsimp only
  refine ⟨fun e => ?_, fun e => ?_, fun e => ?_⟩
  · rw [if_pos (zero.1 e)]
    exact Fmt.inf_gives h (f.sign_iff a) _
  · rw [if_neg (below e).1, if_pos (below e).2]
    exact f.nan_gives (by simp)
  · rw [if_neg (above e).1, if_neg (by rw [(above e).2]; decide), value, (above e).2]
    exact Fmt.rsqrtFin_rounds h rm (Nat.pos_of_ne_zero (above e).1) _ rfl

end

end Sys2Proof.Machine
end


section
/-! SUPPORT. The fused sum, integral values and conversions: NaNs, infinities and zeros, and else one rounding (R84, R85, R90, R92). -/

namespace Sys2Proof.Machine

/-! ## The fused sum -/

/-- 0 × ∞, which has no product. -/
def Fmt.NoProduct (f : Fmt) (a b : Nat) : Prop := f.isInf a ∧ (∃ y, f.holds b y ∧ y = 0) ∨ (∃ x, f.holds a x ∧ x = 0) ∧ f.isInf b

section
variable {f : Fmt} (h : f.Proper) {a b d : Nat} (rm : BitVec 2)
include h

theorem Fmt.mulV_noProduct (away : f.NoProduct a b) : mulV (f.read a) (f.read b) = none ∧ ¬ f.isNaN a ∧ ¬ f.isNaN b := by
  rcases away with ⟨infA, y, hy, zero⟩ | ⟨⟨x, hx, zero⟩, infB⟩
  · refine ⟨?_, Fmt.not_isNaN_of_isInf infA, Fmt.not_isNaN_of_holds hy⟩
    rw [Fmt.read_inf infA, (Fmt.read_fin h hy).1]
    exact if_pos ((Fmt.sign_of_number h hy).1.1 zero)
  · refine ⟨?_, Fmt.not_isNaN_of_holds hx, Fmt.not_isNaN_of_isInf infB⟩
    rw [(Fmt.read_fin h hx).1, Fmt.read_inf infB]
    exact if_pos ((Fmt.sign_of_number h hx).1.1 zero)

theorem Fmt.mulV_inf (nanA : ¬ f.isNaN a) (nanB : ¬ f.isNaN b) (away : ¬ f.NoProduct a b) (inf : f.isInf a ∨ f.isInf b) :
    mulV (f.read a) (f.read b) = some (.inf (f.sign a != f.sign b)) := by
  rcases Fmt.read_cases h a with nan | infA | ⟨x, hx⟩
  · exact absurd nan nanA
  · rcases Fmt.read_cases h b with nan | infB | ⟨y, hy⟩
    · exact absurd nan nanB
    · rw [Fmt.read_inf infA, Fmt.read_inf infB]
      rfl
    · rw [Fmt.read_inf infA, (Fmt.read_fin h hy).1]
      exact if_neg fun zero => away (Or.inl ⟨infA, y, hy, (Fmt.sign_of_number h hy).1.2 zero⟩)
  · have infB := inf.resolve_left (Fmt.not_isInf_of_holds hx)
    rw [(Fmt.read_fin h hx).1, Fmt.read_inf infB]
    exact if_neg fun zero => away (Or.inr ⟨⟨x, hx, (Fmt.sign_of_number h hx).1.2 zero⟩, infB⟩)

theorem Fmt.mulV_fin {x y : ℝ} (hx : f.holds a x) (hy : f.holds b y) :
    mulV (f.read a) (f.read b) = some (.fin (f.sign a != f.sign b) (f.whole a * f.whole b) (f.quantum a + f.quantum b)) := by
  rw [(Fmt.read_fin h hx).1, (Fmt.read_fin h hy).1]
  rfl

omit h in
theorem Fmt.fma_nan (nan : f.isNaN a ∨ f.isNaN b) : GivesNaN f (f.isSNaN a ∨ f.isSNaN b ∨ f.isSNaN d) (f.fma rm d a b) := by
  unfold Fmt.fma
  rw [if_pos (by rw [Bool.or_eq_true, f.read_isNan, f.read_isNan]; exact nan)]
  exact f.nan_gives (by rw [Bool.or_eq_true, Bool.or_eq_true, f.read_isSig, f.read_isSig, f.read_isSig, or_assoc])

omit h in
/-- Past the NaNs of its factors, the fused sum is that of the product's value, where there is one, with the addend. -/
theorem Fmt.fma_eq (nanA : ¬ f.isNaN a) (nanB : ¬ f.isNaN b) : (mulV (f.read a) (f.read b) = none → f.fma rm d a b = f.nan true) ∧
    ∀ p, mulV (f.read a) (f.read b) = some p → f.fma rm d a b = if (f.read d).isNan then f.nan (f.read d).isSig else f.addV rm p (f.read d) := by
  have sigA : (f.read a).isSig = false := Bool.eq_false_iff.2 fun e => nanA ((f.read_isSig a).1 e).1
  have sigB : (f.read b).isSig = false := Bool.eq_false_iff.2 fun e => nanB ((f.read_isSig b).1 e).1
  unfold Fmt.fma
  rw [if_neg (by rw [Bool.or_eq_true, f.read_isNan, f.read_isNan]; exact not_or.2 ⟨nanA, nanB⟩), sigA, sigB, Bool.or_self, Bool.false_or]
  refine ⟨fun product => ?_, fun p product => ?_⟩ <;> rw [product]

theorem Fmt.fma_noProduct (away : f.NoProduct a b) : GivesNaN f True (f.fma rm d a b) := by
  obtain ⟨none_, nanA, nanB⟩ := Fmt.mulV_noProduct h away
  rw [(Fmt.fma_eq rm nanA nanB).1 none_]
  exact f.nan_gives (by simp)

theorem Fmt.fma_nan_addend (nanA : ¬ f.isNaN a) (nanB : ¬ f.isNaN b) (away : ¬ f.NoProduct a b) (nan : f.isNaN d) :
    GivesNaN f (f.isSNaN d) (f.fma rm d a b) := by
  obtain ⟨p, hp⟩ : ∃ p, mulV (f.read a) (f.read b) = some p := by
    by_cases inf : f.isInf a ∨ f.isInf b
    · exact ⟨_, Fmt.mulV_inf h nanA nanB away inf⟩
    · obtain ⟨infA, infB⟩ := not_or.1 inf
      obtain ⟨x, hx⟩ := ((Fmt.read_cases h a).resolve_left nanA).resolve_left infA
      obtain ⟨y, hy⟩ := ((Fmt.read_cases h b).resolve_left nanB).resolve_left infB
      exact ⟨_, Fmt.mulV_fin h hx hy⟩
  rw [(Fmt.fma_eq rm nanA nanB).2 p hp, if_pos ((f.read_isNan d).2 nan)]
  exact f.nan_gives (f.read_isSig d)

theorem Fmt.fma_inf (nanA : ¬ f.isNaN a) (nanB : ¬ f.isNaN b) (away : ¬ f.NoProduct a b) (inf : f.isInf a ∨ f.isInf b) :
    (f.isInf d → ¬ (¬ (f.minus a ↔ f.minus b) ↔ f.minus d) → GivesNaN f True (f.fma rm d a b)) ∧
      (f.isInf d → (¬ (f.minus a ↔ f.minus b) ↔ f.minus d) → GivesInf f (¬ (f.minus a ↔ f.minus b)) 0 (f.fma rm d a b)) ∧
      (∀ z, f.holds d z → GivesInf f (¬ (f.minus a ↔ f.minus b)) 0 (f.fma rm d a b)) := by
  have same : ((f.sign a != f.sign b) == f.sign d) = true ↔ (¬ (f.minus a ↔ f.minus b) ↔ f.minus d) := by
    rw [beq_iff_eq, Bool.eq_iff_iff, bne_sign_iff, f.sign_iff]
  rw [(Fmt.fma_eq rm nanA nanB).2 _ (Fmt.mulV_inf h nanA nanB away inf)]
  refine ⟨fun infD differ => ?_, fun infD equal => ?_, fun z hz => ?_⟩
  · rw [Fmt.read_inf infD]
    refine (if_neg (mt same.1 differ)).symm ▸ ?_
    exact f.nan_gives (by simp)
  · rw [Fmt.read_inf infD]
    refine (if_pos (same.2 equal)).symm ▸ ?_
    exact Fmt.inf_gives h (bne_sign_iff f a b) 0
  · rw [(Fmt.read_fin h hz).1]
    exact Fmt.inf_gives h (bne_sign_iff f a b) 0

theorem Fmt.fma_fin {x y : ℝ} (hx : f.holds a x) (hy : f.holds b y) :
    (f.isInf d → GivesInf f (f.minus d) 0 (f.fma rm d a b)) ∧
      ∀ z, f.holds d z → (x * y + z = 0 → GivesZero f ((¬ (f.minus a ↔ f.minus b) ↔ f.minus d) ∧ f.minus d ∨
          ¬ (¬ (f.minus a ↔ f.minus b) ↔ f.minus d) ∧ rm = 3) (f.fma rm d a b)) ∧
        (x * y + z ≠ 0 → Rounds f rm (x * y + z) (f.fma rm d a b)) := by
  rw [(Fmt.fma_eq rm (Fmt.not_isNaN_of_holds hx) (Fmt.not_isNaN_of_holds hy)).2 _ (Fmt.mulV_fin h hx hy)]
  refine ⟨fun infD => ?_, fun z hz => ?_⟩
  · rw [Fmt.read_inf infD]
    exact Fmt.inf_gives h (f.sign_iff d) 0
  · have spec := Fmt.addFin_spec h rm (f.sign a != f.sign b) (f.whole a * f.whole b) (f.quantum a + f.quantum b) (f.sign d) (f.whole d) (f.quantum d)
    obtain ⟨read, value⟩ := Fmt.read_fin h hz
    have signs : ((f.sign a != f.sign b) ≠ f.sign d ∧ rm = 3 ∨ (f.sign a != f.sign b) = f.sign d ∧ (f.sign a != f.sign b) = true) ↔
        (¬ (f.minus a ↔ f.minus b) ↔ f.minus d) ∧ f.minus d ∨ ¬ (¬ (f.minus a ↔ f.minus b) ↔ f.minus d) ∧ rm = 3 := by
      rw [ne_eq, Bool.eq_iff_iff (a := f.sign a != f.sign b), bne_sign_iff, f.sign_iff, or_comm]
      exact or_congr_left (and_congr_right fun e => e)
    rw [read]
    rw [← Fmt.product_value h hx hy, ← value, signs] at spec
    exact spec

end

/-! ## Integral values -/

theorem toIntegral_spec (rm : BitVec 2) (neg : Bool) (m : Nat) (e : Int) :
    Integral rm (withSign neg (m * (2 : ℝ) ^ e)) (toIntegral rm neg m e).1 ∧
      ((toIntegral rm neg m e).2 = true ↔ ((toIntegral rm neg m e).1 : ℝ) ≠ withSign neg (m * (2 : ℝ) ^ e)) := by
  obtain ⟨rounds, differs⟩ := roundAt_roundsTo Beyond.exact rm neg m (e := e) (q := 0) fun _ => rfl
  rw [add_zero, sub_zero] at rounds differs
  refine ⟨rounds.integral (by positivity), differs.trans (not_congr ?_)⟩
  exact withSign_inj.symm.trans (by rw [← cast_signed]; rfl)

/-- A number the format has rounds to bits that stand for it. -/
theorem Fmt.round_holds {f : Fmt} (h : f.Proper) (rm : BitVec 2) (neg : Bool) {m k : Nat} {e q : Int} (pos : 0 < m)
    (same : (m : ℝ) * (2 : ℝ) ^ e = k * (2 : ℝ) ^ q) (least : f.qmin ≤ q) (bits : k < 2 * 2 ^ f.fw)
    (within : (m : ℝ) * (2 : ℝ) ^ e ≤ (2 * (2 ^ f.fw : Nat) - 1) * (2 : ℝ) ^ f.top) :
    f.holds (f.round rm neg m e false).bits (withSign neg (m * (2 : ℝ) ^ e)) ∧ f.sign (f.round rm neg m e false).bits = neg ∧
      (f.round rm neg m e false).bits < 2 ^ (f.ew + f.fw + 1) := by
  obtain ⟨low, high⟩ := Fmt.place_bounds (f := f) pos Beyond.exact e
  obtain ⟨rounds, -⟩ := roundAt_roundsTo Beyond.exact rm neg m (e := e) (q := f.lastPlace m e) fun _ => rfl
  rw [add_zero] at low high rounds
  have scaled (p : Int) : (m : ℝ) * (2 : ℝ) ^ e = m * (2 : ℝ) ^ (e - p) * (2 : ℝ) ^ p := by
    rw [mul_assoc, ← zpow_add₀ (by norm_num), sub_add_cancel]
  have place_le : f.place m e ≤ q := by
    by_contra above
    have small : (k : ℝ) * (2 : ℝ) ^ q < (2 ^ f.fw : Nat) * (2 : ℝ) ^ f.place m e := by
      have kR : (k : ℝ) < 2 * (2 ^ f.fw : Nat) := by exact_mod_cast bits
      have unit : (0 : ℝ) < (2 : ℝ) ^ q := by positivity
      have step : (2 : ℝ) ^ (q + 1) ≤ (2 : ℝ) ^ f.place m e := zpow_le_zpow_right₀ (by norm_num) (by omega)
      rw [zpow_add_one₀ (by norm_num)] at step
      have one : (0 : ℝ) < (2 ^ f.fw : Nat) := by positivity
      nlinarith [mul_lt_mul_of_pos_right kR unit]
    rw [← same, scaled (f.place m e)] at small
    exact absurd (lt_of_mul_lt_mul_right small (by positivity)) (not_lt.2 low)
  have last_le : f.lastPlace m e ≤ q := by
    unfold Fmt.lastPlace
    split <;> omega
  have least' : f.qmin ≤ f.lastPlace m e := by
    unfold Fmt.lastPlace
    split <;> omega
  have lowOr : f.lastPlace m e = f.qmin ∨ ((2 ^ f.fw : Nat) : ℝ) ≤ m * (2 : ℝ) ^ (e - f.lastPlace m e) := by
    unfold Fmt.lastPlace
    split
    · exact Or.inl rfl
    · exact Or.inr low
  have high' : (m : ℝ) * (2 : ℝ) ^ (e - f.lastPlace m e) < 2 * (2 ^ f.fw : Nat) := by
    refine lt_of_le_of_lt ?_ high
    have : f.place m e ≤ f.lastPlace m e := by
      unfold Fmt.lastPlace
      split <;> omega
    gcongr
    norm_num
  have whole : (m : ℝ) * (2 : ℝ) ^ (e - f.lastPlace m e) = ((k * 2 ^ (q - f.lastPlace m e).toNat : Nat) : ℝ) := by
    rw [sub_eq_add_neg, zpow_add₀ (by norm_num), ← mul_assoc, same, mul_assoc, ← zpow_add₀ (by norm_num)]
    push_cast
    rw [← zpow_natCast, Int.toNat_of_nonneg (by omega), sub_eq_add_neg]
  have exact_ : ((roundAt rm neg m e false (f.lastPlace m e)).1 : ℝ) = m * (2 : ℝ) ^ (e - f.lastPlace m e) := by
    rw [whole] at rounds ⊢
    rw [rounds.whole]
  have large := Fmt.large_iff (f := f) (q := f.lastPlace m e) (fun above => lowOr.resolve_left (by have := Fmt.qmin_lt_top h; omega)) high' fun _ => rounds
  have past : ¬ f.Over (roundAt rm neg m e false (f.lastPlace m e)).1 (f.lastPlace m e) := fun o => by
    have beyond := (large.2 o).greatest_lt
    rw [← scaled] at beyond
    exact absurd beyond (not_lt.2 within)
  rw [Fmt.round_eq pos]
  obtain ⟨held, sign, size, -⟩ := Fmt.deliver_within h least' (lowOr.imp_right rounds.bounds.1)
    (rounds.bounds.2 (by push_cast at high' ⊢; exact high')) past rm neg (roundAt rm neg m e false (f.lastPlace m e)).2
    (f.place m e < f.qmin && !(f.place m e + 1 == f.qmin && (roundAt rm neg m e false (f.place m e)).1 == 2 ^ (f.fw + 1)))
  rw [exact_, ← scaled] at held
  exact ⟨held, sign, size⟩

/-- A zero stands for zero. -/
theorem Fmt.zero_spec {f : Fmt} (h : f.Proper) (neg : Bool) :
    f.holds (f.zero neg) (withSign neg 0) ∧ f.sign (f.zero neg) = neg ∧ f.zero neg < 2 ^ (f.ew + f.fw + 1) := by
  have four : 2 ^ 2 ≤ 2 ^ f.ew := Nat.pow_le_pow_right (by omega) h.1
  obtain ⟨ex, fr, sign, size, -⟩ := Fmt.bits_spec h (neg := neg) (E := 0) (F := 0) (by omega) (by positivity)
  rw [Nat.zero_mul, Nat.add_zero] at ex fr sign size
  refine ⟨?_, sign, size⟩
  rw [Fmt.holds_iff h, ex, sign]
  refine ⟨by omega, ?_⟩
  unfold Fmt.whole
  rw [if_pos ex, fr, Nat.cast_zero, zero_mul]

/-- The greatest number of each of the four formats is whole. -/
theorem Fmt.top_nonneg {f : Fmt} (h : f ∈ formats) : 0 ≤ f.top := by
  simp only [formats, List.mem_cons, List.not_mem_nil, or_false] at h
  rcases h with rfl | rfl | rfl | rfl <;> decide

section
variable {f : Fmt} (h : f.Proper) (rm : BitVec 2) {a : Nat}

theorem Fmt.rint_nan (nan : f.isNaN a) : GivesNaN f (f.isSNaN a) (f.rint rm a) := by
  unfold Fmt.rint
  rw [Fmt.read_nan nan]
  exact f.nan_gives decide_eq_true_iff

theorem Fmt.rint_inf (inf : f.isInf a) : f.rint rm a = ⟨a, 0⟩ := by
  unfold Fmt.rint
  rw [Fmt.read_inf inf]

include h

/-- A magnitude rounded to a whole number is one of the format. -/
theorem Fmt.round_whole_holds (top : 0 ≤ f.top) (neg : Bool) {m : Nat} {e : Int} {r : Nat} (least : f.qmin ≤ e) (bits : m < 2 * 2 ^ f.fw)
    (within : (m : ℝ) * (2 : ℝ) ^ e ≤ (2 * (2 ^ f.fw : Nat) - 1) * (2 : ℝ) ^ f.top) (rounds : RoundsTo rm neg (m * (2 : ℝ) ^ e) r) (pos : 0 < r) :
    f.holds (f.round rm neg r 0 false).bits (withSign neg r) ∧ f.sign (f.round rm neg r 0 false).bits = neg ∧
      (f.round rm neg r 0 false).bits < 2 ^ (f.ew + f.fw + 1) := by
  have unit : (r : ℝ) * (2 : ℝ) ^ (0 : Int) = r := by rw [zpow_zero, mul_one]
  have onePos : 1 ≤ 2 ^ f.fw := Nat.one_le_two_pow
  rw [← unit]
  rcases le_or_gt 0 e with whole | fraction
  · have same : (m : ℝ) * (2 : ℝ) ^ e = ((m * 2 ^ e.toNat : Nat) : ℝ) := by
      push_cast
      rw [← zpow_natCast, Int.toNat_of_nonneg whole]
    have r_ : (r : ℝ) = m * (2 : ℝ) ^ e := by
      rw [same] at rounds ⊢
      rw [rounds.whole]
    exact Fmt.round_holds h rm neg pos (by rw [unit, r_]) least bits (by rw [unit, r_]; exact within)
  · have small : (m : ℝ) * (2 : ℝ) ^ e < (2 ^ f.fw : Nat) := by
      have mR : (m : ℝ) < 2 * (2 ^ f.fw : Nat) := by exact_mod_cast bits
      have step : (2 : ℝ) ^ e ≤ (2 : ℝ) ^ (-1 : Int) := zpow_le_zpow_right₀ (by norm_num) (by omega)
      have half : (2 : ℝ) ^ (-1 : Int) = 1 / 2 := by norm_num
      rw [half] at step
      have := Nat.cast_nonneg (α := ℝ) m
      nlinarith
    have le : r ≤ 2 ^ f.fw := rounds.bounds.2 small
    have qmin : f.qmin ≤ 0 := by
      unfold Fmt.qmin Fmt.bias
      have : 2 ^ 1 ≤ 2 ^ (f.ew - 1) := Nat.pow_le_pow_right (by omega) (by have := h.1; omega)
      omega
    refine Fmt.round_holds h rm neg pos rfl qmin (by omega) ?_
    have leR : (r : ℝ) ≤ (2 ^ f.fw : Nat) := by exact_mod_cast le
    have oneR : (1 : ℝ) ≤ (2 ^ f.fw : Nat) := by exact_mod_cast onePos
    have up : (1 : ℝ) ≤ (2 : ℝ) ^ f.top := one_le_zpow₀ (by norm_num) top
    rw [unit]
    nlinarith

theorem Fmt.rint_fin (top : 0 ≤ f.top) {x : ℝ} (hx : f.holds a x) :
    ∃ n : Int, Integral rm x n ∧ f.holds (f.rint rm a).bits n ∧ (f.rint rm a).bits < 2 ^ (f.ew + f.fw + 1) ∧
      (f.minus (f.rint rm a).bits ↔ f.minus a) ∧ ((n : ℝ) = x → (f.rint rm a).flags = 0) ∧ ((n : ℝ) ≠ x → (f.rint rm a).flags = 1) := by
  obtain ⟨read, value⟩ := Fmt.read_fin h hx
  obtain ⟨integral, differs⟩ := toIntegral_spec rm (f.sign a) (f.whole a) (f.quantum a)
  obtain ⟨rounds, -⟩ := roundAt_roundsTo Beyond.exact rm (f.sign a) (f.whole a) (e := f.quantum a) (q := 0) fun _ => rfl
  rw [add_zero, sub_zero] at rounds
  rw [← value] at integral differs
  have within := Fmt.holds_le_greatest h hx
  rw [value, abs_withSign (by positivity)] at within
  have bits := f.whole_lt a
  rw [pow_succ, Nat.mul_comm] at bits
  refine ⟨_, integral, ?_⟩
  have cast : (((toIntegral rm (f.sign a) (f.whole a) (f.quantum a)).1 : Int) : ℝ) =
      withSign (f.sign a) (roundAt rm (f.sign a) (f.whole a) (f.quantum a) false 0).1 := cast_signed _ _
  have flag : (toIntegral rm (f.sign a) (f.whole a) (f.quantum a)).2 = (roundAt rm (f.sign a) (f.whole a) (f.quantum a) false 0).2 := rfl
  rw [flag] at differs
  have held : let bits := if (roundAt rm (f.sign a) (f.whole a) (f.quantum a) false 0).1 = 0 then f.zero (f.sign a)
        else (f.round rm (f.sign a) (roundAt rm (f.sign a) (f.whole a) (f.quantum a) false 0).1 0 false).bits
      f.holds bits (withSign (f.sign a) (roundAt rm (f.sign a) (f.whole a) (f.quantum a) false 0).1) ∧ f.sign bits = f.sign a ∧
        bits < 2 ^ (f.ew + f.fw + 1) := by
    intro bits'
    by_cases zero : (roundAt rm (f.sign a) (f.whole a) (f.quantum a) false 0).1 = 0
    · simp only [bits', if_pos zero]
      rw [zero, Nat.cast_zero]
      exact Fmt.zero_spec h _
    · simp only [bits', if_neg zero]
      exact Fmt.round_whole_holds h rm top _ (f.qmin_le_quantum a) bits within rounds (Nat.pos_of_ne_zero zero)
  unfold Fmt.rint
  rw [read, cast]
  rw [cast] at differs
  obtain ⟨holds, sign, size⟩ := held
  refine ⟨holds, size, ?_, fun equal => ?_, fun other => ?_⟩
  · rw [← f.sign_iff, ← f.sign_iff]
    exact iff_of_eq (congrArg (· = true) sign)
  · exact if_neg fun e => differs.1 e equal
  · exact if_pos (differs.2 other)

end

/-! ## Conversions -/

section
variable {f g : Fmt} (rm : BitVec 2) {a : Nat}

theorem convert_nan (nan : f.isNaN a) : GivesNaN g (f.isSNaN a) (convert f g rm a) := by
  unfold convert
  rw [Fmt.read_nan nan]
  exact g.nan_gives decide_eq_true_iff

theorem convert_inf (hg : g.Proper) (inf : f.isInf a) : GivesInf g (f.minus a) 0 (convert f g rm a) := by
  unfold convert
  rw [Fmt.read_inf inf]
  exact Fmt.inf_gives hg (f.sign_iff a) 0

theorem convert_fin (hf : f.Proper) (hg : g.Proper) {x : ℝ} (hx : f.holds a x) :
    (x = 0 → GivesZero g (f.minus a) (convert f g rm a)) ∧ (x ≠ 0 → Rounds g rm x (convert f g rm a)) := by
  have zero := (Fmt.sign_of_number hf hx).1
  unfold convert
  rw [(Fmt.read_fin hf hx).1, ne_eq, zero]
  refine ⟨fun none_ => ?_, fun some_ => ?_⟩
  · dsimp only
    rw [Fmt.round, if_pos none_]
    exact g.zero_gives (f.sign_iff a)
  · rw [(Fmt.read_fin hf hx).2]
    exact Fmt.round_exact_rounds hg (Nat.pos_of_ne_zero some_) rm _ _

end

end Sys2Proof.Machine
end


section
/-! SUPPORT. A result that both ends of an interval round to is that of every number between them the format does not have (R28);
an irrational magnitude known to lie near a whole number rounds as `roundNear` says. -/

namespace Sys2Proof.Machine

/-! ## Between two numbers -/

/-- The best for two values is the best for those between them. -/
theorem Best.between {rm : BitVec 2} {ξ₁ ξ ξ₂ η ζ : ℝ} {even : Prop} (low : ξ₁ ≤ ξ) (high : ξ ≤ ξ₂)
    (sizes : |ξ₁| ≤ |ξ| ∧ |ξ| ≤ |ξ₂| ∨ |ξ₂| ≤ |ξ| ∧ |ξ| ≤ |ξ₁|) (first : Best rm ξ₁ η ζ even) (second : Best rm ξ₂ η ζ even) :
    Best rm ξ η ζ even := by
  refine ⟨fun e => ?_, fun e => ?_, fun e => ⟨high.trans (second.2.2.1 e).1, fun le => (first.2.2.1 e).2 (low.trans le)⟩,
    fun e => ⟨(first.2.2.2 e).1.trans low, fun le => (second.2.2.2 e).2 (le.trans high)⟩⟩
  · obtain ⟨near₁, tie₁⟩ := first.1 e
    obtain ⟨near₂, tie₂⟩ := second.1 e
    -- the point half way decides
    have closer {t : ℝ} (order : η < ζ) : |t - η| ≤ |t - ζ| ↔ t ≤ (η + ζ) / 2 := by
      rw [← sq_le_sq]
      constructor <;> intro h <;> nlinarith
    have closer' {t : ℝ} (order : ζ < η) : |t - η| ≤ |t - ζ| ↔ (η + ζ) / 2 ≤ t := by
      rw [← sq_le_sq]
      constructor <;> intro h <;> nlinarith
    rcases lt_trichotomy η ζ with order | same | order
    · have half₂ := (closer order).1 near₂
      have half : ξ ≤ (η + ζ) / 2 := high.trans half₂
      refine ⟨(closer order).2 half, fun equal other => tie₂ ?_ other⟩
      have mid : (η + ζ) / 2 = ξ := by
        rcases abs_eq_abs.1 equal with h | h <;> linarith
      rw [le_antisymm (mid ▸ half₂) high]
      exact equal
    · exact ⟨by rw [same], fun _ other => absurd same.symm other⟩
    · have half₁ := (closer' order).1 near₁
      have half : (η + ζ) / 2 ≤ ξ := half₁.trans low
      refine ⟨(closer' order).2 half, fun equal other => tie₁ ?_ other⟩
      have mid : (η + ζ) / 2 = ξ := by
        rcases abs_eq_abs.1 equal with h | h <;> linarith
      rw [le_antisymm low (mid ▸ half₁)]
      exact equal
  · obtain ⟨low₁, great₁⟩ := first.2.1 e
    obtain ⟨low₂, great₂⟩ := second.2.1 e
    rcases sizes with ⟨a, b⟩ | ⟨a, b⟩
    · exact ⟨low₁.trans a, fun le => great₂ (le.trans b)⟩
    · exact ⟨low₂.trans a, fun le => great₁ (le.trans b)⟩

theorem Fmt.Large.mono {f : Fmt} {rm : BitVec 2} {neg : Bool} {X Y : ℝ} (le : X ≤ Y) (large : f.Large rm neg X) : f.Large rm neg Y :=
  large.imp (fun l => ⟨l.1, l.2.trans le⟩) (fun l => l.imp (fun l => ⟨l.1, l.2.trans_le le⟩) (fun l => ⟨l.1, l.2.trans le⟩))

theorem Fmt.Tiny.anti {f : Fmt} {rm : BitVec 2} {neg : Bool} {X Y : ℝ} (le : X ≤ Y) (tiny : f.Tiny rm neg Y) : f.Tiny rm neg X :=
  tiny.imp (fun l => ⟨l.1, le.trans_lt l.2⟩) (fun l => l.imp (fun l => ⟨l.1, le.trans l.2⟩) (fun l => ⟨l.1, le.trans_lt l.2⟩))

section
variable {f : Fmt} (h : f.Proper)
include h

/-- What `Rounds` says, by the magnitude and the sign of the number. -/
theorem Rounds.magnitude {rm : BitVec 2} {neg : Bool} {X : ℝ} {r : FRes} (pos : 0 < X) (rounds : Rounds f rm (withSign neg X) r) :
    r.bits < 2 ^ (f.ew + f.fw + 1) ∧ f.sign r.bits = neg ∧ (f.Large rm neg X → rm = 0 ∨ Outward rm neg → f.isInf r.bits) ∧
      (¬ (f.Large rm neg X ∧ (rm = 0 ∨ Outward rm neg)) →
        ∃ y, f.holds r.bits y ∧ ∀ b z, f.holds b z → Best rm (withSign neg X) y z (r.bits % 2 = 0)) ∧
      (r.flags.getLsbD 0 = true ↔ ¬ f.holds r.bits (withSign neg X)) ∧
      (r.flags.getLsbD 1 = true ↔ f.Tiny rm neg X ∧ ¬ f.holds r.bits (withSign neg X)) ∧
      (r.flags.getLsbD 2 = true ↔ f.Large rm neg X) ∧ r.flags.getLsbD 3 = false ∧ r.flags.getLsbD 4 = false := by
  have below : withSign neg X < 0 ↔ neg = true := withSign_neg_iff pos
  have above : 0 < withSign neg X ↔ neg = false := by cases neg <;> simp [withSign, pos, pos.le]
  have out : (rm = 2 ∧ 0 < withSign neg X ∨ rm = 3 ∧ withSign neg X < 0) ↔ Outward rm neg := by rw [below, above, Outward]
  have inward : ¬ (rm ≠ 0 ∧ ¬ Outward rm neg) ↔ rm = 0 ∨ Outward rm neg := by rw [not_and_or, not_not, not_not]
  obtain ⟨great, following, hgreat, hnext, rest⟩ := rounds
  rw [Fmt.greatest_iff h] at hgreat
  rw [Fmt.next_iff h] at hnext
  rw [hgreat, hnext] at rest
  dsimp only at rest
  rw [abs_withSign pos.le, out, below, inward] at rest
  obtain ⟨size, sign, infinite, finite, nx, uf, of_, rest⟩ := rest
  refine ⟨size, ?_, fun large outward => infinite ⟨large, outward⟩, fun notBig => ?_, nx, uf, of_, rest⟩
  · rw [← f.sign_iff] at sign
    exact Bool.eq_iff_iff.2 sign
  · obtain ⟨y, hy, zero, one, two, three⟩ := finite notBig
    refine ⟨y, hy, fun b z hz => ⟨fun e => zero e b z hz, fun e => ?_, fun e => ⟨(two e).1, (two e).2 b z hz⟩, fun e => ⟨(three e).1, (three e).2 b z hz⟩⟩⟩
    rw [abs_withSign pos.le]
    exact ⟨(one e).1, (one e).2 b z hz⟩

/-- A result that two magnitudes round to is that of every magnitude between them that it does not stand for. -/
theorem Rounds.between {rm : BitVec 2} {neg : Bool} {X₁ X X₂ : ℝ} {r : FRes} (pos : 0 < X₁) (low : X₁ ≤ X) (high : X ≤ X₂)
    (first : Rounds f rm (withSign neg X₁) r) (second : Rounds f rm (withSign neg X₂) r) (other : ¬ f.holds r.bits (withSign neg X)) :
    Rounds f rm (withSign neg X) r := by
  rcases eq_or_lt_of_le (low.trans high) with same | apart
  · rwa [← le_antisymm low (high.trans same.ge)]
  have posX := pos.trans_le low
  obtain ⟨size, sign, infinite₁, finite₁, nx₁, uf₁, of₁, rest⟩ := Rounds.magnitude h pos first
  obtain ⟨-, -, -, finite₂, nx₂, uf₂, of₂, -⟩ := Rounds.magnitude h (posX.trans_le high) second
  have large₁ : f.Large rm neg X ↔ f.Large rm neg X₁ := ⟨fun l => of₁.1 (of₂.2 (l.mono high)), fun l => l.mono low⟩
  have large₂ : f.Large rm neg X ↔ f.Large rm neg X₂ := large₁.trans (of₁.symm.trans of₂)
  have inexact : r.flags.getLsbD 0 = true := by
    by_contra exact_
    have held₁ := not_not.1 (mt nx₁.2 exact_)
    have held₂ := not_not.1 (mt nx₂.2 exact_)
    exact apart.ne (withSign_inj.1 (Fmt.holds_unique h held₁ held₂))
  refine Rounds.of_magnitude h posX size sign (fun l => infinite₁ (large₁.1 l)) (fun notBig => ?_) (iff_of_true inexact other) ?_ (of₁.trans large₁.symm) rest
  · obtain ⟨y, hy, best₁⟩ := finite₁ (by rwa [← large₁])
    obtain ⟨y', hy', best₂⟩ := finite₂ (by rwa [← large₂])
    rw [← Fmt.holds_unique h hy hy'] at best₂
    refine ⟨y, hy, fun b z hz => ?_⟩
    cases neg with
    | false =>
      refine Best.between (ξ₁ := withSign false X₁) (ξ₂ := withSign false X₂) low high (Or.inl ?_) (best₁ b z hz) (best₂ b z hz)
      rw [abs_withSign pos.le, abs_withSign posX.le, abs_withSign (posX.trans_le high).le]
      exact ⟨low, high⟩
    | true =>
      refine Best.between (ξ₁ := withSign true X₂) (ξ₂ := withSign true X₁) (neg_le_neg high) (neg_le_neg low) (Or.inr ?_) (best₂ b z hz) (best₁ b z hz)
      rw [abs_withSign pos.le, abs_withSign posX.le, abs_withSign (posX.trans_le high).le]
      exact ⟨low, high⟩
  · rw [and_iff_left other]
    constructor
    · intro set
      exact (uf₂.1 set).1.anti high
    · intro tiny
      exact uf₁.2 ⟨tiny.anti low, nx₁.1 inexact⟩

/-! ## Irrational magnitudes -/

/-- No bits stand for an irrational number. -/
theorem Fmt.not_holds_of_irrational {V : ℝ} (irr : Irrational V) (b : Nat) (neg : Bool) (e : Int) : ¬ f.holds b (withSign neg (V * (2 : ℝ) ^ e)) := by
  intro held
  have two : ((2 : ℚ) ^ e) ≠ 0 := by positivity
  have scaled : Irrational (V * (2 : ℝ) ^ e) := by
    have := irr.mul_ratCast two
    rwa [Rat.cast_zpow, Rat.cast_ofNat] at this
  have signed_ : Irrational (withSign neg (V * (2 : ℝ) ^ e)) := by
    cases neg
    · exact scaled
    · exact scaled.neg
  refine signed_ ⟨(signed (f.sign b) (f.whole b) : Int) * (2 : ℚ) ^ f.quantum b, ?_⟩
  rw [(Fmt.read_fin h held).2, ← withSign_mul, ← cast_signed]
  push_cast
  rfl

/-- An irrational magnitude rounds as its whole part with a fraction beyond it, or as both ends of the interval it is known to lie in. -/
theorem Fmt.roundNear_rounds (rm : BitVec 2) (neg : Bool) {c : Nat} (e : Int) {le : Nat → Bool} {V : ℝ} (near : |V - c| < fixErr)
    (far : fixErr + 2 ^ (f.fw + 1) ≤ c) (hle : ∀ i : Nat, le i = true ↔ (i : ℝ) ≤ V) (irr : Irrational V) :
    Rounds f rm (withSign neg (V * (2 : ℝ) ^ e)) (f.roundNear rm neg c e le) := by
  have unit : (0 : ℝ) < (2 : ℝ) ^ e := by positivity
  have far' : fixErr ≤ c := (Nat.le_add_right _ _).trans far
  have cases_ := Fmt.roundNear_cases f rm neg c e le V near far' hle
  generalize fixErr = E at *
  have farR : (E : ℝ) ≤ c := by exact_mod_cast far'
  obtain ⟨lower, upper⟩ := abs_lt.1 near
  have ends : ((c - E : Nat) : ℝ) = c - E := Nat.cast_sub far'
  have reach : 2 ^ (f.fw + 1) ≤ c - E := by omega
  rcases cases_ with ⟨result, same⟩ | result
  · have between_ {m : Nat} {δ : ℝ} (reach : 2 ^ (f.fw + 1) ≤ m) (h0 : 0 < δ) (h1 : δ < 1) :
        Rounds f rm (withSign neg ((m + δ) * (2 : ℝ) ^ e)) (f.round rm neg m e true) := by
      obtain ⟨pos, room⟩ := log2_room reach
      exact Fmt.round_rounds h ⟨h0.le, h1, iff_of_true rfl h0.ne'⟩ pos rm neg e fun _ => room
    obtain ⟨δ, h0, h1, hδ⟩ : ∃ δ : ℝ, 0 < δ ∧ δ < 1 ∧ (c - E : Nat) + δ ≤ V :=
      ⟨min (1 / 2) (V - (c - E : Nat)), lt_min (by norm_num) (by linarith), (min_le_left _ _).trans_lt (by norm_num),
        by have := min_le_right (1 / 2) (V - (c - E : Nat)); linarith⟩
    have first := between_ reach h0 h1
    have second := between_ (m := c + E) (δ := 1 / 2) (by omega) (by norm_num) (by norm_num)
    rw [← same] at second
    rw [result]
    refine Rounds.between h (by positivity) (mul_le_mul_of_nonneg_right hδ unit.le) ?_ first second (Fmt.not_holds_of_irrational h irr _ _ _)
    refine mul_le_mul_of_nonneg_right ?_ unit.le
    push_cast
    linarith
  · have nonneg : 0 ≤ V := by linarith
    have whole : 2 ^ (f.fw + 1) ≤ ⌊V⌋₊ := by
      refine reach.trans (Nat.le_floor ?_)
      rw [ends]
      linarith
    obtain ⟨pos, room⟩ := log2_room whole
    have floor_le := Nat.floor_le nonneg
    have lt_floor := Nat.lt_floor_add_one V
    have beyond : Beyond true (V - ⌊V⌋₊) := ⟨by linarith, by linarith, iff_of_true rfl fun zero => irr ⟨⌊V⌋₊, by push_cast; linarith⟩⟩
    have rounds := Fmt.round_rounds h beyond pos rm neg e fun _ => room
    rw [add_sub_cancel] at rounds
    rwa [result]

end

end Sys2Proof.Machine
end


section
/-! SUPPORT. FEXP2: the power of two, rounded once (R85, R86). -/

namespace Sys2Proof.Machine

/-! ## Powers of two beyond the format and below it -/

section
variable {f : Fmt} (h : f.Proper)
include h

/-- A power of two beyond the greatest number overflows. -/
theorem Fmt.round_one_over (rm : BitVec 2) (neg : Bool) {n : Int} (beyond : f.top + f.fw < n) :
    f.round rm neg 1 n false = ⟨f.overflow rm neg, fOF ||| fNX⟩ := by
  have gap := Fmt.qmin_lt_top h
  have place : f.place 1 n = n - f.fw := by
    unfold Fmt.place
    rw [show Nat.log2 1 = 0 by decide, Nat.cast_zero, add_zero]
  have last : f.lastPlace 1 n = n - f.fw := by
    unfold Fmt.lastPlace
    rw [place, if_neg (by omega)]
  obtain ⟨rounds, -⟩ := roundAt_roundsTo Beyond.exact rm neg 1 (e := n) (q := f.lastPlace 1 n) fun _ => rfl
  obtain ⟨low, -⟩ := Fmt.place_bounds (f := f) one_pos Beyond.exact n
  rw [place, ← last] at low
  rw [Fmt.round_eq one_pos]
  exact Fmt.deliver_over h (Or.inr (rounds.bounds.1 low)) (Or.inl (by omega)) rm neg _ _

omit h in
/-- All powers of two far below the least number round to the same. -/
theorem Fmt.round_one_under (rm : BitVec 2) (neg : Bool) {n : Int} (below : n + 2 ≤ f.qmin) :
    f.round rm neg 1 n false = f.deliver rm neg (if roundUp rm neg false true .lt then 1 else 0) f.qmin true true := by
  have place : f.place 1 n = n - f.fw := by
    unfold Fmt.place
    rw [show Nat.log2 1 = 0 by decide, Nat.cast_zero, add_zero]
  have last : f.lastPlace 1 n = f.qmin := by
    unfold Fmt.lastPlace
    rw [place, if_pos (by omega)]
  have rounded : roundAt rm neg 1 n false f.qmin = (if roundUp rm neg false true .lt then 1 else 0, true) := by
    obtain ⟨s, hs⟩ : ∃ s, (f.qmin - n).toNat = s + 2 := ⟨(f.qmin - n).toNat - 2, by omega⟩
    have half : 1 < 2 ^ (s + 1) := Nat.one_lt_two_pow (by omega)
    have whole : 1 < 2 ^ (s + 2) := Nat.one_lt_two_pow (by omega)
    unfold roundAt
    rw [if_neg (by omega), hs]
    dsimp only
    rw [Nat.div_eq_of_lt whole, Nat.mod_eq_of_lt whole, show s + 2 - 1 = s + 1 by omega, if_pos half]
    rfl
  have tiny : (decide (f.place 1 n < f.qmin) && !(f.place 1 n + 1 == f.qmin && (roundAt rm neg 1 n false (f.place 1 n)).1 == 2 ^ (f.fw + 1))) = true := by
    rw [place, decide_eq_true (by omega), beq_eq_false_iff_ne.2 (by omega : n - f.fw + 1 ≠ f.qmin)]
    rfl
  rw [Fmt.round_eq one_pos, tiny, last, rounded]

/-- A power of two rounds to its number. -/
theorem Fmt.round_one_rounds (rm : BitVec 2) (neg : Bool) (n : Int) : Rounds f rm (withSign neg ((2 : ℝ) ^ n)) (f.round rm neg 1 n false) := by
  have := Fmt.round_exact_rounds h one_pos rm neg n
  rwa [Nat.cast_one, one_mul] at this

/-- A magnitude beyond the greatest number, between powers of two, rounds as each power of two beyond it. -/
theorem Fmt.round_one_of_over (rm : BitVec 2) (neg : Bool) {n : Int} {X : ℝ} (beyond : f.top + f.fw < n) (low : (2 : ℝ) ^ n ≤ X) :
    Rounds f rm (withSign neg X) (f.round rm neg 1 n false) := by
  have pos : (0 : ℝ) < (2 : ℝ) ^ n := by positivity
  obtain ⟨k, hk⟩ := pow_unbounded_of_one_lt X one_lt_two
  have above : X ≤ (2 : ℝ) ^ (k : Int) := by rw [zpow_natCast]; exact hk.le
  have order : n ≤ k := (zpow_le_zpow_iff_right₀ one_lt_two).1 (low.trans above)
  have last := Fmt.round_one_rounds h rm neg k
  rw [Fmt.round_one_over h rm neg (beyond.trans_le order), ← Fmt.round_one_over h rm neg beyond] at last
  refine Rounds.between h pos low above (Fmt.round_one_rounds h rm neg n) last fun held => ?_
  have bound := Fmt.holds_le_greatest h held
  rw [abs_withSign (pos.le.trans low)] at bound
  have next : 2 * (2 ^ f.fw : Nat) * (2 : ℝ) ^ f.top ≤ (2 : ℝ) ^ n := by
    have step : (2 : ℝ) ^ (f.top + f.fw + 1) ≤ (2 : ℝ) ^ n := zpow_le_zpow_right₀ one_le_two (by omega)
    rw [zpow_add_one₀ (by norm_num), zpow_add₀ (by norm_num), zpow_natCast] at step
    push_cast
    linarith
  have unit : (0 : ℝ) < (2 : ℝ) ^ f.top := by positivity
  linarith

/-- A magnitude below the least number rounds as each power of two below it. -/
theorem Fmt.round_one_of_under (rm : BitVec 2) (neg : Bool) {n : Int} {X : ℝ} (below : n + 2 ≤ f.qmin) (pos : 0 < X) (high : X ≤ (2 : ℝ) ^ n) :
    Rounds f rm (withSign neg X) (f.round rm neg 1 n false) := by
  obtain ⟨k, hk⟩ := exists_pow_lt_of_lt_one pos (by norm_num : (1 / 2 : ℝ) < 1)
  have under : (2 : ℝ) ^ (-(k : Int)) ≤ X := by
    rw [zpow_neg, zpow_natCast, ← inv_pow, ← one_div]
    exact hk.le
  have order : -(k : Int) ≤ n := (zpow_le_zpow_iff_right₀ one_lt_two).1 (under.trans high)
  have first := Fmt.round_one_rounds h rm neg (-(k : Int))
  rw [Fmt.round_one_under rm neg (by omega), ← Fmt.round_one_under rm neg below] at first
  refine Rounds.between h (by positivity) under high first (Fmt.round_one_rounds h rm neg n) fun held => ?_
  obtain ⟨-, value⟩ := Fmt.read_fin h held
  have size := congrArg abs value
  rw [abs_withSign pos.le, abs_withSign (by positivity)] at size
  have some_ : 1 ≤ f.whole (f.round rm neg 1 n false).bits := by
    rw [Nat.one_le_iff_ne_zero]
    intro zero
    rw [zero, Nat.cast_zero, zero_mul] at size
    exact pos.ne' size
  have someR : (1 : ℝ) ≤ f.whole (f.round rm neg 1 n false).bits := by exact_mod_cast some_
  have least : (2 : ℝ) ^ n < (2 : ℝ) ^ f.quantum (f.round rm neg 1 n false).bits :=
    zpow_lt_zpow_right₀ one_lt_two (by have := f.qmin_le_quantum (f.round rm neg 1 n false).bits; omega)
  have unit : (0 : ℝ) < (2 : ℝ) ^ f.quantum (f.round rm neg 1 n false).bits := by positivity
  nlinarith

end

/-! ## The power of two -/

/-- The fixed-point argument of FEXP2, split into its whole part and its fraction. -/
theorem exp2_split (v : Int) : (2 : ℝ) ^ ((v : ℝ) / 2 ^ 149) = (2 : ℝ) ^ ((((v % 2 ^ 149).toNat : Nat) : ℝ) / 2 ^ 149) * (2 : ℝ) ^ (v / 2 ^ 149) := by
  have low : 0 ≤ v % 2 ^ 149 := Int.emod_nonneg v (by norm_num)
  have cast : (((v % 2 ^ 149).toNat : Nat) : ℝ) = ((v % 2 ^ 149 : Int) : ℝ) := by exact_mod_cast Int.toNat_of_nonneg low
  rw [← Real.rpow_intCast, ← Real.rpow_add (by norm_num), cast]
  congr 1
  have split_ := congrArg (Int.cast (R := ℝ)) (Int.mul_ediv_add_emod v (2 ^ 149))
  push_cast at split_
  field_simp
  linarith

/-- The fraction's power of two is irrational and above 2^256 in fixed point. -/
theorem exp2_fraction_rounds (rm : BitVec 2) {fr : Nat} (some_ : fr ≠ 0) (low : fr < 2 ^ 149) (n : Int) :
    Rounds f32 rm ((2 : ℝ) ^ ((fr : ℝ) / 2 ^ 149) * (2 : ℝ) ^ n)
      (f32.roundNear rm false (expSum (fr * lnFix 2 1 / 2 ^ 149) 70 (2 ^ fixBits) 0) (n - fixBits)
        (fun i => powLe i (2 ^ 149) 0 1 0 (fr + fixBits * 2 ^ 149))) := by
  have near := expFix_near fr low
  have irrational : Irrational ((2 : ℝ) ^ ((fr : ℝ) / 2 ^ 149)) := by
    have := root_irrational fr (2 ^ 149) some_ low
    rwa [Nat.cast_pow, Nat.cast_ofNat] at this
  have irr : Irrational ((2 : ℝ) ^ fixBits * (2 : ℝ) ^ ((fr : ℝ) / 2 ^ 149)) := by
    have := irrational.natCast_mul (m := 2 ^ fixBits) (by positivity)
    rwa [Nat.cast_pow, Nat.cast_ofNat] at this
  have one_le : (1 : ℝ) ≤ (2 : ℝ) ^ ((fr : ℝ) / 2 ^ 149) := Real.one_le_rpow one_le_two (by positivity)
  have hle (i : Nat) : powLe i (2 ^ 149) 0 1 0 (fr + fixBits * 2 ^ 149) = true ↔ (i : ℝ) ≤ (2 : ℝ) ^ fixBits * (2 : ℝ) ^ ((fr : ℝ) / 2 ^ 149) := by
    have := expLe_iff i fr (2 ^ 149) fixBits (by positivity)
    rwa [Nat.cast_pow, Nat.cast_ofNat] at this
  have far : fixErr + 2 ^ (f32.fw + 1) ≤ expSum (fr * lnFix 2 1 / 2 ^ 149) 70 (2 ^ fixBits) 0 := by
    have room : ((fixErr + 2 ^ (f32.fw + 1) + fixErr : Nat) : ℝ) ≤ (2 : ℝ) ^ fixBits := by
      exact_mod_cast (by decide : fixErr + 2 ^ (f32.fw + 1) + fixErr ≤ 2 ^ fixBits)
    have upper := (abs_lt.1 near).2
    rw [Nat.cast_add] at room
    have F : (0 : ℝ) < (2 : ℝ) ^ fixBits := by positivity
    have : ((fixErr + 2 ^ (f32.fw + 1) : Nat) : ℝ) ≤ (expSum (fr * lnFix 2 1 / 2 ^ 149) 70 (2 ^ fixBits) 0 : Nat) := by nlinarith
    exact_mod_cast this
  have rounds := Fmt.roundNear_rounds Fmt.proper_f32 rm false (n - fixBits) near far hle irr
  have value : withSign false ((2 : ℝ) ^ fixBits * (2 : ℝ) ^ ((fr : ℝ) / 2 ^ 149) * (2 : ℝ) ^ (n - fixBits)) =
      (2 : ℝ) ^ ((fr : ℝ) / 2 ^ 149) * (2 : ℝ) ^ n := by
    rw [zpow_sub₀ (by norm_num), zpow_natCast]
    have F : (0 : ℝ) < (2 : ℝ) ^ fixBits := by positivity
    simp only [withSign, Bool.false_eq_true, if_false]
    field_simp
  rwa [value] at rounds

section
variable (rm : BitVec 2) {a : Word}

theorem exp2F32_nan (nan : f32.isNaN a.toNat) : GivesNaN f32 (f32.isSNaN a.toNat) (exp2F32 rm a) := by
  unfold exp2F32
  rw [Fmt.read_nan nan]
  exact f32.nan_gives decide_eq_true_iff

theorem exp2F32_inf (inf : f32.isInf a.toNat) :
    (f32.minus a.toNat → GivesZero f32 False (exp2F32 rm a)) ∧ (¬ f32.minus a.toNat → GivesInf f32 False 0 (exp2F32 rm a)) := by
  unfold exp2F32
  rw [Fmt.read_inf inf]
  dsimp only
  rw [← f32.sign_iff]
  refine ⟨fun neg => ?_, fun pos => ?_⟩
  · rw [if_pos neg]
    exact f32.zero_gives (s := false) (neg := False) (iff_of_false Bool.false_ne_true id)
  · rw [if_neg pos]
    exact Fmt.inf_gives Fmt.proper_f32 (s := false) (neg := False) (iff_of_false Bool.false_ne_true id) 0

theorem exp2F32_zero {x : ℝ} (hx : f32.holds a.toNat x) (zero : x = 0) : exp2F32 rm a = ⟨0x3F800000, 0⟩ := by
  unfold exp2F32
  rw [(Fmt.read_fin Fmt.proper_f32 hx).1]
  exact if_pos ((Fmt.sign_of_number Fmt.proper_f32 hx).1.1 zero)

/-- Outside ±2^11 the power of two is beyond the format or below it. -/
theorem exp2_far_rounds {neg : Bool} {m : Nat} {e : Int} (some_ : m ≠ 0) (far : 10 < e + (m.log2 : Int)) :
    Rounds f32 rm ((2 : ℝ) ^ withSign neg (m * (2 : ℝ) ^ e)) (f32.round rm false 1 (if neg then -2000 else 2000) false) := by
  have reach : (2000 : ℝ) ≤ m * (2 : ℝ) ^ e := by
    have low : (2 : ℝ) ^ m.log2 ≤ m := by exact_mod_cast Nat.log2_self_le some_
    have unit : (0 : ℝ) < (2 : ℝ) ^ e := by positivity
    calc (2000 : ℝ) ≤ (2 : ℝ) ^ (11 : Int) := by norm_num
      _ ≤ (2 : ℝ) ^ ((m.log2 : Int) + e) := zpow_le_zpow_right₀ one_le_two (by omega)
      _ = (2 : ℝ) ^ m.log2 * (2 : ℝ) ^ e := by rw [zpow_add₀ (by norm_num), zpow_natCast]
      _ ≤ m * (2 : ℝ) ^ e := by gcongr
  cases neg with
  | false =>
    refine Fmt.round_one_of_over Fmt.proper_f32 rm false (n := 2000) (by decide) ?_
    rw [← Real.rpow_intCast 2 2000]
    exact Real.rpow_le_rpow_of_exponent_le one_le_two (by push_cast; exact reach)
  | true =>
    refine Fmt.round_one_of_under Fmt.proper_f32 rm false (n := -2000) (by decide) (by positivity) ?_
    have below : withSign true (m * (2 : ℝ) ^ e) ≤ -2000 := neg_le_neg reach
    rw [← Real.rpow_intCast 2 (-2000)]
    exact Real.rpow_le_rpow_of_exponent_le one_le_two (by push_cast; exact below)

theorem exp2F32_fin {x : ℝ} (hx : f32.holds a.toNat x) (nonzero : x ≠ 0) : Rounds f32 rm ((2 : ℝ) ^ x) (exp2F32 rm a) := by
  obtain ⟨read, value⟩ := Fmt.read_fin Fmt.proper_f32 hx
  have some_ : f32.whole a.toNat ≠ 0 := mt (Fmt.sign_of_number Fmt.proper_f32 hx).1.2 nonzero
  have least : -149 ≤ f32.quantum a.toNat := f32.qmin_le_quantum a.toNat
  unfold exp2F32
  rw [read]
  dsimp only
  rw [if_neg some_, value]
  generalize f32.quantum a.toNat = e at *
  generalize f32.whole a.toNat = m at *
  generalize f32.sign a.toNat = neg at *
  by_cases far : 10 < e + (m.log2 : Int)
  · rw [if_pos far]
    exact exp2_far_rounds rm some_ far
  · rw [if_neg far]
    have fixed : withSign neg (m * (2 : ℝ) ^ e) = ((signed neg (m * 2 ^ (e + 149).toNat) : Int) : ℝ) / 2 ^ 149 := by
      rw [cast_signed, div_eq_mul_inv, withSign_mul]
      congr 1
      push_cast
      rw [← zpow_natCast, Int.toNat_of_nonneg (by omega), zpow_add₀ (by norm_num)]
      norm_num
      ring
    rw [fixed, exp2_split]
    generalize signed neg (m * 2 ^ (e + 149).toNat) = v
    have low : (v % 2 ^ 149).toNat < 2 ^ 149 := by
      have := Int.emod_lt_of_pos v (by norm_num : (0 : Int) < 2 ^ 149)
      have := Int.emod_nonneg v (by norm_num : (2 : Int) ^ 149 ≠ 0)
      omega
    by_cases whole : (v % 2 ^ 149).toNat = 0
    · rw [if_pos whole, whole, Nat.cast_zero, zero_div, Real.rpow_zero, one_mul]
      exact Fmt.round_one_rounds Fmt.proper_f32 rm false _
    · rw [if_neg whole]
      exact exp2_fraction_rounds rm whole low _

end

end Sys2Proof.Machine
end


section
/-! SUPPORT. FLOG2: the logarithm to base 2, rounded once (R85, R86). -/

namespace Sys2Proof.Machine

/-! ## The logarithm -/

/-- The logarithm of a ratio of whole numbers above 1 is not near 0. -/
theorem inv_le_logb_ratio {n d : Nat} (pos : 0 < d) (above : d < n) : 1 / (d : ℝ) ≤ Real.logb 2 ((n : ℝ) / d) := by
  have dR : (1 : ℝ) ≤ d := by exact_mod_cast pos
  have nR : (d : ℝ) + 1 ≤ n := by exact_mod_cast above
  have fraction : 1 / (d : ℝ) ≤ 1 := by rw [div_le_one (by linarith)]; exact dR
  have bernoulli := rpow_one_add_le_one_add_mul_self (s := 1) (by norm_num) (p := 1 / (d : ℝ)) (by positivity) fraction
  rw [Real.le_logb_iff_rpow_le one_lt_two (div_pos (by linarith) (by linarith))]
  calc (2 : ℝ) ^ (1 / (d : ℝ)) = (1 + 1) ^ (1 / (d : ℝ)) := by norm_num
    _ ≤ 1 + 1 / (d : ℝ) * 1 := bernoulli
    _ = ((d : ℝ) + 1) / d := by field_simp
    _ ≤ (n : ℝ) / d := by gcongr

/-- A whole number that is no power of two lies strictly between two of them. -/
theorem log2_strict {m : Nat} (pos : m ≠ 0) (other : m ≠ 2 ^ m.log2) : 2 ^ m.log2 < m ∧ m < 2 * 2 ^ m.log2 := by
  have low := Nat.log2_self_le pos
  have high := Nat.lt_log2_self (n := m)
  rw [pow_succ, Nat.mul_comm] at high
  exact ⟨by omega, high⟩

theorem eq_two_pow_log2 {m k : Nat} (same : m = 2 ^ k) : m = 2 ^ m.log2 := by
  rw [same, Nat.log2_two_pow]

/-- The logarithm of a magnitude. -/
theorem logb_magnitude {m : Nat} (pos : m ≠ 0) (e : Int) : Real.logb 2 (m * (2 : ℝ) ^ e) = Real.logb 2 m + e := by
  have mR : (m : ℝ) ≠ 0 := by exact_mod_cast pos
  rw [Real.logb_mul mR (by positivity), ← Real.rpow_intCast, Real.logb_rpow two_pos (by norm_num)]

/-- The part of a logarithm below its whole part, and how far it is from both ends. -/
theorem logb_fraction {m : Nat} (pos : m ≠ 0) (other : m ≠ 2 ^ m.log2) :
    Real.logb 2 ((m : ℝ) / (2 ^ m.log2 : Nat)) = Real.logb 2 m - m.log2 ∧
      1 / (m : ℝ) ≤ Real.logb 2 m - m.log2 ∧ Real.logb 2 m - m.log2 ≤ 1 - 1 / (m : ℝ) := by
  obtain ⟨low, high⟩ := log2_strict pos other
  have mPos : 0 < m := Nat.pos_of_ne_zero pos
  have mR : (0 : ℝ) < m := by exact_mod_cast mPos
  have power : (0 : ℝ) < (2 ^ m.log2 : Nat) := by positivity
  have logPower : Real.logb 2 ((2 ^ m.log2 : Nat) : ℝ) = m.log2 := by
    push_cast
    rw [Real.logb_pow, Real.logb_self_eq_one one_lt_two, mul_one]
  have value : Real.logb 2 ((m : ℝ) / (2 ^ m.log2 : Nat)) = Real.logb 2 m - m.log2 := by rw [Real.logb_div mR.ne' power.ne', logPower]
  have near := inv_le_logb_ratio (Nat.two_pow_pos m.log2) low
  have far := inv_le_logb_ratio mPos high
  have value' : Real.logb 2 (((2 * 2 ^ m.log2 : Nat) : ℝ) / m) = 1 + m.log2 - Real.logb 2 m := by
    rw [Real.logb_div (by positivity) mR.ne', Nat.cast_mul, Real.logb_mul (by norm_num) power.ne', logPower, Nat.cast_ofNat,
      Real.logb_self_eq_one one_lt_two]
  have order : 1 / (m : ℝ) ≤ 1 / ((2 ^ m.log2 : Nat) : ℝ) := by
    have : ((2 ^ m.log2 : Nat) : ℝ) ≤ m := by exact_mod_cast low.le
    gcongr
  rw [value] at near
  rw [value'] at far
  exact ⟨value, order.trans near, by linarith⟩

/-- The fixed-point logarithm that FLOG2 computes, whole part and fraction. -/
def logFixed (m : Nat) (e : Int) : Int := (e + m.log2) * 2 ^ fixBits + (lnFix m (2 ^ m.log2) * 2 ^ fixBits / lnFix 2 1 : Nat)

/-- What FLOG2 asks of a number where the ends of its interval do not round alike. -/
def logAsks (m : Nat) (e : Int) (i : Nat) : Bool :=
  if logFixed m e < 0 then powLe m (2 ^ fixBits) (i + e.toNat * 2 ^ fixBits) 1 0 ((-e).toNat * 2 ^ fixBits)
  else powLe 1 0 (i + (-e).toNat * 2 ^ fixBits) m (2 ^ fixBits) (e.toNat * 2 ^ fixBits)

/-- The fixed-point logarithm lies near the logarithm in fixed point. -/
theorem logFixed_near {m : Nat} (pos : m ≠ 0) (other : m ≠ 2 ^ m.log2) (e : Int) :
    |(2 : ℝ) ^ fixBits * (Real.logb 2 m + e) - logFixed m e| < fixErr := by
  obtain ⟨low, high⟩ := log2_strict pos other
  have near := logFix_near m (2 ^ m.log2) (Nat.two_pow_pos _) low.le high.le
  rw [(logb_fraction pos other).1] at near
  unfold logFixed
  generalize lnFix m (2 ^ m.log2) * 2 ^ fixBits / lnFix 2 1 = fraction at near ⊢
  push_cast
  rwa [show (2 : ℝ) ^ fixBits * (Real.logb 2 m + e) - ((e + m.log2) * 2 ^ fixBits + fraction) =
    (2 : ℝ) ^ fixBits * (Real.logb 2 m - m.log2) - fraction by ring]

/-- A logarithm that is no whole number is far from 0 in fixed point. -/
theorem logb_far {m : Nat} (pos : m ≠ 0) (small : m < 2 ^ 24) (other : m ≠ 2 ^ m.log2) (e : Int) :
    1 / 2 ^ 24 ≤ Real.logb 2 m + e ∨ Real.logb 2 m + e ≤ -(1 / 2 ^ 24) := by
  obtain ⟨-, low, high⟩ := logb_fraction pos other
  have mR : (0 : ℝ) < m := by exact_mod_cast Nat.pos_of_ne_zero pos
  have smallR : (m : ℝ) ≤ 2 ^ 24 := by exact_mod_cast small.le
  have least : 1 / (2 : ℝ) ^ 24 ≤ 1 / (m : ℝ) := by gcongr
  rcases le_or_gt 0 (e + (m.log2 : Int)) with above | below
  · have : (0 : ℝ) ≤ e + m.log2 := by exact_mod_cast above
    left
    linarith
  · have : (e : ℝ) + m.log2 ≤ -1 := by exact_mod_cast (by omega : e + (m.log2 : Int) ≤ -1)
    right
    linarith

theorem logb_irrational {m : Nat} (pos : m ≠ 0) (other : m ≠ 2 ^ m.log2) (e : Int) : Irrational ((2 : ℝ) ^ fixBits * (Real.logb 2 m + e)) := by
  have some_ : 1 < m := by
    obtain ⟨low, -⟩ := log2_strict pos other
    have := Nat.two_pow_pos m.log2
    omega
  have irr := (log_irrational m (fun k same => other (eq_two_pow_log2 same)) some_).add_intCast e
  have scaled := irr.natCast_mul (m := 2 ^ fixBits) (by positivity)
  rwa [Nat.cast_pow, Nat.cast_ofNat] at scaled

/-- Numbers up to the size of the logarithm in fixed point are those FLOG2 finds. -/
theorem logAsks_iff {m : Nat} (pos : m ≠ 0) (e : Int) (i : Nat) :
    (logFixed m e < 0 → (logAsks m e i = true ↔ (i : ℝ) ≤ -((2 : ℝ) ^ fixBits * (Real.logb 2 m + e)))) ∧
      (¬ logFixed m e < 0 → (logAsks m e i = true ↔ (i : ℝ) ≤ (2 : ℝ) ^ fixBits * (Real.logb 2 m + e))) := by
  obtain ⟨above, below⟩ := logLe_iff i m (2 ^ fixBits) (e.toNat * 2 ^ fixBits) ((-e).toNat * 2 ^ fixBits) (Nat.pos_of_ne_zero pos)
  have parts : (e : ℝ) = (e.toNat : ℝ) - ((-e).toNat : ℝ) := by
    have : e = (e.toNat : Int) - ((-e).toNat : Int) := by omega
    exact_mod_cast congrArg (Int.cast (R := ℝ)) this
  unfold logAsks
  refine ⟨fun neg => ?_, fun nonneg => ?_⟩
  · rw [if_pos neg, below, parts]
    push_cast
    rw [show ((-e).toNat : ℝ) * 2 ^ fixBits - (2 ^ fixBits * Real.logb 2 m + e.toNat * 2 ^ fixBits) =
      -(2 ^ fixBits * (Real.logb 2 m + (e.toNat - (-e).toNat))) by ring]
  · rw [if_neg nonneg, above, parts]
    push_cast
    rw [show (2 : ℝ) ^ fixBits * Real.logb 2 m + e.toNat * 2 ^ fixBits - (-e).toNat * 2 ^ fixBits =
      2 ^ fixBits * (Real.logb 2 m + (e.toNat - (-e).toNat)) by ring]

/-- The logarithm of a magnitude that is no power of two, rounded once. -/
theorem log2_irrational_rounds (rm : BitVec 2) {m : Nat} (pos : m ≠ 0) (small : m < 2 ^ 24) (other : m ≠ 2 ^ m.log2) (e : Int) :
    Rounds f32 rm (Real.logb 2 m + e) (f32.roundNear rm (logFixed m e < 0) (logFixed m e).natAbs (-fixBits) (logAsks m e)) := by
  have near := logFixed_near pos other e
  have irr := logb_irrational pos other e
  have far := logb_far pos small other e
  have asks := fun i => logAsks_iff pos e i
  have room : ((fixErr + 2 ^ (f32.fw + 1) + fixErr : Nat) : ℝ) ≤ (2 : ℝ) ^ fixBits * (1 / 2 ^ 24) := by
    rw [mul_one_div, le_div_iff₀ (by positivity)]
    exact_mod_cast (by decide : (fixErr + 2 ^ (f32.fw + 1) + fixErr) * 2 ^ 24 ≤ 2 ^ fixBits)
  have unscale (Y : ℝ) : (2 : ℝ) ^ fixBits * Y * (2 : ℝ) ^ (-(fixBits : Int)) = Y := by
    rw [zpow_neg, zpow_natCast]
    field_simp
  have F : (0 : ℝ) < (2 : ℝ) ^ fixBits := by positivity
  have err : (0 : ℝ) ≤ fixErr := Nat.cast_nonneg _
  have reach : (0 : ℝ) ≤ (2 ^ (f32.fw + 1) : Nat) := Nat.cast_nonneg _
  generalize logFixed m e = v at *
  generalize Real.logb 2 m + e = L at *
  generalize logAsks m e = le at *
  obtain ⟨lower, upper⟩ := abs_lt.1 near
  push_cast at room
  push_cast at reach
  by_cases neg : v < 0
  · have below : L ≤ -(1 / 2 ^ 24) := by
      refine far.resolve_left fun above => ?_
      have : (v : ℝ) < 0 := by exact_mod_cast neg
      have := mul_le_mul_of_nonneg_left above F.le
      linarith
    have size : ((v.natAbs : Nat) : ℝ) = -(v : ℝ) := by
      rw [Nat.cast_natAbs, abs_of_neg neg, Int.cast_neg]
    have scaled := mul_le_mul_of_nonneg_left below F.le
    have rounds := Fmt.roundNear_rounds Fmt.proper_f32 rm true (c := v.natAbs) (-fixBits) (le := le) (V := -((2 : ℝ) ^ fixBits * L))
      (by rw [size, ← neg_add', abs_neg, ← sub_eq_add_neg]; exact near)
      (by
        have : ((fixErr + 2 ^ (f32.fw + 1) : Nat) : ℝ) ≤ v.natAbs := by
          rw [size]
          push_cast
          linarith
        exact_mod_cast this)
      (fun i => (asks i).1 neg) irr.neg
    rw [decide_eq_true neg]
    have value : withSign true (-((2 : ℝ) ^ fixBits * L) * (2 : ℝ) ^ (-(fixBits : Int))) = L := by
      simp only [withSign, if_true]
      rw [neg_mul, neg_neg, unscale]
    rwa [value] at rounds
  · have above : 1 / 2 ^ 24 ≤ L := by
      refine far.resolve_right fun below => ?_
      have : (0 : ℝ) ≤ v := by exact_mod_cast not_lt.1 neg
      have := mul_le_mul_of_nonneg_left below F.le
      linarith
    have size : ((v.natAbs : Nat) : ℝ) = (v : ℝ) := by
      rw [Nat.cast_natAbs, abs_of_nonneg (not_lt.1 neg)]
    have scaled := mul_le_mul_of_nonneg_left above F.le
    have rounds := Fmt.roundNear_rounds Fmt.proper_f32 rm false (c := v.natAbs) (-fixBits) (le := le) (V := (2 : ℝ) ^ fixBits * L)
      (by rw [size]; exact near)
      (by
        have : ((fixErr + 2 ^ (f32.fw + 1) : Nat) : ℝ) ≤ v.natAbs := by
          rw [size]
          push_cast
          linarith
        exact_mod_cast this)
      (fun i => (asks i).2 neg) irr
    rw [decide_eq_false neg]
    have value : withSign false ((2 : ℝ) ^ fixBits * L * (2 : ℝ) ^ (-(fixBits : Int))) = L := unscale L
    rwa [value] at rounds

section
variable (rm : BitVec 2) {a : Word}

theorem log2F32_nan (nan : f32.isNaN a.toNat) : GivesNaN f32 (f32.isSNaN a.toNat) (log2F32 rm a) := by
  unfold log2F32
  rw [Fmt.read_nan nan]
  exact f32.nan_gives decide_eq_true_iff

theorem log2F32_inf (inf : f32.isInf a.toNat) :
    (f32.minus a.toNat → GivesNaN f32 True (log2F32 rm a)) ∧ (¬ f32.minus a.toNat → GivesInf f32 False 0 (log2F32 rm a)) := by
  unfold log2F32
  rw [Fmt.read_inf inf]
  dsimp only
  rw [← f32.sign_iff]
  refine ⟨fun neg => ?_, fun pos => ?_⟩
  · rw [if_pos neg]
    exact f32.nan_gives (by simp)
  · rw [if_neg pos]
    exact Fmt.inf_gives Fmt.proper_f32 (s := false) (neg := False) (iff_of_false Bool.false_ne_true id) 0

theorem log2F32_zero {x : ℝ} (hx : f32.holds a.toNat x) (zero : x = 0) : GivesInf f32 True 8 (log2F32 rm a) := by
  unfold log2F32
  rw [(Fmt.read_fin Fmt.proper_f32 hx).1]
  dsimp only
  rw [if_pos ((Fmt.sign_of_number Fmt.proper_f32 hx).1.1 zero)]
  exact Fmt.inf_gives Fmt.proper_f32 (by simp) _

theorem log2F32_neg {x : ℝ} (hx : f32.holds a.toNat x) (neg : x < 0) : GivesNaN f32 True (log2F32 rm a) := by
  obtain ⟨some_, sign⟩ := (Fmt.sign_of_number Fmt.proper_f32 hx).2.1 neg
  unfold log2F32
  rw [(Fmt.read_fin Fmt.proper_f32 hx).1]
  dsimp only
  rw [if_neg some_, if_pos sign]
  exact f32.nan_gives (by simp)

/-- FLOG2 of a positive number: of a power of two its exponent, exactly, and else the irrational logarithm. -/
theorem log2F32_pos {x : ℝ} (hx : f32.holds a.toNat x) (pos : 0 < x) :
    (x = 1 → log2F32 rm a = ⟨0, 0⟩) ∧ (x ≠ 1 → Rounds f32 rm (Real.logb 2 x) (log2F32 rm a)) := by
  obtain ⟨read, value⟩ := Fmt.read_fin Fmt.proper_f32 hx
  obtain ⟨some_, sign⟩ := (Fmt.sign_of_number Fmt.proper_f32 hx).2.2 pos
  have small : f32.whole a.toNat < 2 ^ 24 := f32.whole_lt a.toNat
  unfold log2F32
  rw [read]
  dsimp only
  rw [if_neg some_, if_neg (by rw [sign]; decide)]
  rw [sign] at value
  replace value : x = f32.whole a.toNat * (2 : ℝ) ^ f32.quantum a.toNat := value
  generalize f32.quantum a.toNat = e at *
  generalize f32.whole a.toNat = m at *
  have log := logb_magnitude some_ e
  rw [← value] at log
  by_cases power : m = 2 ^ m.log2
  · rw [if_pos power]
    have logPower : Real.logb 2 (m : ℝ) = m.log2 := by
      conv_lhs => rw [power]
      push_cast
      rw [Real.logb_pow, Real.logb_self_eq_one one_lt_two, mul_one]
    have whole : Real.logb 2 x = ((e + m.log2 : Int) : ℝ) * (2 : ℝ) ^ (0 : Int) := by
      rw [log, logPower]
      push_cast
      rw [zpow_zero]
      ring
    refine ⟨fun one => ?_, fun other => ?_⟩
    · have zero : e + (m.log2 : Int) = 0 := by
        rw [one, Real.logb_one, zpow_zero, mul_one] at whole
        exact_mod_cast whole.symm
      rw [zero, Fmt.roundInt_zero]
      rfl
    · rw [whole]
      refine Fmt.roundInt_rounds Fmt.proper_f32 (fun zero => other ?_) rm false 0
      rw [zero, Int.cast_zero, zero_mul] at whole
      exact Real.eq_one_of_pos_of_logb_eq_zero one_lt_two pos whole
  · rw [if_neg power]
    refine ⟨fun one => ?_, fun _ => ?_⟩
    · obtain ⟨-, low, high⟩ := logb_fraction some_ power
      rw [one, Real.logb_one] at log
      have mR : (0 : ℝ) < m := by exact_mod_cast Nat.pos_of_ne_zero some_
      have inv : 0 < 1 / (m : ℝ) := by positivity
      have lowInt : (-1 : Int) < e + m.log2 := by exact_mod_cast (by push_cast; linarith : ((-1 : Int) : ℝ) < ((e + m.log2 : Int) : ℝ))
      have highInt : e + (m.log2 : Int) < 0 := by exact_mod_cast (by push_cast; linarith : ((e + m.log2 : Int) : ℝ) < ((0 : Int) : ℝ))
      omega
    · rw [log]
      exact log2_irrational_rounds rm some_ small power e

end

end Sys2Proof.Machine
end


section
/-! SUPPORT. O5: the floating-point words complete with their format operation's result, and every operation rounds once. -/

namespace Sys2Proof.Machine

/-! ## The words -/

/-- Three operands that lie in the allocation. -/
theorem beyond_of_fits_three {s : State} {o p q : Opnd} (ho : s.fits o.name o.width) (hp : s.fits p.name p.width) (hq : s.fits q.name q.width) :
    ∀ x ∈ [o, p, q], s.cur.beyond x = false := by
  simp only [List.mem_cons, List.not_mem_nil, or_false, forall_eq_or_imp, forall_eq]
  exact ⟨beyond_of_fits ho, beyond_of_fits hp, beyond_of_fits hq⟩

section
variable {s : State} {sp : Bool} {d a b : Reg} (issues : s.issues sp)
include issues

theorem flt3_gives (fd : s.fits d 1) (fa : s.fits a 1) (fb : s.fits b 1) (g : BitVec 2 → Nat → Nat → FRes) :
    let r := g s.cur.fpmode (s.cur.w a).toNat (s.cur.w b).toNat
    flt3 sp d a b s g = .next (s.fpResult d [BitVec.ofNat 32 r.bits] r.flags) := by
  rw [flt3, issue_short issues (beyond_of_fits_three fd fa fb)]
  rfl

theorem flt2_gives (fd : s.fits d 1) (fa : s.fits a 1) (g : BitVec 2 → Word → FRes) :
    let r := g s.cur.fpmode (s.cur.w a)
    flt2 sp d a s g = .next (s.fpResult d [BitVec.ofNat 32 r.bits] r.flags) := by
  rw [flt2, issue_short issues (beyond_of_fits_two fd fa)]
  rfl

theorem fma_gives (fd : s.fits d 1) (fa : s.fits a 1) (fb : s.fits b 1) :
    GivesFp (.fma sp d a b) s d (f32.fma s.cur.fpmode (s.cur.w d).toNat (s.cur.w a).toNat (s.cur.w b).toNat) := by
  rw [GivesFp, exec_fma, execFma, issue_short issues (beyond_of_fits_three fd fa fb)]
  rfl

theorem dbl3_gives (rd : Bool) (fd : s.fits d 2) (fa : s.fits a 2) (fb : s.fits b 2) (g : BitVec 2 → Nat → Nat → Nat → FRes) :
    let r := g s.cur.fpmode (s.cur.p d).toNat (s.cur.p a).toNat (s.cur.p b).toNat
    dbl3 rd sp d a b s g = .next (s.fpResult d (pairWords (BitVec.ofNat 64 r.bits)) r.flags) := by
  rw [dbl3, issue_short issues (beyond_of_fits_three fd fa fb)]
  rfl

theorem dbl2_gives (fd : s.fits d 2) (fa : s.fits a 2) (g : BitVec 2 → Nat → FRes) :
    let r := g s.cur.fpmode (s.cur.p a).toNat
    dbl2 sp d a s g = .next (s.fpResult d (pairWords (BitVec.ofNat 64 r.bits)) r.flags) := by
  rw [dbl2, issue_short issues (beyond_of_fits_two fd fa)]
  rfl

end

/-! ## The operations of a format -/

section
variable {f : Fmt} (h : f.Proper) (rm : BitVec 2) {a b : Nat}

/-- A NaN among the operands of a sum, a product or a quotient gives a NaN, with NV for a signalling one. -/
theorem Fmt.nan_operand (nan : f.isNaN a ∨ f.isNaN b) : GivesNaN f (f.isSNaN a ∨ f.isSNaN b) (f.add rm a b) ∧
    GivesNaN f (f.isSNaN a ∨ f.isSNaN b) (f.mul rm a b) ∧ GivesNaN f (f.isSNaN a ∨ f.isSNaN b) (f.div rm a b) := by
  have signalling : ((f.read a).isSig || (f.read b).isSig) = true ↔ f.isSNaN a ∨ f.isSNaN b := by
    rw [Bool.or_eq_true, f.read_isSig, f.read_isSig]
  have sum : f.add rm a b = f.nan ((f.read a).isSig || (f.read b).isSig) :=
    f.addV_nan rm (nan.imp (f.read_isNan a).2 (f.read_isNan b).2)
  rw [sum, f.mul_nan rm nan, f.div_nan rm nan]
  exact ⟨f.nan_gives signalling, f.nan_gives signalling, f.nan_gives signalling⟩

theorem Fmt.sub_eq_add (size : b < 2 ^ (f.ew + f.fw + 1)) :
    f.sub rm a b = f.add rm a (if b < 2 ^ (f.ew + f.fw) then b + 2 ^ (f.ew + f.fw) else b - 2 ^ (f.ew + f.fw)) := by
  unfold Fmt.sub Fmt.add
  rw [Fmt.read_flip size]

end

/-- Settles O5: the words by their issue, the operations by `Fmt.round_rounds`, and FEXP2 and FLOG2 by `Fmt.roundNear_rounds`. -/
theorem floatWordsGiveTheirResults : Obligations.FloatWordsGiveTheirResults := by
  unfold Obligations.FloatWordsGiveTheirResults
  refine ⟨fun s sp d a b issues fd fa => ?_, fun s sp d a b issues fd fa => ?_, fun f rm a b hf ha hb => ?_, fun rm a => ?_⟩
  · exact ⟨fun fb => ⟨flt3_gives issues fd fa fb f32.add, flt3_gives issues fd fa fb f32.sub, flt3_gives issues fd fa fb f32.mul,
      fma_gives issues fd fa fb, flt3_gives issues fd fa fb f32.div⟩, flt2_gives issues fd fa fun rm x => f32.sqrt rm x.toNat,
      flt2_gives issues fd fa fun rm x => f32.div rm oneF32 x.toNat, flt2_gives issues fd fa fun rm x => f32.rsqrt rm x.toNat,
      flt2_gives issues fd fa exp2F32, flt2_gives issues fd fa log2F32, flt2_gives issues fd fa fun rm x => f32.rint rm x.toNat⟩
  · exact ⟨fun fb => ⟨dbl3_gives issues false fd fa fb fun rm _ x y => f64.add rm x y, dbl3_gives issues false fd fa fb fun rm _ x y => f64.sub rm x y,
      dbl3_gives issues false fd fa fb fun rm _ x y => f64.mul rm x y, dbl3_gives issues true fd fa fb f64.fma,
      dbl3_gives issues false fd fa fb fun rm _ x y => f64.div rm x y⟩, dbl2_gives issues fd fa f64.sqrt, dbl2_gives issues fd fa f64.rint⟩
  · have h := Fmt.proper_of_formats hf
    dsimp only
    refine ⟨Fmt.nan_operand rm, Fmt.sub_eq_add rm hb, fun infA infB => ?_, fun y infA hy => ?_, fun x hx infB => ?_, fun x y hx hy => ?_,
      fun d _ => ?_, fun nan => ?_, fun inf => ?_, fun x hx => ?_, fun v k zneg => ?_⟩
    · obtain ⟨other, same⟩ := Fmt.add_inf_inf h rm infA infB
      exact ⟨other, same, Fmt.mul_inf_inf h rm infA infB, Fmt.div_inf_inf rm infA infB⟩
    · exact ⟨Fmt.add_inf_fin h rm infA hy, Fmt.div_inf_fin h rm infA hy, Fmt.mul_inf_fin h rm infA hy⟩
    · exact ⟨Fmt.add_fin_inf h rm hx infB, Fmt.div_fin_inf h rm hx infB, Fmt.mul_fin_inf h rm hx infB⟩
    · obtain ⟨sumZero, sum⟩ := Fmt.add_fin_fin h rm hx hy
      obtain ⟨productZero, product⟩ := Fmt.mul_fin_fin h rm hx hy
      exact ⟨sumZero, sum, productZero, product, Fmt.div_fin_fin h rm hx hy⟩
    · exact ⟨Fmt.fma_nan rm, Fmt.fma_noProduct h rm, Fmt.fma_nan_addend h rm, Fmt.fma_inf h rm, fun x y hx hy => Fmt.fma_fin h rm hx hy⟩
    · exact ⟨Fmt.sqrt_nan rm nan, Fmt.rsqrt_nan rm nan, Fmt.rint_nan rm nan, fun g _ => convert_nan rm nan⟩
    · obtain ⟨rootNaN, root⟩ := Fmt.sqrt_inf rm h inf
      obtain ⟨recipNaN, recip⟩ := Fmt.rsqrt_inf rm inf
      exact ⟨fun neg => ⟨rootNaN neg, recipNaN neg⟩, fun pos => ⟨root pos, recip pos⟩, Fmt.rint_inf rm inf,
        fun g hg => convert_inf rm (Fmt.proper_of_formats hg) inf⟩
    · obtain ⟨rootZero, rootNaN, root⟩ := Fmt.sqrt_fin rm h hx
      obtain ⟨recipZero, recipNaN, recip⟩ := Fmt.rsqrt_fin rm h hx
      obtain ⟨read, value⟩ := Fmt.read_fin h hx
      refine ⟨fun zero => ⟨rootZero zero, recipZero zero, fun g hg => (convert_fin rm h (Fmt.proper_of_formats hg) hx).1 zero⟩,
        fun neg => ⟨rootNaN neg, recipNaN neg⟩, fun pos => ⟨root pos, recip pos⟩,
        fun other g hg => (convert_fin rm h (Fmt.proper_of_formats hg) hx).2 other, Fmt.rint_fin h rm (Fmt.top_nonneg hf) hx, _, _, read, ?_⟩
      have integral := toIntegral_spec rm (f.sign a) (f.whole a) (f.quantum a)
      rwa [← value] at integral
    · refine ⟨fun zero => ?_, fun other => Fmt.roundInt_rounds h other rm zneg k⟩
      rw [zero, Fmt.roundInt_zero]
      exact f.zero_gives Iff.rfl
  · dsimp only
    refine ⟨fun nan => ⟨exp2F32_nan rm nan, log2F32_nan rm nan⟩, fun inf => ?_, fun x hx => ?_⟩
    · obtain ⟨powerZero, power⟩ := exp2F32_inf rm inf
      obtain ⟨logNaN, log⟩ := log2F32_inf rm inf
      exact ⟨fun neg => ⟨powerZero neg, logNaN neg⟩, fun pos => ⟨power pos, log pos⟩⟩
    · exact ⟨fun zero => ⟨exp2F32_zero rm hx zero, log2F32_zero rm hx zero⟩, exp2F32_fin rm hx, log2F32_neg rm hx,
        fun one => (log2F32_pos rm hx (one ▸ one_pos)).1 one, fun pos => (log2F32_pos rm hx pos).2⟩

end Sys2Proof.Machine
end
